-- ==== Sys2Proof/Word.lean ====
section
/-! DEFINITION. The words of the Ikiwerus and the sparse tables its state is made of. -/

namespace Sys2Proof

/-- R10: a byte. -/
abbrev Byte := BitVec 8

/-- R29: every register is 32 bits wide. -/
abbrev Word := BitVec 32

/-- A sparse table: key and value pairs. Its canonical form has strictly rising keys and lists no value
equal to what an unlisted key reads as (the default its readers name). -/
abbrev Map (α : Type) := List (Nat × α)

end Sys2Proof
end

