-- ==== Sys2Proof/Syntax.lean ====
section
/-! DEFINITION. The commands of the Ikiwerus: one constructor for each row of spec/opcode_table.json, in the
table's order, with the operands the row's rule gives it. An operand `dt` is the time that has passed since the
command before, in the 0.25 ns units of R5's device time; commands without it act at the same moment. What the
device reads from host memory is an operand (none where the read failed), since host memory is not the device's. -/

namespace Sys2Proof

/-- R44: the time cores. -/
inductive CoreId where
  | A | B
  deriving DecidableEq, Repr

/-- R13: the two sides of the glove. -/
inductive Side where
  | host | field
  deriving DecidableEq, Repr

/-- R40: a requester: a PCIe requester with its PASID, or a thread of a service. -/
inductive Requester where
  | pcie (id : BitVec 16) (pasid : Option (BitVec 20))
  | thread (id : BitVec 10)
  deriving DecidableEq, Repr

/-- R74: the part of TIM_NOW and TIM_NOW_BOUND that is read. -/
inductive NowPart where
  | low | high | both | bound
  deriving DecidableEq, Repr

/-- R31, R311: where a doorbell is written: an instance page or QIM_PF0_DB. -/
inductive DbPage where
  | inst (i : BitVec 16)
  | pf0
  deriving DecidableEq, Repr

/-- R31: an 8-byte write at 000h, or a 4-byte write at 004h. -/
inductive DbValue where
  | whole (v : BitVec 64)
  | upper (v : Word)
  deriving DecidableEq, Repr

/-- R257, R270: what reaches the endpoint that it does not support, or that is in error, in place of a request. -/
inductive OddTlp where
  | ioRequest | atomicOp | lockedRead | message
  | malformed | receiverOverflow | flowControl | dataLink | internal
  | receiverError | badTlp | badDllp | replayTimeout | replayRollover
  deriving DecidableEq, Repr

/-- A read of a width, or a write of bytes; or what R270 has the endpoint record. -/
inductive PageAccess where
  | read (width : Nat)
  | write (data : List Byte)
  | odd (k : OddTlp)
  deriving DecidableEq, Repr

/-- R78: which stage presents the next message. -/
inductive PresentFrom where
  /-- the next message that a pipeline or the transport engine or the QIM has handed over. -/
  | inbox
  /-- the plinth port of a cluster, from its channel of this index. -/
  | port (cluster : Fin 8) (index : Byte)
  deriving DecidableEq, Repr

/-- R117: how a received frame ends. -/
inductive RxEnd where
  | good | badFcs | errorBlock
  deriving DecidableEq, Repr

/-- R56: where a frame's start-of-frame symbol crossed: the lane, by its place among the MAC's lanes, how many
deserializer words ago, and the bit within the word. -/
structure SofPos where
  lane : Fin 8
  word : Fin 512
  bit  : Fin 128
  deriving DecidableEq, Repr

/-- R56, R117: how a received frame crosses: where it starts and how it ends. -/
structure Arrival where
  sof    : SofPos
  ending : RxEnd
  deriving DecidableEq, Repr

/-- R270: how a received TLP stands: good, with poisoned data, or with a bad ECRC. -/
inductive TlpState where
  | good | poisoned | badEcrc
  deriving DecidableEq, Repr

/-- R29, R270: a BAR0 register request: who makes it, whether its byte enables are contiguous, and how its TLP stands. -/
structure BarReq where
  req    : Requester
  contig : Bool
  tlp    : TlpState := .good
  deriving DecidableEq, Repr

/-- R104: a sealing, when it is made and whether both signatures succeed. -/
structure SealRun where
  dt     : Nat
  signed : Bool
  deriving DecidableEq, Repr

/-- R172: the forwarding tables. -/
inductive FwtTable where
  | ep | lrn (t : Fin 4)
  deriving DecidableEq, Repr

/-- R188, R193: the regions of the rewrite and cipher unit. -/
inductive RwcRegion where
  | tpl | sa
  deriving DecidableEq, Repr

/-- R214: the regions of the transport engine. -/
inductive TrnRegion where
  | ctx | idx
  deriving DecidableEq, Repr

/-- R33: a register access that crosses islands: its width and its direction. -/
structure CrossAcc where
  width : Nat
  write : Bool
  deriving DecidableEq, Repr

/-- R263, R270: how the internal target of a peer access answers, or how the access's own TLP stands. -/
inductive TargetAnswer where
  | ok | late | poisoned | badEcrc
  deriving DecidableEq, Repr

/-- R267, R270: what a completion carries. -/
inductive CplData where
  | ok (data : List Byte)
  | error
  | poisoned
  | badEcrc
  deriving DecidableEq, Repr

/-- R265, R267, R270: how a unit's read of host memory ends. -/
inductive ReadData where
  | ok (data : List Byte)
  | error
  | poisoned
  | badEcrc
  | timeout
  deriving DecidableEq, Repr

/-- R277: the translations that an Invalidate Request names: those of requests without a PASID, of one PASID, or of all. -/
inductive AtsScope where
  | untagged
  | pasid (p : BitVec 20)
  | global
  deriving DecidableEq, Repr

/-- R328: where the SRAM scrub reads: packet SRAM by internal address, or the context cache by line. -/
inductive ScrubPlace where
  | sram (addr : Nat)
  | cache (line : Nat)
  deriving DecidableEq, Repr

/-- R334: a size class, or a length. -/
inductive BufWant where
  | size (c : Fin 4)
  | length (n : Nat)
  deriving DecidableEq, Repr

/-- R371, R372: a glove message: TYPE, FLAGS, SEQ and the payload, whose length LENGTH gives. -/
structure GloveMsg where
  typ     : Byte
  seq     : BitVec 16
  payload : List Byte
  flags   : Byte := 0
  deriving DecidableEq, Repr

/-- R379: the header of a Usnan frame to the node, with its TAG; R374: whether the node's answer to it leaves within
the attempt limit. -/
structure BusHdr where
  dst     : Byte
  src     : Byte
  tid     : BitVec 16
  session : Word
  counter : Word
  tag     : List Byte
  sent    : Bool := true
  deriving DecidableEq, Repr

/-- R389: the mailbox channels. -/
inductive MbxChan where
  | host (c : Fin 64)
  | thread (t : Fin 16)
  deriving DecidableEq, Repr

/-- R394 causes 1 to 3: the causes of a field-side restart that is no cold start. -/
inductive RestartCause where
  | lockstep | watchdog | command
  deriving DecidableEq, Repr

/-- R403: what reaches its confirmation point. -/
inductive ConfirmKind where
  | field | main | service (slot : Fin 8)
  deriving DecidableEq, Repr

/-- R259, R261, R267, R272, R273, R275, R276: what a configuration write to PF0 changes: one of the fields that rules name,
or a register of configuration space by its offset. -/
inductive CfgChange where
  | memorySpace (on : Bool)
  | msixEnable (on : Bool)
  | functionMask (on : Bool)
  | interruptDisable (on : Bool)
  | pasidEnable (on : Bool)
  | atsEnable (on : Bool)
  | completionTimeout (code : BitVec 4)
  | toD0
  /-- R259: a write of 1 to 4 bytes within a doubleword at an offset. -/
  | write (off : Nat) (data : List Byte)
  /-- R259: a read of the doubleword at an offset. -/
  | read (off : Nat)
  deriving DecidableEq, Repr

/-- The commands of spec/opcode_table.json. -/
inductive Instr where
  /-- REGISTER_WRITE (R29): A BAR0 write to a register that has no row of its own updates the enabled bytes, or is refused as unmapped, partial, powered-off or unsupported. -/
  | registerWrite (dt : Nat) (req : BarReq) (addr : Nat) (data : List Byte)
  /-- ISLAND_CROSSING_TIMEOUT (R33): A register access to another island that gets no answer within 2 us completes with FFFF_FFFFh or is dropped, and sets GLB_ACCERR.TMO. -/
  | islandCrossingTimeout (dt : Nat) (req : Requester) (addr : Nat) (acc : CrossAcc)
  /-- RC_REGISTER_READ (R35): A read of an RC register returns its value and clears exactly the bits it returned. -/
  | rcRegisterRead (req : BarReq) (addr : Nat) (width : Nat)
  /-- EVENT_COUNTER_READ (R37): A 4-byte read of an event counter returns the count and clears the counter and its SAT bit. -/
  | eventCounterRead (req : Requester) (addr : Nat) (width : Nat)
  /-- COUNTER_LOW_HALF_READ (R32): A 4-byte read of a 64-bit counter's low half loads the high half into the latch and marks the latch valid. -/
  | counterLowHalfRead (req : Requester) (addr : Nat)
  /-- COUNTER_HIGH_HALF_READ (R32): A 4-byte read of a 64-bit counter's high half returns the latched value, or the current one, and invalidates the latch. -/
  | counterHighHalfRead (req : Requester) (addr : Nat)
  /-- TIM_NOW_READ (R74): A read of TIM_NOW takes device time from replica 0 and latches the high half and the bound. -/
  | timNowRead (dt : Nat) (part : NowPart)
  /-- GUARDED_WRITE (R40): A write of a value to a guarded register arms its group under complement style, or takes effect under lock style until the group is locked. -/
  | guardedWrite (dt : Nat) (req : Requester) (addr : Nat) (data : List Byte)
  /-- GUARDED_COMPLEMENT_WRITE (R40): A write of the complement to A + 4 makes the armed value take effect when it matches, and otherwise discards it and sets GLB_ACCERR.GUARD. -/
  | guardedComplementWrite (dt : Nat) (req : Requester) (addr : Nat) (data : List Byte)
  /-- GUARD_ARM_EXPIRE (R40): An armed guarded value that has waited 10 us without its complement is discarded and sets GLB_ACCERR.GUARD. -/
  | guardArmExpire (dt : Nat) (group : Fin 16)
  /-- GLB_GUARDLOCK_WRITE (R41): A write of 1 to a GLB_GUARDLOCK bit locks the group's lock-style or RWL registers until power-on reset. -/
  | glbGuardlockWrite (value : Word)
  /-- DOORBELL_STAGE (R31): A 4-byte write at doorbell offset 000h is held in the page's staging word. -/
  | doorbellStage (page : DbPage) (value : Word)
  /-- DOORBELL (R293): A 64-bit doorbell sets a work queue's new tail or a completion queue's consumer index, or is refused and counted. -/
  | doorbell (dt : Nat) (page : DbPage) (value : DbValue)
  /-- INSTANCE_PAGE_ACCESS (R262): An instance-page read or write is accepted or treated as an instance-page error counted in INST_ERR or in HEP_INST_NOPAGE. -/
  | instancePageAccess (inst : BitVec 16) (off : Nat) (acc : PageAccess)
  /-- TMASK_WRITE (R274): A tenant driver's write to the TMASK words sets or clears the tenant masks of its instance vectors. -/
  | tmaskWrite (inst : BitVec 16) (word : Fin 32) (value : Word)
  /-- PPS_EDGE (R47): A rising edge at PPS_IN_A or PPS_IN_B gives the core an offset measurement when the PPS reference is present. -/
  | ppsEdge (dt : Nat) (core : CoreId)
  /-- PTP_MEASUREMENT (R47): A write of the high half of TIM_PTPMEAS_TIME submits a PTP measurement, which the core accepts or rejects. -/
  | ptpMeasurement (dt : Nat) (req : Requester) (core : CoreId) (hi : Word)
  /-- TAI_SECOND_LABEL_WRITE (R47): A write of A020h labels the next PPS edge of a core with its TAI second. -/
  | taiSecondLabelWrite (lvl : Fin 4) (core : CoreId) (label : BitVec 64)
  /-- PPS_REFERENCE_LOST (R48): No PPS edge within 1 s + 1 us ends the PPS reference's presence. -/
  | ppsReferenceLost (dt : Nat) (core : CoreId)
  /-- HOLDOVER_ENTRY (R48): A LOCKED core with no reference present for 2 s enters HOLDOVER. -/
  | holdoverEntry (dt : Nat) (core : CoreId)
  /-- REVERT_TO_PRIMARY (R48): A core returns to its primary reference once the primary has been present for the revert hold-off. -/
  | revertToPrimary (dt : Nat) (core : CoreId)
  /-- HOLDOVER_LIMIT_EXPIRE (R64): A core in HOLDOVER beyond its holdover limit makes its term unknown. -/
  | holdoverLimitExpire (dt : Nat) (core : CoreId)
  /-- STROKE (R51): Each 1 us a running time core sends a stroke carrying its time, state, term and flags to every replica. -/
  | stroke (dt : Nat) (core : CoreId)
  /-- STROKE_RECEIVE (R51): A replica receives a stroke and sets and advances its timescale for that core. -/
  | strokeReceive (dt : Nat) (rep : Fin 40) (core : CoreId)
  /-- STROKE_MISS (R53): A stroke of the active core that does not arrive when due widens the replica term, which becomes unknown at the eighth miss. -/
  | strokeMiss (dt : Nat) (rep : Fin 40)
  /-- ARMATURE_CALIBRATION (R52): Every 1 ms the armature measures each line's round trip and recalibrates its one-way delay. -/
  | armatureCalibration (dt : Nat) (rep : Fin 40) (roundTrip : Nat)
  /-- TREF_LOSS (R67): Three missing TREF cycles put the core in FAULT, stop its strokes and signal the standby. -/
  | trefLoss (dt : Nat) (core : CoreId)
  /-- TREF_RESTORE (R70): A core in FAULT whose TREF is present and PLL locked again leaves FAULT for ACQUIRING or FREERUN. -/
  | trefRestore (dt : Nat) (core : CoreId)
  /-- TIME_CORE_POWER_UP (R439): A time-core domain powered while the main die runs starts its core in FREERUN at the active core's time. -/
  | timeCorePowerUp (dt : Nat) (core : CoreId) (strokeSeen : Bool)
  /-- BOUND_TAKEOVER_TIMER (R67): The active term exceeding the threshold for 1 ms while the independent standby's does not starts a takeover. -/
  | boundTakeoverTimer (dt : Nat)
  /-- MAKE_ACTIVE (R71): An operator write of A030h.04 starts a takeover to the named core, or is refused. -/
  | makeActive (dt : Nat) (lvl : Fin 4) (value : Byte)
  /-- TAKEOVER_NOTICE (R68): A replica that receives the takeover notice produces dual stamps until it switches. -/
  | takeoverNotice (dt : Nat) (rep : Fin 40)
  /-- TAKEOVER_END (R69): The last replica's acknowledgement closes the overlap window at T_e, and the plinth adopts the incoming timescale. -/
  | takeoverEnd (dt : Nat)
  /-- TIME_QUALITY_REPORT (R73): Every 1 s, and on each change, the TIM sends a time-quality report across the glove. -/
  | timeQualityReport (dt : Nat)
  /-- PPS_OUT (R72): PPS_OUT rises at each whole TAI second of the active core while enabled and driven. -/
  | ppsOut (dt : Nat)
  /-- TIM_PCORR_COMMIT (R61): A commit through TIM_PCORR_CMD stages every path correction for its activation time, or is refused. -/
  | timPcorrCommit (dt : Nat) (req : Requester) (value : Word)
  /-- PATH_CORRECTION_ACTIVATION_WRITE (R61): A write of A050h.13 commits the staged path corrections with the written activation time, or is refused. -/
  | pathCorrectionActivationWrite (dt : Nat) (lvl : Fin 4) (time : BitVec 64)
  /-- PCORR_ACTIVATION (R61): Once every stamp point has passed the activation time, the new corrections are in force and BUSY clears. -/
  | pcorrActivation (dt : Nat)
  /-- MESSAGE_PRESENT (R78): A port, session, instance or thread message reaches the plinth with its stream, source and raw stamp. -/
  | messagePresent (dt : Nat) (from_ : PresentFrom)
  /-- PLINTH_PORT_HEARTBEAT (R84): An idle plinth port sends a heartbeat every 64 ns, which advances the thread source's safe time. -/
  | plinthPortHeartbeat (dt : Nat) (cluster : Fin 8)
  /-- MESSAGE_RELEASE (R87): Once every member's safe time has passed its key, a held message receives the next sequence number and goes to delivery. -/
  | messageRelease (dt : Nat) (stream : Fin 64)
  /-- FETCH_BOUND_EXPIRE (R85): A pending doorbell that has held its instance's safe time for F releases it and is counted in SQL_FETCH_EXP. -/
  | fetchBoundExpire (dt : Nat) (inst : BitVec 16)
  /-- MAX_HOLD_EXPIRE (R88): A message held for the maximum hold excludes its laggards, records them and is released. -/
  | maxHoldExpire (dt : Nat) (stream : Fin 64)
  /-- LAGGARD_REJOIN (R88): A laggard whose safe time passes the horizon rejoins its stream and a rejoin record is written. -/
  | laggardRejoin (dt : Nat) (member : Fin 131072)
  /-- STEP_NOTICE (R83): On a step, the plinth releases every held message, closes the block with reason step, writes a step record and clears the horizons. -/
  | stepNotice (dt : Nat)
  /-- SQL_MEMB_COMMIT (R79): A commit through SQL_MEMB_CMD stages member and stream changes for their activation time, or is refused. -/
  | sqlMembCommit (dt : Nat) (req : Requester) (value : Word)
  /-- MEMBERSHIP_ACTIVATION (R79): At the activation time, membership changes take effect and membership records are written. -/
  | membershipActivation (dt : Nat)
  /-- DIGEST_COMPLETE (R93): A hash engine finishes a message's digest, and the record of the released message is written. -/
  | digestComplete (dt : Nat) (idx : Nat)
  /-- GAP_RECORD_WRITE (R95): A pending gap record is written as soon as a record can be written. -/
  | gapRecordWrite (dt : Nat) (stream : Fin 64)
  /-- BLOCK_INTERVAL_EXPIRE (R98): The block interval since the block opened has passed, so the block closes and enters the chain. -/
  | blockIntervalExpire (dt : Nat)
  /-- EPOCH_END (R103): At a multiple of the epoch length, the SQL closes the block and sends a seal request, or updates the pending one. -/
  | epochEnd (dt : Nat)
  /-- EXPORT_UNIT_WRITE (R101): A closed block or a seal is written as one unit into the next export buffer and completed. -/
  | exportUnitWrite (dt : Nat)
  /-- PRT_GRP_MODE_WRITE (R113): A write of PRT_GRP_MODE changes a port group's mode and starts the domain switch, or is refused. -/
  | prtGrpModeWrite (group : Fin 2) (value : Word)
  /-- GROUP_MODE_SWITCH_DONE (R113): The field side finishes switching a group's power domains and BUSY clears. -/
  | groupModeSwitchDone (dt : Nat) (group : Fin 2)
  /-- LINK_UP (R114): A MAC gains lock on every lane and alignment, and its link comes up. -/
  | linkUp (dt : Nat) (mac : Fin 16)
  /-- LINK_DOWN (R114): A MAC loses a link condition, cuts off frames and discards its transmit store. -/
  | linkDown (dt : Nat) (mac : Fin 16) (cutRx : Option (List Byte))
  /-- MAC_RECEIVE_FRAME (R117): A received frame is ignored, refused, consumed as a control frame or passed to the pipeline. -/
  | macReceiveFrame (dt : Nat) (mac : Fin 16) (frame : List Byte) (arrival : Arrival)
  /-- PAUSE_TIMER_EXPIRE (R124): A priority's pause timer expires and its class may be eligible again. -/
  | pauseTimerExpire (dt : Nat) (mac : Fin 16) (prio : Fin 8)
  /-- PFC_REFRESH_TIMER (R125): While any priority is in XOFF, the MAC sends a PFC frame again at each refresh interval. -/
  | pfcRefreshTimer (dt : Nat) (mac : Fin 16)
  /-- MAC_EN_CLEAR (R122): Clearing EN lets the frame in transmission end and discards the transmit store. -/
  | macEnClear (dt : Nat) (mac : Fin 16)
  /-- MAC_FRAME_REQUEST (R242): A MAC with room asks its port, which chooses and dequeues the next frame under the class and DWRR rules. -/
  | macFrameRequest (dt : Nat) (mac : Fin 16)
  /-- MAC_TRANSMIT_FRAME (R120): Once a whole frame is in the transmit store, the MAC sends it with a new FCS, MACsec and any stamping action. -/
  | macTransmitFrame (dt : Nat) (mac : Fin 16)
  /-- PRT_TXTS_NEXT (R135): A write of 1 to PRT_TXTS_NEXT removes the oldest transmit stamp report. -/
  | prtTxtsNext (mac : Fin 16) (value : Word)
  /-- PRT_GATE_COMMIT (R128): A commit through PRT_GATE_CMD schedules the staged gate list for its activation time, or is refused. -/
  | prtGateCommit (dt : Nat) (mac : Fin 16) (value : Word)
  /-- GATE_LIST_ACTIVATION (R128): At T_a, the staged gate list becomes active with B0 = T_a. -/
  | gateListActivation (dt : Nat) (mac : Fin 16)
  /-- PIPELINE_INTAKE (R138): A pipeline takes one item from its port or internal intake, or refuses it when disabled or without a program. -/
  | pipelineIntake (dt : Nat) (pipe : Fin 8)
  /-- GLOBAL_LOOKUP (R182): A table unit serves a global-stage or LKUP lookup in its order. -/
  | globalLookup (dt : Nat) (pipe : Fin 8) (idx : Nat)
  /-- LOOKUP_TIMEOUT (R137): A global lookup without an answer after 2 us is treated as a miss and counted in PCL_LKUP_TMO. -/
  | lookupTimeout (dt : Nat) (pipe : Fin 8) (idx : Nat)
  /-- INGRESS_EXIT (R153): An item leaving an ingress pipeline is disposed of by verdict and destination, presented to the plinth, or learns. -/
  | ingressExit (dt : Nat) (pipe : Fin 4)
  /-- EGRESS_EXIT (R156): An egress item is checked for length and SA, then transmitted or copied. -/
  | egressExit (dt : Nat) (pipe : Fin 4)
  /-- FRAGMENT_HOLD_EXPIRE (R159): A fragment held 1 ms in the early store goes to COPY_Q with reason 80h. -/
  | fragmentHoldExpire (dt : Nat) (pipe : Fin 8)
  /-- FRAGMENT_ENTRY_AGE (R160): A fragment-table entry unused for 2 s is removed. -/
  | fragmentEntryAge (dt : Nat) (pipe : Fin 8) (idx : Nat)
  /-- PCL_BANK_COPY (R161): PCL_BANK_CMD starts copying the active banks of the named stages into their maquette banks. -/
  | pclBankCopy (dt : Nat) (pipe : Fin 8) (value : Word)
  /-- PCL_BANK_COPY_DONE (R161): A bank copy finishes and BUSY clears. -/
  | pclBankCopyDone (dt : Nat) (pipe : Fin 8)
  /-- PCL_SWAP_COMMIT (R163): A commit through PCL_SWAP_CMD arms a swap for its activation time, or is refused. -/
  | pclSwapCommit (dt : Nat) (pipe : Fin 8) (value : Word)
  /-- PCL_SWAP_GO (R163): A write of PCL_SWAP_GO commits the staged swap of each named pipeline. -/
  | pclSwapGo (dt : Nat) (value : Word)
  /-- SWAP_ACTIVATION (R164): The pipeline replica reaches the activation time, and the swap passes from ARMED to SETTLING. -/
  | swapActivation (dt : Nat) (pipe : Fin 8)
  /-- SWAP_SETTLE_END (R164): At the end of the settle time, the new banks become active and the old ones become maquette banks. -/
  | swapSettleEnd (dt : Nat) (pipe : Fin 8)
  /-- PCL_STAGING_WRITE (R166): A write to a program staging area changes the staged program and clears VERIFIED, or is ignored. -/
  | pclStagingWrite (addr : Nat) (data : List Byte)
  /-- PCL_LOAD_VERIFY (R166): A write of VERIFY checks the staged program and reports its STATUS. -/
  | pclLoadVerify (pipe : Fin 8) (value : Word)
  /-- FWT_TABLE_ENABLE (R172): Setting EN on a forwarding table starts the zeroing of its region. -/
  | fwtTableEnable (table : FwtTable) (value : Word)
  /-- FWT_ZEROING_DONE (R172): A forwarding table's region finishes zeroing and the table enters service. -/
  | fwtZeroingDone (table : FwtTable)
  /-- LEARN_REQUEST (R178): A learning table takes a learn request and creates, refreshes or moves an entry, or refuses it. -/
  | learnRequest (dt : Nat) (table : Fin 4)
  /-- SWEEPER_VISIT (R180): The sweeper visits a slot and clears HIT, sets CLEAR1 or removes the entry. -/
  | sweeperVisit (dt : Nat) (table : Fin 4)
  /-- FWT_READ (R184): A READ table command returns an endpoint entry with its count, or a learning slot. -/
  | fwtRead (value : Word)
  /-- FWT_WRITE (R184): A WRITE table command writes an endpoint entry or a learning slot, after checking bucket and duplicate. -/
  | fwtWrite (value : Word)
  /-- FWT_INSERT (R184): An INSERT table command places a key in the named learning tables. -/
  | fwtInsert (dt : Nat) (value : Word)
  /-- FWT_DELETE (R184): A DELETE table command removes the entry with the key. -/
  | fwtDelete (value : Word)
  /-- FWT_SEARCH (R184): A SEARCH table command returns the entry with the key from one learning table. -/
  | fwtSearch (value : Word)
  /-- RWC_REGION_ENABLE (R188): Setting EN on the template or SA region starts zeroing it. -/
  | rwcRegionEnable (region : RwcRegion) (value : Word)
  /-- RWC_ZEROING_DONE (R188): A template or SA region finishes zeroing. -/
  | rwcZeroingDone (region : RwcRegion)
  /-- RWC_INLINE_ITEM (R187): The RWC rewrites and ciphers an inline item at its point, or refuses it. -/
  | rwcInlineItem (dt : Nat)
  /-- LOOKASIDE_JOB (R204): A lookaside job runs on a cipher lane and completes with its status. -/
  | lookasideJob (dt : Nat) (src : ReadData) (tagIn : ReadData) (dstOk : Bool)
  /-- SA_READ (R197): A READ SA command returns bytes 00h-3Fh of an SA without the key. -/
  | saRead (value : Word)
  /-- SA_WRITE (R197): A WRITE SA command writes an SA's fields and resets its STATE. -/
  | saWrite (value : Word)
  /-- SA_KEYSET (R197): A KEYSET SA command writes the key material of an SA that is not valid. -/
  | saKeyset (value : Word)
  /-- SA_INVALIDATE (R197): An INVALIDATE SA command clears VALID, the key and KEYED. -/
  | saInvalidate (value : Word)
  /-- TPL_READ (R188): A READ template command returns a template or an option set. -/
  | tplRead (value : Word)
  /-- TPL_WRITE (R191): A WRITE template command writes a template or an option set, or refuses it with BADTPL. -/
  | tplWrite (value : Word)
  /-- SA_EXPIRE_TIME (R198): An SA whose EXPIRE_T is reached becomes hard-expired and enters the expiry FIFO. -/
  | saExpireTime (dt : Nat) (sa : BitVec 20)
  /-- RWC_EXP_NEXT (R198): A write of 1 to RWC_EXP_NEXT removes the oldest expiry entry. -/
  | rwcExpNext (value : Word)
  /-- KNOWN_ANSWER_TEST (R210): A cipher lane runs its known-answer test and is fenced if it fails. -/
  | knownAnswerTest (dt : Nat) (lane : Fin 8) (pass : Bool)
  /-- UNFENCE_LANES (R211): An operator write of 2080h.01 reruns the test of each named lane and returns it to service if it passes. -/
  | unfenceLanes (dt : Nat) (lvl : Fin 4) (value : Byte) (pass : Byte)
  /-- TRN_REGION_ENABLE (R214): Setting EN in TRN_CTX_BASE or TRN_IDX_BASE starts zeroing that region. -/
  | trnRegionEnable (region : TrnRegion) (value : Word)
  /-- TRN_ZEROING_DONE (R214): A transport region finishes zeroing. -/
  | trnZeroingDone (region : TrnRegion)
  /-- SESSION_CREATE (R216): A CREATE transport command takes a free session, writes its context and inserts its key, or refuses it. -/
  | sessionCreate (value : Word)
  /-- SESSION_READ (R216): A READ transport command returns a session's context, clearing its counters when CLR is set. -/
  | sessionRead (value : Word)
  /-- SESSION_MODIFY (R216): A MODIFY transport command writes the permitted context fields and may make the session ACTIVE again. -/
  | sessionModify (value : Word)
  /-- SESSION_DESTROY (R216): A DESTROY transport command removes the key, aborts send entries and puts the session in QUARANTINE. -/
  | sessionDestroy (dt : Nat) (value : Word)
  /-- SESSION_QUARANTINE_END (R216): After 100 us of quarantine the session returns to the pool. -/
  | sessionQuarantineEnd (dt : Nat) (session : BitVec 21)
  /-- TCP_SEGMENT_RECEIVE (R219): An arriving TCP item is refused, handed to software or placed and framed. -/
  | tcpSegmentReceive (dt : Nat)
  /-- ROCE_PACKET_RECEIVE (R227): An arriving RoCEv2 RC packet is executed, acknowledged again or NAKed by its PSN. -/
  | rocePacketReceive (dt : Nat) (readData : ReadData)
  /-- NVME_PDU_RECEIVE (R229): An arriving NVMe/TCP PDU is digest-checked and placed directly or delivered to RXQ. -/
  | nvmePduReceive (dt : Nat) (entry : ReadData)
  /-- ACK_DELAY_EXPIRE (R222): TRN_ACK_DELAY after the first unacknowledged byte, the engine sends an ACK. -/
  | ackDelayExpire (dt : Nat) (session : BitVec 21)
  /-- SESSION_SEND (R222): The engine sends send-entry bytes as segments while the window and CWND allow. -/
  | sessionSend (dt : Nat) (session : BitVec 21)
  /-- RETRANSMISSION_TIMEOUT (R222): An RTO expiry retransmits, and after TRN_RETRIES timeouts the session enters ERROR with reason 04h. -/
  | retransmissionTimeout (dt : Nat) (session : BitVec 21)
  /-- TMG_ENQUEUE (R237): A frame arriving at the TMG is appended to its leaf or refused. -/
  | tmgEnqueue (dt : Nat)
  /-- SHAPER_REFILL (R239): Every 256 ns every bucket is credited, and pending TMG writes take effect. -/
  | shaperRefill (dt : Nat)
  /-- HEAD_EXPIRE (R245): A class head that has waited HEAD_LIMIT is discarded and counted in TMG_HEAD_EXPIRE. -/
  | headExpire (dt : Nat) (cls : Fin 128)
  /-- TMG_READ (R256): A READ TMG command returns a node or policer entry. -/
  | tmgRead (value : Word)
  /-- TMG_WRITE (R247): A WRITE TMG command changes a node or policer at the next refill, or is refused. -/
  | tmgWrite (value : Word)
  /-- TMG_RATE_WRITE (R247): A write to a class or port rate register takes effect at the next refill. -/
  | tmgRateWrite (addr : Nat) (value : Word)
  /-- POLICER_DECISION (R250): An ingress policer finds an item conforming, or drops or marks it. -/
  | policerDecision (dt : Nat)
  /-- PCIE_LINK_RATE_CHANGE (R258): A width or rate change that keeps DL_Up sets HEP_EVT.RATE_CHG. -/
  | pcieLinkRateChange (width : BitVec 5) (rate : BitVec 4) (flit : Bool)
  /-- PCIE_LINK_DOWN (R258): A departure from DL_Up, or a hot reset, acts on the rest of the device as function-level reset. -/
  | pcieLinkDown (dt : Nat) (hot : Bool)
  /-- PERST (R431): PERST_N low resets PF0 and acts on the rest as function-level reset. -/
  | perst (dt : Nat)
  /-- D3HOT_ENTRY (R261): PF0's entry to D3hot refuses BAR accesses and acts as a clear of Bus Master Enable. -/
  | d3hotEntry (dt : Nat)
  /-- BME_CLEAR (R268): Clearing Bus Master Enable stops every outbound request and halts or abandons transfers. -/
  | bmeClear (dt : Nat)
  /-- BME_SET (R268): Setting Bus Master Enable lets device channels go IDLE, fetching resume and pending vectors be sent. -/
  | bmeSet (dt : Nat)
  /-- FUNCTION_LEVEL_RESET (R269): Initiate Function Level Reset resets every instance, quarantines tags and masks vectors. -/
  | functionLevelReset (dt : Nat)
  /-- FLR_DONE (R269): The function-level reset finishes and HEP_EVT.FLR_DONE sets. -/
  | flrDone (dt : Nat)
  /-- TAG_QUARANTINE_END (R269): When the completion timeout in force at the reset has passed, the quarantined tags return to the free pool. -/
  | tagQuarantineEnd (dt : Nat)
  /-- PEER_WINDOW_TLP (R263): A BAR4 request is translated through its window or refused as a closed window. -/
  | peerWindowTlp (rid : BitVec 16) (off : Nat) (acc : PageAccess) (answer : TargetAnswer)
  /-- HEP_WIN_COMMIT (R264): A commit through HEP_WIN_CMD makes every staged window active at the commit point. -/
  | hepWinCommit (value : Word)
  /-- PCIE_COMPLETION_RECEIVE (R267): A received completion returns read data for its tag, or is dropped as unexpected or stale. -/
  | pcieCompletionReceive (dt : Nat) (tag : BitVec 14) (data : CplData)
  /-- COMPLETION_TIMEOUT (R267): A read whose completion timeout expires frees its tag and fails its transfer. -/
  | completionTimeout (dt : Nat) (tag : BitVec 14)
  /-- MSIX_VECTOR_FIRE (R273): A PF0 cause fires its MSI-X vector, or sets its pending bit. -/
  | msixVectorFire (vec : BitVec 11)
  /-- MSIX_PENDING_SEND (R273): A pending PF0 vector is sent once when its masks and enables permit. -/
  | msixPendingSend (vec : BitVec 11)
  /-- INSTANCE_VECTOR_FIRE (R274): An instance vector's cause sends its message write, or sets PENDING. -/
  | instanceVectorFire (vec : BitVec 18) (gen : Byte)
  /-- IV_READ (R274): A READ through HEP_IV_CMD returns an instance vector entry. -/
  | ivRead (value : Word)
  /-- IV_WRITE (R274): A WRITE through HEP_IV_CMD writes an instance vector entry. -/
  | ivWrite (value : Word)
  /-- ATS_TRANSLATION_RESULT (R276): A Translation Completion is cached and the held transfer proceeds or fails. -/
  | atsTranslationResult (dt : Nat) (pasid : Option (BitVec 20)) (page : Nat) (result : Option Nat)
  /-- ATS_INVALIDATE_REQUEST (R277): An Invalidate Request removes cache entries and is completed once the requests that used them are done. -/
  | atsInvalidateRequest (scope : AtsScope) (page : Nat) (pages : Nat) (itag : BitVec 5)
  /-- SPDM_REQUEST (R278): A DOE CMA-SPDM request is answered by the responder, or passed across the glove for signing. -/
  | spdmRequest (dt : Nat) (request : List Byte)
  /-- REQ_GO (R283): A write of REQ_GO sends the tenant's request as a mediation entry, or is refused. -/
  | reqGo (inst : BitVec 16) (value : Word)
  /-- WORK_FETCH (R287): The QIM reads work-queue slots, and entries with matching phase are taken. -/
  | workFetch (dt : Nat) (queue : BitVec 20) (slots : ReadData)
  /-- ENTRY_BEGIN (R287): A work entry with a reserved completion place begins and the device head advances past it. -/
  | entryBegin (dt : Nat) (queue : BitVec 20) (payload : ReadData) (shadowOk : Bool)
  /-- COMPLETION_WRITE (R298): A finished run of entries gets its completion written and its vector fired. -/
  | completionWrite (dt : Nat) (queue : BitVec 20)
  /-- RECEIVE_PLACEMENT (R301): An item for a receive queue is placed in posted buffers, or waits in the backlog, or is refused. -/
  | receivePlacement (dt : Nat)
  /-- BACKLOG_PLACEMENT (R302): A backlogged item is placed once buffers and a completion place are available. -/
  | backlogPlacement (dt : Nat) (queue : BitVec 20)
  /-- CQ_STALL_EXPIRE (R303): A completion queue full for QIM_CQ_STALL puts its instance in ERROR, or sets AQ_ERR for PF0. -/
  | cqStallExpire (dt : Nat) (queue : BitVec 20)
  /-- ADMIN_TAIL_WRITE (R307): A write of QIM_AQ_TAIL publishes admin entries for execution. -/
  | adminTailWrite (value : Word)
  /-- ADMIN_NOP (R308): An admin NOP completes with OK. -/
  | adminNop (dt : Nat) (entry : List Byte)
  /-- INST_CREATE (R281): INST_CREATE builds an instance from its fields, or refuses it. -/
  | instCreate (dt : Nat) (entry : List Byte)
  /-- INST_MODIFY (R281): INST_MODIFY writes an instance's fields under its state rules. -/
  | instModify (dt : Nat) (entry : List Byte)
  /-- INST_RESET (R305): INST_RESET advances the generation, disables queues and returns the instance to ACTIVE. -/
  | instReset (dt : Nat) (entry : List Byte)
  /-- INST_DESTROY (R281): INST_DESTROY resets an instance with no queues or sessions and leaves it FREE. -/
  | instDestroy (dt : Nat) (entry : List Byte)
  /-- INSTANCE_RESET_DONE (R305): Every unit has adopted the new generation, and the instance becomes ACTIVE or FREE. -/
  | instanceResetDone (dt : Nat) (inst : BitVec 16)
  /-- INST_QUERY (R308): INST_QUERY writes an instance's fields, state and error word to BUF. -/
  | instQuery (dt : Nat) (entry : List Byte)
  /-- Q_CREATE (R308): Q_CREATE creates a queue as DISABLED, or refuses it. -/
  | qCreate (dt : Nat) (entry : List Byte)
  /-- Q_ENABLE (R304): Q_ENABLE restarts fetching at the device head. -/
  | qEnable (dt : Nat) (entry : List Byte)
  /-- Q_DISABLE (R304): Q_DISABLE stops fetching, lets begun entries finish and writes the shadow word. -/
  | qDisable (dt : Nat) (entry : List Byte)
  /-- Q_DESTROY (R308): Q_DESTROY removes a queue, unless a queue is bound to it. -/
  | qDestroy (dt : Nat) (entry : List Byte)
  /-- Q_QUERY (R308): Q_QUERY writes a queue's state and indices to BUF. -/
  | qQuery (dt : Nat) (entry : List Byte)
  /-- SESS_CREATE (R308): The admin SESS_CREATE acts as CREATE on the instance's sessions. -/
  | sessCreate (dt : Nat) (entry : List Byte) (buf : ReadData)
  /-- SESS_READ (R308): The admin SESS_READ writes a session context to BUF. -/
  | sessRead (dt : Nat) (entry : List Byte)
  /-- SESS_MODIFY (R308): The admin SESS_MODIFY acts as MODIFY on a session. -/
  | sessModify (dt : Nat) (entry : List Byte) (buf : ReadData)
  /-- SESS_DESTROY (R308): The admin SESS_DESTROY acts as DESTROY on a session. -/
  | sessDestroy (dt : Nat) (entry : List Byte)
  /-- MED_RESPOND (R284): MED_RESPOND writes the response to the instance page, clears BUSY and fires the event vector. -/
  | medRespond (dt : Nat) (entry : List Byte)
  /-- QIM_IEVT_NEXT (R312): A write of 1 to QIM_IEVT_NEXT removes the oldest instance event. -/
  | qimIevtNext (value : Word)
  /-- DMA_START (R317): A START command reads the program header and runs the program, or ends it as NOTOWNED. -/
  | dmaStart (dt : Nat) (ch : BitVec 12) (value : Word) (prog : ReadData)
  /-- DMA_ABORT (R325): An ABORT command ends a channel's program with ABORTED. -/
  | dmaAbort (ch : BitVec 12) (value : Word)
  /-- DMA_RESUME (R325): A RESUME command restarts a HALTED_BME channel's interrupted instruction. -/
  | dmaResume (ch : BitVec 12) (value : Word) (prog : ReadData)
  /-- MOVE (R319): A MOVE instruction issues bursts that copy LEN bytes at its stepped addresses. -/
  | dmaMove (dt : Nat) (ch : BitVec 12)
  /-- LOOP (R320): A LOOP instruction jumps back to TARGET until it has run COUNT times. -/
  | dmaLoop (dt : Nat) (ch : BitVec 12)
  /-- WAIT (R321): A WAIT instruction holds its channel until the sync counter reaches VALUE. -/
  | dmaWait (dt : Nat) (ch : BitVec 12)
  /-- WAIT_SATISFIED (R321): A waiting channel's counter condition becomes true and the channel runs on. -/
  | dmaWaitSatisfied (ch : BitVec 12)
  /-- WAIT_TIMEOUT (R323): A WAIT whose TIMEOUT passes ends its program with WAIT_TIMEOUT. -/
  | dmaWaitTimeout (dt : Nat) (ch : BitVec 12)
  /-- SIGNAL (R321): A SIGNAL instruction adds to its counter after earlier writes have left, and may raise an event. -/
  | dmaSignal (dt : Nat) (ch : BitVec 12)
  /-- END (R322): An END instruction writes back BYTES and the STATUS word once the last write has left. -/
  | dmaEnd (dt : Nat) (ch : BitVec 12)
  /-- FLUSH_READ_RETURN (R322): A flush read returns, or fails, and the channel runs on or ends with FLUSH_FAIL. -/
  | dmaFlushReadReturn (dt : Nat) (ch : BitVec 12) (ok : Bool)
  /-- HBM_FAIL (R329): Loss of training, or 1,024 uncorrectable errors in a second, sets HBM_FAIL and makes every HBM access uncorrectable. -/
  | hbmFail (dt : Nat)
  /-- PATROL_SCRUB_READ (R328): The patrol scrub reads an HBM word, corrects it or marks it poisoned. -/
  | patrolScrubRead (dt : Nat) (addr : Nat) (found : List (Fin 72))
  /-- SRAM_SCRUB_READ (R328): The SRAM scrub reads an SRAM or context-cache word, corrects it or marks it poisoned. -/
  | sramScrubRead (dt : Nat) (place : ScrubPlace) (found : List (Fin 72))
  /-- BPM_POOL_ENABLE (R333): Setting EN on a pool writes its handles to the free ring, or is refused with CFG_REJ. -/
  | bpmPoolEnable (pool : Fin 8) (value : Word)
  /-- BUFFER_ALLOCATE (R334): A requester's allocation takes a buffer, is refused by quota or empty pool, or waits. -/
  | bufferAllocate (requester : Fin 39) (inst : BitVec 16) (hbm : Bool) (want : BufWant)
  /-- BUFFER_WAIT_SERVED (R334): A waiting allocation is served once buffers and quota become available. -/
  | bufferWaitServed (requester : Fin 39)
  /-- BUFFER_FREE (R336): A free returns a buffer to its pool, or is refused as a double free or a bad request. -/
  | bufferFree (dt : Nat) (requester : Fin 39) (handle : Word)
  /-- FREE_CACHE_REFILL (R337): A pool cache down to 128 handles takes a batch of 256 from its ring. -/
  | freeCacheRefill (pool : Fin 8)
  /-- FREE_CACHE_SPILL (R337): A pool cache up to 448 handles returns a batch of 256 to its ring. -/
  | freeCacheSpill (pool : Fin 8)
  /-- BPM_DF_NEXT (R336): A write of 1 to BPM_DF_NEXT removes the oldest double-free entry. -/
  | bpmDfNext (value : Word)
  /-- BOOK_AUDIT (R339): Every 100 ms the auditor checks every book and records a mismatch. -/
  | bookAudit (dt : Nat)
  /-- MEM_AUDIT_ACK (R339): A write to MEM_AUDIT_ACK frees the audit snapshot registers. -/
  | memAuditAck (value : Word)
  /-- FORK (R353): FORK starts a free thread of the cluster, or returns -1. -/
  | thaFork (dt : Nat) (th : BitVec 10) (rd rs1 rs2 : Fin 32) (detached : Bool)
  /-- JOIN (R353): JOIN waits for a joinable child to end and returns its exit value. -/
  | thaJoin (dt : Nat) (th : BitVec 10) (rd rs1 : Fin 32)
  /-- TWAIT (R354): TWAIT returns the set event bits of its mask, or waits for them. -/
  | thaTwait (dt : Nat) (th : BitVec 10) (rd rs1 rs2 : Fin 32)
  /-- TWAIT_DEADLINE (R354): A TWAIT whose deadline is reached returns 0. -/
  | thaTwaitDeadline (dt : Nat) (th : BitVec 10)
  /-- TSEND (R354): TSEND sets event bits in a thread of the cluster and wakes it. -/
  | thaTsend (dt : Nat) (th : BitVec 10) (rd rs1 rs2 : Fin 32)
  /-- YIELD (R353): YIELD gives up the thread's current turn. -/
  | thaYield (dt : Nat) (th : BitVec 10)
  /-- YIELD_E (R353): YIELD.E ends the thread, which becomes ENDED or FREE. -/
  | thaYieldE (dt : Nat) (th : BitVec 10) (rs1 : Fin 32)
  /-- CHRES (R359): CHRES reserves a message in a channel, or waits or returns -1 while it lacks room. -/
  | thaChres (dt : Nat) (th : BitVec 10) (rd rs1 rs2 : Fin 32) (nowait : Bool)
  /-- CHPUT (R359): CHPUT copies bytes into a reservation at its cursor. -/
  | thaChput (dt : Nat) (th : BitVec 10) (rd rs1 rs2 : Fin 32) (n : Fin 128)
  /-- CHCOMMIT (R359): CHCOMMIT makes a reserved message COMMITTED and stamps device-kind messages. -/
  | thaChcommit (dt : Nat) (th : BitVec 10) (rd rs1 : Fin 32)
  /-- CHGET (R359): CHGET takes the committed head message, or waits or returns -1. -/
  | thaChget (dt : Nat) (th : BitVec 10) (rd rs1 rs2 : Fin 32) (nowait : Bool)
  /-- LKUP (R355): LKUP looks up a global table and writes the result. -/
  | thaLkup (dt : Nat) (th : BitVec 10) (rd rs1 rs2 : Fin 32) (target table : Fin 4) (answered : Bool)
  /-- DMAGO (R356): DMAGO starts one of the cluster's DMA channels on a program in local SRAM. -/
  | thaDmago (dt : Nat) (th : BitVec 10) (rd rs1 rs2 : Fin 32)
  /-- STAMP (R357): STAMP reads the thread stamp point and may write a stamp record. -/
  | thaStamp (dt : Nat) (th : BitVec 10) (rd rs1 : Fin 32)
  /-- FRAME_OUT_SEND (R360): The device reads a committed frame-out message and hands the frame to an ingress pipeline. -/
  | frameOutSend (dt : Nat) (cluster : Fin 8) (index : Byte)
  /-- CHANNEL_HELD (R363): A reserved head held 65,536 clocks raises a CHAN_HELD supervisor event. -/
  | channelHeld (dt : Nat) (cluster : Fin 8) (index : Byte)
  /-- WAIT_DEADLOCK (R364): A cluster whose pooled threads have all waited 4,096 clocks with no external source raises WAIT_DEADLOCK. -/
  | waitDeadlock (dt : Nat) (cluster : Fin 8)
  /-- SUP_KILL (R362): A KILL through SUP_CMD ends a pooled thread with exit value -1. -/
  | supKill (cluster : Fin 8) (value : Word)
  /-- SUP_RESUME (R362): A RESUME through SUP_CMD restarts a thread stopped by a fault at SUP_PC. -/
  | supResume (cluster : Fin 8) (value : Word)
  /-- SUP_EVT_NEXT (R362): A write to SUP_EVT_NEXT removes the head supervisor event. -/
  | supEvtNext (cluster : Fin 8) (value : Word)
  /-- SUP_KICK (R365): A write to SUP_KICK restarts the cluster's watchdog period. -/
  | supKick (dt : Nat) (cluster : Fin 8)
  /-- WATCHDOG_EXPIRE (R365): An expired cluster watchdog resets the cluster with cause 1. -/
  | watchdogExpire (dt : Nat) (cluster : Fin 8)
  /-- CLUSTER_RESET (R366): A cluster reset stops its threads, empties its channels, reloads the sections and restarts the supervisor. -/
  | clusterReset (dt : Nat) (cluster : Fin 8)
  /-- SERVICE_START (R350): A start of a service slot takes clusters, checks the layout and starts the supervisor threads. -/
  | serviceStart (dt : Nat) (lvl : Fin 4) (slot : Fin 8)
  /-- SERVICE_STOP (R350): A stop of a service slot ends every thread and releases its clusters. -/
  | serviceStop (dt : Nat) (lvl : Fin 4) (slot : Fin 8)
  /-- SERVICE_RESTART (R351): Command 03h resets every cluster of the service. -/
  | serviceRestart (dt : Nat) (lvl : Fin 4) (slot : Fin 8)
  /-- DBG_STOP (R367): The debugger STOP stops a thread at an instruction boundary. -/
  | dbgStop (value : Word)
  /-- DBG_RUN (R367): The debugger RUN lets a stopped thread run. -/
  | dbgRun (value : Word)
  /-- DBG_STEP (R367): The debugger STEP runs one instruction. -/
  | dbgStep (dt : Nat) (value : Word)
  /-- DBG_READ_REG (R367): The debugger READ_REG reads a thread register or the pc. -/
  | dbgReadReg (value : Word)
  /-- DBG_WRITE_REG (R367): The debugger WRITE_REG writes a thread register or the pc. -/
  | dbgWriteReg (value : Word)
  /-- DBG_READ_MEM (R367): The debugger READ_MEM reads 8 bytes at a thread address. -/
  | dbgReadMem (value : Word)
  /-- DBG_WRITE_MEM (R367): The debugger WRITE_MEM writes 8 bytes at a thread address. -/
  | dbgWriteMem (value : Word)
  /-- DBG_SET_BREAK (R367): The debugger SET_BREAK sets a core breakpoint. -/
  | dbgSetBreak (value : Word)
  /-- DBG_CLEAR_BREAK (R367): The debugger CLEAR_BREAK clears a core breakpoint. -/
  | dbgClearBreak (value : Word)
  /-- DBG_DISCARD (R367): The debugger DISCARD makes a thread's oldest reservation on a channel VOID. -/
  | dbgDiscard (value : Word)
  /-- BREAKPOINT_HIT (R367): A thread that reaches a breakpoint or EBREAK while debug is open becomes STOPPED and sets THA_EVT.DBG. -/
  | breakpointHit (th : BitVec 10)
  /-- GLOVE_MESSAGE_RECEIVE (R371): A glove message is acknowledged and delivered once, in order, or discarded. -/
  | gloveMessageReceive (dt : Nat) (side : Side) (msg : GloveMsg) (crc : Word)
  /-- GLOVE_RETRANSMIT (R371): An unacknowledged glove message is sent again every 20 us, and the link resets after 16 failures. -/
  | gloveRetransmit (dt : Nat) (side : Side)
  /-- GLOVE_PEER_DOWN (R371): A side that receives nothing for 5 ms declares the other side down. -/
  | glovePeerDown (dt : Nat) (side : Side)
  /-- GLOVE_LINK_UP (R394): The glove link comes up and the host side sends the pending seal request, report, mailboxes and events. -/
  | gloveLinkUp (dt : Nat)
  /-- OBJ_REQ (R373): A glove object request is served through the binding table, or at level 0. -/
  | objReq (side : Side)
  /-- OBJ_RSP (R372): A glove object response completes an outstanding object request. -/
  | objRsp (side : Side)
  /-- MBX (R372): A glove mailbox message delivers a body to its channel. -/
  | mbx (side : Side)
  /-- MBX_ACK (R372): A glove mailbox acknowledgement returns a channel's code. -/
  | mbxAck (side : Side)
  /-- SEAL_REQ (R104): The field side builds the seal body from a seal request, signs it with ECDSA and HSS and returns the seal. -/
  | sealReq (run : SealRun)
  /-- SEAL_RSP (R103): The SQL receives a seal, or a failure, and passes the seal to export. -/
  | sealRsp (dt : Nat)
  /-- EVENT (R388): A glove event notice is logged and sent to the event destination. -/
  | eventNotice (dt : Nat)
  /-- POWER (R426): A glove power command switches domains or resets the main die. -/
  | powerMsg (dt : Nat)
  /-- POWER_RSP (R372): The field side receives the result of a power command. -/
  | powerRsp (dt : Nat)
  /-- IMAGE (R404): The main die receives an image chunk and checks it. -/
  | imageMsg (dt : Nat)
  /-- IMAGE_RSP (R404): The field side receives the main die's acceptance of an image chunk. -/
  | imageRsp (dt : Nat)
  /-- TQR (R73): The field side receives a time-quality report and refreshes A000h. -/
  | tqr (dt : Nat)
  /-- OBJ_READ (R383): A bus object read is checked and answered with data or an abort. -/
  | objRead (dt : Nat) (hdr : BusHdr) (payload : List Byte)
  /-- OBJ_WRITE (R383): A bus object write chunk is checked, and the value is committed when complete. -/
  | objWrite (dt : Nat) (hdr : BusHdr) (payload : List Byte) (flashOk : Bool)
  /-- LOGIN_REQ (R384): A login request is answered with a challenge, or refused. -/
  | loginReq (dt : Nat) (hdr : BusHdr) (payload : List Byte)
  /-- LOGIN_PROOF (R384): A login proof is checked and the session opens with LOGIN_OK, or abort 000Bh. -/
  | loginProof (dt : Nat) (hdr : BusHdr) (payload : List Byte)
  /-- LOGIN_TIMEOUT (R384): A login step that is not answered within 1 s ends the login and erases the ephemeral key. -/
  | loginTimeout (dt : Nat) (sid : Word)
  /-- LOGIN_LOCKOUT_END (R384): 60 s after five wrong proofs, the level accepts LOGIN_REQ again. -/
  | loginLockoutEnd (dt : Nat) (lvl : Fin 4)
  /-- LOGOUT (R385): LOGOUT ends a session. -/
  | logout (dt : Nat) (hdr : BusHdr)
  /-- SESSION_IDLE_EXPIRE (R385): A session with no accepted frame for the idle limit ends. -/
  | sessionIdleExpire (dt : Nat) (sid : Word)
  /-- HAT_RESET (R377): HAT_RESET clears the node address, closes sessions and drives HAT_OUT low. -/
  | hatReset (dt : Nat)
  /-- HAT_HELD (R376): An unassigned node whose HAT_IN has been high for 1 ms holds the hat. -/
  | hatHeld (dt : Nat)
  /-- HAT_ASSIGN (R377): The node holding the hat takes the address, sends HAT_ACK and passes the hat. -/
  | hatAssign (dt : Nat) (hdr : BusHdr) (payload : List Byte) (ackSent : Bool)
  /-- EVENT_ACK (R388): An EVENT_ACK stops the resending of the notice it echoes. -/
  | eventAck (hdr : BusHdr) (payload : List Byte)
  /-- EVENT_RESEND (R388): An unacknowledged event notice is sent again every 1 s. -/
  | eventResend (dt : Nat)
  /-- IMG_OPEN (R387): IMG_OPEN opens an image transfer for a target. -/
  | imgOpen (dt : Nat) (hdr : BusHdr) (payload : List Byte)
  /-- IMG_DATA (R387): IMG_DATA writes an image chunk in order. -/
  | imgData (dt : Nat) (hdr : BusHdr) (payload : List Byte)
  /-- IMG_CLOSE (R402): IMG_CLOSE checks the image and stores it in the inactive bank or the slot. -/
  | imgClose (dt : Nat) (hdr : BusHdr) (flashOk : Bool)
  /-- MBX_SEND (R390): A whole write of SEND posts a host-to-field or thread mailbox message, or is ignored. -/
  | mbxSend (dt : Nat) (req : Requester) (ch : MbxChan) (value : Word)
  /-- MBX_RETURN_CODE (R390): An operator write of a return code empties a host-to-field channel and sends MBX_ACK. -/
  | mbxReturnCode (lvl : Fin 4) (ch : MbxChan) (code : BitVec 16)
  /-- F2H_BODY_WRITE (R391): An operator write of a field-to-host body sends it to the host, or holds it. -/
  | f2hBodyWrite (lvl : Fin 4) (node : Byte) (ch : MbxChan) (body : List Byte)
  /-- F2H_ACK (R391): A manager write of ACK clears the field-to-host channel and returns the code. -/
  | f2hAck (req : Requester) (ch : MbxChan) (code : Word)
  /-- FIELD_SIDE_RESTART (R394): A lockstep mismatch, watchdog expiry or 2000h.06 restarts the field side while the data path runs on. -/
  | fieldSideRestart (dt : Nat) (cause : RestartCause)
  /-- FIELD_COLD_START (R431): FLD_RST_N low, or loss of VF33, restarts the field side and loses the node address. -/
  | fieldColdStart (dt : Nat) (vf33Lost : Bool)
  /-- FIELD_BOOT (R404): The field ROM selects and checks a firmware bank, derives keys and starts the firmware or the recovery loader. -/
  | fieldBoot (dt : Nat)
  /-- ANTI_ROLLBACK_CONFIRM (R403): An image that reaches its confirmation point raises its anti-rollback counter. -/
  | antiRollbackConfirm (dt : Nat) (what : ConfirmKind)
  /-- MAIN_FIRMWARE_TIMEOUT (R405): Main-die firmware not RUNNING within 2 s falls back to the other bank. -/
  | mainFirmwareTimeout (dt : Nat)
  /-- MAIN_DIE_WATCHDOG_EXPIRE (R396): The glove silent from the host side for the watchdog period makes the main die UNRESPONSIVE and may reset it. -/
  | mainDieWatchdogExpire (dt : Nat)
  /-- MAIN_DIE_BRING_UP_COMMAND (R404): A write of 01h to 2000h.02 starts main-die bring-up. -/
  | mainDieBringUpCommand (dt : Nat) (lvl : Fin 4)
  /-- MAIN_DIE_RESET_COMMAND (R432): A write of 02h to 2000h.02 ends the run with a seal and resets the main die. -/
  | mainDieResetCommand (dt : Nat) (lvl : Fin 4)
  /-- MAIN_DIE_POWER_DOWN (R432): A write of 03h to 2000h.02 ends the run with a seal and powers off the main die. -/
  | mainDiePowerDown (dt : Nat) (lvl : Fin 4)
  /-- RUN_END_SEAL_TIMEOUT (R432): 100 ms after an orderly reset command without a seal, the reset proceeds. -/
  | runEndSealTimeout (dt : Nat)
  /-- BRING_UP (R434): Main-die firmware trains the HBM, powers domains, starts time and the ledger and reaches RUNNING. -/
  | bringUp (dt : Nat) (step : Fin 9) (ok : Bool)
  /-- POWER_DOMAIN_REQUEST (R427): A write of 2010h.01 powers domains up or down, or is refused with abort 0009h. -/
  | powerDomainRequest (dt : Nat) (lvl : Fin 4) (value : BitVec 96)
  /-- ENROL (R407): Lifecycle command 01h takes the owner package, generates seal keys and makes the device OWNED. -/
  | enrol (dt : Nat) (lvl : Fin 4)
  /-- ENROLMENT_DONE (R407): Enrolment finishes its last write and the state becomes OWNED. -/
  | enrolmentDone (dt : Nat)
  /-- RELEASE (R408): Lifecycle command 02h erases the owner data and returns to PROVISIONED. -/
  | releaseOwner (lvl : Fin 4)
  /-- DECOMMISSION (R408): Lifecycle command 03h erases the owner data and K_op and blows the lifecycle fuse. -/
  | decommission (lvl : Fin 4)
  /-- PROVISION (R398): Lifecycle command 04h at level 3 moves the device from MANUFACTURE to PROVISIONED. -/
  | provision (lvl : Fin 4)
  /-- PASSWORD_CHANGE (R413): A write of 2F31h.01 sets a new SALT, ITER and K_op. -/
  | passwordChange (hdr : BusHdr) (value : List Byte)
  /-- OWNER_CHAIN_WRITE (R409): A write of 2F32h.03 installs the owner chain for SPDM slot 1. -/
  | ownerChainWrite (lvl : Fin 4) (chain : List Byte)
  /-- LOCK_WRITE (R415): A write of the door byte opens or closes doors and ends the sessions that a closed door admitted. -/
  | lockWrite (lvl : Fin 4) (node : Byte) (value : Byte)
  /-- QUOTE_NONCE_WRITE (R412): A nonce written to 2F50h.01 produces a new signed quote. -/
  | quoteNonceWrite (nonce : List Byte)
  /-- SPDM_SIGN_REQUEST (R411): A host-side write of 2F60h.01 makes the field side sign an SPDM transcript with the Alias key. -/
  | spdmSignRequest (fromHost : Bool) (value : List Byte)
  /-- POWER_ON_RESET (R424): The main-die rails being within tolerance for 10 ms end power-on reset. -/
  | powerOnReset (dt : Nat)
  /-- SUPPLY_OUT_OF_TOLERANCE (R424): A rail out of tolerance for more than 2 us starts a new power-on reset and event 0Dh. -/
  | supplyOutOfTolerance (dt : Nat) (rail : Fin 6)
  /-- THERMAL_TRIP (R430): A sensor at 125 C drives THERM_TRIP_N low and powers off the main die. -/
  | thermalTrip (dt : Nat) (sensor : Fin 24) (tenths : Int)
  /-- TELEMETRY_SAMPLE (R428): Each telemetry period the field side reads temperatures and VDD into F020h and raises warnings. -/
  | telemetrySample (dt : Nat) (mainT hbmT fieldT : Int) (current : Word)
  /-- AVS_SETPOINT_STEP (R423): The device moves the VDD setpoint by at most one 10 mV step per millisecond. -/
  | avsSetpointStep (dt : Nat) (reading : Int)
  /-- PTP_REFERENCE_LOST (R48): A PTP reference that receives no valid measurement for 2 s stops being present, and a core using it as primary changes to a present secondary reference. -/
  | ptpReferenceLost (dt : Nat) (core : CoreId)
  /-- CORE_PLL_UNLOCK (R45): A time core whose PLL unlocks, or whose internal check fails, enters FAULT, stops its strokes and signals the standby. -/
  | corePllUnlock (dt : Nat) (core : CoreId)
  /-- PCIE_LINK_UP (R258): The PCI Express link trains and enters DL_Up at a supported width and rate, and HEP_LINK.UP reads 1. -/
  | pcieLinkUp (width : BitVec 5) (rate : BitVec 4) (flit : Bool) (sris : Bool)
  /-- CONFIGURATION_WRITE (R261): A configuration write to PF0 changes MSI-X Enable, Function Mask, Interrupt Disable, PASID or ATS Enable, the completion timeout or the D-state, including the return from D3hot to D0. -/
  | configurationWrite (dt : Nat) (change : CfgChange)
  /-- THREAD_BASE_INSTRUCTION (R361): A thread executes a base RV64IMC instruction, such as a load, store, fetch, FENCE, ECALL or EBREAK while debug is closed, which performs its access or faults. -/
  | threadBaseInstruction (dt : Nat) (th : BitVec 10)
  /-- HAT_IN_LOW (R376): HAT_IN falling low ends an unassigned node's holding of the hat. -/
  | hatInLow (dt : Nat)
  /-- FOREIGN_ETHERTYPE_FRAME (R375): A bus frame with an EtherType other than 88B5h, a VERSION other than 01h or the node's own source address is discarded and counted in F000h.11 or F000h.06. -/
  | foreignEthertypeFrame (ethertype : BitVec 16) (version : Byte) (src : Byte)
  /-- FLASH_WEAR_LEVELLING (R437): When a sector of the RWP or event-log region passes its rotation count, the field side moves it, yielding to seal-state, leaf and RWP writes. -/
  | flashWearLevelling (sector : Nat) (busy : Bool)
  /-- JTAG_TAP_OPERATION (R416): TCK, TMS, TDI and TRST_N drive the main-die TAP, which decodes only BYPASS, IDCODE and SAMPLE/PRELOAD while the JTAG door is closed. -/
  | jtagTapOperation (trstN tms tdi : Bool)
  deriving DecidableEq, Repr

end Sys2Proof
end

