-- ==== Sys2Proof/Decode.lean ====
section
/-! DEFINITION. Commands by the table's bits: no row of spec/opcode_table.json gives bits, so no word spells one. -/

namespace Sys2Proof

/-- The command that a word spells by the table's bits: none (notes/assumptions/4.md). -/
def decodeTableWord (_nbits _w : Nat) : Option Instr := none

end Sys2Proof
end

