-- ==== Sys2Proof/Config.lean ====
section
/-! DEFINITION. What the spec leaves open: constants with no body, so that nothing can be proved of their values
but what a definition that uses them bounds; and the standard functions the spec names and does not spell out,
which stay uninterpreted. -/

namespace Sys2Proof.Config

/-- The n-th free value drawn (notes/assumptions/3.md). -/
opaque free : Nat → Nat

/-- R400: the number that follows a candidate which fails the test of FIPS 186-5, A.2.2, by the seed. -/
opaque keygenNext (seed : List Byte) : Nat
/-- R399, R104: the identifier (16 bytes) and the secret (32) of an HSS tree that the device draws, by key and tree. -/
opaque hssSecret (key tree : Nat) : List Byte
/-- RFC 8554: the randomizer of the signature with a leaf of a tree. -/
opaque hssRandom (key tree leaf : Nat) : List Byte
/-- R411: RFC 7030 and DICE certificates: the certificate for a subject and key. -/
opaque certificate (subject key : List Byte) : List Byte
/-- R278: the cryptographic timeout exponent that CAPABILITIES reports. -/
opaque spdmCtExponent : Nat
/-- R423: the setpoint (mV) of the fused voltage curve for a hottest sensor reading, 0.1 °C. -/
opaque vddCurve (tenths : Int) : Nat

/-- R56, R84: how many deserializer words a MAC's decoder takes at most from a symbol's word to its start of frame. -/
opaque pcsLag : Nat → Nat
/-- R58: a lane's fused delays, receive and transmit, 1/256 of 0.25 ns. -/
opaque laneRx : Nat → Nat
opaque laneTx : Nat → Nat
/-- R58: a lane's fused temperature coefficients, receive and transmit, 1/256 of 0.25 ns for each step of its sensor. -/
opaque laneRxCoef : Nat → Int
opaque laneTxCoef : Nat → Int
/-- R58, R84: what no calibrated receive delay of a MAC exceeds, 1/256 of 0.25 ns. -/
opaque laneRxMax : Nat → Nat
/-- R55: the endpoint's receive latency constant for a trained rate and width, units. -/
opaque rxLatency : Nat → Nat → Nat
/-- R267: by how much the completion timeout of an encoding of Device Control 2 lies above the least value of its
range, µs. -/
opaque ctoWithin : Nat → Nat

/-! Constants of the one device (R398 to R417), by bytes. -/

/-- R398, R399: the fused unique secret. -/
opaque uds : List Byte
/-- R400: the ROM version word. -/
opaque romVersion : List Byte
/-- R259, R386 1000h.04: the serial number. -/
opaque serial : BitVec 64
/-- R413: the initial operator key, its salt and its iteration count. -/
opaque initialKop : List Byte
opaque initialSalt : List Byte
opaque initialIter : Nat
/-- R399: the Someox image keys. -/
opaque someoxEcdsa : List Byte
opaque someoxHss : List Byte
/-- R399: the Someox gauntlet key. -/
opaque someoxGauntlet : List Byte
/-- R409: the Someox root, intermediate and DeviceID certificates of slot 0. -/
opaque chainHead : List Byte
/-- R416: the instruction a TAP instruction code names: 0 BYPASS, 1 SAMPLE/PRELOAD, 2 IDCODE, else a private one. -/
opaque tapDecode (code : Nat) : Nat

end Sys2Proof.Config
end

