-- ==== Sys2Proof/Machine/State.lean ====
section
/-! DEFINITION. The state of the Ikiwerus as plain data: every register, table, queue, buffer, mode and pin the
spec gives the device, and the queue of the commands that wait. Each field's comment names the rule of spec/ that
gives it; its default is its value at reset (State.reset). Where the spec gives no reset value the value here is the
model's own (notes/assumptions/1.md and 2.md). -/

namespace Sys2Proof.Machine

/-- Why a command stops the model with a fault. -/
inductive Fault where
  /-- Raised by the admin commands (R308) whose 64-byte entry has another length, and by the other commands whose
  operands are no value their interface can carry: no such command exists on the hardware. Safe. -/
  | illFormed
  deriving DecidableEq, Repr

/-- Why the model has no meaning for a command. -/
inductive Refusal where
  /-- Raised by an arm of exec whose command has no meaning yet. Safe. -/
  | notModelled (mnemonic : String)
  deriving DecidableEq, Repr

/-- R6: a device time with its error bound (FFFFh: unknown). -/
structure Stamp where
  time  : BitVec 64 := 0
  bound : BitVec 16 := 0xFFFF
  deriving DecidableEq, Repr

/-- R61, R68, R83: what a stamp point hands on with a stamp. -/
structure StampTag where
  /-- R68: the value and bound; of a dual stamp the outgoing pair. -/
  raw    : Stamp := {}
  /-- R68: the incoming pair of a dual stamp. -/
  inc    : Option Stamp := none
  /-- R82: the core on whose timescale raw stands. -/
  core   : CoreId := .A
  /-- R83: parity of the active core's step count. -/
  parity : Bool := false
  /-- R61: the path correction attached. -/
  corr   : BitVec 16 := 0
  deriving DecidableEq, Repr

/-- R40: a complement-style value waiting for its complement. -/
structure Arm where
  /-- R40: who wrote the value, where, and when. -/
  req   : Requester
  addr  : Nat
  value : Word
  at_   : Nat
  deriving DecidableEq, Repr

/-- R257, R265: a request's ordering attributes: Relaxed Ordering and ID-Based Ordering. -/
structure ReqAttr where
  ro  : Bool := false
  ido : Bool := false
  deriving DecidableEq, Repr

/-- What leaves the device: the observer's side of every interface. -/
inductive Out where
  /-- completion of a BAR0, BAR2 or BAR4 read. -/
  | readData (data : List Byte)
  /-- Unsupported Request on a BAR access (bar, offset). -/
  | unsupported (bar : Nat) (off : Nat)
  /-- R263: Completer Abort. -/
  | completerAbort (off : Nat)
  /-- R269, R434: a configuration request answered with Request Retry Status. -/
  | cfgRetry
  /-- R270: an error message: 0 correctable, 1 non-fatal, 2 fatal. -/
  | errMessage (severity : Nat)
  /-- a posted write of DMA, completion, shadow, sample or export data; R276: whether its address is translated. -/
  | hostWrite (pasid : Option (BitVec 20)) (xl : Bool) (addr : BitVec 64) (data : List Byte) (attr : ReqAttr)
  /-- a memory read request with its tag. -/
  | hostRead (pasid : Option (BitVec 20)) (xl : Bool) (addr : BitVec 64) (len : Nat) (tag : BitVec 14) (attr : ReqAttr)
  /-- an interrupt message write. -/
  | msi (addr : BitVec 64) (data : Word)
  /-- R272: INTA asserted or deasserted. -/
  | intx (on : Bool)
  /-- R276: a Translation Request. -/
  | atsRequest (pasid : Option (BitVec 20)) (page : Nat)
  /-- R277: an Invalidate Completion. -/
  | atsInvalidated (itag : BitVec 5)
  /-- R278: a DOE response object. -/
  | doe (data : List Byte)
  /-- R120: a frame on the wire with its FCS. -/
  | frame (mac : Fin 16) (data : List Byte)
  /-- R122: the frame in transmission is cut off. -/
  | frameCut (mac : Fin 16)
  /-- R441: a MAC's link has trained with these transmit sources and polarities, by lane (PRT_LANE_CFG). -/
  | trained (mac : Fin 16) (cfg : List Word)
  /-- R125: a PFC frame on the wire. -/
  | pfcFrame (mac : Fin 16) (data : List Byte)
  /-- R72: a rising edge at PPS_OUT, and how long the output stays high, units. -/
  | ppsOut (width : Nat)
  /-- R374, R375, R379: a Usnan frame of the node, from its destination address to its FCS. -/
  | bus (frame : List Byte)
  /-- R371: a side sends a glove message, the first time or again, with its CRC-32C. -/
  | glove (side : Side) (msg : GloveMsg) (crc : Word)
  /-- R371: the acknowledgement of a glove message by its SEQ. -/
  | gloveAck (side : Side) (seq : BitVec 16)
  /-- R383: an object write or read that a command of its own makes ends with an abort code; 0 is none. -/
  | object (index sub code : Nat)
  /-- R416: TDO. -/
  | tdo (bit : Bool)
  deriving DecidableEq, Repr

/-! Time units (chapter 3). -/

/-- R45: states of a time core, in code order. -/
inductive CoreState where
  | off | freerun | acquiring | locked | holdover | fault | slaved
  deriving DecidableEq, Repr

/-- R47 to R49, R62, R66: one time core. Counts carry 8 fractional bits below 0.25 ns (R51). -/
structure TimeCore where
  /-- R45, R75 STATE PoR 1. -/
  st        : CoreState := .freerun
  /-- R46: the count at countAt, in 1/256 of a unit. -/
  count     : Nat := 0
  /-- the model's clock at which count stood. -/
  countAt   : Nat := 0
  /-- R51: the core sends strokes; set at bring-up step 5. -/
  running   : Bool := false
  /-- R51: the whole microsecond (B: plus 500 ns) of the last stroke sent, units; R49: moved by each step. -/
  strokeAt  : Option Nat := none
  /-- R62: last valid measured offset, 1/64 ns. -/
  theta     : Int := 0
  /-- R62: phase steered since, 1/1024 ns. -/
  phi       : Int := 0
  /-- R62: uncertainty of the measurement, 1/64 ns. -/
  unc       : Nat := 0
  /-- R62: the clock at the measurement's own time; none before the first. -/
  measAt    : Option Nat := none
  /-- R45: the clock at which a valid measurement was last taken. -/
  validAt   : Nat := 0
  /-- R47: measurement time of the previous accepted measurement, on the core's count. -/
  measTime  : Option (BitVec 64) := none
  /-- R62, R64: drift specification in force, 0.001 ppb; A010h.03 default. -/
  drift     : Nat := 10000
  /-- R48: reference in use, 0 none, 1 PPS, 2 PTP, 3 active core. -/
  ref       : Nat := 0
  /-- R48: PPS reference present. -/
  ppsOk     : Bool := false
  /-- R48: core time (units) of the last PPS edge. -/
  ppsLast   : Option (BitVec 64) := none
  /-- R48: the clock of that edge. -/
  ppsLastAt : Nat := 0
  /-- R48: PTP reference present. -/
  ptpOk     : Bool := false
  /-- R48: the clock of the last valid PTP measurement. -/
  ptpLastAt : Nat := 0
  /-- R48: the clock since which the primary reference is present without a break. -/
  primSince : Option Nat := none
  /-- R48: the clock since which no reference is present. -/
  noneSince : Option Nat := some 0
  /-- R45: the clock at which HOLDOVER began. -/
  holdSince : Option Nat := none
  /-- R49: consecutive valid measurements within the lock threshold. -/
  good      : Nat := 0
  /-- R75 TREF_OK: TREF present and PLL locked. -/
  trefOk    : Bool := false
  /-- R419: the signal at the core's TREF pin. -/
  trefIn    : Bool := true
  /-- R70: a valid measurement has been accepted since power-on. -/
  everValid : Bool := false
  /-- R47: TAI second label for the next edge (A020h). -/
  label     : Option (BitVec 64) := none
  /-- R66: in SLAVED, the term at the active core's last stroke. -/
  slaveTerm : Option Nat := none
  /-- R66: the clock of that stroke. -/
  slaveAt   : Nat := 0
  /-- R49: a measurement held until the core is the standby: its offset, 1/64 ns. -/
  heldStep  : Option Int := none
  /-- R83: parity of the active core's step count, which both cores hold (log 134). -/
  parity    : Bool := false
  /-- R51: the next stroke carries the STEP flag. -/
  stepFlag  : Bool := false
  /-- R65: widened term while the cross-check is violated. -/
  widened   : Option Nat := none
  /-- R62: what the core has steered in the last 2 s: the clock of each stroke and the phase, 1/1024 ns, newest first. -/
  steers    : List (Nat × Int) := []
  deriving DecidableEq, Repr

/-- R51: a stroke on its way to the replicas. -/
structure Stroke where
  /-- R51: emission time, 1/256 of a unit. -/
  time     : Nat
  /-- R51: the core's state. -/
  st       : CoreState
  /-- R51: term in 1/64 ns; none is FF_FFFFh. -/
  term     : Option Nat
  /-- R51: the TAKEOVER and STEP flags. -/
  takeover : Bool
  step     : Bool
  /-- the clock of emission. -/
  sentAt   : Nat
  /-- replicas that have not yet received it. -/
  due      : BitVec 40
  /-- R83: parity after this stroke. -/
  parity   : Bool
  deriving DecidableEq, Repr

/-- R51: a timescale as a stroke has set it: its value (1/256 unit), the clock at which it stood, and the rate learned
from successive strokes: num of 1/256 unit in den units of the clock. -/
structure Scale where
  value : Nat
  since : Nat
  num   : Nat := 256
  den   : Nat := 1
  deriving DecidableEq, Repr

/-- R51 to R54: one time replica. -/
structure Replica where
  /-- R51: timescale of core A. -/
  scaleA    : Option Scale := none
  /-- R51: timescale of core B. -/
  scaleB    : Option Scale := none
  /-- R56: the timescale of core A before its last setting, for the words latched then. -/
  prevA     : Option Scale := none
  /-- R56: the same of core B. -/
  prevB     : Option Scale := none
  /-- R63: core term of the last stroke of A, 1/64 ns. -/
  termA     : Option Nat := none
  /-- R63: core term of the last stroke of B. -/
  termB     : Option Nat := none
  /-- R69: the core treated as active. -/
  active    : CoreId := .A
  /-- R53: consecutive missed strokes of the active core. -/
  missed    : Nat := 0
  /-- R53: the replica term is unknown (PoR 1). -/
  unknown   : Bool := true
  /-- R53: consecutive strokes received, to 2. -/
  got       : Nat := 0
  /-- R52: calibrated one-way delay, 1/64 ns. -/
  lineDelay : Nat := 0
  /-- R68: produces dual stamps. -/
  dual      : Bool := false
  /-- R83: parity of the stamps it tags. -/
  parity    : Bool := false
  /-- R75 RUN: the island clock runs and two strokes have arrived. -/
  run       : Bool := false
  /-- R180: how far steps have moved the active value since power-on, 1/256 unit. -/
  moved     : Int := 0
  /-- R56: the clock of the last switch, and the timescale and the term that were active until then, for the words
  latched before it. -/
  switchAt  : Nat := 0
  oldScale  : Option Scale := none
  oldTerm   : Option Nat := none
  deriving DecidableEq, Repr

/-- R69: an open overlap window. -/
structure Takeover where
  outgoing : CoreId
  /-- R69: T_k on the incoming timescale, units. -/
  tk       : BitVec 64
  /-- R69: incoming minus outgoing at T_k, 1/64 ns. -/
  step     : Int
  /-- replicas that have not switched yet. -/
  left     : BitVec 40
  deriving DecidableEq, Repr

/-- R61: path corrections committed and waiting. -/
structure PcorrCommit where
  time : BitVec 64
  next : List (BitVec 16)
  deriving DecidableEq, Repr

/-- Chapter 3, device time: the cores, the replicas and the takeover. -/
structure Tim where
  /-- R44: the two time cores. -/
  coreA     : TimeCore := {}
  coreB     : TimeCore := {}
  /-- R44: the active core. -/
  active    : CoreId := .A
  /-- R51: last stroke of A still travelling. -/
  strokeA   : Option Stroke := none
  strokeB   : Option Stroke := none
  /-- R54: replicas 0 to 39 (a replica not listed is at its PoR). -/
  reps      : Map Replica := []
  /-- R69: the overlap window. -/
  tko       : Option Takeover := none
  /-- R75 TIM_TKO_START. -/
  tkoStart  : BitVec 64 := 0
  /-- R75 TIM_TKO_END. -/
  tkoEnd    : BitVec 64 := 0
  /-- R75 TIM_TKO_STEP, 1/64 ns. -/
  tkoStep   : Int := 0
  /-- R73: takeovers since power-on. -/
  tkoCount  : Nat := 0
  /-- R65: the cross-check is violated now. -/
  xchkFail  : Bool := false
  /-- R65 TIM_XCHK_DIFF, 1/64 ns. -/
  xdiff     : Int := 0
  /-- R73: violation starts since power-on, cleared by no read. -/
  xchkCount : Nat := 0
  /-- R67: the clock since which the active term exceeds the threshold and the standby's does not. -/
  overSince : Option Nat := none
  /-- R72: the clock of the last rise of PPS_OUT. -/
  ppsAt     : Option Nat := none
  /-- R72: how long PPS_OUT stays high from there, units. -/
  ppsWidth  : Nat := 0
  /-- R61: path corrections in force (TIM_PCORR_ACT), entries 0 to 17. -/
  pcorr     : Map (BitVec 16) := []
  /-- R61: the activation time of those, and the corrections before it. -/
  pcorrAt   : BitVec 64 := 0
  pcorrPrev : Map (BitVec 16) := []
  /-- R61: the commit that waits for its activation. -/
  pcorrWait : Option PcorrCommit := none
  /-- R61: STATUS of the last commit. -/
  pcorrStat : Nat := 0
  /-- R73: the clock of the last time-quality report. -/
  tqrAt     : Option Nat := none
  /-- R73: a change waits to be reported. -/
  tqrDue    : Bool := false
  deriving DecidableEq, Repr

/-! Plinth and ledger (chapter 4). -/

/-- R135, R297: the work entry an item came from: global queue, entry number, generation. -/
structure EntryRef where
  queue : Nat
  no    : Nat
  gen   : Byte
  deriving DecidableEq, Repr

/-- R78: a message as a stage presents it. -/
structure Msg where
  /-- R78: its stream. -/
  stream   : BitVec 6
  /-- R8: source identifier. -/
  src      : BitVec 18
  /-- R55: its stamp. -/
  tag      : StampTag
  /-- R78: the bytes the digest covers. -/
  data     : List Byte
  /-- R80: the MAC whose token the item holds. -/
  mac      : Option (Fin 16) := none
  /-- R220: the item presents further messages, and its token is not retired at this one. -/
  keep     : Bool := false
  /-- R80, R109: the session of a message of the session kind. -/
  session  : Option Nat := none
  /-- R297: the message queue and its entry, for the completion. -/
  entry    : Option EntryRef := none
  /-- R334: buffers held. -/
  bufs     : List Word := []
  /-- R229, R295: completion flags that its PDU brings. -/
  flags    : Nat := 0
  deriving DecidableEq, Repr

/-- R87: a message held by the plinth. -/
structure Held where
  msg      : Msg
  key      : BitVec 64
  /-- order of presentation. -/
  no       : Nat
  /-- R54, R88: when it was presented, by replica 38 without its steps. -/
  since    : Nat
  /-- R94: digest-skipped. -/
  skipped  : Bool
  /-- R94: the hash engine that digests it, and none where no digest is taken. -/
  engine   : Option Nat
  /-- R94: its digest, where that has finished. -/
  digest   : Option (List Byte) := none
  deriving DecidableEq, Repr

/-- R95: a pending gap. -/
structure Gap where
  first   : BitVec 64
  count   : Nat
  rawLo   : BitVec 64
  rawHi   : BitVec 64
  cls     : Nat
  /-- R96: the core of the first stamp. -/
  core    : CoreId := .A
  deriving DecidableEq, Repr

/-- R87, R109: the plinth's view of one stream. -/
structure StreamSt where
  /-- R109 CFG in force. -/
  cfg      : Word := 0
  /-- R109 MAIN_Q in force. -/
  mainQ    : BitVec 20 := 0
  /-- R109 LATE_Q in force. -/
  lateQ    : BitVec 20 := 0
  /-- R87: next sequence number. -/
  nextSeq  : BitVec 64 := 1
  /-- R87: key and tie rank of the last released message. -/
  horizon  : Option (BitVec 64 × Nat) := none
  /-- R109 HORIZON reads the key of the last released message. -/
  lastKey  : BitVec 64 := 0
  /-- R87: messages presented and not released, in order of key. -/
  held     : List Held := []
  /-- R89: late messages of the run. -/
  lateNo   : Nat := 0
  /-- R95: the pending gap. -/
  gap      : Option Gap := none
  /-- R88: excluded members, by member-table index. -/
  laggards : List Nat := []
  /-- R109 RELEASED. -/
  released : BitVec 64 := 0
  deriving DecidableEq, Repr

/-- R79: stream and member changes committed and waiting. -/
structure MembCommit where
  time    : BitVec 64
  members : Map (Word × Word)
  streams : Map (Word × BitVec 20 × BitVec 20)
  deriving DecidableEq, Repr

/-- R93, R94: a released message whose record waits for its digest. -/
structure RecWait where
  /-- R96: the record with a zero digest. -/
  record : List Byte
  /-- R97: the companion record of a dual stamp. -/
  comp   : Option (List Byte)
  /-- R94: the bytes still to digest; none when no digest is taken or it has finished. -/
  data   : Option (List Byte)
  /-- R94: the engine that holds the work. -/
  engine : Option Nat
  /-- R97: the stream whose records keep their order; 256 keeps its order with every record. -/
  stream : Nat
  deriving DecidableEq, Repr

/-- R98, R99: the open block. -/
structure Block where
  number  : BitVec 64 := 0
  opened  : BitVec 64 := 0
  /-- R54: when it opened, by replica 38 without its steps. -/
  openAt  : Nat := 0
  /-- R99: the number of its first record. -/
  first   : BitVec 64 := 0
  /-- R98: records in the order written. -/
  recs    : List (List Byte) := []
  /-- R98: messages in gaps, digests skipped, strict drops and late messages. -/
  gapmsg  : Nat := 0
  skipped : Nat := 0
  strict  : Nat := 0
  late    : Nat := 0
  /-- R99 FLAGS [3:1]. -/
  flags   : Nat := 0
  deriving DecidableEq, Repr

/-- R101: a unit that waits for export. -/
inductive ExpUnit where
  | block (number : BitVec 64) (header : List Byte) (recs : List (List Byte))
  | seal (data : List Byte)
  deriving DecidableEq, Repr

/-- R103: a seal request, and a pending one under R105. -/
structure SealReq where
  head    : List Byte
  last    : BitVec 64
  records : BitVec 64
  gapmsg  : BitVec 64
  skipped : BitVec 64
  strict  : BitVec 64
  late    : BitVec 64
  start   : BitVec 64
  end_    : BitVec 64
  deriving DecidableEq, Repr

/-- R83: a step of the active core: its size in units, the first device time after it, and the core. -/
structure StepNote where
  size  : Int
  first : BitVec 64
  core  : CoreId
  deriving DecidableEq, Repr

/-- Chapter 4: the plinth and the ledger. -/
structure Sql where
  /-- R79: member table in force, words 0 and 1 by index. -/
  members   : Map (Word × Word) := []
  /-- R79: the streams. -/
  streams   : Map StreamSt := []
  /-- R79: the commit that waits for its activation. -/
  membWait  : Option MembCommit := none
  /-- R108 SQL_MEMB_CMD.STATUS. -/
  membStat  : Nat := 0
  /-- R79: each activation of the run, newest first: its time and the member table before it. -/
  membPast  : List (BitVec 64 × Map (Word × Word)) := []
  /-- R82: the core of the plinth's timescale. -/
  scale     : CoreId := .A
  /-- R83: steps to handle, oldest first. -/
  steps     : List StepNote := []
  /-- R83: the step parity in force at the plinth. -/
  parity    : Bool := false
  /-- R82: messages stamped only on the incoming timescale, held until T_e. -/
  overlap   : List Msg := []
  /-- R78: messages that their stages have handed over for presentation, oldest first. -/
  inbox     : List Msg := []
  /-- order numbers given. -/
  nextNo    : Nat := 0
  /-- R94: records waiting for digests or for room. -/
  recq      : List RecWait := []
  /-- R94: bytes of digest work queued in each hash engine. -/
  engq      : Map Nat := []
  /-- R98: the open block. -/
  block     : Block := {}
  /-- R98: the SQL has opened block 0 of the run. -/
  open_     : Bool := false
  /-- R99: block hash of the last closed block. -/
  chain     : List Byte := []
  /-- R100, R108 SQL_RUN. -/
  run       : Word := 0
  /-- R108 SQL_REC_COUNT. -/
  recCount  : BitVec 64 := 0
  /-- R108 SQL_BLOCK_LAST; none before the first close. -/
  blockLast : Option (BitVec 64) := none
  /-- R108 SQL_SEAL_LAST; none before the first seal. -/
  sealLast  : Option (BitVec 64) := none
  /-- R104: sums over the closed blocks of the run. -/
  sumGap    : BitVec 64 := 0
  sumSkip   : BitVec 64 := 0
  sumStrict : BitVec 64 := 0
  sumLate   : BitVec 64 := 0
  /-- R95, R99: strict drops since the previous block closed. -/
  strictNew : Nat := 0
  /-- R101: units waiting for export, in order. -/
  units     : List ExpUnit := []
  /-- R102: bytes of unexported records and headers. -/
  area      : Nat := 0
  /-- R105: the pending request that has not been sent. -/
  pendSeal  : Option SealReq := none
  /-- R103, R108 SEALING: the request that is outstanding. -/
  sentSeal  : Option SealReq := none
  /-- R104: end of the last sealed epoch. -/
  lastEnd   : BitVec 64 := 0
  /-- R108 SQL_UNSEALED. -/
  unsealed  : Nat := 0
  /-- R103: the last epoch end handled. -/
  lastEpoch : BitVec 64 := 0
  /-- R103, R110: epoch length in force, ms. -/
  epochMs   : Nat := 1000
  /-- R110: block interval in force for the open block, µs. -/
  intervalUs : Nat := 1000
  /-- R110: record limit in force for the open block. -/
  recLimit  : Nat := 65536
  /-- R110: the ledger area in force for the open block, MiB. -/
  areaMb    : Nat := 4096
  /-- R110: the ledger enable in force for the open block. -/
  recording : Bool := true
  /-- R432: the SQL has closed the run's last block for an orderly end: when, and whether the end powers down. -/
  runEnd    : Option (Nat × Bool) := none
  /-- R84: raw stamps of tokens not retired, by MAC, oldest first. -/
  tokens    : Map (List (BitVec 64)) := []
  /-- R84: last heartbeat time by cluster. -/
  beat      : Map (BitVec 64) := []
  /-- R85: instances whose oldest pending doorbell was passed over. -/
  fetchExp  : List (Nat × BitVec 64) := []
  deriving DecidableEq, Repr

/-! Items of the data path (chapters 5 to 10). -/

/-- R143: a parsed header instance. -/
structure Hdr where
  typ : Nat
  off : Nat
  len : Nat
  deriving DecidableEq, Repr

/-- R157 to R160: what the fragmenting header says: the table key, the offset in bytes, whether more fragments
follow, and the payload bytes. -/
structure FragInfo where
  key     : List Byte
  off     : Nat
  more    : Bool
  payload : Nat
  deriving DecidableEq, Repr

/-- R149: a frame on its way, with its metadata. -/
structure Item where
  /-- bytes from the destination address to the byte before the FCS. -/
  frame   : List Byte
  /-- R155: the frame as it entered the intake. -/
  orig    : List Byte := []
  /-- R149: metadata by field number; an unlisted field is 0. -/
  fields  : Map Nat := []
  /-- R143: the header instances that the parser found. -/
  hdrs    : List Hdr := []
  /-- R55: its stamp. -/
  tag     : StampTag := {}
  /-- R150: PRIO, SRC_EP, UNPROT, SRC and QUEUE_IN as the item brings them. -/
  prio    : Nat := 0
  srcEp   : Nat := 0
  unprot  : Bool := false
  src     : Nat := 0
  queueIn : Nat := 0
  /-- R153: it is on its second pass. -/
  pass    : Bool := false
  /-- R164: swaps that its pipeline had completed at its intake. -/
  bankGen : Nat := 0
  /-- R162: swap time. -/
  swapT   : BitVec 64 := 0
  /-- R84: the MAC whose token the item holds. -/
  token   : Option (Fin 16) := none
  /-- R334: buffers the item holds. -/
  bufs    : List Word := []
  /-- R287: the work entry it comes from. -/
  entry   : Option EntryRef := none
  /-- R144: next stage to run; 16 when all have run. -/
  stage   : Nat := 0
  /-- R147, R182: the key of the lookup the item waits for. -/
  want    : Option Nat := none
  /-- R137: the clock at which the lookup was asked. -/
  wantAt  : Nat := 0
  /-- R177: the stages of TARGET 1 that ran with every fragment present: none for a miss, else the entry found. -/
  learn   : Map (Option Nat) := []
  /-- R152: dropped at a stage. -/
  dropped : Bool := false
  /-- R250: policer mark. -/
  mark    : Bool := false
  /-- R157: what its fragmenting header says, as parsed at intake. -/
  frag    : Option FragInfo := none
  /-- R159: the item is a fragment that took a stored decision. -/
  stored  : Bool := false
  /-- R123, R242: the class for which a frame was dequeued. -/
  cls     : Nat := 0
  /-- R155: mirror or device copy: no stage runs. -/
  copy    : Bool := false
  /-- R336: the requester that holds its buffers. -/
  holder  : Nat := 38
  /-- R117, R138: the clock at which its last byte has come in from the line; it goes on from then. -/
  ready   : Nat := 0
  deriving DecidableEq, Repr

/-- R133 to R135: one transmit stamp report. -/
structure TxReport where
  stamp : BitVec 64
  bound : BitVec 16
  ttag  : BitVec 16
  /-- R136: PRT_TXTS_FLAGS [4:0]. -/
  flags : BitVec 5
  deriving DecidableEq, Repr

/-- R127: a gate list: entries (gates, interval ns), base and cycle in ns. -/
structure GateList where
  entries : List (Byte × Nat) := []
  base    : BitVec 64 := 0
  cycle   : Nat := 0
  deriving DecidableEq, Repr

/-- Chapter 5: one MAC. -/
structure Mac where
  /-- R114: link up. -/
  link     : Bool := false
  /-- R120: frames in the transmit store, with URGENT. -/
  store    : List Item := []
  /-- R124: the clock until which priority p is paused. -/
  pause    : Map Nat := []
  /-- R125: occupancy of priority p, in buffers. -/
  occ      : Map Nat := []
  /-- R125: priorities in XOFF. -/
  xoff     : BitVec 8 := 0
  /-- R125: the clock of the last PFC frame sent. -/
  pfcAt    : Nat := 0
  /-- R127: the active gate list. -/
  gates    : GateList := {}
  /-- R128: a committed list and its activation time. -/
  gateWait : Option GateList := none
  /-- R136 PRT_GATE_CMD.STATUS. -/
  gateStat : Nat := 0
  /-- R129: the gates' last change to or from FALLBACK; the replica starts with an unknown term. -/
  fallback : Bool := true
  /-- R135: transmit stamp FIFO. -/
  txts     : List TxReport := []
  /-- R122: the clock at which the frame in transmission ends, whether the newest report of the FIFO is its own (R135),
  and its bytes. -/
  sendEnd  : Nat := 0
  sendRep  : Bool := false
  sendLen  : Nat := 0
  /-- R134, R135: the work entry of that frame, which ends with it: its report and its length. -/
  sendEntry : Option (EntryRef × Option TxReport × Nat) := none
  /-- R125: a PFC frame is owed once the frame in transmission has ended: the priorities that it releases. -/
  pfcOwed  : Option (BitVec 8) := none
  /-- R125: the clock at which the last PFC frame has left, and the priorities in XOFF that it named. -/
  pfcEnd   : Nat := 0
  pfcXoff  : BitVec 8 := 0
  /-- R119: received frames that wait behind one in a cipher lane, which stands as none. -/
  rxHold   : List (Option Item) := []
  /-- R120: the same of frames handed over for transmission. -/
  txHold   : List (Option Item) := []
  deriving DecidableEq, Repr

/-- R58: what one lane's calibration holds beside its fuses. -/
structure Lane where
  /-- R58: the bit-slip counts that the last link-up added, receive and transmit. -/
  slipRx : Nat := 0
  /-- R58: the transmit one. -/
  slipTx : Nat := 0
  /-- R58: the lane sensor's reading, and the millisecond of the clock in which it was refreshed. -/
  temp   : Nat := 0
  tempMs : Option Nat := none
  /-- R441: TXSRC and polarities in force since the MAC's last link training. -/
  cfg    : Option Word := none
  deriving DecidableEq, Repr

/-- Chapter 5: the ports. -/
structure Prt where
  macs : Map Mac := []
  /-- R58: lanes 0 to 15. -/
  lanes : Map Lane := []
  /-- R111: mode in force of group 0 and 1. -/
  mode0 : Nat := 0
  mode1 : Nat := 0
  /-- R113: BUSY of a group while the field side switches domains. -/
  busy0 : Bool := false
  busy1 : Bool := false
  deriving DecidableEq, Repr

/-- R158: a fragment-table entry. -/
structure Frag where
  key   : List Byte
  /-- R158: the stored decision: metadata fields. -/
  dec   : Map Nat
  /-- R158: the stored verdict is a drop. -/
  drop  : Bool
  /-- R160: the bytes of all fragments once the last has come, and those seen. -/
  total : Option Nat
  sum   : Nat
  /-- R160: the clock at which it last served a fragment. -/
  used  : Nat
  deriving DecidableEq, Repr

/-- R161: one set of program and table bytes of a pipeline: offsets 0000h to 8FFFh parse graph, stage
configurations and actions, 10_0000h on the stage banks, 100_0000h on the ternary pool. -/
abbrev PclBank := List Host.Cell

/-- R163: a committed swap. -/
structure Swap where
  time     : BitVec 64
  mask     : BitVec 17
  /-- the activation time has been reached. -/
  settling : Bool := false
  /-- R164: the swap time of the first item on the new banks has been recorded. -/
  first    : Bool := false
  deriving DecidableEq, Repr

/-- R164: the banks that a completed swap replaced: its number, its mask and its activation time. -/
structure OldBank where
  gen  : Nat
  mask : BitVec 17
  time : BitVec 64
  bank : PclBank
  deriving DecidableEq, Repr

/-- Chapter 6: one pipeline. -/
structure Pipe where
  /-- R138: port intake buffer. -/
  port     : List Item := []
  /-- R138: internal intake: second pass first, then host and thread frames in turn. -/
  ret      : List Item := []
  host     : List Item := []
  thread   : List Item := []
  /-- R138: host frames that the transport engine holds while the internal intake is full. -/
  held     : List Item := []
  /-- R138: a thread frame goes next. -/
  thrTurn  : Bool := false
  /-- R138: items taken from the port since the last internal one. -/
  portRun  : Nat := 0
  /-- R137: items between intake and exit, in intake order. -/
  flight   : List Item := []
  /-- R161: the active banks and the staged ones. -/
  active   : PclBank := []
  staged   : PclBank := []
  /-- R169 PROG_VALID. -/
  valid    : Bool := false
  /-- R166: the staging area holds a program that was valid. -/
  stagedOk : Bool := false
  /-- R166 VERIFIED. -/
  verified : Bool := false
  /-- R166: STATUS and DETAIL of the last verification. -/
  loadStat : Nat := 0
  loadDet  : Nat := 0
  /-- R163: the swap that waits or settles. -/
  swap     : Option Swap := none
  /-- R163 STATUS of the last commit. -/
  swapStat : Nat := 0
  /-- R164: the activation time of the last swap, and the first use of its banks. -/
  lastT    : BitVec 64 := 0
  firstT   : BitVec 64 := 0
  /-- R164: no item had used the new banks of the last swap when its settle time ended. -/
  firstDue : Bool := false
  /-- R164: swaps completed, and the banks that they replaced, while items that may still use these are in flight. -/
  swaps    : Nat := 0
  olds     : List OldBank := []
  /-- R161: stages a running bank copy names. -/
  copying  : Option (BitVec 16) := none
  /-- R158: the fragment table. -/
  frags    : List Frag := []
  /-- R159: early store, with the clock of arrival. -/
  early    : List (Item × Nat) := []
  deriving DecidableEq, Repr

/-- R178: a learn request. -/
structure LearnReq where
  key : BitVec 64
  ep  : BitVec 20
  deriving DecidableEq, Repr

/-- R183: a command on learning tables: its operation, the tables that it has still to work on, the clock of the next table's
point, its status so far, and whether it named several tables. -/
structure FwtRun where
  op      : Nat
  replace : Bool
  left    : List Nat
  at_     : Nat
  worst   : Nat := 0
  many    : Bool
  deriving DecidableEq, Repr

/-- Chapter 7: the forwarding tables. -/
structure Fwt where
  /-- R172: regions being zeroed: bit 0 endpoint table, bit 1 + t learning table t. -/
  init   : BitVec 5 := 0
  /-- R175: endpoint entries. -/
  ep     : Map (BitVec 256) := []
  /-- R178: learned-count array. -/
  count  : Map Nat := []
  /-- R176: learning entries, key 2^20 * t + slot. -/
  lrn    : Map (BitVec 256) := []
  /-- R178: requests queued by pipeline p. -/
  reqs   : Map (List LearnReq) := []
  /-- R180: the present pass: its start, by replica 39 without its steps, and its period, ms. -/
  pass   : Option (Nat × Nat) := none
  /-- R180: next slot of table t, and the start and the period of the pass that it is in. -/
  sweep  : Map (Nat × Nat × Nat) := []
  /-- R183: the command that runs. -/
  run    : Option FwtRun := none
  /-- R185 STATUS of the last command. -/
  stat   : Nat := 0
  /-- R186 FWT_CMD_EPCOUNT. -/
  epcount : Nat := 0
  /-- R186 FWT_CMD_RES[t]. -/
  res    : Map (Nat × Nat) := []
  deriving DecidableEq, Repr

/-- R194: a security association. -/
structure Sa where
  /-- R194: bytes 00h to 3Fh, little-endian, STATE and KEYED in place. -/
  words : BitVec 512 := 0
  /-- R194: key material. -/
  key   : BitVec 512 := 0
  /-- R197: number of the hidden IV key drawn. -/
  ivKey : Nat := 0
  deriving DecidableEq, Repr

/-- R187: the point at which an item reaches the unit. -/
inductive RwcPoint where
  | ingress (pipe : Fin 4) | macTx (mac : Fin 16) | macRx (mac : Fin 16)
  deriving DecidableEq, Repr

/-- R203: a lookaside job that has begun. -/
structure LaJob where
  queue : Nat
  entry : EntryRef
  slots : List Byte
  deriving DecidableEq, Repr

/-- R198: an expiry entry. -/
structure SaExp where
  sa     : BitVec 20
  hard   : Bool
  byTime : Bool
  deriving DecidableEq, Repr

/-- Chapter 8: the rewrite and cipher unit. -/
structure Rwc where
  /-- R188, R193: regions being zeroed. -/
  initTpl : Bool := false
  initSa  : Bool := false
  /-- R188, R193: templates, option blocks and security associations by number. -/
  tpl     : Map (BitVec 1024) := []
  opt     : Map (BitVec 2048) := []
  sas     : Map Sa := []
  /-- R198: the expiry FIFO. -/
  exp     : List SaExp := []
  /-- R209: inline input store. -/
  input   : List (RwcPoint × Item) := []
  /-- R203: lookaside jobs, oldest first. -/
  jobs    : List LaJob := []
  /-- R210: fenced lanes. -/
  fenced  : BitVec 8 := 0
  /-- R212: tests passed since power-on, lane by lane. -/
  passes  : Map Nat := []
  /-- R210: replica-27 time of the last test of each lane. -/
  tested  : Map Nat := []
  /-- R213: failures since power-on. -/
  fails   : Nat := 0
  /-- R213: STATUS of the last SA and template commands. -/
  saStat  : Nat := 0
  tplStat : Nat := 0
  deriving DecidableEq, Repr

/-- R222, R289: a send entry of a session. -/
structure SendEnt where
  ref   : EntryRef
  op    : Nat
  data  : List Byte
  /-- sequence number of its first byte. -/
  seq   : Nat
  /-- R291: the stamp of its doorbell. -/
  tag   : StampTag
  /-- R227: the remote address and key of an RDMA operation. -/
  remote : BitVec 64 := 0
  rkey  : Word := 0
  deriving DecidableEq, Repr

/-- R229: a PDU whose last byte has arrived, with what its item carried. -/
structure Pdu where
  session : Nat
  /-- sequence number of its first byte. -/
  seq     : Nat
  /-- R229: its bytes, and the stamp of the item that completed it. -/
  data    : List Byte
  tag     : StampTag
  /-- R83: the MAC whose token it holds. -/
  mac     : Option (Fin 16)
  /-- R225: STREAM and LCLASS of the item. -/
  stream  : Nat
  /-- R229: LCLASS of the item. -/
  lclass  : Nat
  /-- it is the last its item completes: R220. -/
  final   : Bool
  deriving DecidableEq, Repr

/-- R214, R233: a session. -/
structure Sess where
  /-- R233: the 256-byte context, little-endian. -/
  ctx     : BitVec 2048 := 0
  /-- R218: the key of its index entry. -/
  key     : BitVec 320 := 0
  /-- R216: the time of replica 28 at which QUARANTINE began. -/
  quarAt  : Nat := 0
  /-- R222: first byte not acknowledged, time of replica 28; segments since. -/
  ackAt   : Option Nat := none
  ackSegs : Nat := 0
  /-- R222: an ACK is owed at once (after row 8). -/
  ackNow  : Bool := false
  /-- R222: the retransmission timer runs since this time of replica 28. -/
  rtoAt   : Option Nat := none
  /-- R222: timeouts in a row without progress. -/
  retries : Nat := 0
  /-- R222: duplicate acknowledgments in a row. -/
  dups    : Nat := 0
  /-- R222: ranges the peer has SACKed. -/
  sacked  : List (Nat × Nat) := []
  /-- R222: highest right window edge advertised. -/
  edge    : Nat := 0
  /-- R222: send entries not finished, oldest first. -/
  sends   : List SendEnt := []
  /-- R223: bytes of the message being received. -/
  part    : List Byte := []
  /-- R225: the items that placed them: how many bytes, and the item's stamp. -/
  partTags : List (Nat × StampTag) := []
  /-- R229: the bytes of the PDU that the send entries so far have begun. -/
  sendPart : List Byte := []
  /-- R222: the latest doorbell stamp. -/
  stamp   : StampTag := {}
  /-- R227: a NAK was sent for the present gap. -/
  naked   : Bool := false
  /-- R228: the time of the last CNP, of replica 28. -/
  cnpAt   : Option Nat := none
  /-- R222: smoothed round trip and variance, µs. -/
  srtt    : Option (Nat × Nat) := none
  /-- R222: NewReno recovery point, while the recovery lasts. -/
  recover : Option Nat := none
  /-- R222, RFC 6582: SND.NXT at the last fast retransmission or timeout. -/
  high    : Option Nat := none
  /-- R222, R227: the next sequence number to send again, while it lies before SND.NXT. -/
  resend  : Option Nat := none
  /-- R222: the end of the segment whose round trip is timed, and the time of its sending, of replica 28. -/
  timed   : Option (Nat × Nat) := none
  /-- R227: messages completed for the peer, and the rest of an RDMA WRITE: address and length. -/
  msn     : Nat := 0
  /-- R227: the rest of an RDMA WRITE: address and length. -/
  write   : Option (Nat × Nat) := none
  deriving DecidableEq, Repr

/-- Chapter 9: the transport engine. -/
structure Trn where
  initCtx : Bool := false
  initIdx : Bool := false
  sess    : Map Sess := []
  /-- R217: index entries: bucket * 4 + slot to key and session. -/
  idx     : Map (BitVec 320 × Nat) := []
  /-- R217: STATUS of the last command. -/
  stat    : Nat := 0
  /-- items that the exits handed over, in order. -/
  input   : List Item := []
  /-- R229: PDUs that wait for their digest checks and their placement, oldest first. -/
  pdus    : List Pdu := []
  deriving DecidableEq, Repr

/-- R237: a frame in a leaf. -/
structure TmFrame where
  item  : Item
  flen  : Nat
  /-- R237: enqueue time on replica 29. -/
  enq   : BitVec 64
  /-- R238: overflowed. -/
  ovf   : Bool
  deriving DecidableEq, Repr

/-- R239, R243, R256: a node: its entry words, its bucket level in millibits and its deficit. -/
structure Node where
  words   : BitVec 256 := 0
  level   : Int := 0
  /-- R243: below zero after a fixed head's F that the deficit no longer covered. -/
  deficit : Int := 0
  frames  : List TmFrame := []
  /-- R327: its context could not be read; it is as if not EN until software writes it. -/
  bad     : Bool := false
  deriving DecidableEq, Repr

/-- R247: a write that waits for the next refill. -/
inductive TmPend where
  | node (lvl : Nat) (idx : Nat) (words : BitVec 256)
  | reg (addr : Nat) (value : Word)
  deriving DecidableEq, Repr

/-- Chapter 10: the traffic manager. -/
structure Tmg where
  leaf   : Map Node := []
  inst   : Map Node := []
  group  : Map Node := []
  /-- R249: policers. -/
  pol    : Map Node := []
  /-- R239: bucket levels of classes and ports. -/
  clsLvl : Map Int := []
  prtLvl : Map Int := []
  /-- R244: class heads: the leaf, and the clock of the pick. -/
  head   : Map (Nat × Nat) := []
  /-- R239: the clock of the last refill, or since when the island clock runs. -/
  refillAt : Nat := 0
  /-- R247: writes that wait for the next refill. -/
  pend   : List TmPend := []
  /-- R255 TMG_CMD: BUSY and STATUS. -/
  busy   : Bool := false
  stat   : Nat := 0
  /-- frames on their way to a leaf: R236. -/
  input  : List (Item × Nat) := []
  /-- R250: items at the policer unit, with their ingress pipeline. -/
  polIn  : List (Item × Fin 4) := []
  /-- R253 TMG_SAMPLE_PROD. -/
  prod   : Word := 0
  /-- R252: dequeues counted toward the next sample, by MAC. -/
  nth    : Map Nat := []
  /-- R253: the clock of the last sample written. -/
  sampleAt : Option Nat := none
  deriving DecidableEq, Repr

/-! Host endpoint (chapter 11). -/

/-- R266: what an outstanding tag's read serves. -/
inductive TagUse where
  /-- R319: a burst, by its number, of a DMA channel in its program of this number, and its length; R277: the cached
  translations that the read used; R305: the instance that it acts for, and that one's generation. -/
  | dma (ch run no len : Nat) (pages : List Nat) (who : Option (BitVec 16 × Byte))
  /-- R322: a flush read of a channel in its program of this number, and the translations that it used. -/
  | flush (ch run : Nat) (pages : List Nat)
  deriving DecidableEq, Repr

/-- R276: a transfer held for its translation: pasid, page, and the channel that waits. -/
structure AtsWait where
  pasid : Option (BitVec 20)
  page  : Nat
  ch    : Nat
  deriving DecidableEq, Repr

/-- R277: an invalidation that waits: its tag, the range it names, the reads that must end first, and the bursts whose
writes must be sent (channel, program and number). -/
structure Inval where
  itag  : BitVec 5
  scope : AtsScope
  page  : Nat
  pages : Nat
  reads : List Nat
  bursts : List (Nat × Nat × Nat) := []
  deriving DecidableEq, Repr

/-- R270: errors PF0's AER capability records; refusedWrite is an Unsupported Request that is posted. -/
inductive AerErr where
  | unsupported | refusedWrite | completerAbort | poisoned | ecrc | timeout | unexpected
  | malformed | overflow | flowControl | dataLink | internal
  | receiver | badTlp | badDllp | replayTimeout | replayRollover
  deriving DecidableEq, Repr

/-- Chapter 11: the host endpoint. -/
structure Hep where
  /-- R279 HEP_LINK. -/
  up      : Bool := false
  flit    : Bool := false
  sris    : Bool := false
  width   : BitVec 5 := 0
  rate    : BitVec 4 := 0
  /-- R434: configuration requests answered with Request Retry Status. -/
  crs     : Bool := true
  /-- R261: Memory Space Enable. -/
  mse     : Bool := false
  /-- R268: Bus Master Enable. -/
  bme     : Bool := false
  /-- R261: D3hot. -/
  d3      : Bool := false
  /-- R272: MSI-X Enable. -/
  msix    : Bool := false
  /-- R273: Function Mask. -/
  fmask   : Bool := false
  /-- R272: Interrupt Disable. -/
  intxDis : Bool := false
  /-- R275: PASID Enable. -/
  pasid   : Bool := false
  /-- R276: ATS Enable. -/
  ats     : Bool := false
  /-- R267: completion-timeout field of Device Control 2. -/
  cto     : BitVec 4 := 0
  /-- R270: errors logged, oldest first. -/
  aer     : List AerErr := []
  /-- R270: the status registers of AER, correctable and uncorrectable; the First Error Pointer; the header log. -/
  aerCor  : Word := 0
  aerUnc  : Word := 0
  aerFirst : Option Nat := none
  aerHdr  : List Word := []
  /-- R259, R260: doublewords of configuration space that stand away from their reset value, by offset: what is written
  there beside the fields that stand here under their own names. -/
  cfg     : Map Word := []
  /-- R278: the DOE mailbox: the object being written, and the response being read, in doublewords. -/
  doeIn   : List Word := []
  doeOut  : List Word := []
  /-- R278: DOE Error. -/
  doeErr  : Bool := false
  /-- R338: credits by receive credit type (posted, non-posted and completion headers and data in turn): advertised and
  free, less what each was after the link trained, and consumed. -/
  rxAdv   : Map Nat := []
  rxUsed  : Map Nat := []
  rxFree  : Map Int := []
  /-- R266: outstanding tags and their use. -/
  tags    : Map TagUse := []
  /-- R269: quarantined tags. -/
  quar    : List Nat := []
  /-- R269: for each reset whose tags are quarantined: its clock, the timeout then in force, in units, and the tags. -/
  quarAt  : List (Nat × Nat × List Nat) := []
  /-- R279 HEP_EPOCH. -/
  epoch   : Byte := 0
  /-- R269: a function-level reset runs since this clock. -/
  flrAt   : Option Nat := none
  /-- R263: active window entries: CTRL, TARGET. -/
  win     : Map (Word × BitVec 48) := []
  /-- R263: STATUS of the last window commit. -/
  winStat : Nat := 0
  /-- R264: BUSY of HEP_WIN_CMD reads 1 until this clock. -/
  winTill : Nat := 0
  /-- R273: pending bits of PF0 vectors. -/
  pend    : List Nat := []
  /-- R271: vectors of blocks whose event register is not yet cleared by a read. -/
  raised  : List Nat := []
  /-- R272: INTA asserted. -/
  inta    : Bool := false
  /-- R274: instance vectors. -/
  iv      : Map (BitVec 128) := []
  /-- R269, R274: what an instance vector not listed holds: function-level reset sets MASK in every entry. -/
  ivDflt  : BitVec 128 := 0
  /-- R274: STATUS of the last instance-vector command. -/
  ivStat  : Nat := 0
  /-- R276: translation cache: key pasid * 2^52 + page to translated page. -/
  cache   : Map Nat := []
  /-- R276: translations asked for and not answered. -/
  atsWait : List AtsWait := []
  /-- R276: pages whose translation was denied, for the transfer that asked. -/
  denied  : List Nat := []
  /-- R277: invalidations not yet completed, in arrival order. -/
  inval   : List Inval := []
  /-- R278, R411: the SPDM request that waits for the field side, what has been read for it of a chain and of slot 0's
  chain, and its answer without the signature. -/
  doe     : Option (List Byte) := none
  doeBuf  : List Byte := []
  doeChain : Option (List Byte) := none
  doePart : List Byte := []
  /-- R278: the requester has sent GET_VERSION. -/
  spdm    : Nat := 0
  /-- R411: the parts of the transcript: version, capabilities and algorithms; digests and certificates; measurements. -/
  spdmLog : List Byte := []
  spdmB   : List Byte := []
  spdmL   : List Byte := []
  deriving DecidableEq, Repr

/-! Instances and queues (chapter 12). -/

/-- R280: instance states; an instance not listed is FREE. -/
inductive InstSt where
  | free | active | resetting | error
  deriving DecidableEq, Repr

/-- Chapter 12: one instance. -/
structure Inst where
  st      : InstSt := .free
  gen     : Byte := 0
  qbase   : Nat := 0
  qcount  : Nat := 0
  vbase   : Nat := 0
  vcount  : Nat := 0
  pasid   : BitVec 20 := 0
  pasidV  : Bool := false
  ats     : Bool := false
  /-- R281 BKL_QUOTA, KiB. -/
  quota   : Nat := 0
  /-- R281 OVER_QUOTA: a quota was set below the occupancy, which has not fallen below it since. -/
  overQ   : Bool := false
  /-- R308: bytes 8 to 43 of the creating entry. -/
  made    : List Byte := []
  /-- R282 INST_ERR: ACCESS, DOORBELL, STALE, REQUEST, each stopping at FFh. -/
  errAcc  : Nat := 0
  errDb   : Nat := 0
  errStale : Nat := 0
  errReq  : Nat := 0
  /-- R282 REQ_STAT: BUSY, STATUS, SEQ. -/
  busy    : Bool := false
  status  : Byte := 0
  seq     : BitVec 16 := 0
  /-- R282 REQUEST and RESPONSE bytes. -/
  request : Map Byte := []
  response : Map Byte := []
  /-- R305: the clock of the reset's start, and whether it ends in FREE. -/
  resetAt : Option (Nat × Bool) := none
  /-- R308: the admin command that waits for the reset: completion tag. -/
  waiter  : Option (Word × Word) := none
  deriving DecidableEq, Repr

/-- R290: queue states; a queue not listed is NONE. -/
inductive QSt where
  | none | disabled | enabled | error
  deriving DecidableEq, Repr

/-- R298: the end of an entry that has begun. -/
inductive EntSt where
  | running | waiting | finished (status : Byte)
  deriving DecidableEq, Repr

/-- R286, R287: an entry that has begun. -/
structure Entry where
  no     : Nat
  cb     : Bool
  op     : Byte
  utag   : Word
  slots  : List Byte
  st     : EntSt := .running
  len    : Nat := 0
  stamp  : StampTag := {}
  /-- R297: STAMP of the completion when the item gave one. -/
  cstamp : Option Stamp := none
  /-- R297: DETAIL and FLAGS of its completion. -/
  detail : Word := 0
  flags  : BitVec 16 := 0
  deriving DecidableEq, Repr

/-- R301: an item bound for a receive queue. -/
structure Delivery where
  queue  : Nat
  data   : List Byte
  /-- R295: completion fields. -/
  stamp  : Option Stamp
  detail : Word
  flags  : BitVec 16
  /-- R78, R92: it is a plinth message. -/
  plinth : Option Nat := none
  /-- R305: the generation of the instance it is meant for. -/
  gen    : Option Byte := none
  /-- R336: the buffers it holds. -/
  bufs   : List Word := []
  /-- R289: the transmit entry that ends when it is placed or refused. -/
  entry  : Option EntryRef := none
  /-- R220: a frame that R219 delivers to an exception queue. -/
  exq    : Bool := false
  deriving DecidableEq, Repr

/-- Chapter 12: one queue. -/
structure Queue where
  kind    : Nat := 0
  st      : QSt := .none
  owner   : Option (BitVec 16) := none
  local_  : Nat := 0
  log2    : Nat := 4
  ring    : BitVec 64 := 0
  shadow  : BitVec 64 := 0
  cq      : Nat := 0
  prio    : Nat := 0
  pipe    : Nat := 0
  stream  : Option (BitVec 6) := none
  ep      : Nat := 0
  /-- R442: instance number under which a PF0 message queue presents. -/
  asInst  : BitVec 16 := 0
  /-- R300: vector and interrupt mode. -/
  vec     : Option Nat := none
  imode   : Nat := 0
  armed   : Bool := false
  /-- R302: limits, KiB. -/
  bklLim  : Nat := 0
  bklSram : Nat := 0
  /-- R287: device head, recorded tail, published head. -/
  head    : Word := 0
  tail    : Word := 0
  pub     : Word := 0
  /-- R285: completion producer and consumer. -/
  prod    : Word := 0
  cons    : Word := 0
  /-- R287: slots fetched and not begun, from head, with the index of the first. -/
  fetched : List (List Byte) := []
  /-- R287: a phase mismatch stopped fetching until the next doorbell. -/
  stopped : Bool := false
  /-- R298: entries begun and not covered, oldest first. -/
  ents    : List Entry := []
  /-- R287: the number of the next entry to begin. -/
  entNo   : Nat := 0
  /-- R294, R304: accepted work doorbells not yet passed: tail, stamp, clock. -/
  bells   : List (Word × StampTag × Nat) := []
  /-- R303: places reserved in this completion queue. -/
  places  : Nat := 0
  /-- R303: completions in the backlog. -/
  cqBack  : List (List Byte) := []
  /-- R303: the clock since which CQ_FULL reads 1. -/
  fullAt  : Option Nat := none
  /-- R302: receive backlog. -/
  back    : List Delivery := []
  /-- R280, R308: RX_DROP, stopping at FFFF_FFFFh. -/
  rxDrop  : Nat := 0
  /-- R304: Q_DISABLE waits: completion tag. -/
  disabling : Option (Word × Word) := none
  deriving DecidableEq, Repr

/-- R312: an instance event. -/
structure InstEvt where
  cause : Nat
  inst  : BitVec 16
  queue : Nat
  deriving DecidableEq, Repr

/-- Chapter 12: the queues and the instances. -/
structure Qim where
  inst     : Map Inst := []
  queue    : Map Queue := []
  /-- R312 QIM_AQ_HEAD, QIM_ACQ_TAIL, QIM_MED_PROD. -/
  aqHead   : Word := 0
  acqTail  : Word := 0
  medProd  : Word := 0
  /-- R307: an admin command waits (R305 step 4 or R304). -/
  aqBusy   : Bool := false
  /-- R303, R307: admin completions that find the ring full. -/
  acqBack  : List (List Byte) := []
  /-- R311: the FIFO of instance events. -/
  ievt     : List InstEvt := []
  /-- R301: items for receive queues, in arrival order. -/
  deliv    : List Delivery := []
  deriving DecidableEq, Repr

/-! DMA, memory and buffers (chapter 13). -/

inductive ChSt where
  | idle | running | waiting | haltedBme
  deriving DecidableEq, Repr

/-- R319: a burst that has been issued and whose write has not left. -/
structure Burst where
  no    : Nat
  /-- R325: the MOVE it belongs to, and the counts of MOVEs and LOOPs when that MOVE began. -/
  pc    : Nat
  ks    : Map Nat
  loops : Map Nat
  /-- R276: its destination: internal, or host with the pieces of its translation. -/
  dst   : Option (List (Bool × Nat × Nat))
  addr  : Nat
  len   : Nat
  /-- R277: the cached translations that its write uses. -/
  pages : List Nat
  /-- what its read has brought. -/
  data  : Option (List Byte) := none
  deriving DecidableEq, Repr

/-- Chapter 13: one DMA channel. -/
structure Chan where
  st      : ChSt := .idle
  status  : Nat := 0
  /-- R317: the program as read: header and instructions. -/
  prog    : List Byte := []
  /-- R317: the program's space and address. -/
  space   : Bool := false
  paddr   : BitVec 64 := 0
  /-- R318: the instruction now executing. -/
  pc      : Nat := 0
  /-- R319: executions of each MOVE so far. -/
  ks      : Map Nat := []
  /-- R320: runs of each LOOP. -/
  loops   : Map Nat := []
  /-- R322: bytes moved. -/
  bytes   : Nat := 0
  /-- R319: bytes of the present MOVE whose bursts are issued. -/
  issued  : Nat := 0
  /-- R319: the bursts whose writes have not left, in the order of their issue, and the number of the next. -/
  queue   : List Burst := []
  nextNo  : Nat := 0
  /-- R322: 1 a flush read is owed, 2 it is outstanding. -/
  flush   : Nat := 0
  /-- R322: the status of a program that has ended and whose last writes have not left. -/
  ending  : Option Nat := none
  /-- the model's own: programs started, to tell an old program's reads from the present one's. -/
  run     : Nat := 0
  /-- R323: replica-2 time at which the WAIT began. -/
  waitAt  : Nat := 0
  /-- R354: the thread that started it. -/
  thread  : Option (BitVec 10) := none
  deriving DecidableEq, Repr

/-- Chapter 13: the DMA channels. -/
structure Dma where
  ch : Map Chan := []
  /-- R324: the channel last served of each level. -/
  turn : Map Nat := []
  /-- R324: bursts for which a ready channel has been passed over. -/
  passed : Map Nat := []
  deriving DecidableEq, Repr

/-- R332, R334: a buffer that has been allocated at least once: its last requester and instance, its state bit, and
the MAC and priority in whose occupancy it counts (R125). -/
structure Alloc where
  requester : Nat
  inst      : Nat
  allocated : Bool
  occ       : Option (Nat × Nat) := none
  deriving DecidableEq, Repr

/-- R334: a request that waits. -/
structure BufReq where
  requester : Nat
  inst      : Nat
  hbm       : Bool
  size      : Nat
  deriving DecidableEq, Repr

/-- R333, R337: a pool. Free handles are runs (first, count), oldest first. -/
structure Pool where
  ring  : List (Nat × Nat) := []
  cache : List (Nat × Nat) := []
  /-- R333: the ring slot that the next handle is read from. -/
  head  : Nat := 0
  /-- R327: handles discarded. -/
  lost  : Nat := 0
  /-- R337: freed handles that wait for their state-bit test, oldest first, each with the requester that frees it. -/
  check : List (Nat × Word) := []
  deriving DecidableEq, Repr

/-- R336: a double-free entry. -/
structure DoubleFree where
  handle : Word
  by_    : Nat
  last   : Nat
  time   : BitVec 64
  deriving DecidableEq, Repr

/-- R339: the audit snapshot. -/
structure Snap where
  book  : Nat
  index : Nat
  terms : List Int
  time  : BitVec 64
  deriving DecidableEq, Repr

/-- Chapter 13: memory, its errors, and the buffers. -/
structure Mem where
  /-- R341: MEM_STAT. -/
  hbmFail : Bool := false
  trained : Bool := false
  reduced : Bool := false
  /-- R313: bytes of HBM, packet SRAM and core-local SRAM; an unlisted byte reads 0. -/
  cells   : List Host.Cell := []
  /-- R327: poisoned 64-bit words, by address. -/
  poison  : List Nat := []
  /-- R329: by pseudo-channel, the clocks of its uncorrectable errors of the last second, oldest first. -/
  ueAt    : Map (List Nat) := []
  /-- R332: the buffer pools. -/
  pools   : Map Pool := []
  /-- R332: state bit and last requester of each buffer, by handle. -/
  bufs    : Map Alloc := []
  /-- R334: requests that wait, in arrival order. -/
  waits   : List BufReq := []
  /-- R334: buffers granted to requests that waited and not yet taken up: requester, instance, handle. -/
  granted : List (Nat × Nat × Word) := []
  /-- R327: context-cache lines marked poisoned by the scrub. -/
  badLines : List Nat := []
  /-- R327: bytes of table regions that lie in such lines: the base register's address, and the line's offset. -/
  badCtx  : List (Nat × Nat) := []
  /-- R335: OVER_QUOTA bits that read 1: 2 r for requester r's SRAM, 2 r + 1 for its HBM. -/
  overQ   : List Nat := []
  /-- R336: the double-free FIFO. -/
  df      : List DoubleFree := []
  /-- R339: the snapshot registers. -/
  snap    : Option Snap := none
  /-- R339: the time of replica 2 at the last audit. -/
  auditAt : Nat := 0
  deriving DecidableEq, Repr

/-! Thread array (chapter 14). -/

inductive ThSt where
  | free | running | waiting | ended | stopped
  deriving DecidableEq, Repr

/-- R362 SUP_WAITINFO: what a waiting thread waits for. -/
inductive ThWait where
  | none
  | twait (rd : Fin 32) (mask : BitVec 64) (deadline : BitVec 64)
  | join (rd : Fin 32) (child : BitVec 10)
  | chres (rd : Fin 32) (chan : BitVec 11) (len : Nat)
  | chget (rd : Fin 32) (chan : BitVec 11) (dst : BitVec 64)
  deriving DecidableEq, Repr

/-- Chapter 14: one thread. -/
structure Thread where
  st      : ThSt := .free
  pc      : BitVec 64 := 0
  /-- x1 to x31; an unlisted register is 0. -/
  regs    : Map (BitVec 64) := []
  /-- R354: the event flags. -/
  events  : BitVec 29 := 0
  /-- R353: what it waits for, and since when. -/
  wait    : ThWait := .none
  waitAt  : Nat := 0
  /-- R353: joinable, parent and exit value. -/
  joinable : Bool := false
  parent  : Option (BitVec 10) := none
  exit    : BitVec 64 := 0
  /-- R362: stopped by a fault (RESUME suits it). -/
  faulted : Bool := false
  /-- R367: the debugger has let it run on from the breakpoint at its pc. -/
  past    : Bool := false
  /-- R367: STEP runs its instruction, which waits. -/
  stepping : Bool := false
  /-- R347: THR_MBXWATCH and THR_CHWATCH. -/
  mbxWatch : BitVec 16 := 0
  /-- R347: THR_CHWATCH. -/
  chWatch : Map Word := []
  deriving DecidableEq, Repr

/-- R362: a supervisor event. -/
structure SupEvt where
  kind  : Nat
  cause : Nat
  th    : BitVec 10
  a     : BitVec 64
  b     : BitVec 64
  time  : BitVec 64
  deriving DecidableEq, Repr

/-- Where a message of a channel stands. -/
inductive ChMsgSt where
  | reserved | committed | void
  deriving DecidableEq, Repr

/-- R358: a message in a channel. -/
structure ChMsg where
  st     : ChMsgSt
  slots  : Nat
  body   : List Byte
  /-- R359: cursor of CHPUT. -/
  cursor : Nat := 0
  /-- R359: the thread that reserved it, the handle and the stamp. -/
  th     : BitVec 10
  handle : BitVec 64
  tag    : StampTag := {}
  /-- R363: the clock at which it became the head. -/
  headAt : Option Nat := none
  /-- R363: CHAN_HELD was raised. -/
  told   : Bool := false
  deriving DecidableEq, Repr

/-- Chapter 14: one channel of a cluster. -/
structure Channel where
  kind   : Nat := 0
  log2   : Nat := 4
  core   : Nat := 0
  ring   : Nat := 0
  maxMsg : Nat := 0
  scope  : Byte := 0
  source : BitVec 7 := 0
  /-- R358: next slot of the ring to be used. -/
  pos    : Nat := 0
  /-- R358: messages in the ring, oldest first. -/
  msgs   : List ChMsg := []
  deriving DecidableEq, Repr

/-- Chapter 14: one cluster. -/
structure Cluster where
  /-- R348: service slot and service cluster held. -/
  slot     : Option (Fin 8) := none
  scluster : Nat := 0
  /-- R366: a reset is under way since this clock. -/
  resetAt  : Option Nat := none
  /-- R351, R366: the cause of that reset. -/
  resetBy  : Nat := 0
  /-- R362: the supervisor's event FIFO. -/
  sup      : List SupEvt := []
  /-- R362: SUP_PC, where a resumed thread goes on. -/
  supPc    : BitVec 64 := 0
  /-- R362: SUP_WAITSET and SUP_WAITINFO of the last WAIT_DEADLOCK. -/
  waitSet  : BitVec 128 := 0
  waitInfo : Map Word := []
  /-- R364: a deadlock was raised and no thread has left its wait since. -/
  deadTold : Bool := false
  /-- R365: the clock of the last kick. -/
  kickAt   : Nat := 0
  /-- R365, R394: the clock since which the watchdog does not count. -/
  wdtStop  : Option Nat := none
  /-- R358: its channels. -/
  chans    : Map Channel := []
  /-- R367: breakpoints, 4 * core + index to pc. -/
  breaks   : Map (BitVec 64) := []
  /-- R359; the model's own: the count behind the next channel handle. -/
  nextHandle : Nat := 1
  deriving DecidableEq, Repr

/-- Chapter 14: one service slot. -/
structure Service where
  /-- R351: state 0 EMPTY, 1 LOADED, 2 RUNNING, 3 STOPPED. -/
  state  : Nat := 0
  /-- R401: the body of the slot's image. -/
  image  : List Byte := []
  /-- R401: the signed image as it was loaded. -/
  file   : List Byte := []
  /-- R351: the digest, the clusters held, the last result, resets and the cause of the last one. -/
  digest : List Byte := []
  clusters : Byte := 0
  result : Nat := 0
  resets : Nat := 0
  cause  : Nat := 0
  deriving DecidableEq, Repr

/-- Chapter 14: the thread array. -/
structure Tha where
  threads  : Map Thread := []
  clusters : Map Cluster := []
  /-- R367: threads stopped by the debugger. -/
  dbg      : List Nat := []
  /-- R367: STATUS of the last debug command. -/
  dbgStat  : Nat := 0
  deriving DecidableEq, Repr

/-! Field side (chapters 15 to 17). -/

/-- R371: one side's end of the glove. -/
structure GloveEnd where
  /-- next SEQ to send. -/
  seq     : BitVec 16 := 0
  /-- sent and not acknowledged, oldest first. -/
  sent    : List GloveMsg := []
  /-- last SEQ taken. -/
  last    : Option (BitVec 16) := none
  /-- messages delivered and not yet served. -/
  inbox   : List GloveMsg := []
  /-- R388: event notices that wait for the other side. -/
  evq     : List (List Byte) := []
  /-- failures of the oldest message. -/
  fails   : Nat := 0
  /-- R371: the clock of the last sending of the oldest message. -/
  retryAt : Nat := 0
  /-- R371: the other side answers. -/
  peerUp  : Bool := false
  /-- the clock at which something was last received. -/
  heardAt : Nat := 0
  /-- R371, R397 LINK_ERR: the link has been reset and no acknowledgement has come since. -/
  err     : Bool := false
  /-- R394: the other side was declared down and the link has not come up since. -/
  lost    : Bool := false
  /-- R397 RESTARTS. -/
  restarts : Nat := 0
  deriving DecidableEq, Repr

/-- R384: a login in progress. -/
structure Login where
  sid   : Word
  lvl   : Nat
  nc    : List Byte
  nd    : List Byte
  node  : Byte
  key   : Nat
  at_   : Nat
  deriving DecidableEq, Repr

/-- R384, R385: an open session. -/
structure Session where
  sid   : Word
  lvl   : Nat
  ks    : List Byte
  rx    : Nat
  tx    : Nat
  node  : Byte
  /-- R385: the clock of the last frame that it accepted. -/
  at_   : Nat
  /-- R382: partial values by object key: total and bytes. -/
  parts : Map (Nat × List Byte) := []
  deriving DecidableEq, Repr

/-- R388: an event notice. -/
structure Notice where
  seq    : Word
  code   : Nat
  unit   : Nat
  time   : BitVec 64
  detail : List Byte
  sentAt : Nat := 0
  deriving DecidableEq, Repr

/-- R389 to R392: one mailbox slot. -/
structure Mbox where
  full   : Bool := false
  done   : Bool := false
  held   : Bool := false
  code   : BitVec 16 := 0
  /-- what its sender posted, and the sender. -/
  body   : List Byte := []
  sender : Word := 0
  /-- what its receiver shows, and the sender shown. -/
  shown  : List Byte := []
  who    : Word := 0
  /-- R392: the DATA words that a thread has written. -/
  data   : List Byte := []
  /-- the field side's state: R390 0 empty, 1 message; R391 0 free, 1 held, 2 delivered, 3 acknowledged. -/
  state  : Nat := 0
  /-- R393: the message is from the main die's previous run. -/
  old    : Bool := false
  deriving DecidableEq, Repr

/-- R370: a copy of an RWP object in field flash: its value, its write count and its CRC-32C. -/
structure FlashCopy where
  val   : List Byte
  count : Nat
  crc   : Word
  deriving DecidableEq, Repr

/-- R370: the two copies of an RWP object in field flash; none where nothing has been written. -/
structure Copies where
  a : Option FlashCopy := none
  b : Option FlashCopy := none
  deriving DecidableEq, Repr

/-- R380: what a request of the bus asks for. -/
inductive BusKind where
  | read | write | imgOpen | imgData | imgClose | logout
  deriving DecidableEq, Repr

/-- R381, R382: a request of the bus: its frame, its session's level and its payload. -/
structure BusReq where
  kind    : BusKind
  hdr     : BusHdr
  lvl     : Nat
  data    : List Byte
  flashOk : Bool
  deriving DecidableEq, Repr

/-- R387: an image transfer. -/
structure Transfer where
  target : Byte
  length : Nat
  data   : List Byte
  deriving DecidableEq, Repr

/-- Chapters 15 and 16: the field side. -/
structure Field where
  /-- the field side runs. -/
  up        : Bool := false
  /-- R386: object values that differ from their defaults, by index * 256 + sub-index. -/
  objs      : Map (List Byte) := []
  /-- R370: the two flash copies of each RWP object that has been written, by the same key. -/
  copies    : Map Copies := []
  /-- R373, R381: object requests that wait for the main die's answer, and those that wait for an earlier one of their
  session. -/
  asked     : List BusReq := []
  later     : List BusReq := []
  /-- R378: node address. -/
  node      : Byte := 0
  /-- R376: the level of HAT_IN, the clock of its last change, whether the hat is held, and the level of HAT_OUT. -/
  hatIn     : Bool := false
  hatSince  : Nat := 0
  hatHeld   : Bool := false
  hatOut    : Bool := false
  /-- R384: logins in progress. -/
  logins    : List Login := []
  /-- R385: sessions. -/
  sessions  : List Session := []
  /-- R384: consecutive wrong proofs by level, and the clock of a lockout. -/
  wrong     : Map Nat := []
  lockout   : Map Nat := []
  /-- R388: notices waiting for an acknowledgement, and the log. -/
  waiting   : List Notice := []
  log       : List Notice := []
  /-- R388: SEQ of the next notice. -/
  evtSeq    : Word := 0
  /-- R387: the image transfer in progress, 2F00h.01 and 2F00h.02. -/
  transfer  : Option Transfer := none
  imgState  : Nat := 0
  imgResult : Nat := 0
  /-- R370: firmware banks: 0 field A, 1 field B, 2 main A, 3 main B. -/
  banks     : Map (List Byte) := []
  /-- R405: preferred and running bank of each kind. -/
  prefField : Bool := false
  prefMain  : Bool := false
  runField  : Bool := false
  runMain   : Bool := false
  /-- R405: restarts of the running field firmware before its confirmation point. -/
  tries     : Nat := 0
  /-- R403, R405: the running field firmware has reached its confirmation point. -/
  confirmed : Bool := false
  /-- R406: the recovery loader runs. -/
  recovery  : Bool := false
  /-- R403: the clock of the last field start. -/
  startAt   : Nat := 0
  /-- R403: anti-rollback counters. -/
  arb       : Map Nat := []
  /-- R398: lifecycle state. -/
  life      : Nat := 0
  /-- R417: an enrolment is under way, and 2F20h.03. -/
  enrolling : Bool := false
  enrolStat : Nat := 0
  /-- R407: the owner package. -/
  ownerPkg  : List Byte := []
  /-- R413: the operator key unwrapped from the owner package. -/
  pkgKop    : List Byte := []
  /-- R407: the package of the owner in force. -/
  owner     : List Byte := []
  /-- R409: the owner certificate chain of slot 1. -/
  ownerChain : List Byte := []
  /-- R400: the secret Alias key derived at the last field start; 0 where none is. -/
  akey      : Nat := 0
  /-- R399, R400: the storage key K_st derived at the last field start; empty where none is. -/
  kst       : List Byte := []
  /-- R399: K_op, and whether the seal keys exist. -/
  kop       : List Byte := []
  /-- R413: SALT and ITER of the operator key. -/
  salt      : List Byte := []
  iter      : Nat := 0
  /-- R399: the seal keys exist. -/
  sealKeys  : Bool := false
  /-- R399: the secret seal keys: the ECDSA key, and the number of the HSS key. -/
  sealKey   : Nat := 0
  sealTree  : Nat := 0
  /-- R110 A130h.01 and .02: the public seal keys. -/
  sealPub   : List Byte := []
  sealHss   : List Byte := []
  /-- R411: 2F50h.02. -/
  quote     : List Byte := []
  /-- R411: 2F60h.02. -/
  spdmSig   : List Byte := []
  /-- R415: the doors as the main die has them (DEBUG, JTAG). -/
  debugOpen : Bool := false
  jtagOpen  : Bool := false
  /-- R105: seal state in field flash: END, chain head, hash of the body, number, run. -/
  sealEnd   : Option (BitVec 64) := none
  sealHead  : List Byte := []
  sealHash  : List Byte := []
  sealNo    : Option (BitVec 64) := none
  sealRun   : Word := 0
  /-- R106: the next leaf. -/
  leaf      : Nat := 0
  /-- R106: the two flash sectors that hold the start of the following block in turn: the start and the write count;
  none where nothing valid stands. -/
  leafSec0  : Option (Nat × Nat) := none
  leafSec1  : Option (Nat × Nat) := none
  /-- R106: leaves lost at restarts. -/
  forfeited : Nat := 0
  /-- R386 2000h.01. -/
  mainSt    : Nat := 0
  /-- R404: the operator has powered the main die down (2000h.02 = 03h). -/
  offCmd    : Bool := false
  /-- R432: an orderly end of the main die has been ordered: the clock of the command, and whether it powers down. -/
  endAt     : Option (Nat × Bool) := none
  /-- R372: the result in the last POWER_RSP. -/
  powerRes  : Nat := 0
  /-- R100: the run number. -/
  runNo     : Word := 0
  /-- R73: latest time-quality report (payload). -/
  report    : List Byte := []
  /-- R386 F000h counts: restarts, cause, frames, then .04 to .11. -/
  restarts  : Nat := 0
  cause     : Nat := 0
  rxFrames  : Nat := 0
  counts    : Map Nat := []
  /-- R394: the clock at which a restart began. -/
  restartAt : Option Nat := none
  /-- R390 to R392: mailbox slots as the field side shows them. -/
  h2f       : Map Mbox := []
  f2h       : Map Mbox := []
  thaTo     : Map Mbox := []
  thaFrom   : Map Mbox := []
  /-- R396: main-die firmware started at this clock and not yet RUNNING. -/
  bootAt    : Option Nat := none
  /-- R405: this bring-up has taken the other bank. -/
  fellBack  : Bool := false
  /-- R348, R351: service slots. -/
  services  : Map Service := []
  /-- R428: readings. -/
  tempMain  : Int := 0
  tempHbm   : Int := 0
  tempField : Int := 0
  current   : Word := 0
  volt      : Nat := 850
  /-- R429: the warning of a reading, main die or HBM, has been sent, and the reading has not fallen 5 °C below. -/
  warned    : Bool := false
  warnedHbm : Bool := false
  /-- R430: F020h.08. -/
  trips     : Nat := 0
  /-- R428: the clock of the last telemetry sample. -/
  sampleAt  : Nat := 0
  /-- R437: rotations of flash sectors, by sector. -/
  rotated   : Map Nat := []
  deriving DecidableEq, Repr

/-- R418 to R434: supplies, power and the package pins of the main die. -/
structure Pwr where
  /-- R424: every rail is within tolerance and power-on reset has ended. -/
  por       : Bool := false
  /-- R430: a thermal trip holds until the next power-on reset. -/
  tripped   : Bool := false
  /-- R423: VDD setpoint, mV, and the clock of the last step. -/
  setpoint  : Nat := 850
  stepAt    : Nat := 0
  /-- R423: the regulator answers on AVSBus. -/
  avsThere  : Bool := false
  /-- R425: powered domains. -/
  domains   : BitVec 96 := 0
  /-- R434: bring-up step reached (0 none, 1 to 8). -/
  step      : Nat := 0
  /-- R404: public keys and image bytes received in IMAGE messages. -/
  imgKeys   : List Byte := []
  /-- R404: image bytes received in IMAGE messages. -/
  imgBuf    : List Byte := []
  /-- R404: the main-die ROM has accepted the image and its firmware runs. -/
  fw        : Bool := false
  /-- R410: the header of the main-die firmware last accepted. -/
  hdr       : List Byte := []
  /-- R426: the JTAG door was open at the last main-die bring-up. -/
  jtagUp    : Bool := false
  /-- R416: TAP controller state and instruction. -/
  tap       : Nat := 15
  tapIr     : Nat := 2
  /-- R416: the TAP's shift register. -/
  tapShift  : Word := 0
  deriving DecidableEq, Repr

/-- The device, and the commands that wait for it. -/
structure State where
  /-- The model's own: the commands waiting, first in, first out. -/
  pending  : List Instr := []
  /-- The model's own: 0.25 ns units since reset, the time base of every interval of the spec. -/
  clock    : Nat := 0
  /-- The model's own: how many free values have been drawn. -/
  fresh    : Nat := 0
  /-- What has left the device, oldest first. -/
  out      : List Out := []
  /-- R29: BAR0 registers that stand away from their PoR value, by BAR0 word address. -/
  regs     : Map Word := []
  /-- R38: event counters whose SAT bit is set, by BAR0 word address. -/
  sat      : List Nat := []
  /-- R40: armed guards by group. -/
  arms     : Map Arm := []
  /-- R32: valid high-half latches by the BAR0 address of the low half. -/
  latches  : Map Word := []
  /-- R74: the latch of TIM_NOW: high half and bound. -/
  nowLatch : Option (Word × BitVec 16) := none
  /-- R31, R311: held staging words by instance; key 65536 is QIM_PF0_DB. -/
  staging  : Map Word := []
  /-- R39, R43 GLB_GUARDSTYLE: style in force. -/
  guardStyle : BitVec 16 := 0
  /-- R41, R43 GLB_GUARDLOCK. -/
  guardLock : BitVec 16 := 0
  tim      : Tim := {}
  sql      : Sql := {}
  prt      : Prt := {}
  /-- R137: pipelines 0 to 7. -/
  pcl      : Map Pipe := []
  fwt      : Fwt := {}
  rwc      : Rwc := {}
  trn      : Trn := {}
  tmg      : Tmg := {}
  hep      : Hep := {}
  qim      : Qim := {}
  dma      : Dma := {}
  mem      : Mem := {}
  tha      : Tha := {}
  /-- R10, R373: values of bound objects as the main die has them from bring-up and from OBJ_REQ messages, by index *
  256 + sub-index; an unlisted one is at its default. -/
  bound    : Map (List Byte) := []
  /-- R371: the glove's end on the main die. -/
  gloveH   : GloveEnd := {}
  /-- R371: the glove's end on the field die. -/
  gloveF   : GloveEnd := {}
  field    : Field := {}
  pwr      : Pwr := {}
  deriving DecidableEq, Repr

/-- R433, R434: the machine right after power-on reset, before the field side boots and the main die is brought up. -/
def State.reset : State := {}

end Sys2Proof.Machine
end

