-- ==== Sys2Proof/Machine/Ops.lean ====
section
/-! DEFINITION. The named operations every command is made of: sparse tables, byte orders, the output stream, free
values, time that passes, and the internal memory of R313. -/

namespace Sys2Proof

/-! Sparse tables. -/

/-- The value listed at a key. -/
def Map.get {α : Type} : Map α → Nat → Option α
  | [], _ => none
  | (j, a) :: t, k => if j = k then some a else Map.get t k

/-- The value at a key, or what an unlisted key reads as. -/
def Map.at_ {α : Type} (m : Map α) (k : Nat) (d : α) : α := (Map.get m k).getD d

/-- The table without a key. -/
def Map.del {α : Type} : Map α → Nat → Map α
  | [], _ => []
  | (j, a) :: t, k => if j = k then t else if k < j then (j, a) :: t else (j, a) :: Map.del t k

/-- The table with a value at a key, keys kept rising. -/
def Map.put {α : Type} : Map α → Nat → α → Map α
  | [], k, v => [(k, v)]
  | (j, a) :: t, k, v =>
    if j = k then (k, v) :: t else if k < j then (k, v) :: (j, a) :: t else (j, a) :: Map.put t k v

/-- The table with a value at a key; a value equal to the default is not listed. -/
def Map.set {α : Type} [DecidableEq α] (m : Map α) (k : Nat) (v d : α) : Map α :=
  if v = d then Map.del m k else Map.put m k v

/-- A table with the value at a key changed by a function. -/
def Map.upd {α : Type} (m : Map α) (k : Nat) (d : α) (f : α → α) : Map α := Map.put m k (f (Map.at_ m k d))

/-- Keys rise strictly. -/
def Map.rising {α : Type} : Map α → Bool
  | [] => true
  | [_] => true
  | (j, _) :: (k, b) :: t => decide (j < k) && Map.rising ((k, b) :: t)

/-- The canonical form: keys rise strictly and no entry holds the default. -/
def Map.wf {α : Type} [DecidableEq α] (m : Map α) (d : α) : Bool :=
  Map.rising m && m.all (fun e => decide (e.2 ≠ d))

/-! Bytes (R5). -/

/-- The number that little-endian bytes spell. -/
def leNat : List Byte → Nat
  | [] => 0
  | b :: t => b.toNat + 256 * leNat t

/-- The number that big-endian bytes spell. -/
def beNat (l : List Byte) : Nat := l.foldl (fun n b => 256 * n + b.toNat) 0

/-- n little-endian bytes of a number. -/
def leBytes : Nat → Nat → List Byte
  | 0, _ => []
  | n + 1, v => BitVec.ofNat 8 v :: leBytes n (v / 256)

/-- n big-endian bytes of a number. -/
def beBytes (n v : Nat) : List Byte := (leBytes n v).reverse

/-- n bytes of a list from an offset, short where the list ends. -/
def slice (l : List Byte) (off n : Nat) : List Byte := (l.drop off).take n

/-- n bytes of a list from an offset, zeros past its end. -/
def slicePad (l : List Byte) (off n : Nat) : List Byte :=
  let p := slice l off n
  p ++ List.replicate (n - p.length) 0

/-- A little-endian field of a list. -/
def leAt (l : List Byte) (off n : Nat) : Nat := leNat (slice l off n)

/-- A big-endian field of a list. -/
def beAt (l : List Byte) (off n : Nat) : Nat := beNat (slicePad l off n)

/-- A list with bytes written at an offset. -/
def splice (l : List Byte) (off : Nat) (b : List Byte) : List Byte :=
  slicePad l 0 off ++ b ++ l.drop (off + b.length)

/-- Bits [hi:lo] of a number. -/
def bits (v hi lo : Nat) : Nat := v / 2 ^ lo % 2 ^ (hi + 1 - lo)

/-- A number with bits [hi:lo] replaced. -/
def putBits (v hi lo x : Nat) : Nat :=
  v % 2 ^ lo + (x % 2 ^ (hi + 1 - lo)) * 2 ^ lo + (v / 2 ^ (hi + 1)) * 2 ^ (hi + 1)

/-- Bit n of a number. -/
def bit (v n : Nat) : Bool := v / 2 ^ n % 2 = 1

/-- A number rounded up to a multiple. -/
def roundUp (n m : Nat) : Nat := (n + m - 1) / m * m

/-- The first n that meets a test, below a bound. -/
def firstBelow (bound : Nat) (p : Nat → Bool) : Option Nat := (List.range bound).find? p

namespace Machine

/-! The output stream, free values and time. -/

/-- Something leaves the device. -/
def State.emit (s : State) (o : Out) : State := { s with out := s.out ++ [o] }

/-- Several things leave the device in order. -/
def State.emitAll (s : State) (o : List Out) : State := { s with out := s.out ++ o }

/-- The next free value. -/
def State.freeNext (s : State) : Nat := Config.free s.fresh

/-- A free value has been used. -/
def State.drawn (s : State) : State := { s with fresh := s.fresh + 1 }

/-- n free bytes: a nonce, a key or a salt of the true random number generator. -/
def State.freeBytes (s : State) (n : Nat) : List Byte := leBytes n s.freeNext

/-- Time passes. -/
def State.advance (s : State) (dt : Nat) : State := { s with clock := s.clock + dt }

/-- Units in a microsecond (R5: 0.25 ns each). -/
def usec (n : Nat) : Nat := 4000 * n
/-- Units in a millisecond. -/
def msec (n : Nat) : Nat := 4000000 * n
/-- Units in a second. -/
def secs (n : Nat) : Nat := 4000000000 * n

/-- A deadline that began at a moment has been reached. -/
def State.due (s : State) (since len : Nat) : Bool := decide (since + len ≤ s.clock)

/-! Power (R426). -/

/-- GLB_PDSTAT: a domain is powered and ready. -/
def State.powered (s : State) (d : Nat) : Bool := s.pwr.domains.getLsbD d

/-- R426: a domain is among the powered ones. -/
def State.powerBit (s : State) (d : Nat) : State :=
  { s with pwr := { s.pwr with domains := s.pwr.domains ||| BitVec.ofNat 96 (2 ^ d) } }

/-! Internal memory (R313): bytes of HBM, packet SRAM and core-local SRAM. -/

/-- What an unlisted byte reads as. -/
def cellDefault : Byte := 0

/-- A byte of the internal memory. -/
def State.readByte (s : State) (a : Nat) : Byte := Map.at_ s.mem.cells a cellDefault

/-- A byte of the internal memory is written. -/
def State.writeByte (s : State) (a : Nat) (b : Byte) : State :=
  { s with mem := { s.mem with cells := Map.set s.mem.cells a b cellDefault } }

/-- n bytes of the internal memory. -/
def State.readBytes (s : State) (a n : Nat) : List Byte := (List.range n).map (fun i => s.readByte (a + i))

/-- Bytes are written to the internal memory, lowest address first. -/
def State.writeBytes (s : State) (a : Nat) : List Byte → State
  | [] => s
  | b :: t => State.writeBytes (s.writeByte a b) (a + 1) t

/-- R327: a word of a range holds poison. -/
def State.poisoned (s : State) (a n : Nat) : Bool :=
  s.mem.poison.any (fun w => decide (w < a + n ∧ a < w + 8))

/-- R327: a full write of a word clears its poison. -/
def State.cleanse (s : State) (a n : Nat) : State :=
  { s with mem := { s.mem with poison := s.mem.poison.filter (fun w => !decide (a ≤ w ∧ w + 8 ≤ a + n)) } }

/-- The canonical form of the internal memory. -/
abbrev Memory.wf (m : List Host.Cell) : Prop := Map.wf (α := Byte) m cellDefault = true

end Machine
end Sys2Proof
end

