-- ==== Sys2Proof/Machine/Hash.lean ====
section
/-! DEFINITION. The hashes and checksums the spec names: SHA-256 (R78, R98), HMAC-SHA-256 (R384), SHA-384 (R104, R408),
HMAC-SHA-384 (R195, R400), CRC-32 of Ethernet (R117), CRC-32C (R371) and the Internet checksum. -/

namespace Sys2Proof.Machine

/-! SHA-256 (FIPS 180-4). -/

/-- The round constants. -/
def shaK : List Word := [
  0x428a2f98, 0x71374491, 0xb5c0fbcf, 0xe9b5dba5, 0x3956c25b, 0x59f111f1, 0x923f82a4, 0xab1c5ed5] ++ [
  0xd807aa98, 0x12835b01, 0x243185be, 0x550c7dc3, 0x72be5d74, 0x80deb1fe, 0x9bdc06a7, 0xc19bf174] ++ [
  0xe49b69c1, 0xefbe4786, 0x0fc19dc6, 0x240ca1cc, 0x2de92c6f, 0x4a7484aa, 0x5cb0a9dc, 0x76f988da] ++ [
  0x983e5152, 0xa831c66d, 0xb00327c8, 0xbf597fc7, 0xc6e00bf3, 0xd5a79147, 0x06ca6351, 0x14292967] ++ [
  0x27b70a85, 0x2e1b2138, 0x4d2c6dfc, 0x53380d13, 0x650a7354, 0x766a0abb, 0x81c2c92e, 0x92722c85] ++ [
  0xa2bfe8a1, 0xa81a664b, 0xc24b8b70, 0xc76c51a3, 0xd192e819, 0xd6990624, 0xf40e3585, 0x106aa070] ++ [
  0x19a4c116, 0x1e376c08, 0x2748774c, 0x34b0bcb5, 0x391c0cb3, 0x4ed8aa4a, 0x5b9cca4f, 0x682e6ff3] ++ [
  0x748f82ee, 0x78a5636f, 0x84c87814, 0x8cc70208, 0x90befffa, 0xa4506ceb, 0xbef9a3f7, 0xc67178f2]

/-- The eight words of a hash state. -/
structure Sha where
  a : Word
  b : Word
  c : Word
  d : Word
  e : Word
  f : Word
  g : Word
  h : Word

/-- The initial state. -/
def shaInit : Sha :=
  ⟨0x6a09e667, 0xbb67ae85, 0x3c6ef372, 0xa54ff53a, 0x510e527f, 0x9b05688c, 0x1f83d9ab, 0x5be0cd19⟩

/-- One round. -/
def shaRound (s : Sha) (kw : Word × Word) : Sha :=
  let s1 := s.e.rotateRight 6 ^^^ s.e.rotateRight 11 ^^^ s.e.rotateRight 25
  let ch := (s.e &&& s.f) ^^^ (~~~s.e &&& s.g)
  let t1 := s.h + s1 + ch + kw.1 + kw.2
  let s0 := s.a.rotateRight 2 ^^^ s.a.rotateRight 13 ^^^ s.a.rotateRight 22
  let mj := (s.a &&& s.b) ^^^ (s.a &&& s.c) ^^^ (s.b &&& s.c)
  ⟨t1 + (s0 + mj), s.a, s.b, s.c, s.d + t1, s.e, s.f, s.g⟩

/-- n further words of the schedule, from the last sixteen. -/
def shaExtend : Nat → List Word → List Word
  | 0, _ => []
  | n + 1, w =>
    let x := w.getD 1 0
    let y := w.getD 14 0
    let s0 := x.rotateRight 7 ^^^ x.rotateRight 18 ^^^ (x >>> 3)
    let s1 := y.rotateRight 17 ^^^ y.rotateRight 19 ^^^ (y >>> 10)
    let v := w.getD 0 0 + s0 + w.getD 9 0 + s1
    v :: shaExtend n (w.tail ++ [v])

/-- Big-endian words of a block. -/
def beWords : List Byte → List Word
  | a :: b :: c :: d :: t => (a ++ b ++ c ++ d) :: beWords t
  | _ => []

/-- One block. -/
def shaBlock (s : Sha) (w : List Word) : Sha :=
  let r := (shaK.zip (w ++ shaExtend 48 w)).foldl shaRound s
  ⟨s.a + r.a, s.b + r.b, s.c + r.c, s.d + r.d, s.e + r.e, s.f + r.f, s.g + r.g, s.h + r.h⟩

/-- Blocks of sixteen words. -/
def shaBlocks : Nat → Sha → List Word → Sha
  | 0, s, _ => s
  | n + 1, s, w => if w.isEmpty then s else shaBlocks n (shaBlock s (w.take 16)) (w.drop 16)

/-- SHA-256. -/
def sha256 (m : List Byte) : List Byte :=
  let l := m.length
  let z := (119 - l % 64) % 64
  let p := m ++ [0x80] ++ List.replicate z 0 ++ beBytes 8 (8 * l)
  let s := shaBlocks (l / 64 + 2) shaInit (beWords p)
  [s.a, s.b, s.c, s.d, s.e, s.f, s.g, s.h].flatMap (fun w => beBytes 4 w.toNat)

/-- HMAC-SHA-256. -/
def hmac256 (key m : List Byte) : List Byte :=
  let k := slicePad (if 64 < key.length then sha256 key else key) 0 64
  let i := k.map (· ^^^ 0x36)
  let o := k.map (· ^^^ 0x5C)
  sha256 (o ++ sha256 (i ++ m))

/-! SHA-384 (FIPS 180-4). -/

/-- The round constants. -/
def sha5K : List (BitVec 64) := [
  0x428a2f98d728ae22, 0x7137449123ef65cd, 0xb5c0fbcfec4d3b2f, 0xe9b5dba58189dbbc, 0x3956c25bf348b538] ++ [
  0x59f111f1b605d019, 0x923f82a4af194f9b, 0xab1c5ed5da6d8118, 0xd807aa98a3030242, 0x12835b0145706fbe] ++ [
  0x243185be4ee4b28c, 0x550c7dc3d5ffb4e2, 0x72be5d74f27b896f, 0x80deb1fe3b1696b1, 0x9bdc06a725c71235] ++ [
  0xc19bf174cf692694, 0xe49b69c19ef14ad2, 0xefbe4786384f25e3, 0x0fc19dc68b8cd5b5, 0x240ca1cc77ac9c65] ++ [
  0x2de92c6f592b0275, 0x4a7484aa6ea6e483, 0x5cb0a9dcbd41fbd4, 0x76f988da831153b5, 0x983e5152ee66dfab] ++ [
  0xa831c66d2db43210, 0xb00327c898fb213f, 0xbf597fc7beef0ee4, 0xc6e00bf33da88fc2, 0xd5a79147930aa725] ++ [
  0x06ca6351e003826f, 0x142929670a0e6e70, 0x27b70a8546d22ffc, 0x2e1b21385c26c926, 0x4d2c6dfc5ac42aed] ++ [
  0x53380d139d95b3df, 0x650a73548baf63de, 0x766a0abb3c77b2a8, 0x81c2c92e47edaee6, 0x92722c851482353b] ++ [
  0xa2bfe8a14cf10364, 0xa81a664bbc423001, 0xc24b8b70d0f89791, 0xc76c51a30654be30, 0xd192e819d6ef5218] ++ [
  0xd69906245565a910, 0xf40e35855771202a, 0x106aa07032bbd1b8, 0x19a4c116b8d2d0c8, 0x1e376c085141ab53] ++ [
  0x2748774cdf8eeb99, 0x34b0bcb5e19b48a8, 0x391c0cb3c5c95a63, 0x4ed8aa4ae3418acb, 0x5b9cca4f7763e373] ++ [
  0x682e6ff3d6b2b8a3, 0x748f82ee5defb2fc, 0x78a5636f43172f60, 0x84c87814a1f0ab72, 0x8cc702081a6439ec] ++ [
  0x90befffa23631e28, 0xa4506cebde82bde9, 0xbef9a3f7b2c67915, 0xc67178f2e372532b, 0xca273eceea26619c] ++ [
  0xd186b8c721c0c207, 0xeada7dd6cde0eb1e, 0xf57d4f7fee6ed178, 0x06f067aa72176fba, 0x0a637dc5a2c898a6] ++ [
  0x113f9804bef90dae, 0x1b710b35131c471b, 0x28db77f523047d84, 0x32caab7b40c72493, 0x3c9ebe0a15c9bebc] ++ [
  0x431d67c49c100d4c, 0x4cc5d4becb3e42b6, 0x597f299cfc657e2a, 0x5fcb6fab3ad6faec, 0x6c44198c4a475817]

/-- The eight words of a hash state. -/
structure Sha5 where
  a : BitVec 64
  b : BitVec 64
  c : BitVec 64
  d : BitVec 64
  e : BitVec 64
  f : BitVec 64
  g : BitVec 64
  h : BitVec 64

/-- The initial state of SHA-384. -/
def sha384Init : Sha5 :=
  ⟨0xcbbb9d5dc1059ed8, 0x629a292a367cd507, 0x9159015a3070dd17, 0x152fecd8f70e5939,
    0x67332667ffc00b31, 0x8eb44a8768581511, 0xdb0c2e0d64f98fa7, 0x47b5481dbefa4fa4⟩

/-- One round. -/
def sha5Round (s : Sha5) (kw : BitVec 64 × BitVec 64) : Sha5 :=
  let s1 := s.e.rotateRight 14 ^^^ s.e.rotateRight 18 ^^^ s.e.rotateRight 41
  let ch := (s.e &&& s.f) ^^^ (~~~s.e &&& s.g)
  let t1 := s.h + s1 + ch + kw.1 + kw.2
  let s0 := s.a.rotateRight 28 ^^^ s.a.rotateRight 34 ^^^ s.a.rotateRight 39
  let mj := (s.a &&& s.b) ^^^ (s.a &&& s.c) ^^^ (s.b &&& s.c)
  ⟨t1 + (s0 + mj), s.a, s.b, s.c, s.d + t1, s.e, s.f, s.g⟩

/-- n further words of the schedule, from the last sixteen. -/
def sha5Extend : Nat → List (BitVec 64) → List (BitVec 64)
  | 0, _ => []
  | n + 1, w =>
    let x := w.getD 1 0
    let y := w.getD 14 0
    let s0 := x.rotateRight 1 ^^^ x.rotateRight 8 ^^^ (x >>> 7)
    let s1 := y.rotateRight 19 ^^^ y.rotateRight 61 ^^^ (y >>> 6)
    let v := w.getD 0 0 + s0 + w.getD 9 0 + s1
    v :: sha5Extend n (w.tail ++ [v])

/-- Big-endian 64-bit words of a block. -/
def beDWords : List Word → List (BitVec 64)
  | a :: b :: t => (a ++ b) :: beDWords t
  | _ => []

/-- One block. -/
def sha5Block (s : Sha5) (w : List (BitVec 64)) : Sha5 :=
  let r := (sha5K.zip (w ++ sha5Extend 64 w)).foldl sha5Round s
  ⟨s.a + r.a, s.b + r.b, s.c + r.c, s.d + r.d, s.e + r.e, s.f + r.f, s.g + r.g, s.h + r.h⟩

/-- Blocks of sixteen words. -/
def sha5Blocks : Nat → Sha5 → List (BitVec 64) → Sha5
  | 0, s, _ => s
  | n + 1, s, w => if w.isEmpty then s else sha5Blocks n (sha5Block s (w.take 16)) (w.drop 16)

/-- R408: SHA-384. -/
def sha384 (m : List Byte) : List Byte :=
  let l := m.length
  let z := (239 - l % 128) % 128
  let p := m ++ [0x80] ++ List.replicate z 0 ++ beBytes 16 (8 * l)
  let s := sha5Blocks (l / 128 + 2) sha384Init (beDWords (beWords p))
  [s.a, s.b, s.c, s.d, s.e, s.f].flatMap (fun w => beBytes 8 w.toNat)

/-- R195, R400: HMAC-SHA-384. -/
def hmac384 (key m : List Byte) : List Byte :=
  let k := slicePad (if 128 < key.length then sha384 key else key) 0 128
  let i := k.map (· ^^^ 0x36)
  let o := k.map (· ^^^ 0x5C)
  sha384 (o ++ sha384 (i ++ m))

/-! CRCs. -/

/-- One byte of a reflected CRC. -/
def crcByte (poly : Word) (c : Word) (b : Byte) : Word :=
  (List.range 8).foldl (fun c _ => if c.getLsbD 0 then (c >>> 1) ^^^ poly else c >>> 1) (c ^^^ b.setWidth 32)

/-- A reflected 32-bit CRC with inverted start and end. -/
def crc32With (poly : Word) (m : List Byte) : Word := ~~~(m.foldl (crcByte poly) 0xFFFFFFFF)

/-- The FCS of an Ethernet frame. -/
def crc32 (m : List Byte) : Word := crc32With 0xEDB88320 m

/-- CRC-32C. -/
def crc32c (m : List Byte) : Word := crc32With 0x82F63B78 m

/-- The Internet checksum's one's complement sum of big-endian 16-bit words. -/
def onesSum : Nat → List Byte → Nat
  | acc, [] => acc % 65536 + acc / 65536
  | acc, [a] => (acc + 256 * a.toNat) % 65536 + (acc + 256 * a.toNat) / 65536
  | acc, a :: b :: t => onesSum ((acc + 256 * a.toNat + b.toNat) % 65536 + (acc + 256 * a.toNat + b.toNat) / 65536) t

/-- The Internet checksum of bytes. -/
def inetSum (m : List Byte) : Nat := 65535 - onesSum 0 m

end Sys2Proof.Machine
end

