-- ==== Sys2Proof/Machine/RegTable.lean ====
section
/-! DEFINITION. The BAR0 register maps of the spec as one table: where each register stands, its access type (R9),
its value at power-on reset, its writable bits, its guard group (R39), what function-level reset does to it, and the
power domain and clock island it lies in (R14, R15, R425). -/

namespace Sys2Proof.Machine

/-- R9, R36: register access types; cnt is an event counter, stat a 64-bit statistic. -/
inductive Acc where
  | ro | rw | wo | rc | rwg | rwl | cmd | cnt | stat
  deriving DecidableEq, Repr

/-- Where a register lies: its power domains (any of them powered is enough) and its island. `per` adds the index
divided by the divisor to both. -/
inductive Loc where
  | one (dom isl : Nat)
  | any (doms : List Nat) (isl : Nat)
  | per (dom isl div : Nat)
  deriving DecidableEq, Repr

/-- A row of a register map: n registers from base, stride apart, each of n2 words of size bytes, s2 apart. -/
structure RegRow where
  base   : Nat
  acc    : Acc
  loc    : Loc
  n      : Nat := 1
  stride : Nat := 4
  n2     : Nat := 1
  s2     : Nat := 4
  size   : Nat := 4
  por    : Nat := 0
  /-- not 0: the value at power-on reset is the first index modulo this. -/
  porMod : Nat := 0
  mask   : Nat := 0xFFFFFFFF
  grp    : Nat := 16
  flr    : Bool := false
  deriving DecidableEq, Repr

/-- The register of a row at an address: the first and the second index and the byte within it. -/
def RegRow.hit (r : RegRow) (a : Nat) : Option (Nat × Nat × Nat) :=
  if a < r.base then none else
    let o := a - r.base
    let i := if r.n = 1 then 0 else o / r.stride
    let p := if r.n = 1 then o else o % r.stride
    let j := if r.n2 = 1 then 0 else p / r.s2
    let q := if r.n2 = 1 then p else p % r.s2
    if i < r.n ∧ j < r.n2 ∧ q < r.size then some (i, j, q) else none

/-! R27: block bases. -/
abbrev GLB : Nat := 0x0000000
abbrev HEP : Nat := 0x0100000
abbrev QIM : Nat := 0x0200000
abbrev DMA : Nat := 0x0300000
abbrev MEM : Nat := 0x0400000
abbrev PRT : Nat := 0x0500000
abbrev PCL : Nat := 0x0600000
abbrev FWT : Nat := 0x0700000
abbrev RWC : Nat := 0x0800000
abbrev TRN : Nat := 0x0900000
abbrev TMG : Nat := 0x0A00000
abbrev TIM : Nat := 0x0B00000
abbrev SQL : Nat := 0x0C00000
abbrev THA : Nat := 0x0D00000
abbrev GLV : Nat := 0x0E00000

/-- R43. -/
def glbRows : List RegRow := [
  { base := GLB + 0x000, acc := .ro, loc := .one 0 0, por := 0x1600B100 },
  { base := GLB + 0x010, acc := .rc, loc := .one 0 0, flr := true },
  { base := GLB + 0x014, acc := .rc, loc := .one 0 0, flr := true },
  { base := GLB + 0x020, acc := .ro, loc := .one 0 0, n := 3 },
  { base := GLB + 0x030, acc := .ro, loc := .one 0 0, n := 2 },
  { base := GLB + 0x040, acc := .ro, loc := .one 0 0 },
  { base := GLB + 0x044, acc := .rw, loc := .one 0 0, mask := 0xFFFF },
  { base := GLB + 0x048, acc := .ro, loc := .one 0 0 },
  { base := GLB + 0x050, acc := .ro, loc := .one 0 0 },
  { base := GLB + 0x0F0, acc := .rw, loc := .one 0 0 }]

/-- R279: PD01 and the transaction layer's island. -/
def hepLoc : Loc := .one 1 2
/-- R273, R279. -/
def hepRows : List RegRow := [
  { base := HEP + 0x000, acc := .ro, loc := hepLoc },
  { base := HEP + 0x004, acc := .rc, loc := hepLoc },
  { base := HEP + 0x010, acc := .ro, loc := hepLoc, n := 4 },
  { base := HEP + 0x020, acc := .cmd, loc := hepLoc, flr := true },
  { base := HEP + 0x030, acc := .ro, loc := hepLoc },
  { base := HEP + 0x080, acc := .cmd, loc := hepLoc, flr := true },
  { base := HEP + 0x084, acc := .rw, loc := hepLoc, mask := 0x3FFFF },
  { base := HEP + 0x0A0, acc := .rwg, loc := hepLoc, n := 4, stride := 8, grp := 0 },
  { base := HEP + 0x100, acc := .stat, loc := hepLoc, n := 4, stride := 8, size := 8 },
  { base := HEP + 0x200, acc := .cnt, loc := hepLoc, n := 6 },
  { base := HEP + 0x10000, acc := .rwg, loc := hepLoc, n := 256, stride := 0x20, mask := 0xF01FFFFF, grp := 0 },
  { base := HEP + 0x10008, acc := .rwg, loc := hepLoc, n := 256, stride := 0x20, mask := 0xFFFFF000, grp := 0 },
  { base := HEP + 0x10010, acc := .rwg, loc := hepLoc, n := 256, stride := 0x20, mask := 0xFFFF, grp := 0 },
  { base := HEP + 0x20000, acc := .ro, loc := hepLoc, n := 256, stride := 0x20, n2 := 3, s2 := 8 },
  { base := HEP + 0x80000, acc := .rw, loc := hepLoc, n := 2048, stride := 16, n2 := 3 },
  { base := HEP + 0x8000C, acc := .rw, loc := hepLoc, n := 2048, stride := 16, por := 1, mask := 1 },
  { base := HEP + 0x90000, acc := .ro, loc := hepLoc, n := 64 }]

/-- R75: PD79 or PD80; the shared registers of the TIM answer while either core's domain is powered. -/
def timLoc : Loc := .any [79, 80] 0
/-- R75. -/
def timRows : List RegRow := [
  { base := TIM + 0x000, acc := .ro, loc := timLoc },
  { base := TIM + 0x008, acc := .ro, loc := timLoc, size := 8 },
  { base := TIM + 0x010, acc := .ro, loc := timLoc },
  { base := TIM + 0x020, acc := .ro, loc := timLoc, n := 7 },
  { base := TIM + 0x040, acc := .ro, loc := timLoc, size := 8 },
  { base := TIM + 0x048, acc := .ro, loc := timLoc, size := 8 },
  { base := TIM + 0x050, acc := .ro, loc := timLoc },
  { base := TIM + 0x054, acc := .rc, loc := timLoc },
  { base := TIM + 0x060, acc := .rwg, loc := timLoc, grp := 9 },
  { base := TIM + 0x068, acc := .rwg, loc := timLoc, mask := 0xF, grp := 9 },
  { base := TIM + 0x070, acc := .rw, loc := timLoc, size := 8, mask := 0xFFFFFFFFFFFFFFFF },
  { base := TIM + 0x078, acc := .cmd, loc := timLoc },
  { base := TIM + 0x080, acc := .rwg, loc := timLoc, n := 18, stride := 8, mask := 0xFFFF, grp := 9 },
  { base := TIM + 0x110, acc := .ro, loc := timLoc, n := 18 },
  { base := TIM + 0x180, acc := .ro, loc := timLoc, n := 40 },
  { base := TIM + 0x240, acc := .wo, loc := timLoc, n := 2, stride := 0x10 },
  { base := TIM + 0x244, acc := .wo, loc := timLoc, n := 2, stride := 0x10 },
  { base := TIM + 0x248, acc := .wo, loc := timLoc, n := 2, stride := 0x10, size := 8, mask := 0xFFFFFFFFFFFFFFFF },
  { base := TIM + 0x300, acc := .cnt, loc := timLoc, n := 7 }]

/-- R397: PD95, CI47. -/
def glvLoc : Loc := .one 95 47
/-- R397. -/
def glvRows : List RegRow := [
  { base := GLV + 0x000, acc := .ro, loc := glvLoc },
  { base := GLV + 0x004, acc := .rc, loc := glvLoc },
  { base := GLV + 0x010, acc := .ro, loc := glvLoc, n := 2 },
  { base := GLV + 0x018, acc := .ro, loc := glvLoc, n := 2 },
  { base := GLV + 0x100, acc := .cnt, loc := glvLoc, n := 4 },
  { base := GLV + 0x200, acc := .rwg, loc := glvLoc, n := 64, stride := 8, mask := 0xC003FFFF, grp := 12 },
  { base := GLV + 0x10000, acc := .rw, loc := glvLoc, n := 64, stride := 0x200, n2 := 64 },
  { base := GLV + 0x10100, acc := .wo, loc := glvLoc, n := 64, stride := 0x200 },
  { base := GLV + 0x10108, acc := .ro, loc := glvLoc, n := 64, stride := 0x200 },
  { base := GLV + 0x20000, acc := .ro, loc := glvLoc, n := 64, stride := 0x200, n2 := 64 },
  { base := GLV + 0x20100, acc := .ro, loc := glvLoc, n := 64, stride := 0x200 },
  { base := GLV + 0x20108, acc := .wo, loc := glvLoc, n := 64, stride := 0x200 }]

/-- R14, R15: the SQL's domains and island. -/
def sqlLoc : Loc := .any [81, 82] 45
/-- R108. -/
def sqlRows : List RegRow := [
  { base := SQL + 0x000, acc := .ro, loc := sqlLoc },
  { base := SQL + 0x004, acc := .rc, loc := sqlLoc },
  { base := SQL + 0x008, acc := .stat, loc := sqlLoc, size := 8 },
  { base := SQL + 0x010, acc := .ro, loc := sqlLoc, size := 8 },
  { base := SQL + 0x018, acc := .ro, loc := sqlLoc, size := 8 },
  { base := SQL + 0x020, acc := .ro, loc := sqlLoc, n := 3 },
  { base := SQL + 0x030, acc := .rwg, loc := sqlLoc, mask := 0x800FFFFF, grp := 10 },
  { base := SQL + 0x040, acc := .rw, loc := sqlLoc, size := 8, mask := 0xFFFFFFFFFFFFFFFF },
  { base := SQL + 0x048, acc := .cmd, loc := sqlLoc },
  { base := SQL + 0x108, acc := .rwg, loc := sqlLoc, n := 15, stride := 8, mask := 0xF0000000, grp := 10 },
  { base := SQL + 0x200, acc := .cnt, loc := sqlLoc, n := 3 }]

/-- R109: the stream table. -/
abbrev STREAMS : Nat := 0x3400000
/-- R109: the staged member table. -/
abbrev MEMBERS : Nat := 0x3500000
/-- R109. -/
def streamRows : List RegRow := [
  { base := STREAMS + 0x00, acc := .rwg, loc := sqlLoc, n := 64, stride := 0x80, mask := 0x8F003FFF, grp := 10 },
  { base := STREAMS + 0x08, acc := .rwg, loc := sqlLoc, n := 64, stride := 0x80, mask := 0xFFFFF, grp := 10 },
  { base := STREAMS + 0x10, acc := .rwg, loc := sqlLoc, n := 64, stride := 0x80, mask := 0xFFFFF, grp := 10 },
  { base := STREAMS + 0x18, acc := .ro, loc := sqlLoc, n := 64, stride := 0x80, n2 := 2 },
  { base := STREAMS + 0x20, acc := .stat, loc := sqlLoc, n := 64, stride := 0x80, size := 8 },
  { base := STREAMS + 0x28, acc := .stat, loc := sqlLoc, n := 64, stride := 0x80, size := 8 },
  { base := STREAMS + 0x30, acc := .ro, loc := sqlLoc, n := 64, stride := 0x80, size := 8 },
  { base := STREAMS + 0x38, acc := .cnt, loc := sqlLoc, n := 64, stride := 0x80, n2 := 6 },
  { base := STREAMS + 0x50, acc := .rc, loc := sqlLoc, n := 64, stride := 0x80 }]
/-- R109. -/
def memberRows : List RegRow := [
  { base := MEMBERS + 0x0, acc := .rwg, loc := sqlLoc, n := 131072, stride := 0x10, mask := 0xBF3FFFFF, grp := 10 },
  { base := MEMBERS + 0x8, acc := .rwg, loc := sqlLoc, n := 131072, stride := 0x10, mask := 0x1FFFFF, grp := 10 }]

/-- R14: the DMA engine's domain and island. -/
def dmaLoc : Loc := .one 5 5
/-- R340. -/
def dmaRows : List RegRow := [
  { base := DMA + 0x000, acc := .rc, loc := dmaLoc },
  { base := DMA + 0x100, acc := .stat, loc := dmaLoc, n := 4, stride := 8, size := 8 },
  { base := DMA + 0x200, acc := .cnt, loc := dmaLoc, n := 5 },
  { base := DMA + 0x4000, acc := .ro, loc := dmaLoc, n := 256 },
  { base := DMA + 0x4400, acc := .rw, loc := dmaLoc, n := 768 },
  { base := DMA + 0x10000, acc := .rw, loc := dmaLoc, n := 4096, stride := 0x20, mask := 0xC710FFFF },
  { base := DMA + 0x10008, acc := .rw, loc := dmaLoc, n := 4096, stride := 0x20, size := 8, mask := 0xFFFFFFFFFFFFFFE0 },
  { base := DMA + 0x10010, acc := .cmd, loc := dmaLoc, n := 4096, stride := 0x20, flr := true },
  { base := DMA + 0x10014, acc := .ro, loc := dmaLoc, n := 4096, stride := 0x20 }]

/-- R425: the BPM lies in PD90, in the island of the SRAM banks. -/
def memLoc : Loc := .one 90 7
/-- R341. -/
def memRows : List RegRow := [
  { base := MEM + 0x000, acc := .ro, loc := memLoc },
  { base := MEM + 0x004, acc := .rc, loc := memLoc },
  { base := MEM + 0x010, acc := .rc, loc := memLoc, size := 8 },
  { base := MEM + 0x020, acc := .stat, loc := memLoc, n := 3, stride := 8, size := 8 },
  { base := MEM + 0x040, acc := .wo, loc := memLoc },
  { base := MEM + 0x048, acc := .ro, loc := memLoc },
  { base := MEM + 0x050, acc := .ro, loc := memLoc, n := 5, stride := 8, size := 8 },
  { base := MEM + 0x080, acc := .cnt, loc := memLoc, n := 5 },
  { base := MEM + 0x100, acc := .rwg, loc := memLoc, mask := 0x80003FFF, grp := 2 },
  { base := MEM + 0x200, acc := .rwg, loc := memLoc, n := 8, stride := 0x20, mask := 0x80FFFFFF, grp := 2 },
  { base := MEM + 0x208, acc := .rwg, loc := memLoc, n := 8, stride := 0x20, mask := 0x1FFFF, grp := 2 },
  { base := MEM + 0x210, acc := .ro, loc := memLoc, n := 8, stride := 0x20, n2 := 2 },
  { base := MEM + 0x400, acc := .rwg, loc := memLoc, n := 39, stride := 0x20, mask := 0x1FFFFFF, grp := 2 },
  { base := MEM + 0x408, acc := .rwg, loc := memLoc, n := 39, stride := 0x20, mask := 0x1FFFFFF, grp := 2 },
  { base := MEM + 0x410, acc := .ro, loc := memLoc, n := 39, stride := 0x20 },
  { base := MEM + 0x418, acc := .ro, loc := memLoc, n := 39, stride := 0x20 },
  { base := MEM + 0x900, acc := .ro, loc := memLoc, n := 2 },
  { base := MEM + 0x908, acc := .ro, loc := memLoc, size := 8 },
  { base := MEM + 0x910, acc := .wo, loc := memLoc },
  { base := MEM + 0xA00, acc := .cnt, loc := memLoc, n := 8 },
  { base := MEM + 0xA40, acc := .cnt, loc := memLoc, n := 8 },
  { base := MEM + 0xB00, acc := .cnt, loc := memLoc, n := 39 }]

/-- R342: the instance quota table. -/
abbrev QUOTAS : Nat := 0x3900000
/-- R342. -/
def quotaRows : List RegRow := [
  { base := QUOTAS + 0x0, acc := .rwg, loc := memLoc, n := 65536, stride := 0x10, mask := 0xFFFFFF, grp := 2 },
  { base := QUOTAS + 0x8, acc := .ro, loc := memLoc, n := 65536, stride := 0x10 }]

/-- The port complex's shared registers lie with the main fabric. -/
def prtLoc : Loc := .one 90 1
/-- R136: MAC m lies in PD33 + m and CI08 + m. -/
def macLoc : Loc := .per 33 8 1
/-- R136: lane n lies in PD17 + n. -/
def laneLoc : Loc := .per 17 8 1
/-- R136: where MAC m's registers begin. -/
abbrev MAC0 : Nat := PRT + 0x10000
/-- R136. -/
def prtRows : List RegRow := [
  { base := PRT + 0x000, acc := .rwg, loc := prtLoc, n := 2, stride := 8, mask := 7, grp := 3 },
  { base := PRT + 0x010, acc := .ro, loc := prtLoc, n := 2 },
  { base := PRT + 0x018, acc := .rc, loc := prtLoc, n := 2 },
  { base := MAC0 + 0x000, acc := .rw, loc := macLoc, n := 16, stride := 0x1000, mask := 0xE7000000 },
  { base := MAC0 + 0x008, acc := .rwg, loc := macLoc, n := 16, stride := 0x1000, mask := 0x3FFF, por := 1522, grp := 3 },
  { base := MAC0 + 0x010, acc := .rw, loc := macLoc, n := 16, stride := 0x1000, size := 8, mask := 0xFFFFFFFFFFFF },
  { base := MAC0 + 0x018, acc := .ro, loc := macLoc, n := 16, stride := 0x1000 },
  { base := MAC0 + 0x020, acc := .rw, loc := macLoc, n := 16, stride := 0x1000, por := 0xFFFF0000 },
  { base := MAC0 + 0x024, acc := .rw, loc := macLoc, n := 16, stride := 0x1000, mask := 0xFFFFFF, por := 40000 },
  { base := MAC0 + 0x040, acc := .rw, loc := macLoc, n := 16, stride := 0x1000, n2 := 8, por := 0xFFFFFFFE },
  { base := MAC0 + 0x060, acc := .ro, loc := macLoc, n := 16, stride := 0x1000, n2 := 9 },
  { base := MAC0 + 0x100, acc := .rw, loc := macLoc, n := 16, stride := 0x1000, mask := 3 },
  { base := MAC0 + 0x200, acc := .rw, loc := macLoc, n := 16, stride := 0x1000, mask := 0x800000FF, por := 0xFF },
  { base := MAC0 + 0x204, acc := .rw, loc := macLoc, n := 16, stride := 0x1000, mask := 0x1FF },
  { base := MAC0 + 0x208, acc := .rw, loc := macLoc, n := 16, stride := 0x1000, mask := 0x3FFFFFFF },
  { base := MAC0 + 0x210, acc := .rw, loc := macLoc, n := 16, stride := 0x1000, size := 8, mask := 0xFFFFFFFFFFFFFFFF },
  { base := MAC0 + 0x218, acc := .cmd, loc := macLoc, n := 16, stride := 0x1000 },
  { base := MAC0 + 0x21C, acc := .ro, loc := macLoc, n := 16, stride := 0x1000 },
  { base := MAC0 + 0x220, acc := .ro, loc := macLoc, n := 16, stride := 0x1000, size := 8 },
  { base := MAC0 + 0x228, acc := .ro, loc := macLoc, n := 16, stride := 0x1000 },
  { base := MAC0 + 0x300, acc := .ro, loc := macLoc, n := 16, stride := 0x1000, size := 8 },
  { base := MAC0 + 0x308, acc := .ro, loc := macLoc, n := 16, stride := 0x1000, n2 := 2 },
  { base := MAC0 + 0x310, acc := .wo, loc := macLoc, n := 16, stride := 0x1000 },
  { base := MAC0 + 0x314, acc := .ro, loc := macLoc, n := 16, stride := 0x1000 },
  { base := MAC0 + 0x400, acc := .stat, loc := macLoc, n := 16, stride := 0x1000, n2 := 11, s2 := 8, size := 8 },
  { base := MAC0 + 0x480, acc := .stat, loc := macLoc, n := 16, stride := 0x1000, n2 := 16, s2 := 8, size := 8 },
  { base := MAC0 + 0x800, acc := .cnt, loc := macLoc, n := 16, stride := 0x1000, n2 := 4 },
  { base := PRT + 0x20000, acc := .rw, loc := macLoc, n := 16, stride := 0x800, n2 := 256, s2 := 8, size := 8,
    mask := 0xFF000000FFFFFFFF },
  { base := PRT + 0x30000, acc := .ro, loc := macLoc, n := 16, stride := 0x800, n2 := 256, s2 := 8, size := 8 },
  { base := PRT + 0x40000, acc := .rwg, loc := laneLoc, n := 16, stride := 0x100, mask := 0x37, porMod := 8, grp := 3 },
  { base := PRT + 0x40008, acc := .ro, loc := laneLoc, n := 16, stride := 0x100 },
  { base := PRT + 0x40010, acc := .stat, loc := laneLoc, n := 16, stride := 0x100, size := 8 }]
/-- R186: the FWT's domain and island. -/
def fwtLoc : Loc := .one 91 46
/-- R186. -/
def fwtRows : List RegRow := [
  { base := FWT + 0x000, acc := .ro, loc := fwtLoc },
  { base := FWT + 0x010, acc := .rwg, loc := fwtLoc, mask := 0x80003FFF, grp := 5 },
  { base := FWT + 0x020, acc := .rwg, loc := fwtLoc, n := 4, stride := 8, mask := 0x80003FFF, grp := 5 },
  { base := FWT + 0x040, acc := .rwg, loc := fwtLoc, n := 4, stride := 8, grp := 5 },
  { base := FWT + 0x060, acc := .rwg, loc := fwtLoc, mask := 0x803FFFFF, por := 150000, grp := 5 },
  { base := FWT + 0x070, acc := .rw, loc := fwtLoc, n := 4, mask := 0x800F0000 },
  { base := FWT + 0x080, acc := .cmd, loc := fwtLoc, mask := 0x000F011F },
  { base := FWT + 0x084, acc := .rw, loc := fwtLoc, mask := 0xFFFFF },
  { base := FWT + 0x088, acc := .rw, loc := fwtLoc, size := 8, mask := 0xFFFFFFFFFFFFFFFF },
  { base := FWT + 0x090, acc := .ro, loc := fwtLoc },
  { base := FWT + 0x0A0, acc := .rw, loc := fwtLoc, n := 8 },
  { base := FWT + 0x0C0, acc := .ro, loc := fwtLoc, n := 4 },
  { base := FWT + 0x0D0, acc := .ro, loc := fwtLoc, n := 4 },
  { base := FWT + 0x0E0, acc := .ro, loc := fwtLoc, n := 4 },
  { base := FWT + 0x0F0, acc := .ro, loc := fwtLoc, n := 4 },
  { base := FWT + 0x100, acc := .stat, loc := fwtLoc, n := 4, stride := 0x40, n2 := 4, s2 := 8, size := 8 },
  { base := FWT + 0x200, acc := .cnt, loc := fwtLoc, n := 4, stride := 0x20, n2 := 5 }]

/-- R369: the THA's shared registers answer while any cluster's domain is powered. -/
def thaLoc : Loc := .any [71, 72, 73, 74, 75, 76, 77, 78] 35
/-- R369: cluster k lies in PD71 + k and CI35 + k. -/
def cluLoc : Loc := .per 71 35 1
/-- R369. -/
def thaRows : List RegRow := [
  { base := THA + 0x000, acc := .ro, loc := thaLoc },
  { base := THA + 0x004, acc := .rc, loc := thaLoc },
  { base := THA + 0x010, acc := .rwg, loc := thaLoc, mask := 0x80000007, grp := 11 },
  { base := THA + 0x100, acc := .ro, loc := cluLoc, n := 8, stride := 0x10 },
  { base := THA + 0x108, acc := .ro, loc := cluLoc, n := 8, stride := 0x10 },
  { base := THA + 0x200, acc := .cnt, loc := cluLoc, n := 8, stride := 0x20, n2 := 8 },
  { base := THA + 0x300, acc := .cnt, loc := thaLoc },
  { base := THA + 0x400, acc := .rwg, loc := thaLoc, n := 32, stride := 0x20, grp := 11 },
  { base := THA + 0x408, acc := .rwg, loc := thaLoc, n := 32, stride := 0x20, mask := 0xFFFFF000, grp := 11 },
  { base := THA + 0x410, acc := .rwg, loc := thaLoc, n := 32, stride := 0x20, grp := 11 },
  { base := THA + 0x418, acc := .rwg, loc := thaLoc, n := 32, stride := 0x20, mask := 0xFFFFFF, grp := 11 },
  { base := THA + 0x800, acc := .rwg, loc := thaLoc, n := 64, stride := 0x10, mask := 0xFFFFFFFF, grp := 11 },
  { base := THA + 0x808, acc := .rwg, loc := thaLoc, n := 64, stride := 0x10, mask := 7, grp := 11 },
  { base := THA + 0x1000, acc := .cmd, loc := thaLoc, mask := 0xF },
  { base := THA + 0x1004, acc := .rw, loc := thaLoc, mask := 0x3FF },
  { base := THA + 0x1008, acc := .rw, loc := thaLoc, size := 8, mask := 0xFFFFFFFFFFFFFFFF },
  { base := THA + 0x1010, acc := .rw, loc := thaLoc, size := 8, mask := 0xFFFFFFFFFFFFFFFF }]

/-- R312: PD03 and CI04. -/
def qimLoc : Loc := .one 3 4
/-- R312. -/
def qimRows : List RegRow := [
  { base := QIM + 0x000, acc := .ro, loc := qimLoc },
  { base := QIM + 0x004, acc := .rc, loc := qimLoc, flr := true },
  { base := QIM + 0x010, acc := .rwg, loc := qimLoc, mask := 0xFFFFF000, grp := 1 },
  { base := QIM + 0x018, acc := .rwg, loc := qimLoc, grp := 1 },
  { base := QIM + 0x020, acc := .rwg, loc := qimLoc, mask := 0x8000001F, por := 4, grp := 1 },
  { base := QIM + 0x028, acc := .rwg, loc := qimLoc, mask := 0xFFFFF000, grp := 1 },
  { base := QIM + 0x030, acc := .rwg, loc := qimLoc, grp := 1 },
  { base := QIM + 0x038, acc := .rwg, loc := qimLoc, mask := 0x8000001F, por := 4, grp := 1 },
  { base := QIM + 0x040, acc := .rwg, loc := qimLoc, mask := 0xFFFFF, grp := 1 },
  { base := QIM + 0x048, acc := .rwg, loc := qimLoc, mask := 0x7FFF, grp := 1 },
  { base := QIM + 0x050, acc := .rwg, loc := qimLoc, mask := 0x1FFFF, por := 0x10000, grp := 1 },
  { base := QIM + 0x060, acc := .rw, loc := qimLoc },
  { base := QIM + 0x064, acc := .ro, loc := qimLoc },
  { base := QIM + 0x068, acc := .ro, loc := qimLoc },
  { base := QIM + 0x06C, acc := .rw, loc := qimLoc },
  { base := QIM + 0x070, acc := .rw, loc := qimLoc, mask := 0xFFFF, por := 100 },
  { base := QIM + 0x078, acc := .wo, loc := qimLoc, size := 8, mask := 0xFFFFFFFFFFFFFFFF },
  { base := QIM + 0x080, acc := .rw, loc := qimLoc, size := 8, mask := 0xFFFFFFFFFFFFFFFF },
  { base := QIM + 0x088, acc := .rw, loc := qimLoc, mask := 0x8000001F, por := 4 },
  { base := QIM + 0x08C, acc := .ro, loc := qimLoc },
  { base := QIM + 0x090, acc := .rw, loc := qimLoc },
  { base := QIM + 0x0A0, acc := .ro, loc := qimLoc, n := 2 },
  { base := QIM + 0x0A8, acc := .wo, loc := qimLoc },
  { base := QIM + 0x100, acc := .stat, loc := qimLoc, n := 3, stride := 8, size := 8 },
  { base := QIM + 0x200, acc := .cnt, loc := qimLoc, n := 6 }]
/-- R169: the PCL's shared registers lie with the main fabric. -/
def pclLoc : Loc := .one 90 1
/-- R169: pipeline p lies in PD49 + p and CI24 + p. -/
def pipeLoc : Loc := .per 49 24 1
/-- R169: where pipeline p's registers begin. -/
abbrev PIPE0 : Nat := PCL + 0x10000
/-- R169. -/
def pclRows : List RegRow := [
  { base := PCL + 0x000, acc := .ro, loc := pclLoc },
  { base := PCL + 0x004, acc := .rc, loc := pclLoc },
  { base := PCL + 0x008, acc := .wo, loc := pclLoc },
  { base := PCL + 0x1000, acc := .rw, loc := pclLoc, n := 64, stride := 0x10, mask := 0xEF0FFFFF },
  { base := PCL + 0x1004, acc := .rw, loc := pclLoc, n := 64, stride := 0x10, mask := 0x3FFF0007 },
  { base := PIPE0 + 0x000, acc := .rwg, loc := pipeLoc, n := 8, stride := 0x10000, mask := 0x801FFFFF, grp := 4 },
  { base := PIPE0 + 0x008, acc := .ro, loc := pipeLoc, n := 8, stride := 0x10000 },
  { base := PIPE0 + 0x010, acc := .rw, loc := pipeLoc, n := 8, stride := 0x10000, size := 8, mask := 0xFFFFFFFFFFFFFFFF },
  { base := PIPE0 + 0x018, acc := .rwg, loc := pipeLoc, n := 8, stride := 0x10000, mask := 0x1FFFF, grp := 4 },
  { base := PIPE0 + 0x020, acc := .rwg, loc := pipeLoc, n := 8, stride := 0x10000, mask := 0x3FF, por := 100, grp := 4 },
  { base := PIPE0 + 0x028, acc := .cmd, loc := pipeLoc, n := 8, stride := 0x10000 },
  { base := PIPE0 + 0x030, acc := .cmd, loc := pipeLoc, n := 8, stride := 0x10000 },
  { base := PIPE0 + 0x038, acc := .cmd, loc := pipeLoc, n := 8, stride := 0x10000, mask := 0x1FFFE },
  { base := PIPE0 + 0x040, acc := .ro, loc := pipeLoc, n := 8, stride := 0x10000, n2 := 2, s2 := 8, size := 8 },
  { base := PIPE0 + 0x100, acc := .stat, loc := pipeLoc, n := 8, stride := 0x10000, n2 := 7, s2 := 8, size := 8 },
  { base := PIPE0 + 0x200, acc := .stat, loc := pipeLoc, n := 8, stride := 0x10000, n2 := 32, s2 := 8, size := 8 },
  { base := PIPE0 + 0x800, acc := .cnt, loc := pipeLoc, n := 8, stride := 0x10000, n2 := 26 }]

/-- R171: the staging and maquette windows: their contents are held with the pipelines. -/
def pclWindowRows : List RegRow := [
  { base := 0x1000000, acc := .rw, loc := pipeLoc, n := 8, stride := 0x200000, size := 0x9000 },
  { base := 0x1100000, acc := .rw, loc := pipeLoc, n := 8, stride := 0x200000, size := 0x100000 },
  { base := 0x2000000, acc := .rw, loc := pipeLoc, n := 8, stride := 0x200000, size := 0x200000 }]

/-- R255: PD69 to PD70 and CI34. -/
def tmgLoc : Loc := .any [69, 70] 34
/-- R255. -/
def tmgRows : List RegRow := [
  { base := TMG + 0x000, acc := .ro, loc := tmgLoc },
  { base := TMG + 0x004, acc := .rc, loc := tmgLoc },
  { base := TMG + 0x010, acc := .cmd, loc := tmgLoc, mask := 0x71F },
  { base := TMG + 0x014, acc := .rw, loc := tmgLoc, mask := 0xFFFFF },
  { base := TMG + 0x020, acc := .rw, loc := tmgLoc, n := 8 },
  { base := TMG + 0x040, acc := .rw, loc := tmgLoc, size := 8, mask := 0xFFFFFFFFFFFFFFFF },
  { base := TMG + 0x048, acc := .rw, loc := tmgLoc, mask := 0x8000001F, por := 4 },
  { base := TMG + 0x04C, acc := .ro, loc := tmgLoc },
  { base := TMG + 0x050, acc := .rw, loc := tmgLoc },
  { base := TMG + 0x100, acc := .rwg, loc := tmgLoc, n := 16, stride := 0x10, mask := 0xFFFFF, grp := 8 },
  { base := TMG + 0x108, acc := .rwg, loc := tmgLoc, n := 16, stride := 0x10, mask := 0xFF007FFF, por := 16, grp := 8 },
  { base := TMG + 0x200, acc := .ro, loc := tmgLoc, n := 16 },
  { base := TMG + 0x400, acc := .rwg, loc := tmgLoc, n := 128, stride := 0x10, mask := 0xFFFFF, grp := 8 },
  { base := TMG + 0x408, acc := .rwg, loc := tmgLoc, n := 128, stride := 0x10, mask := 0xFF007FFF, por := 16, grp := 8 },
  { base := TMG + 0xC00, acc := .rw, loc := tmgLoc, n := 128, stride := 8, mask := 0x800FFFFF },
  { base := TMG + 0xC04, acc := .rw, loc := tmgLoc, n := 128, stride := 8, mask := 0xFFFF, por := 10 },
  { base := TMG + 0x1000, acc := .rw, loc := tmgLoc, n := 16, mask := 0x80FFFFFF },
  { base := TMG + 0x1400, acc := .ro, loc := tmgLoc, n := 128 },
  { base := TMG + 0x2000, acc := .stat, loc := tmgLoc, n := 128, stride := 0x10, n2 := 2, s2 := 8, size := 8 },
  { base := TMG + 0x3000, acc := .cnt, loc := tmgLoc, n := 2 },
  { base := TMG + 0x3100, acc := .cnt, loc := tmgLoc, n := 128 }]

/-- R212: PD57 to PD58 and CI32. -/
def rwcLoc : Loc := .any [57, 58] 32
/-- R212. -/
def rwcRows : List RegRow := [
  { base := RWC + 0x000, acc := .ro, loc := rwcLoc },
  { base := RWC + 0x004, acc := .rc, loc := rwcLoc },
  { base := RWC + 0x010, acc := .rwg, loc := rwcLoc, mask := 0x80003FFF, grp := 6 },
  { base := RWC + 0x018, acc := .rwg, loc := rwcLoc, mask := 0x80003FFF, grp := 6 },
  { base := RWC + 0x020, acc := .cmd, loc := rwcLoc, mask := 0xF },
  { base := RWC + 0x024, acc := .rw, loc := rwcLoc, mask := 0xFFFFF },
  { base := RWC + 0x028, acc := .cmd, loc := rwcLoc, mask := 0x1F },
  { base := RWC + 0x02C, acc := .rw, loc := rwcLoc, mask := 0xFFFF },
  { base := RWC + 0x100, acc := .rwg, loc := rwcLoc, n := 16, stride := 8, grp := 6, flr := true },
  { base := RWC + 0x200, acc := .ro, loc := rwcLoc, n := 8 },
  { base := RWC + 0x300, acc := .ro, loc := rwcLoc },
  { base := RWC + 0x304, acc := .wo, loc := rwcLoc },
  { base := RWC + 0x400, acc := .cnt, loc := rwcLoc, n := 12 },
  { base := RWC + 0x480, acc := .cnt, loc := rwcLoc, n := 8, stride := 8, n2 := 2 },
  { base := RWC + 0x500, acc := .stat, loc := rwcLoc, n := 4, stride := 8, size := 8 },
  { base := RWC + 0x800, acc := .rw, loc := rwcLoc, n := 16, flr := true },
  { base := RWC + 0x1000, acc := .rw, loc := rwcLoc, n := 64, flr := true },
  { base := RWC + 0x2000, acc := .rw, loc := rwcLoc, n := 16, stride := 0x400, n2 := 64, s2 := 0x10, size := 8,
    mask := 0xFFFFFFFFFFFFFFFF },
  { base := RWC + 0x2008, acc := .rw, loc := rwcLoc, n := 16, stride := 0x400, n2 := 64, s2 := 0x10, mask := 0xF00FFFFF },
  { base := RWC + 0x200C, acc := .ro, loc := rwcLoc, n := 16, stride := 0x400, n2 := 64, s2 := 0x10 }]

/-- R232: PD67 to PD68 and CI33. -/
def trnLoc : Loc := .any [67, 68] 33
/-- R232. -/
def trnRows : List RegRow := [
  { base := TRN + 0x000, acc := .ro, loc := trnLoc },
  { base := TRN + 0x010, acc := .rw, loc := trnLoc, mask := 0x80003FFF },
  { base := TRN + 0x018, acc := .rw, loc := trnLoc, mask := 0x80003FFF },
  { base := TRN + 0x020, acc := .rw, loc := trnLoc },
  { base := TRN + 0x030, acc := .cmd, loc := trnLoc, mask := 0x10F },
  { base := TRN + 0x034, acc := .rw, loc := trnLoc, mask := 0x1FFFFF },
  { base := TRN + 0x040, acc := .rw, loc := trnLoc, n := 10 },
  { base := TRN + 0x100, acc := .rw, loc := trnLoc, n := 64 },
  { base := TRN + 0x200, acc := .ro, loc := trnLoc },
  { base := TRN + 0x204, acc := .rw, loc := trnLoc, mask := 0x3FF, por := 20 },
  { base := TRN + 0x208, acc := .rw, loc := trnLoc, mask := 0xFFFFF, por := 1000 },
  { base := TRN + 0x20C, acc := .rw, loc := trnLoc, mask := 0xFFFFF, por := 1000 },
  { base := TRN + 0x210, acc := .rw, loc := trnLoc, mask := 0x1F, por := 8 },
  { base := TRN + 0x300, acc := .stat, loc := trnLoc, n := 7, stride := 8, size := 8 },
  { base := TRN + 0x400, acc := .cnt, loc := trnLoc, n := 6 }]
/-- R234: where the session quota table stands. -/
abbrev SESSQ : Nat := 0x3800000
/-- R234: the session quota table. -/
def sessQuotaRows : List RegRow := [
  { base := SESSQ, acc := .rwg, loc := trnLoc, n := 65536, stride := 0x10, mask := 0x3FFFFF, grp := 7 },
  { base := SESSQ + 0x8, acc := .ro, loc := trnLoc, n := 65536, stride := 0x10 },
  { base := SESSQ + 0xC, acc := .cnt, loc := trnLoc, n := 65536, stride := 0x10 }]
--BLOCKS--

/-- The rows of a block: BAR0 megabytes in R27 order, then the indirect table windows. -/
def blockRows (mb : Nat) : List RegRow :=
  match mb with
  | 0 => glbRows
  | 1 => hepRows
  | 2 => qimRows
  | 3 => dmaRows
  | 4 => memRows
  | 5 => prtRows
  | 6 => pclRows
  | 7 => fwtRows
  | 8 => rwcRows
  | 9 => trnRows
  | 10 => tmgRows
  | 11 => timRows
  | 12 => sqlRows
  | 13 => thaRows
  | 14 => glvRows
  | 52 => streamRows
  | 53 | 54 => memberRows
  | 56 => sessQuotaRows
  | 57 => quotaRows
  | _ => if 16 ≤ mb ∧ mb < 48 then pclWindowRows else []

/-- The register at an address, and its indices. -/
def findReg (a : Nat) : Option (RegRow × Nat × Nat × Nat) :=
  (blockRows (a / 0x100000)).findSome? (fun r => (r.hit a).map (fun h => (r, h)))

/-- A word's value at power-on reset. -/
def porOf (a : Nat) : Word :=
  match findReg a with
  | some (r, i, _, q) =>
    if r.porMod ≠ 0 then BitVec.ofNat 32 (i % r.porMod) else BitVec.ofNat 32 (r.por / 2 ^ (8 * (q / 4 * 4)))
  | none => 0

/-- R40: the guarded register whose complement stands at an address. -/
def complementOf (a : Nat) : Option RegRow :=
  if a < 4 then none else
    match findReg (a - 4) with
    | some (r, _, _, 0) => if r.acc = .rwg then some r else none
    | _ => none

/-- Domain and island of a row's register i. -/
def RegRow.doms (r : RegRow) (i : Nat) : List Nat :=
  match r.loc with
  | .one d _ => [d]
  | .any ds _ => ds
  | .per d _ v => [d + i / v]

/-- The island of a row at an index. -/
def RegRow.isl (r : RegRow) (i : Nat) : Nat :=
  match r.loc with
  | .one _ l => l
  | .any _ l => l
  | .per _ l v => l + i / v

end Sys2Proof.Machine
end

