-- ==== Sys2Proof/Machine/RegFile.lean ====
section
/-! DEFINITION. Stored registers, access errors (R43), counters (R36 to R38) and event registers with their vectors
(R271 to R273). -/

namespace Sys2Proof.Machine

/-- R29: the stored word of a register; an unlisted one holds its value at power-on reset. -/
def State.getReg (s : State) (a : Nat) : Word := (Map.get s.regs a).getD (porOf a)

/-- A register word is stored. -/
def State.setReg (s : State) (a : Nat) (v : Word) : State := { s with regs := Map.set s.regs a v (porOf a) }

/-- The stored value as a number. -/
def State.regNat (s : State) (a : Nat) : Nat := (s.getReg a).toNat

/-- A field of a stored register. -/
def State.regBits (s : State) (a hi lo : Nat) : Nat := bits (s.regNat a) hi lo

/-- A 64-bit register. -/
def State.getReg64 (s : State) (a : Nat) : BitVec 64 := s.getReg (a + 4) ++ s.getReg a

/-- A 64-bit register is stored. -/
def State.setReg64 (s : State) (a : Nat) (v : BitVec 64) : State :=
  (s.setReg a (v.extractLsb' 0 32)).setReg (a + 4) (v.extractLsb' 32 32)

/-! R271 to R273: PF0 vectors. -/

/-- BAR0 address of a vector's MSI-X table entry. -/
def msixEntry (v : Nat) : Nat := HEP + 0x80000 + 16 * v

/-- R261, R268, R269: the endpoint may issue requests: Bus Master Enable stands, and neither D3hot nor a
function-level reset nor a link that is down takes its effect away. -/
def State.bmeOn (s : State) : Bool := s.hep.bme && !s.hep.d3 && s.hep.flrAt.isNone && s.hep.up

/-- R273: nothing holds back a PF0 vector. -/
def State.msixOpen (s : State) (v : Nat) : Bool :=
  s.hep.msix && s.bmeOn && !s.hep.fmask && !(s.getReg (msixEntry v + 12)).getLsbD 0

/-- R273: the message of a vector. -/
def State.msixMessage (s : State) (v : Nat) : Out := .msi (s.getReg64 (msixEntry v)) (s.getReg (msixEntry v + 8))

/-- R36, R37: a 32-bit event counter counts n events; it stops at FFFF_FFFFh and then sets SAT. -/
def State.countN (s : State) (a n : Nat) : State :=
  let v := s.regNat a
  if n = 0 then s
  else if v + n ≤ 0xFFFFFFFF then s.setReg a (BitVec.ofNat 32 (v + n))
  else { s.setReg a 0xFFFFFFFF with sat := if s.sat.contains a then s.sat else s.sat ++ [a] }

/-- R36: one event is counted. -/
def State.count (s : State) (a : Nat) : State := s.countN a 1

/-- R36: a 64-bit statistic advances and wraps. -/
def State.statN (s : State) (a n : Nat) : State := s.setReg64 a (s.getReg64 a + BitVec.ofNat 64 n)

/-- R36: a statistic advances by one. -/
def State.stat (s : State) (a : Nat) : State := s.statN a 1

/-- R279 HEP_INTR_SENT. -/
def intrSent : Nat := HEP + 0x110

/-- R279 HEP_TX_TLP. -/
abbrev statTxTlp : Nat := HEP + 0x108

/-- R273: a PF0 vector fires: its message goes out, or its pending bit sets. -/
def State.fireVector (s : State) (v : Nat) : State :=
  if s.msixOpen v then ((s.emit (s.msixMessage v)).stat intrSent).stat statTxTlp
  else if s.hep.pend.contains v then s
  else { s with hep := { s.hep with pend := s.hep.pend ++ [v] } }

/-- R272: a cause of vectors 0 to 15 is pending: an event register is not yet cleared; for vector 0, which has none, its
pending bit stands and admin completions lie beyond the manager's consumer index (DESIGN CHOICE, log 162). -/
def State.intxCause (s : State) : Bool :=
  !s.hep.raised.isEmpty || (s.hep.pend.contains 0 && s.qim.acqTail.toNat ≠ s.regNat (QIM + 0x06C))

/-- R272: INTA follows its condition, and each change goes out. -/
def State.intxUpdate (s : State) : State :=
  let want := !s.hep.msix && !s.hep.intxDis && s.intxCause
  if want = s.hep.inta then s
  else { s with hep := { s.hep with inta := want } }.emit (.intx want)

/-- How a command ends: INTA follows its condition (R272), and the queue of commands is as it was. -/
def done (s t : State) : Host.Outcome State Fault Refusal := .next { t.intxUpdate with pending := s.pending }

/-- R271: bits of an RC event register set. The block's vector fires when a bit goes from 0 to 1 and the manager has
cleared the register since it last fired. -/
def State.setEvt (s : State) (a vec : Nat) (m : Word) : State :=
  let old := s.getReg a
  let s := s.setReg a (old ||| m)
  if old &&& m = m then s
  else if s.hep.raised.contains vec then s
  else { s with hep := { s.hep with raised := s.hep.raised ++ [vec] } }.fireVector vec

/-- R43: an access error: its flag, the saturating count, and the offset of the first since the last read. -/
def State.accErr (s : State) (flag : Nat) (off : Nat) : State :=
  let r := s.regNat (GLB + 0x10)
  let c := bits r 31 16
  let m := if c = 0xFFFF then BitVec.ofNat 32 (2 ^ flag + 2 ^ 7) else BitVec.ofNat 32 (2 ^ flag)
  let s := if c = 0xFFFF then s else s.setReg (GLB + 0x10) (BitVec.ofNat 32 (putBits r 31 16 (c + 1)))
  let s := if (s.getReg (GLB + 0x14)).getLsbD 31 then s
    else s.setReg (GLB + 0x14) (BitVec.ofNat 32 (2 ^ 31 + off % 2 ^ 26))
  s.setEvt (GLB + 0x10) 1 m

/-! R43: the flags of GLB_ACCERR. -/
abbrev errOff : Nat := 0
abbrev errTmo : Nat := 1
abbrev errGuard : Nat := 2
abbrev errLocked : Nat := 3
abbrev errPartial : Nat := 4
abbrev errBusy : Nat := 5
abbrev errUnmap : Nat := 6

/-- R34: the domains that a register of a row lies in are powered. -/
def State.rowPowered (s : State) (r : RegRow) (i : Nat) : Bool := (r.doms i).any s.powered

/-- R42: a command register's access as the commands of one register make it: it does nothing in a domain that is
off (R34) or while the command is busy, and otherwise has its effect. -/
def State.onCmd (s : State) (a : Nat) (busy : Bool) (f : State → State) : State :=
  match findReg a with
  | none => s.accErr errUnmap a
  | some (r, i, _) =>
    if !s.rowPowered r i then s.accErr errOff a
    else if busy then s.accErr errBusy a
    else f s

/-- R38: the block that holds an event counter's SAT bit. DESIGN CHOICE (log 22): the counters of the stream and the
session quota windows count with the blocks whose chapters give the windows. -/
def satBlock (a : Nat) : Nat :=
  match a / 0x100000 with
  | 52 => 12
  | 56 => 9
  | b => b

/-- R38, R233, R256: a block's tables hold an entry whose SAT bit is set: a leaf or a policer of the traffic manager, a
session's context. -/
def State.satEntry (s : State) (b : Nat) : Bool :=
  (b = 10 && (s.tmg.leaf.any (fun e => e.2.words.getLsbD 29) || s.tmg.pol.any (fun e => e.2.words.getLsbD 29))) ||
  (b = 9 && s.trn.sess.any (fun e => e.2.ctx.extractLsb' 960 4 ≠ 0))

/-- R38: GLB_SATBLK. -/
def State.satBlk (s : State) : Nat :=
  (List.range 15).foldl (fun w b => if s.sat.any (fun a => satBlock a = b) || s.satEntry b then w + 2 ^ b else w) 0

/-- R425: a domain that loses power loses its registers, and the SAT bits and latches with them. -/
def State.loseRegs (s : State) (d : Nat) : State :=
  let dead := fun a => match findReg a with
    | some (r, i, _) => (r.doms i).contains d && (r.doms i).all (fun e => e = d || !s.powered e)
    | none => false
  { s with
    regs := s.regs.filter (fun e => !dead e.1)
    sat := s.sat.filter (fun a => !dead a)
    latches := s.latches.filter (fun e => !dead e.1) }

/-- R433: function-level reset takes the registers whose map says so to their PoR value. -/
def State.flrRegs (s : State) : State :=
  let goes := fun a => match findReg a with
    | some (r, _) => r.flr
    | none => false
  { s with
    regs := s.regs.filter (fun e => !goes e.1)
    sat := s.sat.filter (fun a => !goes a) }

end Sys2Proof.Machine
end

