-- ==== Sys2Proof/Machine/ObjTable.lean ====
section
/-! DEFINITION. The object dictionary (R10, R11): one row for each run of like objects, with types, access, levels,
defaults and ranges, and the stored value of an object. -/

namespace Sys2Proof.Machine

/-- R10, R382: object data types; a string or a domain has a least and a greatest length. -/
inductive OTyp where
  | u8 | u16 | u32 | u64 | i32 | i64 | bool
  | str (lo hi : Nat)
  | dom (lo hi : Nat)
  deriving DecidableEq, Repr

/-- R382: the type code. -/
def OTyp.code : OTyp → Nat
  | .u8 => 1 | .u16 => 2 | .u32 => 3 | .u64 => 4 | .i32 => 5 | .i64 => 6 | .bool => 7
  | .str _ _ => 8 | .dom _ _ => 9

/-- R10: the least and the greatest length. -/
def OTyp.len : OTyp → Nat × Nat
  | .u8 | .bool => (1, 1) | .u16 => (2, 2) | .u32 | .i32 => (4, 4) | .u64 | .i64 => (8, 8)
  | .str a b | .dom a b => (a, b)

/-- R11: object access. -/
inductive OAcc where
  | ro | rw | wo | rwp
  deriving DecidableEq, Repr

/-- n indices from idx, each with the subs sub-indices from sub. -/
structure ObjRow where
  idx  : Nat
  sub  : Nat
  typ  : OTyp
  acc  : OAcc
  n    : Nat := 1
  subs : Nat := 1
  /-- levels to read and to write. -/
  rl   : Nat := 0
  wl   : Nat := 1
  /-- default of a number, and of bytes. -/
  dflt : Nat := 0
  raw  : List Byte := []
  /-- range of a written number; signed types compare as written. -/
  lo   : Nat := 0
  hi   : Nat := 2 ^ 64 - 1
  /-- the object is bound on the main die (R373). -/
  main : Bool := false
  deriving DecidableEq, Repr

/-- R39. -/
def objGuard : List ObjRow := [{ idx := 0x2040, sub := 1, subs := 16, typ := .u8, acc := .rwp, hi := 1 }]

/-- R76. -/
def objTime : List ObjRow := [
  { idx := 0xA000, sub := 1, typ := .u8, acc := .ro },
  { idx := 0xA000, sub := 2, subs := 2, typ := .u8, acc := .ro, dflt := 1 },
  { idx := 0xA000, sub := 4, typ := .u64, acc := .ro },
  { idx := 0xA000, sub := 5, typ := .u32, acc := .ro, dflt := 0xFFFFFF },
  { idx := 0xA000, sub := 6, subs := 2, typ := .u32, acc := .ro },
  { idx := 0xA000, sub := 8, typ := .u64, acc := .ro },
  { idx := 0xA000, sub := 9, typ := .i32, acc := .ro },
  { idx := 0xA010, n := 2, sub := 1, typ := .u8, acc := .rwp, dflt := 1, hi := 2 },
  { idx := 0xA010, n := 2, sub := 2, typ := .u8, acc := .rwp, hi := 2 },
  { idx := 0xA010, n := 2, sub := 3, typ := .u32, acc := .rwp, dflt := 10000 },
  { idx := 0xA010, n := 2, sub := 4, typ := .u32, acc := .rwp, dflt := 3200 },
  { idx := 0xA010, n := 2, sub := 5, typ := .i32, acc := .rwp },
  { idx := 0xA010, n := 2, sub := 6, typ := .u32, acc := .rwp, dflt := 50, lo := 1, hi := 999 },
  { idx := 0xA010, n := 2, sub := 7, typ := .u32, acc := .rwp, dflt := 86400 },
  { idx := 0xA010, n := 2, sub := 8, typ := .u32, acc := .rwp, dflt := 60 },
  { idx := 0xA010, n := 2, sub := 9, typ := .u8, acc := .rwp, dflt := 1, hi := 1 },
  { idx := 0xA020, sub := 1, subs := 2, typ := .u64, acc := .wo, main := true },
  { idx := 0xA030, sub := 1, subs := 2, typ := .bool, acc := .rwp, dflt := 1, hi := 1 },
  { idx := 0xA030, sub := 3, typ := .u32, acc := .rwp, dflt := 1000 },
  { idx := 0xA030, sub := 4, typ := .u8, acc := .wo, lo := 1, hi := 2, main := true },
  { idx := 0xA040, sub := 1, typ := .bool, acc := .rwp, hi := 1 },
  { idx := 0xA040, sub := 2, typ := .u32, acc := .rwp, dflt := 100000, lo := 1, hi := 500000 },
  { idx := 0xA040, sub := 3, typ := .i32, acc := .rwp },
  { idx := 0xA040, sub := 4, typ := .bool, acc := .rwp, dflt := 1, hi := 1 },
  { idx := 0xA050, sub := 1, subs := 18, typ := .u16, acc := .rwp },
  { idx := 0xA050, sub := 0x13, typ := .u64, acc := .wo, main := true },
  { idx := 0xA050, sub := 0x14, typ := .u32, acc := .rwp, dflt := 0xFFFFFFFF },
  { idx := 0xA050, sub := 0x15, typ := .u8, acc := .rwp, dflt := 0xF, hi := 0xF },
  { idx := 0xA051, sub := 1, typ := .bool, acc := .rwp, hi := 1 },
  { idx := 0xA060, sub := 1, typ := .u16, acc := .rwp, hi := 1023 },
  { idx := 0xA060, sub := 2, typ := .bool, acc := .rwp, hi := 1 },
  { idx := 0xA070, sub := 1, subs := 40, typ := .u32, acc := .ro, main := true }]

/-- R386, R389 to R392. -/
def objField : List ObjRow := [
  { idx := 0x1000, sub := 1, typ := .u32, acc := .ro, dflt := 0x1E5F },
  { idx := 0x1000, sub := 2, typ := .u32, acc := .ro, dflt := 0x1600 },
  { idx := 0x1000, sub := 3, typ := .u8, acc := .ro, dflt := 0xB1 },
  { idx := 0x1000, sub := 4, typ := .u64, acc := .ro },
  { idx := 0x1000, sub := 5, subs := 2, typ := .u32, acc := .ro },
  { idx := 0x1000, sub := 7, typ := .str 0 255, acc := .ro, raw := [0x49, 0x6B, 0x69, 0x77, 0x65, 0x72, 0x75, 0x73] },
  { idx := 0x1010, sub := 1, subs := 2, typ := .u8, acc := .ro },
  { idx := 0x1010, sub := 3, typ := .u8, acc := .rwp },
  { idx := 0x1010, sub := 4, typ := .u16, acc := .rwp, dflt := 60, lo := 10, hi := 3600 },
  { idx := 0x1010, sub := 5, typ := .u8, acc := .ro },
  { idx := 0x2000, sub := 1, typ := .u8, acc := .ro },
  { idx := 0x2000, sub := 2, typ := .u8, acc := .wo, lo := 1, hi := 3 },
  { idx := 0x2000, sub := 3, typ := .bool, acc := .rwp, hi := 1 },
  { idx := 0x2000, sub := 4, typ := .u32, acc := .rwp, dflt := 1000, lo := 10, hi := 60000 },
  { idx := 0x2000, sub := 5, typ := .u8, acc := .rwp, hi := 1 },
  { idx := 0x2000, sub := 6, typ := .u8, acc := .wo, lo := 1, hi := 1 },
  { idx := 0x2010, sub := 1, typ := .dom 12 12, acc := .rwp,
    raw := [255, 255, 255, 255, 255, 255, 255, 255, 255, 255, 255, 255] },
  { idx := 0x2010, sub := 2, typ := .dom 12 12, acc := .ro, main := true },
  { idx := 0x2200, sub := 1, subs := 16, typ := .u8, acc := .rwp, dflt := 0xFF },
  { idx := 0x2F00, sub := 1, subs := 2, typ := .u8, acc := .ro },
  { idx := 0x3000, n := 64, sub := 1, typ := .u8, acc := .ro },
  { idx := 0x3000, n := 64, sub := 2, typ := .dom 0 256, acc := .ro, rl := 1 },
  { idx := 0x3000, n := 64, sub := 3, typ := .u32, acc := .ro },
  { idx := 0x3000, n := 64, sub := 4, typ := .u16, acc := .wo },
  { idx := 0x3100, n := 64, sub := 1, typ := .u8, acc := .ro },
  { idx := 0x3100, n := 64, sub := 2, typ := .dom 1 256, acc := .wo },
  { idx := 0x3100, n := 64, sub := 3, typ := .u16, acc := .ro },
  { idx := 0x3200, n := 16, sub := 1, typ := .u8, acc := .ro },
  { idx := 0x3200, n := 16, sub := 2, typ := .dom 0 256, acc := .ro, rl := 1 },
  { idx := 0x3200, n := 16, sub := 3, typ := .u32, acc := .ro },
  { idx := 0x3200, n := 16, sub := 4, typ := .u16, acc := .wo },
  { idx := 0x3200, n := 16, sub := 5, typ := .u8, acc := .ro },
  { idx := 0x3200, n := 16, sub := 6, typ := .dom 1 256, acc := .wo },
  { idx := 0x3200, n := 16, sub := 7, typ := .u16, acc := .ro },
  { idx := 0xF000, sub := 1, typ := .u32, acc := .ro },
  { idx := 0xF000, sub := 2, typ := .u8, acc := .ro },
  { idx := 0xF000, sub := 3, typ := .u64, acc := .ro },
  { idx := 0xF000, sub := 4, subs := 6, typ := .u32, acc := .ro },
  { idx := 0xF000, sub := 0x10, subs := 2, typ := .u32, acc := .ro },
  { idx := 0xF010, sub := 1, typ := .dom 0 65535, acc := .ro, rl := 1 }]

/-- R428. -/
def objTelemetry : List ObjRow := [
  { idx := 0xF020, sub := 1, subs := 3, typ := .i32, acc := .ro },
  { idx := 0xF020, sub := 4, typ := .u16, acc := .ro, dflt := 850 },
  { idx := 0xF020, sub := 5, typ := .u32, acc := .ro },
  { idx := 0xF020, sub := 6, typ := .u32, acc := .rwp, dflt := 100, lo := 1, hi := 1000 },
  { idx := 0xF020, sub := 7, typ := .u8, acc := .rwp, dflt := 100, lo := 80, hi := 110 },
  { idx := 0xF020, sub := 8, typ := .u32, acc := .ro },
  { idx := 0xF020, sub := 9, typ := .bool, acc := .ro }]

/-- R110. -/
def objLedger : List ObjRow := [
  { idx := 0xA100, sub := 1, typ := .u32, acc := .ro, main := true },
  { idx := 0xA100, sub := 2, subs := 3, typ := .u64, acc := .ro, main := true },
  { idx := 0xA100, sub := 5, typ := .u64, acc := .ro },
  { idx := 0xA100, sub := 6, typ := .dom 32 32, acc := .ro, main := true },
  { idx := 0xA110, sub := 1, typ := .u32, acc := .rwp, dflt := 1000, lo := 100, hi := 10000 },
  { idx := 0xA110, sub := 2, typ := .u32, acc := .rwp, dflt := 65536, lo := 1024, hi := 65536 },
  { idx := 0xA110, sub := 3, typ := .u32, acc := .rwp, dflt := 1000, lo := 100, hi := 60000 },
  { idx := 0xA110, sub := 4, typ := .u32, acc := .rwp, dflt := 4096, lo := 256, hi := 8192 },
  { idx := 0xA110, sub := 5, typ := .bool, acc := .rwp, dflt := 1, hi := 1 },
  { idx := 0xA120, sub := 1, subs := 15, typ := .u8, acc := .rwp },
  { idx := 0xA130, sub := 1, typ := .dom 97 97, acc := .ro },
  { idx := 0xA130, sub := 2, typ := .dom 60 60, acc := .ro },
  { idx := 0xA130, sub := 3, subs := 3, typ := .u64, acc := .ro },
  { idx := 0xA140, sub := 1, typ := .bool, acc := .rwp, hi := 1 },
  { idx := 0xA150, sub := 1, typ := .u32, acc := .rwp, dflt := 50, lo := 1, hi := 10000 },
  { idx := 0xA150, sub := 2, typ := .u32, acc := .rwp, dflt := 4, lo := 1, hi := 100 }]

/-- R166: program loads are allowed. -/
def objLoad : List ObjRow := [{ idx := 0x2060, sub := 1, typ := .bool, acc := .rwp, dflt := 1, hi := 1 }]

/-- R213. -/
def objCipher : List ObjRow := [
  { idx := 0x2080, sub := 1, typ := .u8, acc := .wo, main := true },
  { idx := 0x2080, sub := 2, typ := .u8, acc := .ro, main := true },
  { idx := 0x2080, sub := 3, typ := .u32, acc := .ro, main := true }]

/-- R351. -/
def objService : List ObjRow := [
  { idx := 0x2100, n := 8, sub := 1, typ := .u8, acc := .ro },
  { idx := 0x2100, n := 8, sub := 2, typ := .u8, acc := .wo, lo := 1, hi := 3 },
  { idx := 0x2100, n := 8, sub := 3, typ := .bool, acc := .rwp, hi := 1 },
  { idx := 0x2100, n := 8, sub := 4, typ := .dom 0 48, acc := .ro },
  { idx := 0x2100, n := 8, sub := 5, subs := 2, typ := .u8, acc := .ro },
  { idx := 0x2100, n := 8, sub := 7, typ := .u32, acc := .ro },
  { idx := 0x2100, n := 8, sub := 8, typ := .u8, acc := .ro }]

/-- R417. 2F20h.02 and 2F40h.01 need level 1 at least; R407, R408 and R415 ask for more by the value written. -/
def objSecurity : List ObjRow := [
  { idx := 0x2F10, sub := 1, subs := 64, typ := .u8, acc := .ro },
  { idx := 0x2F20, sub := 1, typ := .u8, acc := .ro },
  { idx := 0x2F20, sub := 2, typ := .u8, acc := .wo, lo := 1, hi := 4 },
  { idx := 0x2F20, sub := 3, typ := .u8, acc := .ro },
  { idx := 0x2F30, sub := 1, typ := .dom 310 310, acc := .wo },
  { idx := 0x2F31, sub := 1, typ := .dom 52 52, acc := .wo },
  { idx := 0x2F31, sub := 2, typ := .dom 16 16, acc := .ro },
  { idx := 0x2F31, sub := 3, typ := .u32, acc := .ro },
  { idx := 0x2F32, sub := 1, subs := 2, typ := .dom 0 65535, acc := .ro },
  { idx := 0x2F32, sub := 3, typ := .dom 0 4096, acc := .wo, wl := 2 },
  { idx := 0x2F40, sub := 1, typ := .u8, acc := .rwp, dflt := 1, hi := 15 },
  { idx := 0x2F50, sub := 1, typ := .dom 32 32, acc := .wo, wl := 0 },
  { idx := 0x2F50, sub := 2, typ := .dom 0 736, acc := .ro },
  { idx := 0xA131, sub := 1, typ := .dom 0 65535, acc := .ro }]

/-- The object dictionary. -/
def objTable : List ObjRow := objGuard ++ objTime ++ objLedger ++ objField ++ objTelemetry ++ objLoad ++ objCipher ++
  objService ++ objSecurity

/-- The row of an object. -/
def findObj (idx sub : Nat) : Option ObjRow :=
  objTable.find? (fun r => decide (r.idx ≤ idx ∧ idx < r.idx + r.n ∧ r.sub ≤ sub ∧ sub < r.sub + r.subs))

/-- R10: the highest sub-index in use at an index. -/
def objTop (idx : Nat) : Option Nat :=
  (objTable.filter (fun r => decide (r.idx ≤ idx ∧ idx < r.idx + r.n))).foldl
    (fun m r => some (max (m.getD 0) (r.sub + r.subs - 1))) none

/-- Where an object's value stands in the store. -/
def objKey (idx sub : Nat) : Nat := idx * 256 + sub

/-- R386: an object's default value. -/
def objDefault (idx sub : Nat) : List Byte :=
  match findObj idx sub with
  | some r =>
    match r.typ with
    | .str _ _ | .dom _ _ => r.raw
    | t => beBytes t.len.1 r.dflt
  | none => []

/-- R11: the stored value of an object. -/
def State.objBytes (s : State) (idx sub : Nat) : List Byte :=
  (Map.get s.field.objs (objKey idx sub)).getD (objDefault idx sub)

/-- An object's value as a number. -/
def State.objNat (s : State) (idx sub : Nat) : Nat := beNat (s.objBytes idx sub)

/-- A signed object's value. -/
def State.objInt (s : State) (idx sub : Nat) : Int := (BitVec.ofNat 32 (s.objNat idx sub)).toInt

/-- A Boolean object's value. -/
def State.objBool (s : State) (idx sub : Nat) : Bool := decide (s.objNat idx sub = 1)

/-! R373: the bound objects, as the main die has them. -/

/-- R373, R76, R110, R415: an object that the field side stores and whose value the binding also takes to the main
die. -/
def objTold (idx : Nat) : Bool :=
  [0x2060, 0x2200, 0x2F40, 0xA010, 0xA011, 0xA030, 0xA040, 0xA050, 0xA051, 0xA060, 0xA110, 0xA120, 0xA140,
    0xA150].contains idx

/-- R373: a bound object's value on the main die. -/
def State.mainBytes (s : State) (idx sub : Nat) : List Byte :=
  (Map.get s.bound (objKey idx sub)).getD (objDefault idx sub)

/-- R373: a bound object's number on the main die. -/
def State.mainNat (s : State) (idx sub : Nat) : Nat := beNat (s.mainBytes idx sub)

/-- R373: a bound object's signed number on the main die. -/
def State.mainInt (s : State) (idx sub : Nat) : Int := (BitVec.ofNat 32 (s.mainNat idx sub)).toInt

/-- R373: a bound Boolean on the main die. -/
def State.mainBool (s : State) (idx sub : Nat) : Bool := decide (s.mainNat idx sub = 1)

/-- R373: the main die takes a bound object's value. -/
def State.setMain (s : State) (idx sub : Nat) (v : List Byte) : State :=
  { s with bound := Map.set s.bound (objKey idx sub) v (objDefault idx sub) }

/-! R370: values in field flash. -/

/-- R370: the CRC-32C of a copy, over its write count and its value. -/
def flashCrc (val : List Byte) (count : Nat) : Word := crc32c (beBytes 4 count ++ val)

/-- R370: a copy whose CRC is right. -/
def FlashCopy.valid (c : FlashCopy) : Bool := c.crc = flashCrc c.val c.count

/-- R370: the write count of a copy, 0 where it is not valid. -/
def copyCount (c : Option FlashCopy) : Nat := ((c.filter FlashCopy.valid).map FlashCopy.count).getD 0

/-- R370: a copy is written over the one that is not the valid copy with the higher count. -/
def Copies.put (c : Copies) (f : Nat → FlashCopy) : Copies :=
  if copyCount c.b < copyCount c.a then { c with b := some (f (copyCount c.a + 1)) }
  else { c with a := some (f (copyCount c.b + 1)) }

/-- R370: a value is committed with the next write count. -/
def Copies.commit (c : Copies) (v : List Byte) : Copies := c.put (fun n => { val := v, count := n, crc := flashCrc v n })

/-- R370, R383: a write that fails leaves a copy that is not valid. -/
def Copies.tear (c : Copies) (v : List Byte) : Copies := c.put (fun n => { val := v, count := n, crc := ~~~flashCrc v n })

/-- R370: the value of the valid copy with the higher count. -/
def Copies.newest (c : Copies) : Option (List Byte) :=
  (if copyCount c.b < copyCount c.a then c.a else c.b.filter FlashCopy.valid).map FlashCopy.val

/-- R370, R383: an RWP object's value is committed to flash and stands. -/
def State.setObj (s : State) (idx sub : Nat) (v : List Byte) : State :=
  { s with field := { s.field with
    objs := Map.set s.field.objs (objKey idx sub) v (objDefault idx sub)
    copies := Map.upd s.field.copies (objKey idx sub) {} (fun c => c.commit v) } }

/-- R383: a flash write of an RWP object fails: the old value stands. -/
def State.tearObj (s : State) (idx sub : Nat) (v : List Byte) : State :=
  { s with field := { s.field with copies := Map.upd s.field.copies (objKey idx sub) {} (fun c => c.tear v) } }

/-- R2000h.01 reads RUNNING (R386). -/
def State.running (s : State) : Bool := decide (s.field.mainSt = 2)

end Sys2Proof.Machine
end

