-- ==== Sys2Proof/Machine/Link.lean ====
section
/-! DEFINITION. The glove as its users send on it (R371, R372), and event notices (R388). -/

namespace Sys2Proof.Machine

/-- One side's end of the glove. -/
def State.glove (s : State) : Side → GloveEnd
  | .host => s.gloveH
  | .field => s.gloveF

/-- One side's end of the glove is replaced. -/
def State.setGlove (s : State) (d : Side) (g : GloveEnd) : State :=
  match d with
  | .host => { s with gloveH := g }
  | .field => { s with gloveF := g }

/-- R371: the 8-byte header of a message. -/
def gloveHeader (m : GloveMsg) : List Byte :=
  [m.typ, m.flags] ++ beBytes 2 m.seq.toNat ++ beBytes 2 m.payload.length ++ [0, 0]

/-- R371: the CRC-32C that follows a message. -/
def gloveCrc (m : GloveMsg) : Word := crc32c (gloveHeader m ++ m.payload)

/-- R371: a side sends a message. -/
def State.gloveOut (s : State) (d : Side) (m : GloveMsg) : State := s.emit (.glove d m (gloveCrc m))

/-- R371: a message joins a side's stream; it stands there until its acknowledgement. -/
def State.gloveSend (s : State) (d : Side) (typ : Nat) (payload : List Byte) : State :=
  let g := s.glove d
  let m : GloveMsg := { typ := BitVec.ofNat 8 typ, seq := g.seq, payload := payload }
  (s.setGlove d { g with
    seq := g.seq + 1, sent := g.sent ++ [m], retryAt := if g.sent.isEmpty then s.clock else g.retryAt }).gloveOut d m

/-- R372: the payload of a POWER message: what it asks for (0 domains, 1 reset, 2 power-down) and the domains. -/
def powerPayload (what domains : Nat) : List Byte := beBytes 1 what ++ [0, 0, 0] ++ beBytes 12 domains

/-- R395: while it answers on the glove, the field side asks for the domains of 2010h.01 as they are to stand now. -/
def State.askPower (s : State) : State :=
  if s.field.up && s.gloveF.peerUp then s.gloveSend .field 0x40 (powerPayload 0 (s.objNat 0x2010 1)) else s

/-! R397: GLV registers that other units drive. -/
abbrev glvEvt : Nat := GLV + 0x004
abbrev glvMbxDeny : Nat := GLV + 0x100
abbrev glvBadMsg : Nat := GLV + 0x104
abbrev glvEvtLost : Nat := GLV + 0x108
abbrev glvLinkReset : Nat := GLV + 0x10C

/-- R388: the payload of an event notice. -/
def eventPayload (seq code unit time : Nat) (detail : List Byte) : List Byte :=
  beBytes 4 seq ++ beBytes 2 code ++ beBytes 1 unit ++ [0] ++ beBytes 8 time ++ detail.take 64

/-- R388: a main-die unit sends an event notice; 64 of them wait while the field side is down. -/
def State.mainEvent (s : State) (code unit time : Nat) (detail : List Byte) : State :=
  let p := eventPayload 0 code unit time detail
  if s.gloveH.peerUp then s.gloveSend .host 0x30 p
  else if s.gloveH.evq.length < 64 then { s with gloveH := { s.gloveH with evq := s.gloveH.evq ++ [p] } }
  else s.count glvEvtLost

/-- F000h event counts 04h to 11h of the field side (R386). -/
def State.fieldCount (s : State) (sub : Nat) : State :=
  { s with field := { s.field with counts := Map.upd s.field.counts sub 0 (· + 1) } }

/-! R374, R375, R379: frames of the node. -/

/-- R379: the header of a Usnan frame. -/
def busHeader (typ : Nat) (dst src : Byte) (tid : BitVec 16) (len : Nat) (session counter : Word) : List Byte :=
  [1, BitVec.ofNat 8 typ, dst, src] ++ beBytes 2 tid.toNat ++ beBytes 2 len ++ beBytes 4 session.toNat ++
    beBytes 4 counter.toNat

/-- R375: the Ethernet address of a node, or of all. -/
def busMac (a : Byte) : List Byte := if a = 255 then List.replicate 6 255 else [0x02, 0x55, 0x53, 0, 0, a]

/-- R374, R375, R379: a frame from its destination address to its FCS, at least 64 bytes. -/
def busFrame (dst src : Byte) (body : List Byte) : List Byte :=
  let f := slicePad (busMac dst ++ busMac src ++ [0x88, 0xB5] ++ body) 0 (max 60 (14 + body.length))
  f ++ leBytes 4 (crc32 f).toNat

/-- R374: a frame leaves, or is discarded at the attempt limit; one of more than 1,518 bytes cannot. -/
def State.busOut (s : State) (ok : Bool) (dst : Byte) (body : List Byte) : State :=
  if !ok || decide (1500 < body.length) then s.fieldCount 0x10 else s.emit (.bus (busFrame dst s.field.node body))

/-- R388: the frame of an event notice; DESIGN CHOICE (log 153): whether it leaves within the attempt limit is a free
value. -/
def State.busEvent (s : State) (dst : Byte) (payload : List Byte) : State :=
  (s.drawn).busOut (s.freeNext % 2 = 0) dst (busHeader 0x20 dst s.field.node 0 payload.length 0 0 ++ payload)

/-- R388: the field side raises a notice: it is logged, sent to the event destination and waits for an
acknowledgement; of more than 64 waiting the oldest is dropped and counted. -/
def State.fieldEvent (s : State) (code unit time : Nat) (detail : List Byte) : State :=
  let f := s.field
  let n : Notice := { seq := f.evtSeq, code := code, unit := unit, time := BitVec.ofNat 64 time,
                      detail := detail.take 64, sentAt := s.clock }
  let dst := s.objNat 0x1010 3
  let log := (f.log ++ [n]).drop (f.log.length + 1 - 64)
  let s := { s with field := { f with evtSeq := f.evtSeq + 1, log := log } }
  if dst = 0 then s
  else
    let s := if f.waiting.length < 64 then s else s.fieldCount 7
    let w := (f.waiting ++ [n]).drop (f.waiting.length + 1 - 64)
    let s := { s with field := { s.field with waiting := w } }
    if f.node = 0 || !f.up then s
    else s.busEvent (BitVec.ofNat 8 dst) (eventPayload n.seq.toNat code unit time detail)

end Sys2Proof.Machine
end

