-- ==== Sys2Proof/Machine/Time.lean ====
section
/-! DEFINITION. The time cores, the armature, stamps and their bounds, takeover, path corrections and PPS_OUT
(chapter 3). Counts carry 8 fractional bits below 0.25 ns; phases and terms are in 1/64 ns unless a name says other. -/

namespace Sys2Proof

/-- The other core. -/
def CoreId.other : CoreId → CoreId
  | .A => .B
  | .B => .A

/-- R76: the index of a core's configuration object. -/
def CoreId.obj : CoreId → Nat
  | .A => 0xA010
  | .B => 0xA011

/-- R14: a core's power domain. -/
def CoreId.dom : CoreId → Nat
  | .A => 79
  | .B => 80

/-- R51: where within its microsecond a core strokes, units. -/
def CoreId.phase : CoreId → Nat
  | .A => 0
  | .B => 2000

/-- R51: the last instant up to a time at which a core strokes. -/
def CoreId.strokeBy (c : CoreId) (now : Nat) : Nat := (now - c.phase) / 4000 * 4000 + c.phase

/-- R75: a core's TIM_PTPMEAS registers. -/
def CoreId.ptpReg : CoreId → Nat
  | .A => Machine.TIM + 0x240
  | .B => Machine.TIM + 0x250

namespace Machine

/-! R75: registers of the TIM. -/
abbrev timEvt : Nat := TIM + 0x054
abbrev timSpenPort : Nat := TIM + 0x060
abbrev timSpenHost : Nat := TIM + 0x068
abbrev timPcorrTime : Nat := TIM + 0x070
abbrev timPcorrCmd : Nat := TIM + 0x078
abbrev timPcorrStg (n : Nat) : Nat := TIM + 0x080 + 8 * n
abbrev cntStrokeMiss : Nat := TIM + 0x300
abbrev cntRepJump : Nat := TIM + 0x304
abbrev cntXchk : Nat := TIM + 0x308
abbrev cntTko : Nat := TIM + 0x30C
abbrev cntUnknown : Nat := TIM + 0x310
abbrev cntPtpRej : Nat := TIM + 0x314
abbrev cntPcorrRej : Nat := TIM + 0x318

/-- R75: bits of TIM_EVT set. -/
def State.timEvent (s : State) (b : Nat) : State := s.setEvt timEvt 12 (BitVec.ofNat 32 (2 ^ b))

/-- R45: the state's code. -/
def CoreState.code : CoreState → Nat
  | .off => 0 | .freerun => 1 | .acquiring => 2 | .locked => 3 | .holdover => 4 | .fault => 5 | .slaved => 6

/-- R44: a time core. -/
def State.core (s : State) : CoreId → TimeCore
  | .A => s.tim.coreA
  | .B => s.tim.coreB

/-- A core is replaced. -/
def State.setCore (s : State) (c : CoreId) (t : TimeCore) : State :=
  match c with
  | .A => { s with tim := { s.tim with coreA := t } }
  | .B => { s with tim := { s.tim with coreB := t } }

/-- A core is changed. -/
def State.modCore (s : State) (c : CoreId) (f : TimeCore → TimeCore) : State := s.setCore c (f (s.core c))

/-- R46: a core's count now, 1/256 unit. -/
def State.coreCount (s : State) (c : CoreId) : Nat := (s.core c).count + 256 * (s.clock - (s.core c).countAt)

/-- A core's time now, units. -/
def State.coreTime (s : State) (c : CoreId) : Nat := s.coreCount c / 256

/-- A core's count is set to a value that stands now. -/
def State.setCount (s : State) (c : CoreId) (n : Nat) : State :=
  s.modCore c (fun t => { t with count := n, countAt := s.clock })

/-- A replica (R54). -/
def State.rep (s : State) (r : Nat) : Replica := Map.at_ s.tim.reps r {}

/-- A replica is replaced. -/
def State.setRep (s : State) (r : Nat) (x : Replica) : State :=
  { s with tim := { s.tim with reps := Map.set s.tim.reps r x {} } }

/-- R51: a replica's timescale of a core, and the one before its last setting. -/
def Replica.scale (x : Replica) : CoreId → Option Scale
  | .A => x.scaleA
  | .B => x.scaleB
def Replica.prev (x : Replica) : CoreId → Option Scale
  | .A => x.prevA
  | .B => x.prevB

/-- R63: the core term a replica last received. -/
def Replica.term (x : Replica) : CoreId → Option Nat
  | .A => x.termA
  | .B => x.termB

/-- R51: a timescale at a moment, given in 1/256 of the clock's unit, at its rate forward and back. -/
def Scale.reads (x : Scale) (t : Nat) : Nat :=
  x.value + x.num * (t - 256 * x.since) / (256 * x.den) - x.num * (256 * x.since - t) / (256 * x.den)

/-- R51: a replica's timescale of a core, advanced to now, 1/256 unit. -/
def State.repScale (s : State) (r : Nat) (c : CoreId) : Option Nat :=
  ((s.rep r).scale c).map (fun x => x.reads (256 * s.clock))

/-- R56: what a replica's timescale of a core read at an earlier moment, given in 1/256 of the clock's unit. -/
def Replica.latched (x : Replica) (c : CoreId) (t : Nat) : Nat :=
  match x.scale c, x.prev c with
  | some y, some z => if 256 * y.since ≤ t then y.reads t else z.reads t
  | some y, none => y.reads t
  | none, _ => 0

/-- R51: a stroke sets a timescale; its rate is what the stroke before it makes of the interval, and stays as it was
where the clock has not moved or the value has stepped. -/
def Scale.set (old : Option Scale) (value now : Nat) (step : Bool) : Scale :=
  match old with
  | some y =>
    if step || decide (now ≤ y.since) || decide (value ≤ y.value) then { y with value := value, since := now }
    else { value := value, since := now, num := value - y.value, den := now - y.since }
  | none => { value := value, since := now }

/-- R51: a replica with the timescale of a core set. -/
def Replica.setScale (x : Replica) (c : CoreId) (value now : Nat) (step : Bool) (term : Option Nat) : Replica :=
  let y := Scale.set (x.scale c) value now step
  match c with
  | .A => { x with scaleA := some y, prevA := x.scaleA, termA := term }
  | .B => { x with scaleB := some y, prevB := x.scaleB, termB := term }

/-- R69 step 5: a replica makes a core active at a moment of the clock and stops keeping the other's timescale, but for
the words latched before (R56). -/
def Replica.switchTo (x : Replica) (c : CoreId) (now : Nat) : Replica :=
  let x := { x with active := c, dual := false, switchAt := now, oldScale := x.scale c.other, oldTerm := x.term c.other }
  match c with
  | .A => { x with scaleB := none, prevB := none, termB := none }
  | .B => { x with scaleA := none, prevA := none, termA := none }

/-- R51: a replica's active value, units; zero before any stroke. -/
def State.repTime (s : State) (r : Nat) : Nat := ((s.repScale r (s.rep r).active).getD 0) / 256

/-- R54, R180: what the interval timers of an island count by: its replica's active value without the steps that have
moved it. DESIGN CHOICE (log 63): before any stroke has set it, the island's own clock. -/
def State.islandTime (s : State) (r : Nat) : Nat :=
  (((s.repScale r (s.rep r).active).getD (256 * s.clock) : Int) - (s.rep r).moved).toNat / 256

/-- R180: a stroke that sets a replica's active value for the first time or carries a step moves it. -/
def Replica.stepped (x : Replica) (old : Option Nat) (value clock : Nat) (step : Bool) : Int :=
  match old with
  | some v => if step then x.moved + ((value : Int) - v) else x.moved
  | none => x.moved + ((value : Int) - (256 * clock : Nat))

/-- R54: an interval that began at an island's time has passed. -/
def State.islandDue (s : State) (r since len : Nat) : Bool := decide (since + len ≤ s.islandTime r)

/-- R52, R53: the replica term: 0.5 ns and 0.25 ns for each missed stroke; none is unknown. -/
def Replica.eArm (x : Replica) : Option Nat := if x.unknown then none else some (32 + 16 * x.missed)

/-- R63: a bound from core term, replica term and stamp-point term. -/
def boundOf (c arm : Option Nat) (sp : Nat) : BitVec 16 :=
  match c, arm with
  | some c, some a =>
    let b := (c + a + sp + 63) / 64
    if b > 65534 then 0xFFFF else BitVec.ofNat 16 b
  | _, _ => 0xFFFF

/-! R62, R64 to R66: the core term. -/

/-- R62: d × dt in 1/64 ns, rounded up; d in 0.001 ppb and dt in units. -/
def driftPart (d dt : Nat) : Nat := (d * dt * 16 + 999999999999) / 1000000000000

/-- R64: the drift specification in use: until the next valid measurement the larger of old and new. -/
def State.drift (s : State) (c : CoreId) : Nat := max (s.core c).drift (s.mainNat c.obj 3)

/-- R62: |theta − phi| in 1/64 ns, rounded up. -/
def residual (theta phi : Int) : Nat := ((16 * theta - phi).natAbs + 15) / 16

/-- R62, R64, R66: a core's own term; none is unknown. -/
def State.ownTerm (s : State) (c : CoreId) : Option Nat :=
  let t := s.core c
  let fromMeas := t.measAt.map (fun m =>
    residual t.theta t.phi + t.unc + driftPart (s.drift c) (s.clock - m + 4000))
  let fromActive := t.slaveTerm.map (fun k => k + 16 + driftPart (s.drift c) (s.clock - t.slaveAt))
  match t.st with
  | .locked => fromMeas
  | .slaved => fromActive
  | .holdover =>
    let limit := secs (s.mainNat c.obj 7)
    if (t.holdSince.map (fun h => decide (limit < s.clock - h))).getD false then none
    else match fromActive with
      | some k => some k
      | none => fromMeas
  | _ => none

/-- R66: a core's configured standby mode is independent. -/
def State.indep (s : State) (c : CoreId) : Bool := decide (s.mainNat c.obj 9 = 0)

/-- R65: the cross-check is violated now: the last one found it so, both terms are still known and the standby is
independent. -/
def State.violated (s : State) : Bool :=
  s.tim.xchkFail && (s.ownTerm .A).isSome && (s.ownTerm .B).isSome && s.indep s.tim.active.other

/-- R65: the term in force: the active core's is widened while the cross-check is violated. -/
def State.term (s : State) (c : CoreId) : Option Nat :=
  match s.ownTerm c, (s.core c).widened with
  | some k, some w => if c = s.tim.active && s.violated then some (max k w) else some k
  | k, _ => k

/-- R70, R75: the standby is not LOCKED or SLAVED with a known term. -/
def State.noStandby (s : State) : Bool :=
  let b := s.tim.active.other
  !(((s.core b).st = .locked || (s.core b).st = .slaved) && (s.term b).isSome)

/-! Stamps. -/

/-- R55: stamp points. -/
inductive Point where
  | portRx (m : Nat) | portTx (m : Nat) | doorbell | writer | thread (cl : Nat) | sample
  deriving DecidableEq, Repr

/-- R55: the replica a stamp point reads. -/
def Point.rep : Point → Nat
  | .portRx m | .portTx m => 3 + m
  | .doorbell => 0
  | .writer => 1
  | .thread cl => 30 + cl
  | .sample => 29

/-- R55: the stamp-point term. -/
def Point.esp : Point → Nat
  | .portRx _ => 64
  | .portTx _ => 96
  | .doorbell | .writer => 512
  | .thread _ | .sample => 128

/-- R56: the time of so many deserializer words of 128 bits, 1/256 of a unit. -/
def wordSpan (n : Nat) : Nat := n * 524288 / 425

/-- R56, R84: how long a MAC's decoder takes at most, 1/256 of a unit: within the 512 words that a lane keeps. -/
def pcsSpan (m : Nat) : Nat := wordSpan (Config.pcsLag m % 512)

/-- R59, R75: the stamp point is enabled. -/
def State.pointOn (s : State) : Point → Bool
  | .portRx m => (s.getReg timSpenPort).getLsbD m
  | .portTx m => (s.getReg timSpenPort).getLsbD (16 + m)
  | .doorbell => (s.getReg timSpenHost).getLsbD 0
  | .writer => (s.getReg timSpenHost).getLsbD 1
  | .thread _ => (s.getReg timSpenHost).getLsbD 2
  | .sample => (s.getReg timSpenHost).getLsbD 3

/-- A stamp on one core's timescale at a replica: what it read at a moment (1/256 of the clock's unit), moved by a
signed amount of 1/256 unit. The result is a whole number of units, rounded down (log 31). -/
def State.stampOn (s : State) (r : Nat) (c : CoreId) (esp t : Nat) (d : Int) : Stamp :=
  let x := s.rep r
  { time := BitVec.ofNat 64 (((x.latched c t : Int) + d).toNat / 256)
    bound := boundOf (x.term c) x.eArm esp }

/-- R56: a stamp of a word latched before its replica's last switch stands on the timescale that was active then. -/
def Replica.before (x : Replica) (t : Nat) : Option Scale := if t < 256 * x.switchAt then x.oldScale else none

/-- R56, R68: the stamp of a word latched before a switch: single, on the outgoing core's timescale. -/
def Replica.stampOld (x : Replica) (y : Scale) (esp t : Nat) (d : Int) : Stamp :=
  { time := BitVec.ofNat 64 (((y.reads t : Int) + d).toNat / 256), bound := boundOf x.oldTerm x.eArm esp }

/-- R61: the path correction of an entry for a stamp with this raw time. -/
def State.pathCorr (s : State) (n : Nat) (raw : BitVec 64) : BitVec 16 :=
  let held := if s.tim.pcorrAt ≤ raw then Map.at_ s.tim.pcorr n 0 else Map.at_ s.tim.pcorrPrev n 0
  match s.tim.pcorrWait with
  | some w => if w.time ≤ raw then w.next.getD n 0 else held
  | none => held

/-- R55, R56, R57, R59, R61, R63, R68: the stamp that a point takes of an instant: what its replica read at a moment
(1/256 of the clock's unit), moved by a signed amount (1/256 unit), with the path correction of an entry. -/
def State.stampTagAt (s : State) (p : Point) (t : Nat) (d : Int) (corr : Nat) : StampTag :=
  if s.pointOn p then
    let x := s.rep p.rep
    match x.before t with
    | some y =>
      let raw := x.stampOld y p.esp t d
      { raw := raw, core := x.active.other, parity := x.parity, corr := s.pathCorr corr raw.time }
    | none =>
      let raw := s.stampOn p.rep x.active p.esp t d
      { raw := raw
        inc := if x.dual then some (s.stampOn p.rep x.active.other p.esp t d) else none
        core := x.active
        parity := x.parity
        corr := s.pathCorr corr raw.time }
  else { raw := { time := 0, bound := 0xFFFF }, corr := s.pathCorr corr 0, parity := (s.rep p.rep).parity }

/-- R55: the stamp that a point takes now, less a constant number of units. -/
def State.stampTag (s : State) (p : Point) (back corr : Nat) : StampTag :=
  s.stampTagAt p (256 * s.clock) (-(256 * back : Nat)) corr

/-- R59: an event stamped with bound FFFFh is counted. -/
def State.countStamp (s : State) (t : StampTag) : State :=
  if t.raw.bound = 0xFFFF then s.count cntUnknown else s

/-- R50: device time to PTP seconds, nanoseconds and the sub-nanosecond part. -/
def ptpSeconds (t : Nat) : Nat := t / 4000000000
def ptpNanos (t : Nat) : Nat := t % 4000000000 / 4
def ptpSubns (t : Nat) : Nat := t % 4 * 16384
def fromPtp (sec ns sub : Nat) : Nat := sec * 4000000000 + ns * 4 + sub / 16384

/-! Takeover (R67 to R71). -/

/-- R68: replicas that run and have yet to switch. -/
def State.runningReps (s : State) : BitVec 40 :=
  (List.range 40).foldl (fun b r => if (s.rep r).run then b ||| BitVec.ofNat 40 (2 ^ r) else b) 0

/-- R69 step 3, R72: the core that drives PPS_OUT: from T_k on the incoming one. -/
def State.ppsCore (s : State) : CoreId :=
  match s.tim.tko with
  | some w => w.outgoing.other
  | none => s.tim.active

/-- R72: PPS_OUT is driven, and not held low. -/
def State.ppsDriven (s : State) : Bool :=
  let c := s.core s.ppsCore
  c.st = .locked || (c.st = .holdover && s.mainBool 0xA040 4)

/-- R72: the level at PPS_OUT: high from a rise for the width, while the output is driven. -/
def State.ppsLevel (s : State) : Bool :=
  match s.tim.ppsAt with
  | some x => s.ppsDriven && decide (s.clock < x + s.tim.ppsWidth)
  | none => false

/-- R72: once the output is no longer driven, what is left of its high time is over. -/
def State.ppsCut (s : State) : State :=
  match s.tim.ppsAt with
  | some x => if s.ppsDriven then s else { s with tim := { s.tim with ppsWidth := min s.tim.ppsWidth (s.clock - x) } }
  | none => s

/-- R73: something a time-quality report holds has changed, such as a core's state. -/
def State.tqrChange (s : State) : State := { s with tim := { s.tim with tqrDue := true } }.ppsCut

/-- R69 step 3: the incoming core records T_k and the step, and sends a stroke with the TAKEOVER flag. -/
def State.startTakeover (s : State) : State :=
  let inc := s.tim.active.other
  if s.tim.tko.isSome || (s.term inc).isNone then s
  else
    let tk := s.coreCount inc
    let step : Int := ((tk : Int) - (s.coreCount s.tim.active : Int)) / 16
    let k : Stroke := { time := tk, st := (s.core inc).st, term := s.term inc, takeover := true, step := false,
                        sentAt := s.clock, due := s.runningReps, parity := (s.core s.tim.active).parity }
    let t := { s.tim with
      tko := some { outgoing := s.tim.active, tk := BitVec.ofNat 64 (tk / 256), step := step,
                    left := s.runningReps } }
    { s with tim := match inc with
      | .A => { t with strokeA := some k }
      | .B => { t with strokeB := some k } }.tqrChange

/-- R67: takeover because the active core faulted or its term became unknown, where A030h.01 allows it. -/
def State.faultTakeover (s : State) : State := if s.mainBool 0xA030 1 then s.startTakeover else s

/-- R70: the standby entered FAULT or OFF. -/
def State.standbyLost (s : State) : State := s.timEvent 3

/-! Measurements (R47 to R49). -/

/-- R76: primary and secondary reference of a core: 1 PPS, 2 PTP. -/
def State.refs (s : State) (c : CoreId) : Nat × Nat := (s.mainNat c.obj 1, s.mainNat c.obj 2)

/-- R48: a reference is present. -/
def TimeCore.present (t : TimeCore) : Nat → Bool
  | 1 => t.ppsOk
  | 2 => t.ptpOk
  | _ => false

/-- R48: a core changes its reference in use. -/
def State.useRef (s : State) (c : CoreId) (r : Nat) : State :=
  if (s.core c).ref = r then s
  else ((s.modCore c (fun t => { t with ref := r })).timEvent 0).tqrChange

/-- R48: the reference in use after presence has changed: the highest-priority one present, but a core that uses its
secondary stays on it until the revert hold-off has passed. -/
def State.reselect (s : State) (c : CoreId) : State :=
  let t := s.core c
  let (p, q) := s.refs c
  let since := if t.present p then (match t.primSince with | some x => some x | none => some s.clock) else none
  let none_ := if t.present p || t.present q then none
    else (match t.noneSince with | some x => some x | none => some s.clock)
  let s := s.modCore c (fun t => { t with primSince := since, noneSince := none_ })
  if t.st = .slaved then s.useRef c 3
  else if t.ref = q && t.present q && q ≠ 0 then s
  else if t.present p then s.useRef c p
  else if t.present q then s.useRef c q
  else s.useRef c 0

/-- R66, R70: a core that its mode or its place no longer lets follow the active core disciplines itself. DESIGN CHOICE
(log 124): the spec names no state for it; it enters ACQUIRING or FREERUN as a core that leaves FAULT does. -/
def State.leaveSlaved (s : State) (c : CoreId) : State :=
  ((s.modCore c (fun t => { t with st := if t.everValid then .acquiring else .freerun, good := 0,
                                   slaveTerm := none })).tqrChange).reselect c

/-- R45, R66: a SLAVED core whose active core no longer sends strokes enters HOLDOVER from its last term; one whose last
term is not known has nothing to hold over from (log 124). -/
def State.unslave (s : State) (c : CoreId) : State :=
  let t := s.core c
  if t.st ≠ .slaved then s
  else if t.slaveTerm.isSome then
    (((s.modCore c (fun t => { t with st := .holdover, holdSince := some s.clock })).timEvent 2).tqrChange).reselect c
  else s.leaveSlaved c

/-- R45, R67, R70: a core enters FAULT: it follows the active core no longer (R75 REF), and what it held back to step by
as the standby is gone. -/
def State.enterFault (s : State) (c : CoreId) : State :=
  let s := ((s.modCore c (fun t => { t with st := .fault, trefOk := false, good := 0, holdSince := none,
                                            widened := none, heldStep := none })).tqrChange).reselect c
  if c = s.tim.active then (s.unslave c.other).faultTakeover else s.standbyLost

/-- R49, R83: a core steps its count by minus an offset. -/
def State.stepCore (s : State) (c : CoreId) (theta : Int) : State :=
  let n : Int := (s.coreCount c : Int) - 16 * theta
  let u : Int := theta / 16
  let shift := fun (x : BitVec 64) => BitVec.ofInt 64 ((x.toNat : Int) - u)
  let s := (s.setCount c n.toNat).modCore c (fun t => { t with
    st := .acquiring, good := 0, stepFlag := true, heldStep := none, phi := 0, steers := [], holdSince := none
    strokeAt := t.strokeAt.map (fun x => ((x : Int) - u).toNat)
    measTime := t.measTime.map shift, ppsLast := t.ppsLast.map shift, widened := none })
  let note : StepNote := { size := -u, first := BitVec.ofNat 64 (n.toNat / 256), core := c }
  let flip := fun (t : TimeCore) => { t with parity := !t.parity }
  let s := if c = s.tim.active then
      { (s.modCore .A flip).modCore .B flip with sql := { s.sql with steps := s.sql.steps ++ [note] } }
    else s
  (s.timEvent 6).tqrChange

/-- R49: a core enters LOCKED. -/
def State.lock (s : State) (c : CoreId) : State :=
  ((s.modCore c (fun t => { t with st := .locked, holdSince := none, slaveTerm := none })).timEvent 1).tqrChange

/-- R62: what a core has steered since a moment of the clock, 1/1024 ns. -/
def TimeCore.steeredSince (t : TimeCore) (at_ : Nat) : Int :=
  t.steers.foldl (fun n e => if at_ < e.1 then n + e.2 else n) 0

/-- R47, R49, R62: a valid measurement: offset and uncertainty in 1/64 ns, and its time. DESIGN CHOICE (log 125): one
whose time lies after the core's is taken as made now, so that R62's dt is 1 µs. R70: a core in FAULT keeps it, and
neither steps nor leaves FAULT by it. -/
def State.measure (s : State) (c : CoreId) (theta : Int) (unc : Nat) (mt : BitVec 64) : State :=
  let t := s.core c
  let viol := (t.st = .locked || t.st = .holdover) &&
    (match s.term c with | some k => decide (k < theta.natAbs) | none => false)
  let s := if viol then s.timEvent 7 else s
  let at_ := s.clock - (s.coreTime c - mt.toNat)
  let s := s.modCore c (fun t => { t with theta := theta, phi := t.steeredSince at_, unc := unc, validAt := s.clock,
                                          measAt := some at_,
                                          measTime := some mt, drift := s.mainNat c.obj 3, everValid := true })
  if t.st = .fault then s
  else if 64000 ≤ theta.natAbs then
    if c = s.tim.active && (s.term c.other).isSome then
      (s.modCore c (fun t => { t with heldStep := some theta })).startTakeover
    else s.stepCore c theta
  else
    let near := decide (theta.natAbs ≤ 64 * s.mainNat c.obj 6)
    match t.st with
    | .freerun => (s.modCore c (fun t => { t with st := .acquiring, good := 0 })).tqrChange
    | .acquiring =>
      let g := if near then t.good + 1 else 0
      let s := s.modCore c (fun t => { t with good := g })
      if 4 ≤ g then s.lock c else s
    | .holdover => s.lock c
    | _ => s

/-- R47: a measurement time lies within 2 s of the core's time and after the previous accepted measurement. -/
def State.measValid (s : State) (c : CoreId) (mt : BitVec 64) : Bool :=
  let now := s.coreTime c
  decide (((now : Int) - (mt.toNat : Int)).natAbs ≤ 8000000000) &&
    (match (s.core c).measTime with | some p => decide (p < mt) | none => true)

/-- R45, R47, R48, R70: a valid measurement of a reference that is present and not in use is accepted and disciplines
nothing; one of the core's own two references keeps it out of HOLDOVER (log 126). -/
def State.measured (s : State) (c : CoreId) (r : Nat) (mt : BitVec 64) : State :=
  let own := decide (r = (s.refs c).1) || decide (r = (s.refs c).2)
  s.modCore c (fun t => { t with validAt := if own then s.clock else t.validAt, measTime := some mt, everValid := true })

/-- R48: the spacing of two PPS edges, 1 s ± 1 µs on the core's count. -/
def ppsSpacing (d : Nat) : Bool := decide (4000000000 ≤ d + 4000 ∧ d ≤ 4000004000)

/-- R47, R48: a rising edge at a core's PPS input. -/
def State.opPpsEdge (s : State) (c : CoreId) : State :=
  let t := s.core c
  if t.st = .off then s else
    let now := s.coreTime c
    let ok := match t.ppsLast with
      | some p => ppsSpacing (now - p.toNat)
      | none => false
    let label := t.label
    let s := s.modCore c (fun t => { t with ppsLast := some (BitVec.ofNat 64 now), ppsLastAt := s.clock,
                                            ppsOk := ok, label := none })
    let s := s.reselect c
    let mt := BitVec.ofNat 64 now
    if !ok then s
    else if !s.measValid c mt then s.count cntPtpRej
    else if (s.core c).ref = 1 then
      let sec := match label with
        | some l => l.toNat
        | none => (now + 2000000000) / 4000000000
      let refTime : Int := (sec : Int) * 4000000000 - s.mainInt c.obj 5
      let theta : Int := ((s.coreCount c : Int) - 256 * refTime) / 16
      s.measure c theta (s.mainNat c.obj 4 + 32) mt
    else s.measured c 1 mt

/-- R47: a write that submits a PTP measurement. -/
def State.opPtpMeasurement (s : State) (req : Requester) (c : CoreId) : State :=
  let mt := s.getReg64 (c.ptpReg + 8)
  let own := match req with
    | .thread id => decide (id.toNat = s.mainNat 0xA060 1)
    | .pcie _ _ => false
  if s.mainBool 0xA060 2 && own && s.measValid c mt && (s.core c).st ≠ .off then
    let s := s.modCore c (fun t => { t with ptpOk := true, ptpLastAt := s.clock })
    let s := s.reselect c
    if (s.core c).ref = 2 then
      s.measure c (s.getReg c.ptpReg).toInt (s.regNat (c.ptpReg + 4)) mt
    else s.measured c 2 mt
  else s.count cntPtpRej

/-- R47: the TAI second label for the next edge. -/
def State.opLabel (s : State) (c : CoreId) (l : BitVec 64) : State := s.modCore c (fun t => { t with label := some l })

/-- R48: no PPS edge within 1 s + 1 µs of the last. -/
def State.opPpsLost (s : State) (c : CoreId) : State :=
  let t := s.core c
  if t.ppsOk && s.due t.ppsLastAt (secs 1 + usec 1) then
    (s.modCore c (fun t => { t with ppsOk := false })).reselect c
  else s

/-- R48: no valid PTP measurement for 2 s. -/
def State.opPtpLost (s : State) (c : CoreId) : State :=
  let t := s.core c
  if t.ptpOk && s.due t.ptpLastAt (secs 2) then
    (s.modCore c (fun t => { t with ptpOk := false })).reselect c
  else s

/-- R45, R48: a LOCKED core without a valid measurement for 2 s, or with neither of its references present for 2 s,
enters HOLDOVER. -/
def State.opHoldover (s : State) (c : CoreId) : State :=
  let t := s.core c
  let none_ := (t.noneSince.map (fun x => s.due x (secs 2))).getD false
  if t.st = .locked && (s.due t.validAt (secs 2) || none_) then
    ((s.modCore c (fun t => { t with st := .holdover, holdSince := some s.clock, slaveTerm := none })).timEvent 2).tqrChange
  else s

/-- R48: the primary reference has been present without a break for the revert hold-off. -/
def State.opRevert (s : State) (c : CoreId) : State :=
  let t := s.core c
  let p := (s.refs c).1
  match t.primSince with
  | some x => if t.present p && t.ref ≠ p && t.st ≠ .slaved && s.due x (secs (s.mainNat c.obj 8)) then s.useRef c p else s
  | none => s

/-- R64, R67: a core has been in HOLDOVER beyond its limit: its term is unknown. -/
def State.opHoldLimit (s : State) (c : CoreId) : State :=
  let t := s.core c
  if t.st = .holdover && (s.ownTerm c).isNone then
    let s := s.tqrChange
    if c = s.tim.active then s.faultTakeover else s
  else s

/-! Strokes (R51 to R53, R65, R66). -/

/-- R49: how far a core may steer in a time, 1/1024 ns: 1,000 ppb in LOCKED, 10,000 ppb in ACQUIRING, else not at all. -/
def steerLimit (st : CoreState) (dt : Nat) : Nat :=
  match st with
  | .locked => dt * 256 / 1000000
  | .acquiring => dt * 2560 / 1000000
  | _ => 0

/-- A free value between minus and plus a limit. -/
def freeWithin (v limit : Nat) : Int := (v % (2 * limit + 1) : Nat) - (limit : Int)

/-- R49, R62: a core steers its phase for a time: a free amount within its limit, which the term knows exactly. -/
def State.steer (s : State) (c : CoreId) (dt : Nat) : State :=
  let l := steerLimit (s.core c).st dt
  if l = 0 then s else
    let d := freeWithin s.freeNext l
    let n : Int := (s.coreCount c : Int) - d
    ((s.setCount c n.toNat).modCore c (fun t => { t with
      phi := t.phi + d, steers := (s.clock, d) :: t.steers.filter (fun e => decide (s.clock ≤ e.1 + secs 2)) })).drawn

/-- R65: Δ = T_A − T_B in 1/64 ns, as core B measures it to within 0.25 ns, and what follows from it. DESIGN CHOICE
(log 154): while core B is OFF nothing measures it, and the last Δ stands. -/
def State.crossCheck (s : State) : State :=
  let d : Int := if (s.core .B).st = .off then s.tim.xdiff
    else ((s.coreCount .A : Int) - (s.coreCount .B : Int)) / 16 + freeWithin s.freeNext 16
  let s := { s.drawn with tim := { s.tim with xdiff := d } }
  let a := s.tim.active
  match s.ownTerm .A, s.ownTerm .B with
  | some ca, some cb =>
    let stand := match a with | .A => cb | .B => ca
    if s.indep a.other && decide (ca + cb + 16 < d.natAbs) then
      let s1 := s.modCore a (fun t => { t with widened := some (d.natAbs + stand + 16) })
      if s.tim.xchkFail then s1
      else ({ s1 with tim := { s1.tim with xchkFail := true, xchkCount := s1.tim.xchkCount + 1 } }.count cntXchk).timEvent 5 |>.tqrChange
    else
      let s1 := s.modCore a (fun t => { t with widened := none })
      if s.tim.xchkFail then { s1 with tim := { s1.tim with xchkFail := false } }.tqrChange else s1
  | _, _ =>
    let s1 := s.modCore a (fun t => { t with widened := none })
    if s.tim.xchkFail then { s1 with tim := { s1.tim with xchkFail := false } }.tqrChange else s1

/-- R66, R70, R439: at a stroke of the active core a slaved standby steers to it, to within 0.25 ns, and takes its
term; a core in slaved mode enters SLAVED at the first one that carries a known term. -/
def State.slave (s : State) (term : Option Nat) : State :=
  let a := s.tim.active
  let b := a.other
  let t := s.core b
  let canEnter := t.st = .freerun || t.st = .acquiring || t.st = .locked || t.st = .holdover
  if s.indep b then s
  else if t.st = .slaved || (canEnter && term.isSome) then
    let n : Int := (s.coreCount a : Int) + freeWithin s.freeNext 256
    let s1 := ((s.setCount b n.toNat).modCore b (fun t => { t with
      st := .slaved, slaveTerm := term, slaveAt := s.clock, holdSince := none
      strokeAt := t.strokeAt.map (fun x => min x (b.strokeBy (n.toNat / 256))) })).drawn
    (if t.st = .slaved then s1 else s1.tqrChange).useRef b 3
  else s

/-- R67: since when the active core's term has exceeded the threshold without a break while an independent standby's
has not. -/
def State.watchBound (s : State) : State :=
  let thr := 64 * s.mainNat 0xA030 3
  let a := s.tim.active
  let ovr := match s.term a, s.term a.other with
    | some x, some y => s.mainBool 0xA030 2 && s.indep a.other && decide (thr < x ∧ y ≤ thr)
    | _, _ => false
  { s with tim := { s.tim with overSince :=
      if ovr then (match s.tim.overSince with | some x => some x | none => some s.clock) else none } }

/-- R51: a core that is due sends its stroke to all replicas. -/
def State.opStroke (s : State) (c : CoreId) : State :=
  let t := s.core c
  let now := s.coreTime c
  let at_ := c.strokeBy now
  if !t.running || t.st = .off || t.st = .fault || now < c.phase || (t.strokeAt.map (fun x => decide (at_ ≤ x))).getD false then s
  else
    let s := s.steer c (now - (t.strokeAt.getD at_))
    let s := if c = .A then s.crossCheck else s
    let term := (s.term c).bind (fun k => if k < 0xFFFFFF then some k else none)
    let k : Stroke := { time := 256 * at_, st := t.st, term := term, takeover := false, step := t.stepFlag,
                        sentAt := s.clock - (now - at_), due := BitVec.allOnes 40, parity := t.parity }
    let s := s.modCore c (fun t => { t with strokeAt := some at_, stepFlag := false })
    let s := { s with tim := match c with
      | .A => { s.tim with strokeA := some k }
      | .B => { s.tim with strokeB := some k } }
    let s := if c = s.tim.active then s.slave term else s
    s.watchBound

/-- R53: a stroke without the STEP flag lies farther from a replica's prediction than the replica term plus 2 ns. An
unknown replica term is exceeded by nothing (log 127). -/
def Replica.jumps (x : Replica) (k : Stroke) (value : Nat) : Option Nat → Bool
  | some p => !k.step && (match x.eArm with
    | some e => decide (16 * (e + 128) < ((p : Int) - (value : Int)).natAbs)
    | none => false)
  | none => false

/-- R51, R53, R69: a replica's stroke arrives, of its active core or of the other. DESIGN CHOICE (log 127): RUN, once
two strokes have arrived, reads 1 until the island's clock restarts, however many are missed later. -/
def State.opStrokeReceive (s : State) (r : Nat) (c : CoreId) : State :=
  match (match c with | .A => s.tim.strokeA | .B => s.tim.strokeB) with
  | none => s
  | some k =>
    if !k.due.getLsbD r then s else
      let x := s.rep r
      let value := k.time - 16 * x.lineDelay
      let jump := x.jumps k value (s.repScale r c)
      let k' := { k with due := k.due &&& ~~~(BitVec.ofNat 40 (2 ^ r)) }
      let s := { s with tim := match c with
        | .A => { s.tim with strokeA := some k' }
        | .B => { s.tim with strokeB := some k' } }
      let moved := if c = x.active then x.stepped (s.repScale r c) value s.clock k.step else x.moved
      let x := { x.setScale c value s.clock k.step k.term with moved := moved }
      let switch := x.dual && c ≠ x.active && !k.takeover
      let x := if switch then x.switchTo c s.clock else x
      let x := if c = x.active then
          let g := min 2 (x.got + 1)
          { x with got := g, missed := 0, unknown := x.unknown && decide (g < 2), run := x.run || decide (2 ≤ g),
                   parity := if k.step || switch || g < 2 then k.parity else x.parity }
        else x
      let s := s.setRep r x
      let s := match s.tim.tko with
        | some w =>
          let w' := { w with left := w.left &&& ~~~(BitVec.ofNat 40 (2 ^ r)) }
          if switch then { s with tim := { s.tim with tko := some w' } } else s
        | none => s
      if jump then (s.count cntRepJump).timEvent 7 else s

/-- R53: a stroke of the active core did not arrive at a replica when due. True when the term becomes unknown. -/
def State.opStrokeMiss (s : State) (r : Nat) : State × Bool :=
  let x := s.rep r
  let m := min 8 (x.missed + 1)
  let lost := decide (8 ≤ m) && !x.unknown
  ((s.setRep r { x with missed := min 7 m, got := 0, unknown := x.unknown || decide (8 ≤ m) }).count cntStrokeMiss, lost)

/-- R69: a replica whose island's clock stops has nothing to acknowledge in an open overlap window. -/
def State.leaveWindow (s : State) (r : Nat) : State :=
  { s with tim := { s.tim with tko := s.tim.tko.map (fun w => { w with left := w.left &&& ~~~(BitVec.ofNat 40 (2 ^ r)) }) } }

/-- R44, R53: a replica whose island clock restarts is unknown until two strokes of the active core have arrived. -/
def State.repRestart (s : State) (r : Nat) : State :=
  (s.leaveWindow r).setRep r { (s.rep r) with active := s.tim.active, dual := false, got := 0, unknown := true, run := false, missed := 0 }

/-- R52: an armature line's round trip, halved. -/
def State.opCalibrate (s : State) (r roundTrip : Nat) : State :=
  s.setRep r { (s.rep r) with lineDelay := roundTrip / 2 % 65536 }

/-- R67, R70: a core's TREF is lost. -/
def State.opTrefLoss (s : State) (c : CoreId) : State :=
  let s := s.modCore c (fun t => { t with trefIn := false })
  if (s.core c).st = .off || (s.core c).st = .fault then s.modCore c (fun t => { t with trefOk := false })
  else s.enterFault c

/-- R45: a core's PLL unlocks, or its internal check fails. -/
def State.opPllUnlock (s : State) (c : CoreId) : State :=
  if (s.core c).st = .off then s
  else if (s.core c).st = .fault then s.modCore c (fun t => { t with trefOk := false })
  else s.enterFault c

/-- R70: TREF is present and the PLL locked again; a core that is off only sees its pin. -/
def State.opTrefRestore (s : State) (c : CoreId) : State :=
  let s := s.modCore c (fun t => { t with trefIn := true })
  let t := s.core c
  if t.st = .off then s
  else
    let s := s.modCore c (fun t => { t with trefOk := true })
    if t.st = .fault then
      let s := s.modCore c (fun t => { t with strokeAt := t.strokeAt.map (fun x => max x (c.strokeBy (s.coreTime c))) })
      (s.modCore c (fun t => { t with st := if t.everValid then .acquiring else .freerun, good := 0 })).tqrChange
    else s

/-- R419, R434, R439: a core that starts: FREERUN from a count, its TREF as the pin has it. -/
def State.freshCore (s : State) (c : CoreId) (count : Nat) : TimeCore :=
  let t := s.core c
  { st := .freerun, count := count, countAt := s.clock, running := true, trefOk := t.trefIn, trefIn := t.trefIn,
    label := t.label, drift := s.mainNat c.obj 3, noneSince := some s.clock, parity := t.parity }

/-- R67, R419: a core that starts without a TREF finds it missing at once and enters FAULT. -/
def State.checkTref (s : State) (c : CoreId) : State := if (s.core c).trefIn then s else s.enterFault c

/-- R439: a core is powered while the main die runs: FREERUN on the active core's time, or on replica 38's. -/
def State.opCorePowerUp (s : State) (c : CoreId) (strokeSeen : Bool) : State :=
  let n := if strokeSeen then s.coreCount c.other else 256 * s.repTime 38
  if s.powered c.dom && ((s.core c).st = .off || !(s.core c).running) then ((s.setCore c (s.freshCore c n)).tqrChange).checkTref c else s

/-- R67: the bound takeover's millisecond has passed, and what it asks for still holds. -/
def State.opBoundTimer (s : State) : State :=
  let s := s.watchBound
  match s.tim.overSince with
  | some x => if s.due x (msec 1) then s.startTakeover else s
  | none => s

/-- R71: A030h.04; the abort code of the write. -/
def State.opMakeActive (s : State) (v : Nat) : Nat × State :=
  let c : Option CoreId := if v = 1 then some .A else if v = 2 then some .B else none
  match c with
  | none => (6, s)
  | some c =>
    let t := s.core c
    if c = s.tim.active || !(t.st = .locked || t.st = .slaved) || (s.term c).isNone || s.tim.tko.isSome then (9, s)
    else (0, s.startTakeover)

/-- R51, R68: the takeover notice, a stroke with the TAKEOVER flag, reaches a replica, which is dual from then on. -/
def State.opTakeoverNotice (s : State) (r : Nat) : State :=
  match s.tim.tko with
  | some w =>
    if w.left.getLsbD r then
      let x := s.rep r
      let k := match w.outgoing with | .A => s.tim.strokeB | .B => s.tim.strokeA
      let x := match k with
        | some k =>
          if k.takeover then x.setScale w.outgoing.other (k.time - 16 * x.lineDelay) s.clock k.step k.term else x
        | none => x
      s.setRep r { x with dual := true }
    else s
  | none => s

/-- R44, R69: after a takeover every replica, one that has not run since T_k too, treats a core as active. -/
def State.allSwitch (s : State) (c : CoreId) : State :=
  (List.range 40).foldl (fun s r => if (s.rep r).active = c then s else s.setRep r ((s.rep r).switchTo c s.clock)) s

/-- R65: what the term of a core that becomes active is widened to while the check stays violated. -/
def State.widen (s : State) (c : CoreId) : Option Nat :=
  if s.violated then (s.ownTerm c.other).map (fun k => s.tim.xdiff.natAbs + k + 16) else none

/-- R69 step 6: the last replica has acknowledged: the window closes, and a held step falls on the new standby. -/
def State.opTakeoverEnd (s : State) : State :=
  match s.tim.tko with
  | some w =>
    if w.left ≠ 0 then s else
      let inc := w.outgoing.other
      let wide := s.widen inc
      let s := { s with tim := { s.tim with
        active := inc, tko := none, tkoStart := w.tk, tkoEnd := BitVec.ofNat 64 (s.coreTime inc),
        tkoStep := w.step, tkoCount := s.tim.tkoCount + 1, overSince := none } }
      let s := (s.allSwitch inc).modCore inc (fun t => { t with widened := wide })
      let s := (s.unslave inc).modCore w.outgoing (fun t => { t with widened := none })
      let s := ((s.count cntTko).timEvent 4).tqrChange
      match (s.core w.outgoing).heldStep with
      | some th => if (s.core w.outgoing).st = .fault || (s.core w.outgoing).st = .off then s else s.stepCore w.outgoing th
      | none => s
  | none => s

/-- R75 TIM_OFFS: a signed 32-bit value that saturates. -/
def sat32 (x : Int) : BitVec 32 :=
  if x > 2147483647 then 0x7FFFFFFF else if x < -2147483648 then 0x80000000 else BitVec.ofInt 32 x

/-- R73: a term as a report and a stroke hold it. -/
def termWord (t : Option Nat) : Nat :=
  match t with
  | some k => if k < 0xFFFFFF then k else 0xFFFFFF
  | none => 0xFFFFFF

/-- R73, R372: the 64 bytes of a time-quality report, in R73's order. -/
def State.tqrBytes (s : State) : List Byte :=
  let t := s.tim
  let b := beBytes 1 (match t.active with | .A => 0 | .B => 1) ++
    beBytes 1 t.coreA.st.code ++ beBytes 1 t.coreB.st.code ++ [0] ++
    beBytes 4 (termWord (s.term .A)) ++ beBytes 4 (termWord (s.term .B)) ++
    beBytes 4 (sat32 t.xdiff).toNat ++ beBytes 4 t.tkoCount ++ beBytes 8 t.tkoStart.toNat ++
    beBytes 4 (sat32 t.tkoStep).toNat ++ beBytes 4 t.xchkCount ++ beBytes 8 (s.coreTime t.active)
  slicePad b 0 64

/-- R73: a report crosses the glove every second and on each change. -/
def State.opTqr (s : State) : State :=
  let due := s.tim.tqrDue || (match s.tim.tqrAt with | some x => s.due x (secs 1) | none => true)
  if due then
    let s := if s.gloveH.peerUp then s.gloveSend .host 0x60 s.tqrBytes else s
    { s with tim := { s.tim with tqrAt := some s.clock, tqrDue := false } }
  else s

/-- R72: PPS_OUT rises at a whole second of its core, less the compensation, at most once in 500 ms, and stays high for
the width of A040h.02. -/
def State.opPpsOut (s : State) : State :=
  let early : Int := (s.coreTime s.ppsCore : Int) + s.mainInt 0xA040 3
  let atSecond := decide ((early + 8) % 4000000000 ≤ 16)
  let apart := match s.tim.ppsAt with
    | some x => s.due x (msec 500)
    | none => true
  if s.mainBool 0xA040 1 && s.ppsDriven && atSecond && apart then
    let w := usec (s.mainNat 0xA040 2)
    { s with tim := { s.tim with ppsAt := some s.clock, ppsWidth := w } }.emit (.ppsOut w)
  else s

/-! Path corrections (R61). -/

/-- R61: a commit for an activation time: 0 done, 1 too soon, 2 too far. -/
def State.commitPcorr (s : State) (t : BitVec 64) : Nat × State :=
  let now := s.repTime 0
  if t.toNat < now + usec 10 then
    (1, { s with tim := { s.tim with pcorrStat := 1 } }.count cntPcorrRej)
  else if now + secs 60 < t.toNat then
    (2, { s with tim := { s.tim with pcorrStat := 2 } }.count cntPcorrRej)
  else
    let next := (List.range 18).map (fun n => (s.getReg (timPcorrStg n)).extractLsb' 0 16)
    (0, { s with tim := { s.tim with pcorrStat := 0, pcorrWait := some { time := t, next := next } } })

/-- R74: the manager may write the time configuration. -/
def State.mgrMayTime (s : State) (req : Requester) : Bool :=
  match req with
  | .pcie _ _ => s.mainBool 0xA051 1
  | .thread _ => true

/-- R61, R74: a write of TIM_PCORR_CMD. -/
def State.opPcorrCmd (s : State) (req : Requester) (v : Word) : State :=
  if !s.mgrMayTime req then s.accErr errLocked timPcorrCmd
  else s.onCmd timPcorrCmd s.tim.pcorrWait.isSome (fun s =>
    if v.getLsbD 0 then (s.commitPcorr (s.getReg64 timPcorrTime)).2 else s)

/-- R61: a write of A050h.13; its abort code. -/
def State.opPcorrObject (s : State) (t : BitVec 64) : Nat × State :=
  if s.tim.pcorrWait.isSome then (8, s)
  else
    let (e, s) := s.commitPcorr t
    (if e = 0 then 0 else 6, s)

/-- R61: every stamp point has passed the activation time. -/
def State.opPcorrActivate (s : State) : State :=
  match s.tim.pcorrWait with
  | some w =>
    if (List.range 38).all (fun r => !(s.rep r).run || decide (w.time.toNat ≤ s.repTime r)) then
      let m : Map (BitVec 16) := (List.range 18).foldl (fun m n => Map.set m n (w.next.getD n 0) 0) []
      { s with tim := { s.tim with pcorr := m, pcorrPrev := s.tim.pcorr, pcorrAt := w.time, pcorrWait := none } }
    else s
  | none => s

/-! TIM_NOW (R74). -/

/-- R74, R75: TIM_NOW and its bound from replica 0. -/
def State.timNow (s : State) : Stamp := s.stampOn 0 (s.rep 0).active 512 (256 * s.clock) 0

/-- R74: what a read of TIM_NOW or TIM_NOW_BOUND answers, and what it does to the latch. -/
def State.readNow (s : State) (p : NowPart) : List Byte × State :=
  let n := s.timNow
  match p with
  | .low => (leBytes 4 n.time.toNat, { s with nowLatch := some (n.time.extractLsb' 32 32, n.bound) })
  | .high => (leBytes 4 (match s.nowLatch with | some l => l.1.toNat | none => n.time.toNat / 2 ^ 32),
      { s with nowLatch := none })
  | .both => (leBytes 8 n.time.toNat, s)
  | .bound => (leBytes 4 (match s.nowLatch with | some l => l.2.toNat | none => n.bound.toNat), s)

/-! Views of the TIM's read-only registers (R75). -/

/-- R75 TIM_STAT. -/
def State.timStat (s : State) : Nat :=
  (if s.violated then 2 ^ 31 else 0) + (if s.tim.tko.isSome then 2 ^ 30 else 0) +
  (if s.noStandby then 2 ^ 29 else 0) + (match s.tim.active with | .A => 0 | .B => 256) +
  16 * s.tim.coreB.st.code + s.tim.coreA.st.code

/-- R75 TIM_CORE_STAT. -/
def State.coreStat (s : State) (c : CoreId) : Nat :=
  let t := s.core c
  let hold := match t.st, t.holdSince with | .holdover, some h => min 0xFFFF ((s.clock - h) / 4000000000) | _, _ => 0
  hold * 65536 + t.ref * 4096 + (if t.trefOk then 2048 else 0) + (if t.ppsOk then 1024 else 0) +
  (if t.ptpOk then 512 else 0) + (if s.indep c then 256 else 0) + t.st.code

/-- R75 TIM_REP_STAT. -/
def State.repStat (s : State) (r : Nat) : Nat :=
  let x := s.rep r
  (if x.run then 2 ^ 31 else 0) + (if x.unknown then 2 ^ 30 else 0) + (if x.dual then 2 ^ 29 else 0) +
  x.missed % 8 * 2 ^ 24 + x.lineDelay % 65536

/-- R75: the read-only words of the TIM block by offset. -/
def State.timView (s : State) (o : Nat) : Option Nat :=
  if o = 0 then some s.timStat
  else if o = 0x10 then some s.timNow.bound.toNat
  else if o = 0x20 then some (s.coreStat .A)
  else if o = 0x24 then some (s.coreStat .B)
  else if o = 0x28 then some (termWord (s.term .A))
  else if o = 0x2C then some (termWord (s.term .B))
  else if o = 0x30 then some (sat32 s.tim.coreA.theta).toNat
  else if o = 0x34 then some (sat32 s.tim.coreB.theta).toNat
  else if o = 0x38 then some (sat32 s.tim.xdiff).toNat
  else if o = 0x40 then some (s.tim.tkoStart.toNat % 2 ^ 32)
  else if o = 0x44 then some (s.tim.tkoStart.toNat / 2 ^ 32)
  else if o = 0x48 then some (s.tim.tkoEnd.toNat % 2 ^ 32)
  else if o = 0x4C then some (s.tim.tkoEnd.toNat / 2 ^ 32)
  else if o = 0x50 then some (sat32 s.tim.tkoStep).toNat
  else if o = 0x78 then some ((if s.tim.pcorrWait.isSome then 2 ^ 31 else 0) + s.tim.pcorrStat * 2 ^ 24)
  else if 0x110 ≤ o ∧ o < 0x158 then some (Map.at_ s.tim.pcorr ((o - 0x110) / 4) 0).toNat
  else if 0x180 ≤ o ∧ o < 0x220 then some (s.repStat ((o - 0x180) / 4))
  else none

end Machine
end Sys2Proof
end

