-- ==== Sys2Proof/Machine/Bpm.lean ====
section
/-! DEFINITION. The buffer pools (R332 to R337) and per-priority pause, which counts their buffers (R124, R125). -/

namespace Sys2Proof.Machine

/-! R341, R342: registers. -/
abbrev memEvt : Nat := MEM + 0x004
abbrev cntEccUe : Nat := MEM + 0x080
abbrev cntPoisonDrop : Nat := MEM + 0x084
abbrev cntBooks : Nat := MEM + 0x088
abbrev cntDfOvf : Nat := MEM + 0x08C
abbrev cntBadReq : Nat := MEM + 0x090
abbrev bpmRingBase : Nat := MEM + 0x100
abbrev bpmPoolCfg (p : Nat) : Nat := MEM + 0x200 + 0x20 * p
abbrev bpmPoolBase (p : Nat) : Nat := MEM + 0x208 + 0x20 * p
abbrev bpmReqSram (r : Nat) : Nat := MEM + 0x400 + 0x20 * r
abbrev bpmReqHbm (r : Nat) : Nat := MEM + 0x408 + 0x20 * r
abbrev cntPoolEmpty (p : Nat) : Nat := MEM + 0xA00 + 4 * p
abbrev cntDoubleFree (p : Nat) : Nat := MEM + 0xA40 + 4 * p
abbrev cntQuotaDeny (r : Nat) : Nat := MEM + 0xB00 + 4 * r
abbrev txQuota (i : Nat) : Nat := QUOTAS + 0x10 * i

/-- R341: bits of MEM_EVT set. -/
def State.memEvent (s : State) (b : Nat) : State := s.setEvt memEvt 5 (BitVec.ofNat 32 (2 ^ b))

/-! R136: registers of a MAC. -/
abbrev macReg (m off : Nat) : Nat := MAC0 + 0x1000 * m + off

/-- A MAC's state. -/
def State.mac (s : State) (m : Nat) : Mac := Map.at_ s.prt.macs m {}

/-- A MAC is changed. -/
def State.modMac (s : State) (m : Nat) (f : Mac → Mac) : State :=
  { s with prt := { s.prt with macs := Map.set s.prt.macs m (f (s.mac m)) {} } }

/-- R117: EN of a MAC. -/
def State.macEn (s : State) (m : Nat) : Bool := (s.getReg (macReg m 0)).getLsbD 31

/-! R111: group modes. -/

/-- R111: MAC positions that a mode provides. -/
def modeMacs : Nat → Nat
  | 1 => 1 | 2 => 2 | 3 => 4 | 4 => 8 | _ => 0

/-- R111: lanes of each position. -/
def modeLanes (mode : Nat) : Nat := if modeMacs mode = 0 then 0 else 8 / modeMacs mode

/-- R111: the mode in force of a MAC's group. -/
def State.modeOf (s : State) (g : Nat) : Nat := if g = 0 then s.prt.mode0 else s.prt.mode1

/-- R111: the mode provides a MAC. -/
def State.macThere (s : State) (m : Nat) : Bool := decide (m % 8 < modeMacs (s.modeOf (m / 8)))

/-- R112: a MAC's rate, Gb/s. -/
def State.macRate (s : State) (m : Nat) : Nat := 100 * modeLanes (s.modeOf (m / 8))

/-- R20: the pipeline of a MAC. -/
def State.macPipe (s : State) (m : Nat) : Nat := 2 * (m / 8) + (m % 8 * modeLanes (s.modeOf (m / 8))) / 4

/-- R20: time on the wire of bytes, units. -/
def State.wireTime (s : State) (m n : Nat) : Nat := if s.macRate m = 0 then 0 else n * 32 / s.macRate m

/-! Per-priority pause, the MAC's own frames (R125). -/

/-- R125: a PFC frame with its enable bits and quanta, padded to 64 B with its FCS excluded. -/
def State.pfcBytes (s : State) (m : Nat) (en xoff : BitVec 8) : List Byte :=
  let quanta := s.regBits (macReg m 0x20) 31 16
  let q := (List.range 8).flatMap (fun p => beBytes 2 (if xoff.getLsbD p then quanta else 0))
  slicePad ([0x01, 0x80, 0xC2, 0x00, 0x00, 0x01] ++ beBytes 6 ((s.getReg64 (macReg m 0x10)).toNat % 2 ^ 48) ++
    [0x88, 0x08, 0x01, 0x01] ++ beBytes 2 en.toNat ++ q) 0 60

/-- R125: TX_EN bits of a MAC. -/
def State.pfcTx (s : State) (m : Nat) : BitVec 8 := (s.getReg (macReg m 0x20)).extractLsb' 8 8

/-- R125: the priorities in XOFF. A priority whose TX_EN has been cleared is in XOFF no more (log 128). -/
def State.xoff (s : State) (m : Nat) : BitVec 8 := (s.mac m).xoff &&& s.pfcTx m

/-- R125: a PFC frame leaves, with enable bits for the priorities in XOFF and for those it releases, and is counted for
each priority in XOFF. -/
def State.emitPfc (s : State) (m : Nat) (free : BitVec 8) : State :=
  let x := s.xoff m
  let b := s.pfcBytes m (x ||| free) x
  let s := if h : m < 16 then s.emit (.pfcFrame ⟨m, h⟩ b) else s
  (List.range 8).foldl (fun s p => if x.getLsbD p then s.stat (macReg m (0x4C0 + 8 * p)) else s) s

/-- R125: the clock at which whatever the MAC now sends has left, a PFC frame or another. -/
def Mac.sendsTill (c : Mac) : Nat := max c.sendEnd c.pfcEnd

/-- R125: a PFC frame starts at a clock. -/
def State.startPfc (s : State) (m : Nat) (free : BitVec 8) (t : Nat) : State :=
  (s.modMac m (fun c => { c with
    pfcOwed := none, pfcAt := t, pfcEnd := t + s.wireTime m 84, pfcXoff := s.xoff m })).emitPfc m free

/-- R122, R125: the PFC frame that is owed has started when the frame in transmission ended, and before any other; a MAC
that passes no frames owes none. -/
def State.settlePfc (s : State) (m : Nat) : State :=
  let c := s.mac m
  match c.pfcOwed with
  | none => s
  | some free =>
    if !c.link || !s.macEn m then s.modMac m (fun c => { c with pfcOwed := none })
    else if s.clock < c.sendsTill then s
    else s.startPfc m free c.sendsTill

/-- R125: a PFC frame is generated; it waits for the frame in transmission. -/
def State.sendPfc (s : State) (m : Nat) (free : BitVec 8) : State :=
  if !(s.mac m).link || !s.macEn m then s
  else
    let s := s.settlePfc m
    if s.clock < (s.mac m).sendsTill then s.modMac m (fun c => { c with pfcOwed := some (free ||| c.pfcOwed.getD 0) })
    else s.startPfc m free s.clock

/-- R125: priority p's occupancy has changed: it may enter or leave XOFF. -/
def State.pfcCheck (s : State) (m p : Nat) : State :=
  let s := s.settlePfc m
  let b : BitVec 8 := BitVec.ofNat 8 (2 ^ p)
  let occ := Map.at_ (s.mac m).occ p 0
  let xoff := s.regBits (macReg m (0x40 + 4 * p)) 31 16
  let xon0 := s.regBits (macReg m (0x40 + 4 * p)) 15 0
  let xon := if xoff ≤ xon0 then xoff - 1 else xon0
  if !(s.pfcTx m).getLsbD p then s.modMac m (fun c => { c with xoff := c.xoff &&& ~~~b })
  else if !(s.xoff m).getLsbD p && decide (xoff ≤ occ) then
    (s.modMac m (fun c => { c with xoff := c.xoff ||| b })).sendPfc m 0
  else if (s.xoff m).getLsbD p && decide (occ < xon) then
    (s.modMac m (fun c => { c with xoff := c.xoff &&& ~~~b })).sendPfc m b
  else s

/-- R125: a buffer joins or leaves a priority's occupancy. -/
def State.occupy (s : State) (o : Option (Nat × Nat)) (add : Bool) : State :=
  match o with
  | some (m, p) =>
    (s.modMac m (fun c =>
      let n := Map.at_ c.occ p 0
      { c with occ := Map.set c.occ p (if add then n + 1 else n - 1) 0 })).pfcCheck m p
  | none => s

/-! Handles and pools (R332, R333). -/

/-- R332: bytes of a size class. -/
def bufBytes : Nat → Nat
  | 0 => 256
  | 1 => 2048
  | 2 => 10240
  | _ => 65536

/-- R334: the smallest size class that holds a length. -/
def sizeFor (n : Nat) : Option Nat :=
  if n ≤ 256 then some 0 else if n ≤ 2048 then some 1 else if n ≤ 10240 then some 2
  else if n ≤ 65536 then some 3 else none

/-- R332: a handle. -/
def handleOf (p i : Nat) : Word := BitVec.ofNat 32 (p / 4 * 2 ^ 31 + p % 4 * 2 ^ 29 + i)

/-- R332: a handle's pool and index. -/
def handlePool (h : Word) : Nat := bits h.toNat 31 31 * 4 + bits h.toNat 30 29
def handleIndex (h : Word) : Nat := bits h.toNat 22 0

/-- R332: a pool. -/
def State.pool (s : State) (p : Nat) : Pool := Map.at_ s.mem.pools p {}

/-- A pool is changed. -/
def State.modPool (s : State) (p : Nat) (f : Pool → Pool) : State :=
  { s with mem := { s.mem with pools := Map.set s.mem.pools p (f (s.pool p)) {} } }

/-- R333: a pool is enabled, and its count. -/
def State.poolEn (s : State) (p : Nat) : Bool := (s.getReg (bpmPoolCfg p)).getLsbD 31
def State.poolCount (s : State) (p : Nat) : Nat := s.regBits (bpmPoolCfg p) 23 0

/-- Handles in runs. -/
def runCount (l : List (Nat × Nat)) : Nat := l.foldl (fun n r => n + r.2) 0

/-- The n-th handle of runs is taken out: its index, and the runs left. -/
def takeNth : List (Nat × Nat) → Nat → Option (Nat × List (Nat × Nat))
  | [], _ => none
  | (a, c) :: t, n =>
    if n < c then
      some (a + n, (if n = 0 then [] else [(a, n)]) ++ (if n + 1 = c then [] else [(a + n + 1, c - n - 1)]) ++ t)
    else (takeNth t (n - c)).map (fun (r : Nat × List (Nat × Nat)) => (r.1, (a, c) :: r.2))

/-- The first n handles of runs, and the runs left. -/
def splitRuns : List (Nat × Nat) → Nat → List (Nat × Nat) × List (Nat × Nat)
  | [], _ => ([], [])
  | (a, c) :: t, n =>
    if n = 0 then ([], (a, c) :: t)
    else if c ≤ n then
      let r := splitRuns t (n - c)
      ((a, c) :: r.1, r.2)
    else ([(a, n)], (a + n, c - n) :: t)

/-- R329: HBM fails: the event notice carries the DMA engine's device time. -/
def State.opHbmFail (s : State) : State :=
  if s.mem.hbmFail || s.mem.reduced then s
  else
    let s := { s with mem := { s.mem with hbmFail := true } }
    (s.memEvent 0).mainEvent 0x0004 5 (s.repTime 2) []

/-- R326: the pseudo-channel of an HBM address. -/
def pseudoChannel (a : Nat) : Nat := (a / 256 ^^^ a / 65536) % 16

/-- R329: a pseudo-channel reports an uncorrectable error: the 1,024th within one second fails the HBM. -/
def State.channelUe (s : State) (a : Nat) : State :=
  if decide (2 ^ 34 ≤ a) || s.mem.hbmFail then s
  else
    let k := pseudoChannel a
    let l := (Map.at_ s.mem.ueAt k []).filter (fun t => decide (s.clock < t + msec 1000)) ++ [s.clock]
    let s := { s with mem := { s.mem with ueAt := Map.put s.mem.ueAt k l } }
    if 1024 ≤ l.length then s.opHbmFail else s

/-- R327, R329: an uncorrectable error is counted, and the word marked. -/
def State.uncorrectable (s : State) (word : Nat) : State :=
  let s := (s.count cntEccUe).memEvent 1
  let s := if s.mem.poison.contains word then s else { s with mem := { s.mem with poison := s.mem.poison ++ [word] } }
  s.channelUe word

/-- R333, R337: the internal address of a slot of a pool's free ring; in reduced capacity the rings of the enabled pools
follow each other. -/
def State.ringSlot (s : State) (p slot : Nat) : Nat :=
  let b := s.regBits bpmRingBase 13 0
  if s.mem.reduced then
    0x001000000000 + b * 1024 +
      (List.range p).foldl (fun n o => if s.poolEn o then n + 4 * s.poolCount o else n) 0 + 4 * slot
  else b * 1048576 + p * 0x2000000 + 4 * slot

/-- R327: handles of runs, one by one. -/
def handlesOf (l : List (Nat × Nat)) : List Nat := (l.map (fun r => (List.range r.2).map (fun i => r.1 + i))).flatten

/-- R327, R329: handles read from a pool's ring: a poisoned one is discarded, counted and added to LOST. -/
def State.readRing (s : State) (p : Nat) (l : List (Nat × Nat)) : List (Nat × Nat) × State :=
  if s.mem.poison.isEmpty && !(s.mem.hbmFail && !s.mem.reduced) then (l, s)
  else
    (handlesOf l).zipIdx.foldl (fun (acc : List (Nat × Nat) × State) (e : Nat × Nat) =>
      let (k, s) := acc
      let a := s.ringSlot p (((s.pool p).head + e.2) % max 1 (s.poolCount p))
      if s.poisoned a 4 then
        (k, (s.count cntPoisonDrop).modPool p (fun q => { q with lost := q.lost + 1 }))
      else if s.mem.hbmFail && !s.mem.reduced then
        (k, ((s.uncorrectable (a / 8 * 8)).count cntPoisonDrop).modPool p (fun q => { q with lost := q.lost + 1 }))
      else (k ++ [(e.1, 1)], s)) ([], s)

/-- R337: a batch of 256 handles moves from the ring to the cache when the cache has fallen to 128. -/
def State.opRefill (s : State) (p : Nat) : State :=
  let q := s.pool p
  if runCount q.cache ≤ 128 && !q.ring.isEmpty then
    let (m, r) := splitRuns q.ring 256
    let (good, s) := s.readRing p m
    let n := runCount m
    s.modPool p (fun q => { q with
      ring := r, cache := q.cache ++ good, head := (q.head + n) % max 1 (s.poolCount p) })
  else s

/-- R337: a batch of 256 handles moves back to the ring when the cache has reached 448; the words it writes in full lose
their poison. -/
def State.opSpill (s : State) (p : Nat) : State :=
  let q := s.pool p
  if 448 ≤ runCount q.cache then
    let (m, c) := splitRuns q.cache 256
    let n := max 1 (s.poolCount p)
    let tail := q.head + runCount q.ring
    let s := (List.range (if s.mem.poison.isEmpty then 0 else 256)).foldl (fun (s : State) i =>
      let a := s.ringSlot p ((tail + i) % n)
      if a % 8 = 0 then s.cleanse a 8 else s) s
    s.modPool p (fun q => { q with ring := q.ring ++ m, cache := c })
  else s

/-- R332: an allocation record. -/
def State.buf (s : State) (h : Word) : Option Alloc := Map.get s.mem.bufs h.toNat

/-- R334: a requester's occupancy in a memory, in units of 0.25 KiB. -/
def State.reqOcc (s : State) (r : Nat) (hbm : Bool) : Nat :=
  s.mem.bufs.foldl (fun n e =>
    if e.2.allocated && e.2.requester = r && (decide (2 ^ 31 ≤ e.1) == hbm) then n + bufBytes (bits e.1 30 29) / 256 else n) 0

/-- R335: occupancy of requester 34 for an instance, in units of 0.25 KiB. -/
def State.txOcc (s : State) (i : Nat) : Nat :=
  s.mem.bufs.foldl (fun n e =>
    if e.2.allocated && e.2.requester = 34 && e.2.inst = i then n + bufBytes (bits e.1 30 29) / 256 else n) 0

/-- R334, R335: the quota of the requester (and for requester 34 of the instance) holds one more buffer. -/
def State.quotaOk (s : State) (r i : Nat) (hbm : Bool) (size : Nat) : Bool :=
  let q := if hbm then s.regBits (bpmReqHbm r) 24 0 else s.regBits (bpmReqSram r) 24 0
  let tx := s.regBits (txQuota i) 23 0
  let u := bufBytes size / 256
  decide (s.reqOcc r hbm + u ≤ 4 * q) && (r ≠ 34 || tx = 0 || decide (s.txOcc i + u ≤ 4 * tx))

/-- R281, R335: OVER_QUOTA: set by a quota below the occupancy, until the occupancy has fallen below the quota. -/
def overLatch (was : Bool) (used quota : Nat) : Bool := if quota < used then true else was && decide (quota ≤ used)

/-- R335: a requester's OVER_QUOTA bit in a memory follows its occupancy and its quota. -/
def State.checkReq (s : State) (r : Nat) (hbm : Bool) : State :=
  let k := 2 * r + (if hbm then 1 else 0)
  let was := s.mem.overQ.contains k
  let q := if hbm then s.regBits (bpmReqHbm r) 24 0 else s.regBits (bpmReqSram r) 24 0
  let now := overLatch was (s.reqOcc r hbm) (4 * q)
  if now = was then s
  else { s with mem := { s.mem with overQ := if now then s.mem.overQ ++ [k] else s.mem.overQ.erase k } }

/-- R334: requesters whose requests wait. -/
def reqWaits (r : Nat) : Bool := decide (34 ≤ r ∧ r ≤ 36)

/-- R327, R337: batches come from the ring until the cache holds a handle that could be read; the fuel covers them. -/
def State.fillCache : Nat → State → Nat → State
  | 0, s, _ => s
  | f + 1, s, p =>
    if runCount (s.pool p).cache = 0 && !(s.pool p).ring.isEmpty then State.fillCache f (s.opRefill p) p else s

/-- R332 to R337: one handle leaves a pool for a requester; which free handle it is the spec leaves open. None where every
handle of the ring was discarded (R327). -/
def State.grant (s : State) (r i : Nat) (hbm : Bool) (size : Nat) (occ : Option (Nat × Nat)) : Option Word × State :=
  let p := (if hbm then 4 else 0) + size
  let s := State.fillCache ((runCount (s.pool p).ring + 255) / 256) s p
  let q := s.pool p
  match takeNth q.cache (s.freeNext % max 1 (runCount q.cache)) with
  | some (x, c) =>
    let h := handleOf p x
    let a : Alloc := { requester := r, inst := i, allocated := true, occ := occ }
    let s := (s.modPool p (fun q => { q with cache := c })).drawn
    (some h, { s with mem := { s.mem with bufs := Map.put s.mem.bufs h.toNat a } }.occupy occ true)
  | none => (none, s)

/-- R332: where a buffer lies: its internal address. -/
def State.bufAddr (s : State) (h : Word) : Nat :=
  let p := handlePool h
  let b := s.regBits (bpmPoolBase p) 16 0
  (if p < 4 then 0x001000000000 + b * 1024 else b * 1048576) + handleIndex h * bufBytes (p % 4)

/-- R327: bytes written to buffers in turn: their words are written in full. -/
def State.fillBufs : State → List Word → Nat → State
  | s, [], _ => s
  | s, h :: t, n =>
    let m := min n (bufBytes (handlePool h % 4))
    State.fillBufs (if s.mem.poison.isEmpty then s else s.cleanse (s.bufAddr h) ((m + 7) / 8 * 8)) t (n - m)

/-- R327, R329: bytes read from buffers in turn meet an uncorrectable word: the first such buffer. -/
def State.badBuf (s : State) : List Word → Nat → Option Word
  | [], _ => none
  | h :: t, n =>
    let m := min n (bufBytes (handlePool h % 4))
    if decide (0 < m) && (s.poisoned (s.bufAddr h) m || (s.mem.hbmFail && h.getLsbD 31)) then some h else s.badBuf t (n - m)

/-- R327, R329: what a read of a frame's or a message's buffer that meets such a word counts. -/
def State.poisonDrop (s : State) (h : Word) : State :=
  (if s.poisoned (s.bufAddr h) (bufBytes (handlePool h % 4)) then s else s.uncorrectable (s.bufAddr h)).count cntPoisonDrop

/-- R334: the answer to a request. -/
inductive AllocRes where
  | granted (h : Word)
  | refused
  | waits
  deriving DecidableEq, Repr

/-- R334: an enabled pool holds a free handle. -/
def State.poolHas (s : State) (p : Nat) : Bool :=
  s.poolEn p && decide (0 < runCount (s.pool p).ring + runCount (s.pool p).cache)

/-- R334, R335: an allocation of a size class in a memory. -/
def State.alloc (s : State) (r i : Nat) (hbm : Bool) (size : Nat) (occ : Option (Nat × Nat)) : AllocRes × State :=
  let p := (if hbm then 4 else 0) + size
  let wait := fun (s : State) =>
    { s with mem := { s.mem with waits := s.mem.waits ++ [{ requester := r, inst := i, hbm := hbm, size := size }] } }
  let deny := fun (s : State) (a : Nat) => if reqWaits r then (AllocRes.waits, wait s) else (AllocRes.refused, s.count a)
  if reqWaits r && s.mem.waits.any (fun w => w.requester = r) then (.waits, wait s)
  else if !s.quotaOk r i hbm size then deny s (cntQuotaDeny r)
  else if !s.poolHas p then deny s (cntPoolEmpty p)
  else match s.grant r i hbm size occ with
    | (some h, s) => (.granted h, s)
    | (none, s) => deny s (cntPoolEmpty p)

/-- R334: an allocation by length; a longer length than 65,536 or none is refused and counted. -/
def State.allocLen (s : State) (r i : Nat) (hbm : Bool) (n : Nat) (occ : Option (Nat × Nat)) : AllocRes × State :=
  match (if n = 0 then none else sizeFor n) with
  | some c => match s.alloc r i hbm c occ with
    | (.granted h, s) => (.granted h, s.fillBufs [h] n)
    | a => a
  | none => (.refused, s.count cntBadReq)

/-- R334: a request that waits is served when its buffer and quota are there. -/
def State.opWaitServed (s : State) (r : Nat) : State :=
  match s.mem.waits.find? (fun w => w.requester = r) with
  | some w =>
    if s.quotaOk r w.inst w.hbm w.size && s.poolHas ((if w.hbm then 4 else 0) + w.size) then
      match s.grant r w.inst w.hbm w.size none with
      | (some h, s) => { s with mem := { s.mem with
          waits := s.mem.waits.erase w, granted := s.mem.granted ++ [(r, w.inst, h)] } }
      | (none, s) => s
    else s
  | none => s

/-- R334: a buffer granted after a wait is taken up. -/
def State.takeGranted (s : State) (r i : Nat) : Option (Word × State) :=
  match s.mem.granted.find? (fun g => g.1 = r && g.2.1 = i) with
  | some g => some (g.2.2, { s with mem := { s.mem with granted := s.mem.granted.erase g } })
  | none => none

/-- R336, R337: the state-bit test of a freed handle: it enters the cache, or is a double free. -/
def State.testFree (s : State) (r : Nat) (h : Word) : State :=
  let p := handlePool h
  let a := s.buf h
  if (a.map (·.allocated)).getD false then
    let o := (a.map (·.occ)).getD none
    let d : Alloc := { requester := r, inst := 0, allocated := false }
    let b := Map.upd s.mem.bufs h.toNat d (fun a => { a with allocated := false, occ := none })
    let s := { s with mem := { s.mem with bufs := b } }.checkReq ((a.map (fun (x : Alloc) => x.requester)).getD r) (decide (2 ^ 31 ≤ h.toNat))
    let s := if 512 ≤ runCount (s.pool p).cache then s.opSpill p else s
    (s.modPool p (fun q => { q with cache := q.cache ++ [(handleIndex h, 1)] })).occupy o false
  else
    let s := s.count (cntDoubleFree p)
    let last := (a.map (·.requester)).getD 0
    if s.mem.df.length < 16 then
      let e : DoubleFree := { handle := h, by_ := r, last := last, time := BitVec.ofNat 64 (s.repTime 2) }
      { s with mem := { s.mem with df := s.mem.df ++ [e] } }.memEvent 4
    else (s.count cntDfOvf).memEvent 4

/-- R337: the check queue of a pool is served in order; the fuel covers it. -/
def State.serveChecks : Nat → State → Nat → State
  | 0, s, _ => s
  | f + 1, s, p =>
    match (s.pool p).check with
    | [] => s
    | e :: t => State.serveChecks f ((s.modPool p (fun q => { q with check := t })).testFree e.1 e.2) p

/-- R336, R337: a free by a requester: refused, or its handle joins the check queue. DESIGN CHOICE (log 45): when a handle
is tested the spec does not say; here the queue is served before the free ends. -/
def State.opFree (s : State) (r : Nat) (h : Word) : State :=
  let p := handlePool h
  if !s.poolEn p || decide (s.poolCount p ≤ handleIndex h) || bits h.toNat 28 23 ≠ 0 then s.count cntBadReq
  else State.serveChecks 512 (s.modPool p (fun q => { q with check := q.check ++ [(r, h)] })) p

/-- R336: buffers an item held are freed by the requester that holds them. -/
def State.freeBufs (s : State) (r : Nat) (l : List Word) : State := l.foldl (fun s h => s.opFree r h) s

/-- R268, R305: the waits of requester 34 for some instances end, with what was granted to them. -/
def State.endWaits (s : State) (p : Nat → Bool) : State :=
  let gone := s.mem.granted.filter (fun g => g.1 = 34 && p g.2.1)
  let s := s.freeBufs 34 (gone.map (fun (g : Nat × Nat × Word) => g.2.2))
  { s with mem := { s.mem with
    granted := s.mem.granted.filter (fun g => !(g.1 = 34 && p g.2.1))
    waits := s.mem.waits.filter (fun w => !(w.requester = 34 && p w.inst)) } }

/-- R336: buffers return by the requesters that allocated them. -/
def State.freeOwn (s : State) (l : List Word) : State :=
  l.foldl (fun s h => s.opFree (((s.buf h).map (fun (a : Alloc) => a.requester)).getD 0) h) s

/-- R333: bytes from and to of a pool within its memory. -/
def State.poolSpan (s : State) (p count : Nat) : Nat × Nat :=
  let b := s.regBits (bpmPoolBase p) 16 0 * (if p < 4 then 1024 else 1048576)
  (b, b + count * bufBytes (p % 4))

/-- R333: setting EN with a count is refused. -/
def State.poolRefused (s : State) (p count : Nat) : Bool :=
  let (a, e) := s.poolSpan p count
  let limit := if p < 4 then (if s.mem.reduced then 40 else 64) * 1048576 else 16384 * 1048576
  let others := (List.range 8).filter (fun o => o ≠ p && decide (o / 4 = p / 4) && s.poolEn o)
  let overlap := others.any (fun o =>
    let (a', e') := s.poolSpan o (s.poolCount o)
    decide (a < e' ∧ a' < e))
  let dark := p < 4 && (List.range 8).any (fun b => decide (a < (b + 1) * 8388608 ∧ b * 8388608 < e) && !s.powered (9 + b))
  decide (limit < e) || overlap || dark || !(s.getReg bpmRingBase).getLsbD 31 || decide (8388608 < count) ||
    (decide (4 ≤ p) && s.mem.reduced)

/-- R333: some buffer of a pool is allocated. -/
def State.poolInUse (s : State) (p : Nat) : Bool :=
  s.mem.bufs.any (fun e => e.2.allocated && handlePool (BitVec.ofNat 32 e.1) = p)

/-- R327, R333: a completed write of BPM_POOL_CFG; the ring's words, written in full, lose their poison. -/
def State.opPoolCfg (s : State) (p : Nat) (v : Word) : State :=
  let on := v.getLsbD 31
  let count := bits v.toNat 23 0
  if s.poolEn p then
    if on then s
    else if s.poolInUse p then s.memEvent 3
    else ((s.setReg (bpmPoolCfg p) (BitVec.ofNat 32 (s.poolCount p))).modPool p (fun _ => {}))
  else if !on then s.setReg (bpmPoolCfg p) (BitVec.ofNat 32 count)
  else if s.poolRefused p count then s.memEvent 3
  else
    let s := s.setReg (bpmPoolCfg p) (BitVec.ofNat 32 (2 ^ 31 + count))
    let s := { s with mem := { s.mem with bufs := s.mem.bufs.filter (fun e => handlePool (BitVec.ofNat 32 e.1) ≠ p) } }
    let s := s.cleanse (s.ringSlot p 0) (4 * count)
    s.modPool p (fun _ => { ring := if count = 0 then [] else [(0, count)] })

/-- R336: BPM_DF_NEXT. -/
def State.opDfNext (s : State) (v : Word) : State :=
  if v.getLsbD 0 then { s with mem := { s.mem with df := s.mem.df.drop 1 } } else s

end Sys2Proof.Machine
end

