-- ==== Sys2Proof/Machine/QimBase.lean ====
section
/-! DEFINITION. What other units do to queues, instances and buffers in passing: entries end (R298), deliveries wait
for their queue (R301), and buffers return (R336, see Bpm). -/

namespace Sys2Proof.Machine

/-- R290: a queue. -/
def State.queue (s : State) (q : Nat) : Queue := Map.at_ s.qim.queue q {}

/-- A queue is changed. -/
def State.modQueue (s : State) (q : Nat) (f : Queue → Queue) : State :=
  { s with qim := { s.qim with queue := Map.set s.qim.queue q (f (s.queue q)) {} } }

/-- R280: an instance. -/
def State.inst (s : State) (i : Nat) : Inst := Map.at_ s.qim.inst i {}

/-- An instance is changed. -/
def State.modInst (s : State) (i : Nat) (f : Inst → Inst) : State :=
  { s with qim := { s.qim with inst := Map.set s.qim.inst i (f (s.inst i)) {} } }

/-- R280: the generation under which a queue works; PF0's queues have generation 0. -/
def State.queueGen (s : State) (q : Nat) : Byte :=
  match (s.queue q).owner with
  | some i => (s.inst i.toNat).gen
  | none => 0

/-- R305: an operation of an old generation is discarded and counted. -/
def State.staleGen (s : State) (owner : Option (BitVec 16)) : State :=
  let s := s.count (QIM + 0x200)
  match owner with
  | some i => s.modInst i.toNat (fun x => { x with errStale := min 255 (x.errStale + 1) })
  | none => s

/-- R298, R305: an entry that has begun ends, unless its generation is stale. -/
def State.finishEntry (s : State) (r : EntryRef) (status : Byte) (f : Entry → Entry) : State :=
  if s.queueGen r.queue ≠ r.gen then s.staleGen (s.queue r.queue).owner
  else s.modQueue r.queue (fun q => { q with ents := q.ents.map (fun e =>
    if e.no = r.no then { f e with st := .finished status } else e) })

/-- R301: an item joins the deliveries. R16: between items that reach the QIM over different island pairs the spec
defines no order. DESIGN CHOICE (log 146): it is the order of the commands that bring them. -/
def State.deliver (s : State) (d : Delivery) : State := { s with qim := { s.qim with deliv := s.qim.deliv ++ [d] } }

end Sys2Proof.Machine
end

