-- ==== Sys2Proof/Machine/Ledger.lean ====
section
/-! DEFINITION. The plinth and the stamp ledger (chapter 4): membership, keys, safe times, release, records, blocks,
epochs and seal requests. -/

namespace Sys2Proof.Machine

/-! R108, R109: registers of the SQL. -/
abbrev sqlEvt : Nat := SQL + 0x004
abbrev sqlExpq : Nat := SQL + 0x030
abbrev sqlMembTime : Nat := SQL + 0x040
abbrev sqlMembCmd : Nat := SQL + 0x048
abbrev sqlClass (c : Nat) : Nat := SQL + 0x100 + 8 * c
abbrev cntDigestSkip : Nat := SQL + 0x200
abbrev cntGapMsg : Nat := SQL + 0x204
abbrev cntSealFail : Nat := SQL + 0x208
abbrev streamReg (n off : Nat) : Nat := STREAMS + 0x80 * n + off

/-- R108: bits of SQL_EVT set. -/
def State.sqlEvent (s : State) (b : Nat) : State := s.setEvt sqlEvt 13 (BitVec.ofNat 32 (2 ^ b))

/-- R14: the SQL has power. -/
def State.sqlOn (s : State) : Bool := s.powered 81 && s.powered 82

/-- A stream. -/
def State.stream (s : State) (n : Nat) : StreamSt := Map.at_ s.sql.streams n {}

/-- A stream is changed. -/
def State.modStream (s : State) (n : Nat) (f : StreamSt → StreamSt) : State :=
  { s with sql := { s.sql with streams := Map.set s.sql.streams n (f (s.stream n)) {} } }

/-- R109: fields of CFG. -/
def StreamSt.en (x : StreamSt) : Bool := x.cfg.getLsbD 31
def StreamSt.cls (x : StreamSt) : Nat := bits x.cfg.toNat 27 24
def StreamSt.maxHold (x : StreamSt) : Nat := bits x.cfg.toNat 13 0

/-! R93: ledger classes. -/

/-- R93, R110: a class is enabled and the ledger records. -/
def State.classOn (s : State) (c : Nat) : Bool :=
  decide (1 ≤ c ∧ c ≤ 15) && (s.getReg (sqlClass c)).getLsbD 31 && s.sql.recording

/-- R93: a class is lenient. -/
def State.lenient (s : State) (c : Nat) : Bool := (s.getReg (sqlClass c)).getLsbD 30

/-- R94: a class's digest policy. -/
def State.digestPolicy (s : State) (c : Nat) : Nat := s.regBits (sqlClass c) 29 28

/-! R78, R79: members. -/

/-- R79: the member table in force for a key, back from a table over the activations after which it came. -/
def membersBack (key : BitVec 64) (now : Map (Word × Word)) : List (BitVec 64 × Map (Word × Word)) → Map (Word × Word)
  | [] => now
  | (t, before) :: l => if key < t then membersBack key before l else now

/-- R79: the members in force for a key. -/
def State.membersAt (s : State) (key : BitVec 64) : Map (Word × Word) :=
  let held := membersBack key s.sql.members s.sql.membPast
  match s.sql.membWait with
  | some w => if w.time ≤ key then w.members else held
  | none => held

/-- R109: a member entry names a source of a stream. -/
def memberOf (w : Word × Word) (n : Nat) (src : BitVec 18) : Bool :=
  let v := w.1.toNat
  w.1.getLsbD 31 && decide (bits v 29 24 = n) && decide (bits v 21 20 = bits src.toNat 17 16) &&
    decide (bits v 15 0 = bits src.toNat 15 0)

/-- R80: the source is a member of its stream at a key; a session's segments must come from its member MAC. -/
def State.isMember (s : State) (m : Msg) (key : BitVec 64) : Bool :=
  (s.membersAt key).any (fun e => memberOf e.2 m.stream.toNat m.src &&
    (if bits m.src.toNat 17 16 = 1 then
      (match m.mac with | some c => decide (bits e.2.1.toNat 19 16 = c.val) | none => true) &&
      decide (m.session = some (bits e.2.2.toNat 20 0))
     else true))

/-! R81, R82: keys. -/

/-- R82: D, units. -/
def State.scaleD (s : State) : Int := s.tim.tkoStep.tdiv 16

/-- A key moved by D. -/
def moveKey (k : BitVec 64) (d : Int) : BitVec 64 := k + BitVec.ofInt 64 d

/-- R81: effective stamp. -/
def effective (raw : BitVec 64) (corr : BitVec 16) : BitVec 64 := raw - corr.setWidth 64

/-- R81: tie rank. -/
def tieRank (src : BitVec 18) (key : BitVec 64) : Nat := (src ^^^ key.setWidth 18).toNat

/-- R82: an overlap window is open and a message is stamped on the incoming timescale alone. -/
def State.waitsOverlap (s : State) (t : StampTag) : Bool :=
  match s.tim.tko with
  | some w => t.inc.isNone && t.core ≠ w.outgoing
  | none => false

/-- R82: the key of a message on the plinth's timescale. -/
def State.keyOf (s : State) (t : StampTag) : BitVec 64 :=
  match t.inc with
  | some i => if t.core = s.sql.scale then effective t.raw.time t.corr else effective i.time t.corr
  | none =>
    if t.core = s.sql.scale then effective t.raw.time t.corr
    else moveKey (effective t.raw.time t.corr) s.scaleD

/-- Key and tie rank precede another pair. -/
def precedes (k : BitVec 64) (r : Nat) (k' : BitVec 64) (r' : Nat) : Bool :=
  decide (k < k') || (decide (k = k') && decide (r < r'))

/-- R81: held messages in order of key, tie rank and presentation. -/
def insertHeld (h : Held) : List Held → List Held
  | [] => [h]
  | x :: t =>
    let r := tieRank h.msg.src h.key
    let r' := tieRank x.msg.src x.key
    if precedes h.key r x.key r' || (decide (h.key = x.key ∧ r = r') && decide (h.no < x.no)) then h :: x :: t
    else x :: insertHeld h t

/-! R84 to R86: safe times. -/

/-- R56, R84: the earliest raw stamp that a symbol the PCS has not yet decoded could receive: what its replica read at
the oldest word the decoder can still hold, or now where that is less, and the greatest delay of a lane before it. -/
def State.pcsFloor (s : State) (m : Nat) : Int :=
  let x := s.rep (3 + m)
  let r := min (x.latched x.active (256 * s.clock)) (x.latched x.active (256 * s.clock - pcsSpan m))
  ((r : Int) - (Config.laneRxMax m : Nat)) / 256

/-- R84: the port's raw safe time: the oldest token is the one of the lowest raw stamp. DESIGN CHOICE (log 155): safe
times and tokens stand on the timescale that their replica or their stamp has, also in an overlap window and after it. -/
def State.portSafe (s : State) (m : Nat) : Int :=
  let x := Map.at_ s.prt.macs m {}
  if !x.link || !(s.rep (3 + m)).run then (s.repTime 38 : Int) - 4000
  else (Map.at_ s.sql.tokens m []).foldl (fun o t => min o (t.toNat : Int)) (s.pcsFloor m)

/-- R84: a doorbell of a queue is pending: an entry that it published has not begun, or waits to be presented. -/
def State.bellPending (s : State) (q : Nat) (x : Queue) (b : Word × StampTag × Nat) : Bool :=
  decide (0 < (b.1 - x.head).toInt) || s.sql.inbox.any (fun m =>
    decide (m.tag.raw = b.2.1.raw) && (m.entry.map (fun (e : EntryRef) => e.queue)) = some q)

/-- R84: the doorbell stamps of a queue that hold a safe time back: those of its pending doorbells, of its entries that
wait for a buffer, and of its messages that wait to be presented. -/
def State.bellStamps (s : State) (q : Nat) (x : Queue) : List Nat :=
  (x.bells.filter (s.bellPending q x)).map (fun b => b.2.1.raw.time.toNat) ++
  (x.ents.filter (fun e => e.st = .waiting)).map (fun e => e.stamp.raw.time.toNat) ++
  (s.sql.inbox.filter (fun m => (m.entry.map (fun (e : EntryRef) => e.queue)) = some q)).map
    (fun m => m.tag.raw.time.toNat)

/-- R84, R442: the oldest pending doorbell on the stream-bound queues that present under an instance number. -/
def State.oldestBell (s : State) (i : Nat) : Option Nat :=
  s.qim.queue.foldl (fun o e =>
    if e.2.stream.isSome && e.2.asInst.toNat = i then
      (s.bellStamps e.1 e.2).foldl (fun o t => some (match o with | some x => min x t | none => t)) o
    else o) none

/-- R55: the endpoint's receive latency constant for the trained rate and width, below 1 µs. -/
def State.lRx (s : State) : Nat := Config.rxLatency s.hep.rate.toNat s.hep.width.toNat % 4000

/-- R84: the instance's raw safe time. -/
def State.instSafe (s : State) (i : Nat) : Int :=
  let now : Int := s.repTime 0
  let f : Int := usec (s.mainNat 0xA150 2)
  let a := now - s.lRx
  let b := match s.oldestBell i with | some x => min a (x : Int) | none => a
  max (now - f) b

/-- R84: the oldest message that a cluster's plinth port holds. -/
def State.portOldest (s : State) (c : Nat) : Option Nat :=
  (Map.at_ s.tha.clusters c {}).chans.foldl (fun o e =>
    if e.2.kind = 3 then
      e.2.msgs.foldl (fun o m => if m.st = .committed then
        some (match o with | some x => min x m.tag.raw.time.toNat | none => m.tag.raw.time.toNat) else o) o
    else o) none

/-- R84: the thread's raw safe time. -/
def State.threadSafe (s : State) (th : Nat) : Int :=
  let c := th / 128 % 8
  let b : Int := ((Map.at_ s.sql.beat c 0).toNat : Int)
  match s.portOldest c with
  | some x => min b (x : Int)
  | none => b

/-- R84: a raw safe time less its source's path correction: DESIGN CHOICE (log 136): the one that R61 attaches to a
stamp of that time, also while a commit of path corrections waits. -/
def State.lessCorr (s : State) (n : Nat) (raw : Int) : Int := raw - ((s.pathCorr n (BitVec.ofInt 64 raw)).toNat : Int)

/-- R84: the safe time of a member, as an effective time. -/
def State.safeTime (s : State) (w : Word × Word) : Int :=
  let v := w.1.toNat
  match bits v 21 20 with
  | 0 => s.lessCorr (bits v 3 0) (s.portSafe (bits v 3 0))
  | 1 => s.lessCorr (bits v 19 16) (s.portSafe (bits v 19 16))
  | 2 => s.lessCorr 16 (s.instSafe (bits v 15 0))
  | _ => s.lessCorr 17 (s.threadSafe (bits v 9 0))

/-- R7, R8: a member entry names a source that there is: MAC 0 to 15 and thread 0 to 1,023. -/
def memberOk (w : Word) : Bool :=
  match bits w.toNat 21 20 with
  | 0 => decide (bits w.toNat 15 0 < 16)
  | 3 => decide (bits w.toNat 15 0 < 1024)
  | _ => true

/-- The members of a stream in force now, by index. -/
def State.streamMembers (s : State) (n : Nat) : Map (Word × Word) :=
  s.sql.members.filter (fun e => e.2.1.getLsbD 31 && decide (bits e.2.1.toNat 29 24 = n))

/-- R79, R87: members of a stream at a key that are not excluded and whose safe time has not passed it. -/
def State.blockers (s : State) (n : Nat) (key : BitVec 64) : Map (Word × Word) :=
  (s.membersAt key).filter (fun e => e.2.1.getLsbD 31 && decide (bits e.2.1.toNat 29 24 = n) &&
    !(s.stream n).laggards.contains e.1 &&
    decide (s.safeTime e.2 ≤ (key.toNat : Int)))

/-! R84: tokens. -/

/-- R84: a token of a MAC is retired. -/
def State.retireToken (s : State) (m : Nat) (raw : BitVec 64) : State :=
  { s with sql := { s.sql with tokens := Map.set s.sql.tokens m ((Map.at_ s.sql.tokens m []).erase raw) [] } }

/-- R84: a token begins. -/
def State.addToken (s : State) (m : Nat) (raw : BitVec 64) : State :=
  { s with sql := { s.sql with tokens := Map.set s.sql.tokens m (Map.at_ s.sql.tokens m [] ++ [raw]) [] } }

/-! R96 to R99: records and blocks. -/

/-- R96: a record. -/
structure Rec where
  typ    : Nat
  flags  : Nat := 0
  stream : Nat := 0xFF
  cls    : Nat := 0
  src    : Nat := 0
  seq    : Nat := 0
  raw    : Nat := 0
  eff    : Nat := 0
  bound  : Nat := 0
  corr   : Nat := 0
  len    : Nat := 0
  digest : List Byte := []
  aux    : Nat := 0

/-- R96: the 64 bytes of a record. -/
def Rec.bytes (r : Rec) : List Byte :=
  beBytes 1 r.typ ++ beBytes 1 r.flags ++ beBytes 1 r.stream ++ beBytes 1 r.cls ++ beBytes 4 r.src ++
  beBytes 8 r.seq ++ beBytes 8 r.raw ++ beBytes 8 r.eff ++ beBytes 2 r.bound ++ beBytes 2 r.corr ++
  beBytes 4 r.len ++ slicePad r.digest 0 20 ++ beBytes 4 r.aux

/-- R98: the largest power of two less than n, for n of at least two. -/
def splitPow : Nat → Nat → Nat → Nat
  | 0, k, _ => k
  | f + 1, k, n => if 2 * k < n then splitPow f (2 * k) n else k

/-- R98: the Merkle tree hash of leaf hashes; the fuel covers the list's depth. -/
def mth : Nat → List (List Byte) → List Byte
  | 0, _ => sha256 []
  | _ + 1, [] => sha256 []
  | _ + 1, [x] => x
  | f + 1, l =>
    let k := splitPow l.length 1 l.length
    sha256 ([1] ++ mth f (l.take k) ++ mth f (l.drop k))

/-- R98: the Merkle root of records. -/
def merkleRoot (recs : List (List Byte)) : List Byte :=
  mth (recs.length + 1) (recs.map (fun r => sha256 (0 :: r)))

/-- R102, R25, R110: the ledger area in bytes. -/
def State.areaSize (s : State) : Nat :=
  if s.mem.reduced then 8 * 1048576 else s.sql.areaMb * 1048576

/-- R102: the area has room for bytes. -/
def State.areaRoom (s : State) (n : Nat) : Bool := decide (s.sql.area + n ≤ s.areaSize)

/-- R99: the header of the open block as it closes. -/
def State.blockHeader (s : State) (reason close : Nat) : List Byte :=
  let b := s.sql.block
  beBytes 4 0x434C4201 ++ beBytes 4 s.sql.run.toNat ++ beBytes 8 b.number.toNat ++ beBytes 8 b.opened.toNat ++
  beBytes 8 close ++ beBytes 8 b.first.toNat ++ beBytes 4 b.recs.length ++ beBytes 4 b.gapmsg ++
  beBytes 4 b.skipped ++ beBytes 4 s.sql.strictNew ++ beBytes 4 b.late ++ beBytes 2 reason ++
  beBytes 2 (b.flags + (if s.mem.reduced then 1 else 0)) ++ merkleRoot b.recs ++ slicePad s.sql.chain 0 32

/-- R98, R110: a block opens, with what A110h then holds. -/
def State.openBlock (s : State) (number first : BitVec 64) : State :=
  { s with sql := { s.sql with
      block := { number := number, opened := BitVec.ofNat 64 (s.repTime 38), openAt := s.islandTime 38, first := first }
      open_ := true, strictNew := 0, intervalUs := s.mainNat 0xA110 1, recLimit := s.mainNat 0xA110 2
      areaMb := s.mainNat 0xA110 4, recording := s.mainBool 0xA110 5 } }

/-- R102, R108: the area has come to have no room, against a state before. -/
def State.areaEvent (s was : State) : State := if was.areaRoom 64 && !s.areaRoom 64 then s.sqlEvent 5 else s

/-- R99: the open block closes with a reason and a closing time; its header joins the chain and waits for export. -/
def State.closeBlock (s : State) (reason close : Nat) : State :=
  if !s.sql.open_ then s else
    let b := s.sql.block
    let h := s.blockHeader reason close
    let q := s.sql
    let was := s
    let s := { s with sql := { q with
      chain := sha256 h
      units := q.units ++ [ExpUnit.block b.number h b.recs]
      area := q.area + 128
      blockLast := some b.number
      unsealed := min 0xFFFFFFFF (q.unsealed + 1)
      sumGap := q.sumGap + BitVec.ofNat 64 b.gapmsg
      sumSkip := q.sumSkip + BitVec.ofNat 64 b.skipped
      sumStrict := q.sumStrict + BitVec.ofNat 64 q.strictNew
      sumLate := q.sumLate + BitVec.ofNat 64 b.late } }
    (s.openBlock (b.number + 1) q.recCount).areaEvent was

/-- R83, R98: a record is written to the open block, which closes at the record limit; a step record is the first of
its block. -/
def State.writeRecord (s : State) (r : List Byte) : State :=
  let typ := (r.getD 0 0).toNat
  let s := if typ = 3 then s.closeBlock 4 (s.repTime 38) else s
  let q := s.sql
  let b := q.block
  let fl := r.getD 1 0
  let b' := { b with
    recs := b.recs ++ [r]
    gapmsg := if typ = 2 then b.gapmsg + beAt r 36 4 else b.gapmsg
    skipped := if fl.getLsbD 3 then b.skipped + 1 else b.skipped
    late := if typ = 1 && fl.getLsbD 7 then b.late + 1 else b.late
    flags := if typ = 4 then b.flags ||| 2 else if typ = 3 then b.flags ||| 4 else if typ = 5 then b.flags ||| 8
             else b.flags }
  let was := s
  let s := { s with sql := { q with block := b', recCount := q.recCount + 1, area := q.area + 64 } }
  let s := s.areaEvent was
  let s := if typ = 2 then s.sqlEvent 4 else s
  if s.sql.recLimit ≤ b'.recs.length then s.closeBlock 2 (s.repTime 38) else s

/-- R93, R97: entry i of the record queue may be written: its digest has finished, no earlier entry of its stream
waits, and an entry that keeps its order with every record has none before it. -/
def recReady (q : List RecWait) (i : Nat) : Bool :=
  match q[i]? with
  | some e => e.data.isNone && (q.take i).all (fun x => x.stream ≠ e.stream && x.stream ≠ 256 && e.stream ≠ 256)
  | none => false

/-- The records that are ready are written, while the area has room; the fuel covers the queue. -/
def State.flushRecs : Nat → State → State
  | 0, s => s
  | f + 1, s =>
    match firstBelow s.sql.recq.length (recReady s.sql.recq) with
    | some i =>
      if s.areaRoom 64 && s.sql.open_ then
        match s.sql.recq[i]? with
        | some e =>
          let s := { s with sql := { s.sql with recq := s.sql.recq.eraseIdx i } }
          let s := s.writeRecord e.record
          let s := match e.comp with | some c => s.writeRecord c | none => s
          State.flushRecs f s
        | none => s
      else s
    | none => s

/-- The record queue is worked off as far as it can be. -/
def State.flush (s : State) : State := State.flushRecs (s.sql.recq.length + 1) s

/-- A record joins the queue of its stream, and what is ready is written. -/
def State.putRec (s : State) (e : RecWait) : State := { s with sql := { s.sql with recq := s.sql.recq ++ [e] } }.flush

/-- A record without a digest joins the queue. -/
def State.putPlain (s : State) (r : Rec) (order : Nat) : State :=
  s.putRec { record := r.bytes, comp := none, data := none, engine := none, stream := order }

/-! R94, R95: digests and recordability. -/

/-- R94: powered hash engines. -/
def State.engines (s : State) : List Nat := (List.range 4).filter (fun e => s.powered (83 + e))

/-- R94: digest work queued in an engine, bytes. -/
def State.engLoad (s : State) (e : Nat) : Nat := Map.at_ s.sql.engq e 0

/-- R94: the engine with the least work, unless every powered one has 64 KiB queued. -/
def State.pickEngine (s : State) : Option Nat :=
  s.engines.foldl (fun b e =>
    if s.engLoad e < 65536 then
      (match b with | some x => if s.engLoad e < s.engLoad x then some e else b | none => some e)
    else b) none

/-- R94: the engine with the least work, whatever that is. -/
def State.leastEngine (s : State) : Option Nat :=
  s.engines.foldl (fun b e => match b with | some x => if s.engLoad e < s.engLoad x then some e else b | none => some e) none

/-- Digest work is added to an engine. -/
def State.loadEngine (s : State) (e : Option Nat) (n : Nat) : State :=
  match e with
  | some e => { s with sql := { s.sql with engq := Map.set s.sql.engq e (s.engLoad e + n) 0 } }
  | none => s

/-- Digest work leaves an engine. -/
def State.unloadEngine (s : State) (e : Option Nat) (n : Nat) : State :=
  match e with
  | some e => { s with sql := { s.sql with engq := Map.set s.sql.engq e (s.engLoad e - n) 0 } }
  | none => s

/-- R95: a message of a class cannot be recorded. -/
def State.unrecordable (s : State) (c : Nat) (skipped : Bool) : Bool :=
  !s.areaRoom 64 || decide (65536 ≤ s.sql.recq.length) || (skipped && s.digestPolicy c = 2)

/-- R95: a strict drop is counted in a stream's entry. -/
def State.strictDrop (s : State) (n : Nat) : State :=
  let s := { s with sql := { s.sql with strictNew := s.sql.strictNew + 1 } }
  (s.count (streamReg n 0x3C)).sqlEvent 3

/-- R95: a lenient message that cannot be recorded joins its stream's pending gap. -/
def State.addGap (s : State) (n cls : Nat) (seq raw : BitVec 64) (core : CoreId) : State :=
  (s.modStream n (fun x => { x with gap := some (match x.gap with
    | some g => { g with count := g.count + 1, rawHi := raw }
    | none => { first := seq, count := 1, rawLo := raw, rawHi := raw, cls := cls, core := core }) })).count cntGapMsg

/-- R82, R96: the CORE flag of a stamp. -/
def coreFlag (c : CoreId) : Nat := match c with | .A => 0 | .B => 4

/-- R95, R97: a pending gap becomes a gap record. -/
def State.putGap (s : State) (n : Nat) : State :=
  match (s.stream n).gap with
  | some g =>
    (s.modStream n (fun x => { x with gap := none })).putPlain
      { typ := 2, stream := n, cls := g.cls, seq := g.first.toNat, raw := g.rawLo.toNat, eff := g.rawHi.toNat,
        len := g.count, flags := coreFlag g.core } n
  | none => s

/-- R93 to R97: how a message is recorded: the STREAM field, class, flags, sequence and late number, what its digest
stands at, the stream whose records and gap it follows, and the stream whose gap it joins. -/
structure Entering where
  stream  : Nat
  cls     : Nat
  flags   : Nat := 0
  seq     : Nat := 0
  late    : Nat := 0
  skipped : Bool := false
  engine  : Option Nat := none
  /-- R94: the digest, where it has finished. -/
  digest  : Option (List Byte) := none
  order   : Nat
  gap     : Nat

/-- R94: the record of a message is made by its class and policy then: without a policy its digest work is dropped; with
one, a message that has no digest, no engine and was not digest-skipped takes an engine now. -/
def State.enterDigest (s : State) (m : Msg) (x : Entering) : Entering × State :=
  if s.digestPolicy x.cls = 0 then
    ({ x with engine := none, digest := none, skipped := false }, s.unloadEngine x.engine m.data.length)
  else if x.skipped || x.engine.isSome || x.digest.isSome then (x, s)
  else match s.leastEngine with
    | some e => ({ x with engine := some e }, s.loadEngine (some e) m.data.length)
    | none => ({ x with skipped := true }, s)

/-- R93 to R97: a message is recorded; a class that is not enabled records nothing, and a lenient message that cannot be
recorded joins a gap: its stream's, or, without a sequence number, that of what is in no stream (log 137). -/
def State.recordMsg (s : State) (m : Msg) (x : Entering) : State :=
  let t := m.tag
  if !s.classOn x.cls then s.unloadEngine x.engine m.data.length
  else if s.unrecordable x.cls x.skipped then
    (s.unloadEngine x.engine m.data.length).addGap x.gap x.cls (BitVec.ofNat 64 (if x.gap = 0xFF then 0 else x.seq))
      t.raw.time t.core
  else
    let (x, s) := s.enterDigest m x
    let skipFlag := x.skipped
    let s := s.putGap x.order
    let base : Rec := { typ := 1, stream := x.stream, cls := x.cls, src := m.src.toNat, corr := t.corr.toNat,
                        flags := x.flags + coreFlag t.core + (if t.inc.isSome then 32 else 0) + (if skipFlag then 8 else 0),
                        seq := x.seq, raw := t.raw.time.toNat, eff := (effective t.raw.time t.corr).toNat,
                        bound := t.raw.bound.toNat, len := m.data.length, digest := x.digest.getD [], aux := x.late }
    let companion := fun (i : Stamp) =>
      let r : Rec := { base with typ := 6, flags := coreFlag t.core.other, seq := 0, len := 0, digest := [], aux := 0,
                                 raw := i.time.toNat, eff := (effective i.time t.corr).toNat, bound := i.bound.toNat }
      r.bytes
    let comp := t.inc.map companion
    let s := if skipFlag then s.count cntDigestSkip else s
    s.putRec { record := base.bytes, comp := comp, data := if x.engine.isSome then some m.data else none,
               engine := x.engine, stream := x.order }

/-- R94: at presentation a message is digest-skipped when every engine has 64 KiB queued, and takes an engine when its
class is to be digested: skipped and engine. -/
def State.takeEngine (s : State) (cls len : Nat) : Bool × Option Nat × State :=
  match s.pickEngine with
  | some e => if s.classOn cls && s.digestPolicy cls ≠ 0 then (false, some e, s.loadEngine (some e) len) else (false, none, s)
  | none => (true, none, s)

/-! R91: delivery. -/

/-- R91: the delivery header. -/
def deliveryHeader (m : Msg) (seq flags : Nat) : List Byte :=
  leBytes 8 seq ++ leBytes 8 m.tag.raw.time.toNat ++ leBytes 8 (effective m.tag.raw.time m.tag.corr).toNat ++
  leBytes 2 m.tag.raw.bound.toNat ++ leBytes 1 m.stream.toNat ++ leBytes 1 flags ++ leBytes 4 m.src.toNat

/-- R91, R297: a message goes to a queue with its delivery header, and its work entry ends. -/
def State.deliverMsg (s : State) (m : Msg) (queue seq flags : Nat) : State :=
  let fl := flags + (if m.tag.inc.isSome then 32 else 0)
  let cfl := 32 + (if bit fl 7 then 16384 else 0) + (if bit fl 1 then 8192 else 0) + (if bit fl 5 then 4096 else 0)
  let s := s.deliver { queue := queue, data := deliveryHeader m seq fl ++ m.data, stamp := some m.tag.raw,
                       detail := BitVec.ofNat 32 seq, flags := BitVec.ofNat 16 (cfl + m.flags), plinth := some m.stream.toNat,
                       bufs := m.bufs }
  match m.entry with
  | some r => s.finishEntry r 0 (fun e => { e with
      len := m.data.length, cstamp := some m.tag.raw, detail := BitVec.ofNat 32 seq
      flags := BitVec.ofNat 16 (cfl - 32) })
  | none => s

/-! R78, R80, R89: presentation. -/

/-- R89: a message is late: it precedes the horizon or carries a stale step parity. -/
def State.isLate (s : State) (m : Msg) (key : BitVec 64) : Bool :=
  m.tag.parity ≠ s.sql.parity ||
    (match (s.stream m.stream.toNat).horizon with
      | some (k, r) => precedes key (tieRank m.src key) k r
      | none => false)

/-- R95: the work entry of a message that is dropped ends as refused, and its buffers return. -/
def State.dropMsg (s : State) (m : Msg) : State :=
  let s := s.freeOwn m.bufs
  match m.entry with
  | some r => s.finishEntry r 8 id
  | none => s

/-- R80, R89, R95: a message without a sequence number is recorded and delivered on the late queue, or dropped when its
strict class cannot record it: one that is no member's (UNSEQ) is counted in stream 0's entry. -/
def State.presentLate (s : State) (m : Msg) (nonmember : Bool) : State :=
  let n := m.stream.toNat
  let st := s.stream n
  let c := st.cls
  let (skip, eng, s) := s.takeEngine c m.data.length
  if s.classOn c && !s.lenient c && s.unrecordable c skip then
    (s.unloadEngine eng m.data.length).strictDrop (if nonmember then 0 else n) |>.dropMsg m
  else
    let last := (st.nextSeq - 1).toNat
    let s := if nonmember then s.count (streamReg n 0x44)
      else (s.count (streamReg n 0x38)).modStream n (fun x => { x with lateNo := x.lateNo + 1 })
    let x : Entering := { stream := n, cls := c, skipped := skip, engine := eng, order := n, gap := 0xFF }
    let s := s.recordMsg m (if nonmember then { x with flags := 64 + 2 }
      else { x with flags := 128, seq := last, late := st.lateNo + 1 })
    s.deliverMsg m st.lateQ.toNat (if nonmember then 0 else last) (if nonmember then 2 else 128)

/-- R78, R80, R82, R89, R94: a message reaches the plinth. -/
def State.present (s : State) (m : Msg) : State :=
  let s := match m.mac with | some c => if m.keep then s else s.retireToken c.val m.tag.raw.time | none => s
  if !s.sqlOn then s.dropMsg m
  else if s.waitsOverlap m.tag then { s with sql := { s.sql with overlap := s.sql.overlap ++ [m] } }
  else
    let n := m.stream.toNat
    let key := s.keyOf m.tag
    if !(s.stream n).en || !s.isMember m key then s.presentLate m true
    else if s.isLate m key then s.presentLate m false
    else
      let (skip, eng, s) := s.takeEngine (s.stream n).cls m.data.length
      let h : Held := { msg := m, key := key, no := s.sql.nextNo, since := s.islandTime 38, skipped := skip, engine := eng }
      { s with sql := { s.sql with nextNo := s.sql.nextNo + 1 } }.modStream n
        (fun x => { x with held := insertHeld h x.held })

/-! R87, R88: release. -/

/-- R87, R95: the first held message of a stream is released, or dropped when its strict class cannot record it. -/
def State.releaseHead (s : State) (n : Nat) : State :=
  let st := s.stream n
  match st.held with
  | [] => s
  | h :: t =>
    let c := st.cls
    let s := s.modStream n (fun x => { x with held := t })
    if s.classOn c && !s.lenient c && s.unrecordable c h.skipped then
      ((s.unloadEngine h.engine h.msg.data.length).strictDrop n).dropMsg h.msg
    else
      let ns := (s.islandTime 38 - h.since) / 4
      let seen := s.regNat (streamReg n 0x50)
      let s := if seen < ns then s.setReg (streamReg n 0x50) (BitVec.ofNat 32 (min ns 0xFFFFFFFF)) else s
      let s := s.modStream n (fun x => { x with
        nextSeq := x.nextSeq + 1, released := x.released + 1, lastKey := h.key
        horizon := some (h.key, tieRank h.msg.src h.key) })
      let s := s.recordMsg h.msg { stream := n, cls := c, seq := st.nextSeq.toNat, skipped := h.skipped, engine := h.engine,
                                   digest := h.digest, order := n, gap := n }
      s.deliverMsg h.msg st.mainQ.toNat st.nextSeq.toNat 0

/-- R87: the first held message of a stream is released once every member's safe time has passed its key. -/
def State.opRelease (s : State) (n : Nat) : State :=
  match (s.stream n).held with
  | h :: _ => if (s.blockers n h.key).isEmpty && s.sqlOn then s.releaseHead n else s
  | [] => s

/-- R95, R97: the record of an exclusion or a rejoin, after the stream's pending gap. -/
def State.laggardRecord (s : State) (n : Nat) (w : Word) (rejoin : Bool) : State :=
  let st := s.stream n
  let v := w.toNat
  (s.putGap n).putPlain
    { typ := 5, flags := coreFlag s.sql.scale, stream := n, cls := st.cls, src := bits v 21 20 * 65536 + bits v 15 0,
      seq := (st.nextSeq - 1).toNat, raw := (match st.horizon with | some h => h.1.toNat | none => 0),
      len := if rejoin then 1 else 0 } n

/-- R88: a member is excluded. -/
def State.exclude (s : State) (n : Nat) (e : Nat × (Word × Word)) : State :=
  let s := s.modStream n (fun x => { x with laggards := x.laggards ++ [e.1] })
  ((s.laggardRecord n e.2.1 false).count (streamReg n 0x40)).sqlEvent 2

/-- R88: the maximum hold of a stream, units. -/
def State.holdLimit (s : State) (n : Nat) : Nat :=
  let m := (s.stream n).maxHold
  usec (if m = 0 then s.mainNat 0xA150 1 else m)

/-- R88: the message of a list that has been held longest, and its place in the order of keys. -/
def longestHeld (l : List Held) : Option (Held × Nat) :=
  l.zipIdx.foldl (fun o x => match o with
    | some y => if x.1.since < y.1.since ∨ (x.1.since = y.1.since ∧ x.1.no < y.1.no) then some x else some y
    | none => some x) none

/-- R88: a stream's longest-held message has been held for the maximum hold: what precedes it is released with it. -/
def State.opMaxHold (s : State) (n : Nat) : State :=
  match longestHeld (s.stream n).held with
  | some (h, k) =>
    if s.sqlOn && s.islandDue 38 h.since (s.holdLimit n) then
      (List.range (k + 1)).foldl (fun s _ => s.releaseHead n) ((s.blockers n h.key).foldl (fun s e => s.exclude n e) s)
    else s
  | none => s

/-- R88: a laggard whose safe time has passed its stream's horizon rejoins. DESIGN CHOICE (log 156): one whose stream has
no horizon rejoins at once. -/
def State.opRejoin (s : State) (i : Nat) : State :=
  match Map.get s.sql.members i with
  | some w =>
    let n := bits w.1.toNat 29 24
    let st := s.stream n
    let past := match st.horizon with
      | some (k, _) => decide ((k.toNat : Int) < s.safeTime w)
      | none => true
    if st.laggards.contains i && past then
      (s.modStream n (fun x => { x with laggards := x.laggards.erase i })).laggardRecord n w.1 true
    else s
  | none => s

/-- R85: the oldest pending doorbell of an instance has held its safe time for F. -/
def State.opFetchBound (s : State) (i : Nat) : State :=
  match s.oldestBell i with
  | some b =>
    let passed := decide (b + usec (s.mainNat 0xA150 2) < s.repTime 0)
    if passed && !s.sql.fetchExp.contains (i, BitVec.ofNat 64 b) then
      let feeds := (List.range 64).filter (fun n => (s.streamMembers n).any (fun e =>
        decide (bits e.2.1.toNat 21 20 = 2 ∧ bits e.2.1.toNat 15 0 = i)))
      let s := { s with sql := { s.sql with
        fetchExp := s.sql.fetchExp.filter (fun e => e.1 ≠ i) ++ [(i, BitVec.ofNat 64 b)] } }
      feeds.foldl (fun s n => s.count (streamReg n 0x48)) s
    else s
  | none => s

/-! R83: steps. -/

/-- Every held message of a stream is released in key order. -/
def State.releaseAll (s : State) (n : Nat) : State :=
  (List.range (s.stream n).held.length).foldl (fun s _ => s.releaseHead n) s

/-- R83: a step notice is handled. R103: after a step back the epochs end at the whole multiples that come again
(log 157). -/
def State.opStepNotice (s : State) : State :=
  match s.sql.steps with
  | [] => s
  | x :: t =>
    let s := { s with sql := { s.sql with steps := t } }
    if !s.sqlOn then s else
      let s := (List.range 64).foldl (fun s n => s.releaseAll n) s
      let s := s.putPlain { typ := 3, raw := x.first.toNat, eff := (BitVec.ofInt 64 x.size).toNat, flags := coreFlag x.core } 256
      let s := { s with sql := { s.sql with
        parity := !s.sql.parity
        lastEpoch := if x.first < s.sql.lastEpoch then x.first else s.sql.lastEpoch
        streams := s.sql.streams.map (fun (e : Nat × StreamSt) => (e.1, { e.2 with horizon := none })) } }
      s.sqlEvent 1

/-! R82: the plinth adopts the incoming timescale. -/

/-- R82: a held message's key on the incoming timescale. -/
def rekey (d : Int) (h : Held) : Held :=
  { h with key := match h.msg.tag.inc with
    | some i => effective i.time h.msg.tag.corr
    | none => moveKey h.key d }

/-- R82, R97: at T_e every held message and every horizon is re-keyed and the takeover record is written; messages
stamped on the incoming timescale alone are presented. -/
def State.adopt (s : State) : State :=
  if !s.sqlOn then { s with sql := { s.sql with scale := s.tim.active } } else
    let d := s.scaleD
    let shift := fun (x : StreamSt) => { x with
      held := (x.held.map (rekey d)).foldl (fun l h => insertHeld h l) []
      horizon := x.horizon.map (fun (p : BitVec 64 × Nat) => (moveKey p.1 d, p.2))
      lastKey := if x.horizon.isSome then moveKey x.lastKey d else x.lastKey }
    let wait := s.sql.overlap
    let back := s.tim.tkoEnd < s.sql.lastEpoch
    let s := { s with sql := { s.sql with
      lastEpoch := if back then s.tim.tkoEnd else s.sql.lastEpoch
      scale := s.tim.active, overlap := [], streams := s.sql.streams.map (fun (e : Nat × StreamSt) => (e.1, shift e.2)) } }
    let s := s.putPlain { typ := 4, raw := s.tim.tkoStart.toNat, eff := s.tim.tkoEnd.toNat,
                          aux := (sat32 s.tim.tkoStep).toNat, flags := coreFlag s.tim.active } 256
    wait.foldl (fun s m => s.present m) s

/-! R79: membership commits. -/

/-- R79: the staged member table. -/
def State.stagedMembers (s : State) : Map (Word × Word) :=
  s.regs.foldl (fun m e =>
    if MEMBERS ≤ e.1 ∧ e.1 < MEMBERS + 0x200000 then
      let i := (e.1 - MEMBERS) / 16
      Map.set m i (s.getReg (MEMBERS + 16 * i), s.getReg (MEMBERS + 16 * i + 8)) (0, 0)
    else m) []

/-- R79: the staged stream table. -/
def State.stagedStreams (s : State) : Map (Word × BitVec 20 × BitVec 20) :=
  (List.range 64).foldl (fun m n =>
    Map.set m n (s.getReg (streamReg n 0), (s.getReg (streamReg n 8)).setWidth 20,
      (s.getReg (streamReg n 0x10)).setWidth 20) (0, 0, 0)) []

/-- R79: a write of SQL_MEMB_CMD. -/
def State.opMembCmd (s : State) (v : Word) : State :=
  s.onCmd sqlMembCmd s.sql.membWait.isSome (fun s =>
    if !v.getLsbD 0 then s else
      let now := s.repTime 0
      let t := s.getReg64 sqlMembTime
      if t.toNat < now + usec 10 then { s with sql := { s.sql with membStat := 1 } }
      else if now + secs 60 < t.toNat then { s with sql := { s.sql with membStat := 2 } }
      else { s with sql := { s.sql with membStat := 0
                                        membWait := some { time := t, members := s.stagedMembers, streams := s.stagedStreams } } })

/-- R95, R97: the record of a leave or a join, after the stream's pending gap. -/
def State.memberRecord (s : State) (t : BitVec 64) (i : Nat) (w : Word × Word) (join : Bool) : State :=
  let v := w.1.toNat
  let n := bits v 29 24
  (s.putGap n).putPlain
    { typ := 7, flags := coreFlag s.tim.active, stream := n, cls := (s.stream n).cls,
      src := bits v 21 20 * 65536 + bits v 15 0, raw := t.toNat, len := if join then 1 else 0, aux := i } n

/-- R79: the changes take effect, with one record for each entry that changes. DESIGN CHOICE (log 156): a changed entry
is no laggard any more, without a rejoin record. -/
def State.opMembActivate (s : State) : State :=
  match s.sql.membWait with
  | some w =>
    if s.repTime 38 < w.time.toNat || !s.sqlOn then s else
      let old := s.sql.members
      let idx := (old.map (·.1) ++ (w.members.map (·.1)).filter (fun i => !(old.map (·.1)).contains i))
      let changed := idx.filter (fun i => Map.get old i ≠ Map.get w.members i)
      let s := { s with sql := { s.sql with members := w.members, membPast := (w.time, old) :: s.sql.membPast, membWait := none } }
      let s := (List.range 64).foldl (fun s n =>
        let c := Map.at_ w.streams n (0, 0, 0)
        s.modStream n (fun x => { x with cfg := c.1, mainQ := c.2.1, lateQ := c.2.2
                                         laggards := x.laggards.filter (fun i => !changed.contains i) })) s
      changed.foldl (fun s i =>
        let s := match Map.get old i with
          | some o => if o.1.getLsbD 31 then s.memberRecord w.time i o false else s
          | none => s
        match Map.get w.members i with
          | some o => if o.1.getLsbD 31 then s.memberRecord w.time i o true else s
          | none => s) s
  | none => s

/-! R93 to R95, R98, R103: the ledger's own steps. -/

/-- R94: the held messages whose digest an engine computes: stream and order of presentation. -/
def State.hashing (s : State) : List (Nat × Held) :=
  s.sql.streams.flatMap (fun (e : Nat × StreamSt) => (e.2.held.filter (fun h => h.engine.isSome)).map (fun h => (e.1, h)))

/-- R94: a held message's digest finishes before its release. -/
def State.digestHeld (s : State) (n : Nat) (h : Held) : State :=
  (s.modStream n (fun x => { x with held := x.held.map (fun y =>
    if y.no = h.no then { y with engine := none, digest := some ((sha256 h.msg.data).take 20) } else y) })).unloadEngine
    h.engine h.msg.data.length

/-- R93, R94: a digest finishes: that of entry idx of the record queue or, past its end, of a message still held. -/
def State.opDigest (s : State) (idx : Nat) : State :=
  match s.sql.recq[idx]? with
  | some e =>
    match e.data with
    | some d =>
      let r := splice e.record 40 ((sha256 d).take 20)
      let e' := { e with record := r, data := none }
      ({ s with sql := { s.sql with recq := s.sql.recq.set idx e' } }.unloadEngine e.engine d.length).flush
    | none => s.flush
  | none =>
    match s.hashing[idx - s.sql.recq.length]? with
    | some (n, h) => s.digestHeld n h
    | none => s

/-- R95: a pending gap record is written as soon as a record can be written. -/
def State.opGapRecord (s : State) (n : Nat) : State :=
  let put := fun (s : State) (n : Nat) =>
    if s.sqlOn && s.areaRoom 64 && decide (s.sql.recq.length < 65536) then s.putGap n else s
  let s := put s n
  if n = 0 then put s 0xFF else s

/-- R98: the block interval has passed. -/
def State.opBlockInterval (s : State) : State :=
  if s.sqlOn && s.sql.open_ && s.islandDue 38 s.sql.block.openAt (usec s.sql.intervalUs) then s.closeBlock 1 (s.repTime 38) else s

/-- R103: the seal request for what has closed, with the bounds of its epochs. -/
def State.sealRequest (s : State) (start end_ : BitVec 64) : SealReq :=
  let q := s.sql
  let last := q.blockLast.getD 0
  { head := q.chain, last := last, records := q.recCount, gapmsg := q.sumGap, skipped := q.sumSkip
    strict := q.sumStrict, late := q.sumLate, start := start, end_ := end_ }

/-- R103, R372: the 96 bytes of a seal request. -/
def SealReq.bytes (r : SealReq) : List Byte :=
  slicePad r.head 0 32 ++ beBytes 8 r.last.toNat ++ beBytes 8 r.records.toNat ++ beBytes 8 r.gapmsg.toNat ++
  beBytes 8 r.skipped.toNat ++ beBytes 8 r.strict.toNat ++ beBytes 8 r.late.toNat ++ beBytes 8 r.start.toNat ++
  beBytes 8 r.end_.toNat

/-- R103, R105: the pending request is sent when the field side answers and none is outstanding. -/
def State.sendSeal (s : State) : State :=
  match s.sql.pendSeal with
  | some r =>
    if s.gloveH.peerUp && s.sql.sentSeal.isNone then
      { s with sql := { s.sql with pendSeal := none, sentSeal := some r } }.gloveSend .host 0x20 r.bytes
    else s
  | none => s

/-- R103, R105: a seal is asked for through an end time; a pending request keeps its start. -/
def State.askSeal (s : State) (end_ : BitVec 64) : State :=
  let start := match s.sql.pendSeal, s.sql.sentSeal with
    | some p, _ => p.start
    | none, some p => p.end_
    | none, none => s.sql.lastEnd
  { s with sql := { s.sql with pendSeal := some (s.sealRequest start end_) } }.sendSeal

/-- R103: a whole multiple of the epoch length has been reached. -/
def State.opEpochEnd (s : State) : State :=
  let len := msec s.sql.epochMs
  let e := if len = 0 then 0 else s.repTime 38 / len * len
  if s.sqlOn && s.sql.open_ && decide (s.sql.lastEpoch.toNat < e) then
    let s := s.closeBlock 3 e
    let s := { s with sql := { s.sql with lastEpoch := BitVec.ofNat 64 e, epochMs := s.mainNat 0xA110 3 } }
    s.askSeal (BitVec.ofNat 64 e)
  else s

/-- R103, R105: a seal or a failure returns to the SQL. -/
def State.opSealReturn (s : State) (payload : List Byte) : State :=
  match s.sql.sentSeal with
  | none => s
  | some r =>
    let s := { s with sql := { s.sql with sentSeal := none } }
    if beAt payload 0 4 = 0 && payload.length = 3944 then
      let unit := payload.drop 4
      let closed := s.sql.blockLast.getD 0
      let s := { s with sql := { s.sql with
        sealLast := some (BitVec.ofNat 64 (beAt unit 8 8)), lastEnd := r.end_
        unsealed := min 0xFFFFFFFF (closed - r.last).toNat
        units := s.sql.units ++ [ExpUnit.seal unit] } }
      (s.sqlEvent 0).sendSeal
    else
      let s := match s.sql.pendSeal with
        | some p => { s with sql := { s.sql with pendSeal := some { p with start := r.start } } }
        | none => s
      ((s.count cntSealFail).sqlEvent 6).sendSeal

/-- R105: the field side is down: an outstanding request pends. -/
def State.pendOutstanding (s : State) : State :=
  match s.sql.sentSeal with
  | some r => { s with sql := { s.sql with sentSeal := none, pendSeal := some (match s.sql.pendSeal with
      | some p => { p with start := r.start }
      | none => r) } }
  | none => s

/-- R93: a frame outside every stream is recorded with UNSEQ (and TX) when its class is enabled; false when a strict
class cannot record it, which drops it. -/
def State.recordUnseq (s : State) (m : Msg) (cls : Nat) (tx : Bool) : Bool × State :=
  if !s.sqlOn || !s.classOn cls then (true, s)
  else
    let (skip, eng, s) := s.takeEngine cls m.data.length
    if !s.lenient cls && s.unrecordable cls skip then (false, (s.unloadEngine eng m.data.length).strictDrop 0)
    else (true, s.recordMsg m { stream := 0xFF, cls := cls, flags := 64 + (if tx then 16 else 0), skipped := skip,
                                engine := eng, order := 0xFF, gap := 0xFF })

/-- R84: an idle plinth port's heartbeat. -/
def State.opHeartbeat (s : State) (c : Nat) : State :=
  if (s.portOldest c).isNone && s.powered (71 + c) then
    { s with sql := { s.sql with beat := Map.set s.sql.beat c (BitVec.ofNat 64 (s.repTime (30 + c))) 0 } }
  else s

/-- R108, R109: the read-only words of the SQL. -/
def State.sqlView (s : State) (o : Nat) : Option Nat :=
  let half := fun (v : BitVec 64) => if o % 8 = 0 then v.toNat % 2 ^ 32 else v.toNat / 2 ^ 32
  if o = 0 then some ((if s.sql.sentSeal.isSome then 2 ^ 31 else 0) + (if s.gloveH.peerUp then 0 else 2 ^ 30) +
    (if s.mem.reduced then 2 ^ 29 else 0) + (if s.areaRoom 64 then 0 else 2 ^ 28) +
    (if s.sql.overlap.isEmpty then 0 else 2 ^ 27) + (if (s.getReg sqlExpq).getLsbD 31 then 2 ^ 26 else 0))
  else if o = 8 ∨ o = 0xC then some (half s.sql.recCount)
  else if o = 0x10 ∨ o = 0x14 then some (half (s.sql.blockLast.getD 0))
  else if o = 0x18 ∨ o = 0x1C then some (half (s.sql.sealLast.getD 0))
  else if o = 0x20 then some s.sql.run.toNat
  else if o = 0x24 then some ((s.sql.area + 1023) / 1024)
  else if o = 0x28 then some s.sql.unsealed
  else if o = 0x48 then some ((if s.sql.membWait.isSome then 2 ^ 31 else 0) + s.sql.membStat * 2 ^ 24)
  else none

/-- R109: the read-only words of a stream entry. -/
def State.streamView (s : State) (a : Nat) : Option Nat :=
  let n := (a - STREAMS) / 0x80
  let o := (a - STREAMS) % 0x80
  let x := s.stream n
  let half := fun (v : BitVec 64) => if o % 8 = 0 then v.toNat % 2 ^ 32 else v.toNat / 2 ^ 32
  if o = 0x18 then some ((if x.held.isEmpty then 0 else 2 ^ 31) + (if x.laggards.isEmpty then 0 else 2 ^ 30) +
    (s.streamMembers n).length)
  else if o = 0x1C then some ((List.range 6).foldl (fun w k => if s.sat.contains (streamReg n (0x38 + 4 * k)) then w + 2 ^ k else w) 0)
  else if o = 0x20 ∨ o = 0x24 then some (half x.released)
  else if o = 0x28 ∨ o = 0x2C then some (half x.nextSeq)
  else if o = 0x30 ∨ o = 0x34 then some (half x.lastKey)
  else none

end Sys2Proof.Machine
end

