-- ==== Sys2Proof/Machine/Items.lean ====
section
/-! DEFINITION. Items of the data path: their metadata and what is released when one is refused or done with. -/

namespace Sys2Proof.Machine

/-- R149: a metadata field. -/
def Item.fld (i : Item) (n : Nat) : Nat := Map.at_ i.fields n 0

/-- R149: a metadata field is set. -/
def Item.setFld (i : Item) (n v : Nat) : Item := { i with fields := Map.set i.fields n v 0 }

/-- R84: the token of an item is retired. -/
def State.retireItem (s : State) (i : Item) : State :=
  match i.token with
  | some m => s.retireToken m.val i.tag.raw.time
  | none => s

/-- R17, R296, R336: an item ends here: its token is retired, its buffers return, and its work entry ends with a
status. -/
def State.endItem (s : State) (i : Item) (status : Byte) : State :=
  let s := (s.retireItem i).freeBufs i.holder i.bufs
  match i.entry with
  | some e => s.finishEntry e status (fun x => { x with len := i.frame.length })
  | none => s

/-- R296: a refused item ends with DROPPED. -/
def State.dropItem (s : State) (i : Item) : State := s.endItem i 8

end Sys2Proof.Machine
end

