-- ==== Sys2Proof/Machine/Ports.lean ====
section
/-! DEFINITION. Port groups, links, pause, gates and transmit stamp reports (chapter 5). -/

namespace Sys2Proof.Machine

/-! R136: registers of the PRT. -/
abbrev prtGrpMode (g : Nat) : Nat := PRT + 8 * g
abbrev prtEvt : Nat := PRT + 0x018
abbrev prtEvtGate : Nat := PRT + 0x01C
abbrev prtLaneCfg (n : Nat) : Nat := PRT + 0x40000 + 0x100 * n
abbrev gateStaged (m i : Nat) : Nat := PRT + 0x20000 + 0x800 * m + 8 * i

/-- R136: bits of PRT_EVT and of PRT_EVT_GATE set; both raise the PRT's vector. -/
def State.prtEvent (s : State) (b : Nat) : State := s.setEvt prtEvt 6 (BitVec.ofNat 32 (2 ^ b))
def State.gateEvent (s : State) (m : Nat) : State := s.setEvt prtEvtGate 6 (BitVec.ofNat 32 (2 ^ m))

/-! R441: the lane map. -/

/-- R441: the TXSRC that a lane will hold after a mode change. -/
def State.txSrc (s : State) (lane : Nat) : Nat :=
  if s.powered (17 + lane) then s.regBits (prtLaneCfg lane) 2 0 else lane % 8

/-- R441: the lane map is a permutation for every MAC of a mode. -/
def State.laneMapOk (s : State) (g mode : Nat) : Bool :=
  let w := modeLanes mode
  (List.range (modeMacs mode)).all (fun p =>
    (List.range w).all (fun k => (List.range w).any (fun j => s.txSrc (8 * g + p * w + j) = p * w + k)))

/-- R113: BUSY of a group. -/
def State.grpBusy (s : State) (g : Nat) : Bool := if g = 0 then s.prt.busy0 else s.prt.busy1

/-- R113: BUSY of a group. -/
def State.setGrpBusy (s : State) (g : Nat) (b : Bool) : State :=
  if g = 0 then { s with prt := { s.prt with busy0 := b } } else { s with prt := { s.prt with busy1 := b } }

/-! R114 to R116, R122: links. -/

/-- R86: a MAC passes frames: its link is up and its replica has received two strokes since. -/
def State.macPassing (s : State) (m : Nat) : Bool := (s.mac m).link && (s.rep (3 + m)).run

/-- R122: the transmit store is discarded, frame by frame. -/
def State.discardStore (s : State) (m : Nat) : State :=
  let l := (s.mac m).store
  let s := s.modMac m (fun c => { c with store := [] })
  l.foldl (fun s i => (s.stat (macReg m 0x438)).dropItem i) s

/-- R111: the physical lanes of a MAC. -/
def State.lanesOf (s : State) (m : Nat) : List Nat :=
  let w := modeLanes (s.modeOf (m / 8))
  (List.range w).map (fun k => 8 * (m / 8) + m % 8 * w + k)

/-- R58: a lane's calibration. -/
def State.lane (s : State) (n : Nat) : Lane := Map.at_ s.prt.lanes n {}

/-- A lane's calibration is changed. -/
def State.modLane (s : State) (n : Nat) (f : Lane → Lane) : State :=
  { s with prt := { s.prt with lanes := Map.set s.prt.lanes n (f (s.lane n)) {} } }

/-- R58, R441: a lane's training ends: its bit-slip counts (free below a word's 128 bits) are added to its delays, and
the TXSRC and polarities written before are in force. -/
def State.trainLane (s : State) (n : Nat) : State :=
  (s.modLane n (fun l => { l with
    slipRx := s.freeNext % 128, slipTx := s.freeNext / 128 % 128, cfg := some (s.getReg (prtLaneCfg n)) })).drawn

/-- R114, R115, R53, R58, R441: a MAC's link comes up, its lanes having trained; its replica restarts. -/
def State.opLinkUp (s : State) (m : Nat) : State :=
  if s.macThere m && s.powered (33 + m) && !s.grpBusy (m / 8) && !(s.mac m).link then
    let ls := s.lanesOf m
    let s := ls.foldl (fun s n => s.trainLane n) s
    let s := if h : m < 16 then s.emit (.trained ⟨m, h⟩ (ls.map (fun n => s.getReg (prtLaneCfg n)))) else s
    ((s.modMac m (fun c => { c with link := true })).repRestart (3 + m)).prtEvent (16 + m)
  else s

/-- R297: the completion fields that a transmit report gives. -/
def reportEntry (r : Option TxReport) (e : Entry) : Entry :=
  match r with
  | some r => { e with
      cstamp := some { time := r.stamp, bound := r.bound }
      detail := BitVec.ofNat 32 (r.ttag.toNat * 65536)
      flags := BitVec.ofNat 16 (64 + r.flags.toNat) }
  | none => e

/-- R134: a report of a frame that is cut off. -/
def TxReport.cut (r : TxReport) : TxReport := { r with flags := r.flags ||| 16 }

/-- R135, R297: the work entry of the frame in transmission ends, with its report. -/
def State.endSend (s : State) (m : Nat) (f : TxReport → TxReport) : State :=
  match (s.mac m).sendEntry with
  | some (e, r, n) =>
    (s.modMac m (fun c => { c with sendEntry := none })).finishEntry e 0 (fun x => reportEntry (r.map f) { x with len := n })
  | none => s

/-- R135: the work entry of a frame whose last byte has left ends. -/
def State.settleSend (s : State) (m : Nat) : State := if s.clock < (s.mac m).sendEnd then s else s.endSend m id

/-- R135: the same for every MAC. -/
def State.settleSends (s : State) : State := (List.range 16).foldl (fun s m => s.settleSend m) s

/-- R122, R125, R134: a frame in transmission is cut off when the link goes down, a PFC frame like another: its report
carries ABORT, in the FIFO where it stands there, and in its entry's completion. -/
def State.cutTransmit (s : State) (m : Nat) : State :=
  let c := s.mac m
  if s.clock < c.sendEnd then
    let mark := fun (l : List TxReport) => match l.getLast? with
      | some r => l.dropLast ++ [r.cut]
      | none => l
    let s := s.modMac m (fun c => { c with sendEnd := 0, txts := if c.sendRep then mark c.txts else c.txts })
    let s := s.endSend m TxReport.cut
    let s := ((s.stat (macReg m 0x430)).statN (macReg m 0x410) (2 ^ 64 - 1)).statN (macReg m 0x418) (2 ^ 64 - c.sendLen)
    if h : m < 16 then s.emit (.frameCut ⟨m, h⟩) else s
  else
    let s := s.settleSend m
    if s.clock < c.pfcEnd then
      let s := (s.modMac m (fun c => { c with pfcEnd := 0 })).stat (macReg m 0x430)
      let s := (List.range 8).foldl (fun s p =>
        if c.pfcXoff.getLsbD p then s.statN (macReg m (0x4C0 + 8 * p)) (2 ^ 64 - 1) else s) s
      if h : m < 16 then s.emit (.frameCut ⟨m, h⟩) else s
    else s

/-- R114, R115, R116, R122: a MAC's link goes down; what it received of a frame is refused by the first row of R117. -/
def State.opLinkDown (s : State) (m : Nat) (cut : Option (List Byte)) : State :=
  if !(s.mac m).link then s else
    let s := match cut with
      | some b =>
        if !s.macEn m || !s.macPassing m then s.stat (macReg m 0x420)
        else if b.length < 64 then s.count (macReg m 0x800)
        else if s.regBits (macReg m 8) 13 0 < b.length then s.count (macReg m 0x804)
        else s.count (macReg m 0x808)
      | none => s
    let s := ((s.settlePfc m).cutTransmit m).discardStore m
    let s := (s.modMac m (fun c => { c with link := false, pfcOwed := none })).repRestart (3 + m)
    (s.stat (macReg m 0x450)).prtEvent (16 + m)

/-- R122: EN is cleared. -/
def State.opEnClear (s : State) (m : Nat) : State :=
  let v := s.getReg (macReg m 0)
  ((s.settlePfc m).setReg (macReg m 0) (v &&& 0x7FFFFFFF)).discardStore m

/-! R124, R125: pause. -/

/-- R124: priority p is paused. -/
def State.paused (s : State) (m p : Nat) : Bool := decide (s.clock < Map.at_ (s.mac m).pause p 0)

/-- R124: a pause timer has expired. -/
def State.opPauseExpire (s : State) (m p : Nat) : State :=
  if s.paused m p then s else s.modMac m (fun c => { c with pause := Map.del c.pause p })

/-- R124: a PFC frame loads the timers of its enabled priorities. No frame of a paused class starts from then on (R124
gives the MAC up to 100 ns). -/
def State.loadPause (s : State) (m : Nat) (f : List Byte) : State :=
  let en := (f.getD 17 0).toNat
  let rx := s.regBits (macReg m 0x20) 7 0
  let acts := (List.range 8).filter (fun p => bit en p && bit rx p)
  let isPfc := f.take 6 = [0x01, 0x80, 0xC2, 0x00, 0x00, 0x01] && beAt f 14 2 = 0x0101
  if !isPfc || acts.isEmpty then s.stat (macReg m 0x428)
  else acts.foldl (fun s p =>
    let q := beAt f (18 + 2 * p) 2
    let t := if s.macRate m = 0 then 0 else q * 512 * 4 / s.macRate m
    (s.modMac m (fun c => { c with pause := Map.set c.pause p (if q = 0 then 0 else s.clock + t) 0 })).stat
      (macReg m (0x480 + 8 * p))) s

/-- R125: the refresh interval has passed while a priority is in XOFF. -/
def State.opPfcRefresh (s : State) (m : Nat) : State :=
  let s := s.settlePfc m
  if s.xoff m ≠ 0 && s.due (s.mac m).pfcAt (4 * s.regBits (macReg m 0x24) 23 0) then s.sendPfc m 0 else s

/-! R127 to R129: gates. -/

/-- R127: the entry of a list at a position in its cycle, in units, and where that entry ends. -/
def gateWalk : List (Byte × Nat) → Nat → Nat → Nat → Option (Nat × Byte × Nat)
  | [], _, _, _ => none
  | (g, iv) :: t, k, start, pos =>
    if pos < start + 4 * iv ∨ t.isEmpty then some (k, g, if pos < start + 4 * iv then start + 4 * iv else 0)
    else gateWalk t (k + 1) (start + 4 * iv) pos

/-- R127: the entry, gates and time to the entry's end of a gate list at a time. DESIGN CHOICE (log 130): while no list
has ever become active, every gate of the empty list is open. -/
def gateAt (l : GateList) (t : Nat) : Nat × Byte × Nat :=
  let c := 4 * l.cycle
  let pos : Nat := if c = 0 then 0 else (((t : Int) - (l.base.toNat : Int)) % (c : Int)).toNat
  match gateWalk l.entries 0 0 pos with
  | some (k, g, e) =>
    let end_ := if e = 0 then c else min e c
    (k, g, end_ - pos)
  | none => (0, 0xFF, 0)

/-- R127, R129: the gates of a MAC now. DESIGN CHOICE (log 158): with EN = 0 every gate is open (R127) while the replica's
term is unknown too, though R129 has the gates hold FALLBACK then. -/
def State.gates (s : State) (m : Nat) : Byte :=
  let cfg := s.getReg (macReg m 0x200)
  if !cfg.getLsbD 31 then 0xFF
  else if (s.rep (3 + m)).unknown then cfg.setWidth 8
  else (gateAt (s.mac m).gates (s.repTime (3 + m))).2.1

/-- How long class c's gate stays open from a position, in units, over at most so many entries of the cycle. -/
def openFor (l : GateList) (c : Nat) : Nat → Nat → Nat
  | 0, _ => 0
  | f + 1, t =>
    let g := gateAt l t
    if !g.2.1.getLsbD c then 0
    else if g.2.2 = 0 then 0
    else g.2.2 + openFor l c f (t + g.2.2)

/-- R127: a class's gate is open at every position of a list. -/
def GateList.allOpen (l : GateList) (c : Nat) : Bool := l.entries.all (fun e => e.1.getLsbD c)

/-- R127, R128: how long class c's gate stays open from a time, with the list that takes over at its activation time;
none is without limit. -/
def openTime (l : GateList) (wait : Option GateList) (c t : Nat) : Option Nat :=
  let own := fun (l : GateList) (t : Nat) => if l.allOpen c then none else some (openFor l c (l.entries.length + 1) t)
  match wait with
  | none => own l t
  | some w =>
    let ta := w.base.toNat
    if ta ≤ t then own w t
    else
      match own l t with
      | some n => if n < ta - t then some n else (own w ta).map (fun k => ta - t + k)
      | none => (own w ta).map (fun k => ta - t + k)

/-- R123: the open budget of a class, bytes; none is without limit. -/
def State.openBudget (s : State) (m c : Nat) : Option Nat :=
  let x := s.mac m
  if !(s.getReg (macReg m 0x200)).getLsbD 31 || (s.rep (3 + m)).unknown then none
  else (openTime x.gates x.gateWait c (s.repTime (3 + m))).map (fun n => n * s.macRate m / 32)

/-- R123: class c may send, whatever its gate shows. -/
def State.sendable (s : State) (m c : Nat) : Bool := (s.mac m).link && s.macEn m && !s.paused m c

/-- R123: class c is eligible. -/
def State.eligible (s : State) (m c : Nat) : Bool := s.sendable m c && (s.gates m).getLsbD c

/-- R128: the staged list. -/
def State.stagedGates (s : State) (m : Nat) : GateList :=
  let n := s.regBits (macReg m 0x204) 8 0
  { entries := (List.range (min n 256)).map (fun i =>
      ((s.getReg (gateStaged m i + 4)).extractLsb' 24 8, s.regNat (gateStaged m i)))
    base := s.getReg64 (macReg m 0x210), cycle := s.regBits (macReg m 0x208) 29 0 }

/-- R128: a write of PRT_GATE_CMD. -/
def State.opGateCommit (s : State) (m : Nat) (v : Word) : State :=
  s.onCmd (macReg m 0x218) (s.mac m).gateWait.isSome (fun s =>
    if !v.getLsbD 0 then s else
      let l := s.stagedGates m
      let len := s.regBits (macReg m 0x204) 8 0
      let now := s.repTime (3 + m)
      let bad := len = 0 || decide (256 < len) || decide (l.cycle < 1000) || decide (1000000000 < l.cycle) ||
        l.entries.any (fun e => e.2 = 0)
      if bad then s.modMac m (fun c => { c with gateStat := 3 })
      else
        let from_ := now + usec 10
        let b := l.base.toNat
        let c := 4 * l.cycle
        let ta := if from_ ≤ b then b else b + (from_ - b + c - 1) / c * c
        if now + secs 60 < ta then s.modMac m (fun c => { c with gateStat := 2 })
        else s.modMac m (fun x => { x with gateStat := 0, gateWait := some { l with base := BitVec.ofNat 64 ta } }))

/-- R128: T_a has been reached. -/
def State.opGateActivate (s : State) (m : Nat) : State :=
  match (s.mac m).gateWait with
  | some l =>
    if l.base.toNat ≤ s.repTime (3 + m) then s.modMac m (fun c => { c with gates := l, gateWait := none }) else s
  | none => s

/-- R129: the gates follow whether the MAC's replica term is unknown. -/
def State.gateFallback (s : State) (m : Nat) : State :=
  let u := (s.rep (3 + m)).unknown
  let was := (s.mac m).fallback
  let s := s.modMac m (fun c => { c with fallback := u })
  if u && !was then s.gateEvent m else s

/-- R113: a completed write of PRT_GRP_MODE. The lanes change their MACs, so every link of the group goes down, and the
links of the new MACs train (log 129); their gates enter FALLBACK with that (R129). R395: the field side switches the
domains by a POWER message. -/
def State.opGrpMode (s : State) (g : Nat) (v : Word) : State :=
  let mode := bits v.toNat 2 0
  if s.grpBusy g then s.accErr errBusy (prtGrpMode g)
  else if (List.range 8).any (fun k => s.macEn (8 * g + k)) || decide (4 < mode) || !s.laneMapOk g mode then
    s.prtEvent g
  else
    let s := (List.range 8).foldl (fun s k => (s.opLinkDown (8 * g + k) none).gateFallback (8 * g + k)) s
    let s := (s.setReg (prtGrpMode g) (BitVec.ofNat 32 mode)).setGrpBusy g true
    (if g = 0 then { s with prt := { s.prt with mode0 := mode } } else { s with prt := { s.prt with mode1 := mode } }).askPower

/-! R133 to R135: transmit stamp reports. -/

/-- R135: a report enters the FIFO, or is counted. -/
def State.putReport (s : State) (m : Nat) (r : TxReport) : State :=
  if (s.mac m).txts.length < 64 then s.modMac m (fun c => { c with txts := c.txts ++ [r], sendRep := true })
  else s.count (macReg m 0x80C)

/-- R135: PRT_TXTS_NEXT. -/
def State.opTxtsNext (s : State) (m : Nat) (v : Word) : State :=
  if v.getLsbD 0 then s.modMac m (fun c => { c with txts := c.txts.drop 1 }) else s

/-- R114, R136 AN_DONE: auto-negotiation and training are complete with the link up, and PMDs 0 and 3 use none. -/
def State.anDone (s : State) (m : Nat) : Bool :=
  let pmd := s.regBits (macReg m 0) 30 29
  (s.mac m).link || pmd = 0 || pmd = 3

/-- R136: the read-only words of a MAC. -/
def State.macView (s : State) (m o : Nat) : Option Nat :=
  let c := s.mac m
  let half := fun (v : Nat) => if o % 8 = 0 then v % 2 ^ 32 else v / 2 ^ 32
  let r := c.txts.head?
  if o = 0x18 then some ((if c.link then 2 ^ 31 else 0) + (if s.anDone m then 2 ^ 30 else 0) + (if s.macPassing m then 2 ^ 29 else 0) +
    (List.range 8).foldl (fun w k => if s.eligible m k then w + 2 ^ k else w) 0)
  else if 0x60 ≤ o ∧ o < 0x80 then some (Map.at_ c.occ ((o - 0x60) / 4) 0)
  else if o = 0x80 then some ((s.xoff m).toNat * 256 + (List.range 8).foldl (fun w k => if s.paused m k then w + 2 ^ k else w) 0)
  else if o = 0x218 then some ((if c.gateWait.isSome then 2 ^ 31 else 0) + c.gateStat * 2 ^ 24)
  else if o = 0x21C then some ((if (s.rep (3 + m)).unknown then 2 ^ 31 else 0) +
    (gateAt c.gates (s.repTime (3 + m))).1 * 65536 + (s.gates m).toNat)
  else if o = 0x220 ∨ o = 0x224 then some (half c.gates.base.toNat)
  else if o = 0x228 then some c.gates.cycle
  else if o = 0x300 ∨ o = 0x304 then some (half (r.map (fun (x : TxReport) => x.stamp.toNat) |>.getD 0))
  else if o = 0x308 then some ((r.map (fun (x : TxReport) => x.ttag.toNat * 65536 + x.bound.toNat)).getD 0)
  else if o = 0x30C then some ((r.map (fun (x : TxReport) => 128 + x.flags.toNat)).getD 0)
  else if o = 0x314 then some c.txts.length
  else none

/-- R136: the read-only words of the PRT's common part and of the active gate lists. DESIGN CHOICE (log 131): the
words of an active list beyond its LEN entries read 0. -/
def State.prtView (s : State) (o : Nat) : Option Nat :=
  if o = 0x10 then some ((List.range 16).foldl (fun w m =>
    w + (if s.macEn m then 2 ^ (16 + m) else 0) + (if (s.mac m).link then 2 ^ m else 0)) 0)
  else if o = 0x14 then some ((if s.prt.busy0 then 1 else 0) + (if s.prt.busy1 then 2 else 0))
  else if 0x10000 ≤ o ∧ o < 0x20000 then s.macView ((o - 0x10000) / 0x1000) (o % 0x1000)
  else if 0x30000 ≤ o ∧ o < 0x38000 then
    let e := ((s.mac ((o - 0x30000) / 0x800)).gates.entries)[(o % 0x800) / 8]?
    some ((e.map (fun (x : Byte × Nat) => if o % 8 = 0 then x.2 else x.1.toNat * 2 ^ 24)).getD 0)
  else none

end Sys2Proof.Machine
end

