-- ==== Sys2Proof/Machine/ThaBase.lean ====
section
/-! DEFINITION. Threads and clusters as other units meet them: registers, event bits (R354) and services (R348). -/

namespace Sys2Proof.Machine

/-- R343: a thread, by its identifier: cluster in [9:7], core in [6:4], thread in [3:0]. -/
def State.thread (s : State) (t : Nat) : Thread := Map.at_ s.tha.threads t {}

/-- A thread is changed. -/
def State.modThread (s : State) (t : Nat) (f : Thread → Thread) : State :=
  { s with tha := { s.tha with threads := Map.set s.tha.threads t (f (s.thread t)) {} } }

/-- R343: a cluster. -/
def State.cluster (s : State) (k : Nat) : Cluster := Map.at_ s.tha.clusters k {}

/-- A cluster is changed. -/
def State.modCluster (s : State) (k : Nat) (f : Cluster → Cluster) : State :=
  { s with tha := { s.tha with clusters := Map.set s.tha.clusters k (f (s.cluster k)) {} } }

/-- x0 reads as zero. -/
def Thread.reg (t : Thread) (n : Nat) : BitVec 64 := if n = 0 then 0 else Map.at_ t.regs n 0

/-- x0 discards what is written. -/
def Thread.setReg (t : Thread) (n : Nat) (v : BitVec 64) : Thread :=
  if n = 0 then t else { t with regs := Map.set t.regs n v 0 }

/-- R365: the watchdog of a cluster stops counting. -/
def State.holdWdt (s : State) (k : Nat) : State :=
  s.modCluster k (fun c => { c with wdtStop := some (c.wdtStop.getD s.clock) })

/-- R365, R367: the debugger has stopped a thread; a supervisor's watchdog does not count meanwhile. -/
def State.dbgStopped (s : State) (t : Nat) : State :=
  let s := s.modThread t (fun x => { x with st := .stopped, stepping := false })
  let s := { s with tha := { s.tha with dbg := if s.tha.dbg.contains t then s.tha.dbg else s.tha.dbg ++ [t] } }
  if t % 128 = 0 then s.holdWdt (t / 128) else s

/-- A waiting thread's instruction ends with a result; one that the debugger steps stops there. -/
def State.leaveWait (s : State) (t : Nat) (rd : Nat) (v : BitVec 64) : State :=
  let step := (s.thread t).stepping
  let s := (s.modThread t (fun x => { x.setReg rd v with st := .running, wait := .none, pc := x.pc + 4 })).modCluster (t / 128)
    (fun c => { c with deadTold := false })
  if step then s.dbgStopped t else s

/-- R354: event bits of a thread set; a TWAIT on one of them takes its bits. -/
def State.threadEvent (s : State) (t : Nat) (m : BitVec 29) : State :=
  let s := s.modThread t (fun x => { x with events := x.events ||| m })
  let x := s.thread t
  match x.st, x.wait with
  | .waiting, .twait rd mask _ =>
    let got := (x.events.setWidth 64) &&& mask
    if got = 0 then s
    else (s.modThread t (fun x => { x with events := x.events &&& ~~~(got.setWidth 29) })).leaveWait t rd.val got
  | _, _ => s

/-- R348: a service slot. -/
def State.service (s : State) (n : Nat) : Service := Map.at_ s.field.services n {}

/-- A service slot is changed. -/
def State.modService (s : State) (n : Nat) (f : Service → Service) : State :=
  { s with field := { s.field with services := Map.set s.field.services n (f (s.service n)) {} } }

/-- R349: a little-endian field of a service's descriptor. -/
def State.desc (s : State) (slot off n : Nat) : Nat := leAt (s.service slot).image off n

/-- R348: the service slot that holds a cluster. -/
def State.slotOf (s : State) (k : Nat) : Option Nat := (s.cluster k).slot.map (fun (x : Fin 8) => x.val)

/-- R348: the cluster of a service with a service cluster number. -/
def State.sclusterOf (s : State) (slot n : Nat) : Option Nat :=
  firstBelow 8 (fun k => s.slotOf k = some slot && (s.cluster k).scluster = n)

/-! R369: registers of the THA. -/
abbrev thaEvt : Nat := THA + 0x004
abbrev thaShwin : Nat := THA + 0x010
abbrev cluCnt (k j : Nat) : Nat := THA + 0x200 + 0x20 * k + 4 * j
abbrev cntInboxLong : Nat := THA + 0x300
abbrev hwinCtrl (w : Nat) : Nat := THA + 0x400 + 0x20 * w
abbrev hwinLo (w : Nat) : Nat := THA + 0x408 + 0x20 * w
abbrev hwinHi (w : Nat) : Nat := THA + 0x410 + 0x20 * w
abbrev hwinSize (w : Nat) : Nat := THA + 0x418 + 0x20 * w
abbrev inbox (i : Nat) : Nat := THA + 0x800 + 0x10 * i
abbrev inboxSlot (i : Nat) : Nat := THA + 0x808 + 0x10 * i

/-- Bits of THA_EVT set. -/
def State.thaEvent (s : State) (b : Nat) : State := s.setEvt thaEvt 14 (BitVec.ofNat 32 (2 ^ b))

/-- R345: where a core's local SRAM lies in the internal map. -/
def localBase (core : Nat) : Nat := 0x001200000000 + 0x40000 * core

/-- R345: the shared window is there, and where it lies. -/
def State.shwin (s : State) : Option Nat :=
  let r := s.getReg thaShwin
  if s.mem.reduced || !r.getLsbD 31 then none else some (bits r.toNat 2 0 * 2 ^ 31)

end Sys2Proof.Machine
end

