-- ==== Sys2Proof/Machine/DmaBase.lean ====
section
/-! DEFINITION. DMA channels as every unit sees them: their registers (R340), and the program a channel holds (R316 to
R319). -/

namespace Sys2Proof.Machine

/-! R340: registers. -/
abbrev dmaEvt : Nat := DMA + 0x000
abbrev statPrograms : Nat := DMA + 0x100
abbrev statHostRd : Nat := DMA + 0x108
abbrev statHostWr : Nat := DMA + 0x110
abbrev statInt : Nat := DMA + 0x118
abbrev dmaSync (n : Nat) : Nat := DMA + 0x4000 + 4 * n
abbrev dmaCfg (c : Nat) : Nat := DMA + 0x10000 + 0x20 * c
abbrev dmaPaddr (c : Nat) : Nat := DMA + 0x10008 + 0x20 * c
abbrev dmaCmd (c : Nat) : Nat := DMA + 0x10010 + 0x20 * c

/-- R340: bits of DMA_EVT set. -/
def State.dmaEvent (s : State) (b : Nat) : State := s.setEvt dmaEvt 4 (BitVec.ofNat 32 (2 ^ b))

/-- R315: a channel. -/
def State.chan (s : State) (c : Nat) : Chan := Map.at_ s.dma.ch c {}

/-- A channel is changed. -/
def State.modChan (s : State) (c : Nat) (f : Chan → Chan) : State :=
  { s with dma := { s.dma with ch := Map.set s.dma.ch c (f (s.chan c)) {} } }

/-- R318: instruction i of a program. -/
def Chan.instr (x : Chan) (i : Nat) : List Byte := slicePad x.prog (32 + 32 * i) 32

/-- R317: COUNT. -/
def Chan.count (x : Chan) : Nat := leAt x.prog 4 2

/-- R317: PRIO. -/
def Chan.prio (x : Chan) : Nat := leAt x.prog 6 1 % 8

/-- R318: the opcode of the instruction now executing. -/
def Chan.op (x : Chan) : Nat := leAt (x.instr x.pc) 0 1

/-- R318: of a MOVE, whether its source and its destination lie in host space. -/
def Chan.srcHost (x : Chan) : Bool := leAt (x.instr x.pc) 2 1 % 4 = 1
def Chan.dstHost (x : Chan) : Bool := leAt (x.instr x.pc) 2 1 / 16 % 4 = 1

/-- R316: a channel runs a program that has not ended. -/
def Chan.active (x : Chan) : Bool := x.st = .running && x.ending.isNone

/-- R319: reads of a channel are outstanding. -/
def Chan.reading (x : Chan) : Bool := x.queue.any (fun b => b.data.isNone)

/-- R315, R317: the program that a unit forms for a transfer: one MOVE and END, at its priority. -/
def unitProgram (prio n : Nat) (write : Bool) : List Byte :=
  slicePad (leBytes 4 0 ++ leBytes 2 2 ++ leBytes 1 prio) 0 32 ++
    slicePad ([1, 0, if write then 0x10 else 0x01, 0] ++ leBytes 4 (n % 2 ^ 24)) 0 32 ++ slicePad [5] 0 32

end Sys2Proof.Machine
end

