-- ==== Sys2Proof/Machine/HepBase.lean ====
section
/-! DEFINITION. Requests that leave through the endpoint: the errors it records (R270), PASID (R275), translation (R276),
TLPs, credits and tags (R265 to R267, R338), and the transfers that units hand to device channels (R315, R324). -/

namespace Sys2Proof.Machine

/-! R279: registers. -/
abbrev hepEvt : Nat := HEP + 0x004
abbrev statRxTlp : Nat := HEP + 0x100
abbrev statAtsInv : Nat := HEP + 0x118
abbrev cntBmeDiscard : Nat := HEP + 0x200
abbrev cntStaleCpl : Nat := HEP + 0x204
abbrev cntUnexpCpl : Nat := HEP + 0x208
abbrev cntCto : Nat := HEP + 0x20C
abbrev cntWinClosed : Nat := HEP + 0x210
abbrev cntInstNopage : Nat := HEP + 0x214

/-- Bits of HEP_EVT set. -/
def State.hepEvent (s : State) (b : Nat) : State := s.setEvt hepEvt 2 (BitVec.ofNat 32 (2 ^ b))

/-! R259: configuration space. PRESUMED (log 143): the layout within a capability is the PCI Express standard's. -/

/-- R259, R260: a doubleword of configuration space: its offset, what it holds after reset beside the fields that State has
under their own names, and its bits that a write sets and that a write of 1 clears. -/
abbrev CfgReg : Type := Nat × Word × Word × Word

/-- R259, R260: the header: identity, the masks of the three 64-bit BARs, Interrupt Pin. -/
def cfgHeader : List CfgReg :=
  [(0x000, 0x16001E5F, 0, 0), (0x004, 0x00100000, 0x00000546, 0xF9000000), (0x008, 0x020000B1, 0, 0), (0x00C, 0, 0xFF, 0),
   (0x010, 0x00000004, 0xFC000000, 0), (0x014, 0, 0xFFFFFFFF, 0), (0x018, 0x00000004, 0xF0000000, 0),
   (0x01C, 0, 0xFFFFFFFF, 0), (0x020, 0x0000000C, 0, 0), (0x024, 0, 0xFFFFFFF0, 0), (0x02C, 0x16001E5F, 0, 0),
   (0x034, 0x00000040, 0, 0), (0x03C, 0x00000100, 0xFF, 0)]

/-- R257, R259, R267: the capabilities below 100h: Power Management, MSI-X, PCI Express. -/
def cfgCaps : List CfgReg :=
  [(0x040, 0x00035001, 0, 0), (0x044, 0x00000008, 0x3, 0), (0x050, 0x07FF7011, 0xC0000000, 0), (0x054, 0x00180000, 0, 0),
   (0x058, 0x00190000, 0, 0), (0x070, 0x00020010, 0, 0), (0x074, 0x10008022, 0, 0), (0x078, 0x00002910, 0x000079FF, 0x000F0000),
   (0x07C, 0x00400106, 0, 0), (0x080, 0x10000000, 0x000000CB, 0), (0x094, 0x00030003, 0, 0), (0x098, 0, 0x0000130F, 0),
   (0x09C, 0x0000007E, 0, 0), (0x0A0, 0x00000006, 0x0000000F, 0)]

/-- R259, R270, R276, R278: the extended capabilities. -/
def cfgExt : List CfgReg :=
  [(0x100, 0x14820001, 0, 0), (0x104, 0, 0, 0x005FF010), (0x108, 0x00400000, 0x005FF010, 0), (0x10C, 0x00462030, 0x005FF010, 0),
   (0x110, 0, 0, 0x0000F1C1), (0x114, 0x0000E000, 0x0000F1C1, 0), (0x118, 0x000000A0, 0x00000140, 0), (0x148, 0x1501001B, 0, 0),
   (0x14C, 0x00001400, 0x00010000, 0), (0x150, 0x1601000F, 0, 0), (0x154, 0x00000060, 0x801F0000, 0), (0x160, 0x1801002E, 0, 0),
   (0x180, 0x1A010025, 0, 0), (0x184, 0x80000001, 0x80000000, 0), (0x1A0, 0x1C010026, 0, 0), (0x1C0, 0x1E01002A, 0, 0),
   (0x1E0, 0x20010031, 0, 0), (0x200, 0x22010032, 0, 0), (0x220, 0x00010003, 0, 0)]

/-- R259: configuration space. -/
def cfgTable : List CfgReg := cfgHeader ++ cfgCaps ++ cfgExt

/-- R259: a doubleword's row; one that is in no row reads 0 and takes no write. -/
def cfgRow (o : Nat) : CfgReg := (cfgTable.find? (fun e => e.1 = o)).getD (o, 0, 0, 0)

/-- R259: what a doubleword holds after reset. -/
def cfgDefault (o : Nat) : Word := (cfgRow o).2.1

/-- R259: a stored doubleword of configuration space. -/
def State.cfgWord (s : State) (o : Nat) : Word := (Map.get s.hep.cfg o).getD (cfgDefault o)

/-- R257: Max_Payload_Size and Max_Read_Request_Size in force, bytes. -/
def State.maxPayload (s : State) : Nat := 128 * 2 ^ min 2 (bits (s.cfgWord 0x078).toNat 7 5)
def State.maxRead (s : State) : Nat := 128 * 2 ^ min 5 (bits (s.cfgWord 0x078).toNat 14 12)

/-- R257, R265: the ordering attributes of a request: Relaxed Ordering where it is enabled and nothing forbids it, and
ID-Based Ordering where it is enabled. DESIGN CHOICE (log 160): of the device's requests, MOVE's reads and writes and the data
writes of device channels carry it, and no other does. -/
def State.reqAttr (s : State) (relaxed : Bool) : ReqAttr :=
  { ro := relaxed && (s.cfgWord 0x078).getLsbD 4, ido := (s.cfgWord 0x098).getLsbD 8 }

/-! R270: AER. -/

/-- R270: the status bit of an error: of the correctable register or of the uncorrectable one. -/
def AerErr.bit : AerErr → Bool × Nat
  | .receiver => (true, 0)
  | .badTlp => (true, 6)
  | .badDllp => (true, 7)
  | .replayRollover => (true, 8)
  | .replayTimeout => (true, 12)
  | .dataLink => (false, 4)
  | .poisoned => (false, 12)
  | .flowControl => (false, 13)
  | .timeout => (false, 14)
  | .completerAbort => (false, 15)
  | .unexpected => (false, 16)
  | .overflow => (false, 17)
  | .malformed => (false, 18)
  | .ecrc => (false, 19)
  | .unsupported => (false, 20)
  | .refusedWrite => (false, 20)
  | .internal => (false, 22)

/-- R270: an error that is advisory while its severity is non-fatal. -/
def AerErr.advisory : AerErr → Bool
  | .unsupported | .poisoned | .unexpected => true
  | _ => false

/-- R270: how an error is recorded: the bits that set in the correctable and the uncorrectable status, whether its header
is to be logged, and the message that is due (0 correctable, 1 non-fatal, 2 fatal). -/
def State.aerClass (s : State) (e : AerErr) : Word × Word × Bool × Option Nat :=
  let (cor, k) := e.bit
  let b : Word := BitVec.ofNat 32 (2 ^ k)
  let cm := s.cfgWord 0x114
  let um := (s.cfgWord 0x108).getLsbD k
  let fatal := (s.cfgWord 0x10C).getLsbD k
  if cor then (b, 0, false, if cm.getLsbD k then none else some 0)
  else if e.advisory && !fatal then (0x2000, b, !um && !cm.getLsbD 13, if cm.getLsbD 13 then none else some 0)
  else (0, b, !um, if um then none else some (if fatal then 2 else 1))

/-- R270: the message of a severity is enabled: in Device Control, or by SERR# Enable for the uncorrectable ones. -/
def State.aerSends (s : State) (v : Nat) : Bool :=
  (s.cfgWord 0x078).getLsbD v || (decide (0 < v) && (s.cfgWord 0x004).getLsbD 8)

/-- R270: an error is logged through AER. The header log takes the first error's header, whose words the spec leaves open;
an error that finds it in use is a Header Log Overflow. -/
def State.aerLog (s : State) (e : AerErr) : State :=
  let h := s.hep
  let (c, u, hdr, msg) := s.aerClass e
  let first := hdr && h.aerFirst.isNone
  let full : Word := if hdr && h.aerFirst.isSome then 0x8000 else 0
  let dev := BitVec.ofNat 32 (2 ^ (16 + (match msg with | some v => v | none => if e.bit.1 then 0 else 1)) +
    (if e.bit.2 = 20 then 2 ^ 19 else 0))
  { s with
    hep := { h with
      aer := h.aer ++ [e], aerCor := h.aerCor ||| c ||| full, aerUnc := h.aerUnc ||| u
      aerFirst := if first then some e.bit.2 else h.aerFirst
      aerHdr := if first then (List.range 4).map (fun i => BitVec.ofNat 32 (s.freeNext / 2 ^ (32 * i))) else h.aerHdr
      cfg := Map.put h.cfg 0x078 (s.cfgWord 0x078 ||| dev) }
    out := s.out ++ (match msg with | some v => if s.aerSends v then [Out.errMessage v] else [] | none => []) }

/-! R279, R338: TLPs and credits. -/

/-- R257, R279: the TLPs of so many bytes at an address, between the fewest and those cut at each multiple of the size: a
free value where these differ (log 80). -/
def State.countTlp (s : State) (reg size a n : Nat) : State :=
  let lo := max 1 ((n + size - 1) / size)
  let hi := (a % size + n + size - 1) / size
  if hi ≤ lo then s.statN reg lo else (s.statN reg (lo + s.freeNext % (hi - lo + 1))).drawn

/-- R338: received TLPs consume credits of a kind (0 posted, 1 non-posted, 2 completion): headers, and data in units of 16
bytes. The receive buffer hands each on at once, and its credits are advertised again. -/
def State.rxCredits (s : State) (kind hdrs n : Nat) : State :=
  let add := fun (m : Map Nat) => Map.upd (Map.upd m (2 * kind) 0 (· + hdrs)) (2 * kind + 1) 0 (· + (n + 15) / 16)
  { s with hep := { s.hep with rxUsed := add s.hep.rxUsed, rxAdv := add s.hep.rxAdv } }

/-- R279, R338: a posted or a non-posted request has been received, with so many bytes of data. -/
def State.rxPosted (s : State) (n : Nat) : State := (s.stat statRxTlp).rxCredits 0 1 n
def State.rxRequest (s : State) : State := (s.stat statRxTlp).rxCredits 1 1 0

/-- R279, R338: the completions of a read have been received: at most one for each 64 bytes (RCB). -/
def State.rxCpl (s : State) (a n : Nat) : State := (s.countTlp statRxTlp 64 a n).rxCredits 2 1 n

/-- R278: an SPDM answer leaves as a data object: the mailbox's response holds it behind its two header doublewords. -/
def State.doeAnswer (s : State) (ans : List Byte) : State :=
  let n := (ans.length + 3) / 4
  let body := (List.range n).map (fun i => BitVec.ofNat 32 (leNat (slicePad ans (4 * i) 4)))
  { s with hep := { s.hep with doeOut := [0x00010001, BitVec.ofNat 32 (n + 2)] ++ body } }.emit (.doe ans)

/-- R265, R279: a completion leaves, with the data of an access. -/
def State.reply (s : State) (o : Out) : State :=
  let n := match o with
    | .readData d => d.length
    | _ => 0
  (s.emit o).countTlp statTxTlp s.maxPayload 0 n

/-- R275: the PASID that requests of an owner carry; PF0's carry none. -/
def State.pasidOf (s : State) (who : Option (BitVec 16)) : Option (BitVec 20) :=
  match who with
  | some i => if s.hep.pasid && (s.inst i.toNat).pasidV then some (s.inst i.toNat).pasid else none
  | none => none

/-- R276: the translation cache's key for a page, by the PASID that the request carries. -/
def atsKey (pasid : Option (BitVec 20)) (page : Nat) : Nat :=
  (match pasid with | some p => p.toNat | none => 2 ^ 20) * 2 ^ 52 + page % 2 ^ 52

/-- R276: the answer to an address: pieces of a transfer (translated, address, length) with the cached keys used. -/
inductive Xlat where
  | pieces (l : List (Bool × Nat × Nat)) (keys : List Nat)
  | wait
  | denied
  deriving DecidableEq, Repr

/-- R276: the pages that a transfer touches, with the address and length within each. -/
def pagePieces : Nat → Nat → Nat → List (Nat × Nat)
  | 0, _, _ => []
  | f + 1, a, n =>
    if n = 0 then [] else
      let m := min n (4096 - a % 4096)
      (a, m) :: pagePieces f (a + m) (n - m)

/-- R276: an owner's requests are translated. -/
def State.atsOn (s : State) (who : Option (BitVec 16)) : Bool :=
  match who with
  | some i => s.hep.ats && (s.inst i.toNat).ats
  | none => false

/-- R275, R276: a transfer's addresses are looked up; on a miss a Translation Request goes out, with the PASID that the
request carries, and the transfer is held. -/
def State.xlate (s : State) (who : Option (BitVec 16)) (addr len ch : Nat) : Xlat × State :=
  if !s.atsOn who then (.pieces [(false, addr % 2 ^ 64, len)] [], s)
  else
    let p := s.pasidOf who
    let l := pagePieces (len / 4096 + 2) (addr % 2 ^ 64) (max 1 len)
    let miss := l.find? (fun x => (Map.get s.hep.cache (atsKey p (x.1 / 4096))).isNone)
    match miss with
    | none => (.pieces (l.map (fun x =>
        (true, Map.at_ s.hep.cache (atsKey p (x.1 / 4096)) 0 * 4096 + x.1 % 4096, min x.2 len)))
        (l.map (fun x => atsKey p (x.1 / 4096))), s)
    | some x =>
      let page := x.1 / 4096
      let k := atsKey p page
      if s.hep.denied.contains k then
        (.denied, { s with hep := { s.hep with denied := s.hep.denied.erase k } })
      else if s.hep.atsWait.any (fun w => w.pasid = p && w.page = page) then (.wait, s)
      else
        let w : AtsWait := { pasid := p, page := page, ch := ch }
        (.wait, ({ s with hep := { s.hep with atsWait := s.hep.atsWait ++ [w] } }.emit (.atsRequest p page)).stat statTxTlp)

/-! R266: tags. -/

/-- R266: tags that may be issued in the link's mode. -/
def State.tagSpan (s : State) : Nat × Nat := if s.hep.flit then (0, 4096) else (256, 768)

/-- R266: the first free tag from the i-th of the span on; the fuel covers the span. -/
def State.tagFrom (s : State) : Nat → Nat → Option Nat
  | 0, _ => none
  | f + 1, i =>
    let t := s.tagSpan.1 + i % s.tagSpan.2
    if (Map.get s.hep.tags t).isNone && !s.hep.quar.contains t then some t else State.tagFrom s f (i + 1)

/-- R266: a free tag. Which free tag it is the spec leaves open. -/
def State.freeTag (s : State) : Option Nat := s.tagFrom s.tagSpan.2 (s.freeNext % s.tagSpan.2)

/-- R266: tags outstanding, quarantined ones included. -/
def State.tagsOut (s : State) : Nat := s.hep.tags.length + s.hep.quar.length

/-- R266: a read with a tag is issued. -/
def State.issueRead (s : State) (pasid : Option (BitVec 20)) (use : TagUse) (x : Bool × Nat × Nat) (relaxed : Bool) :
    Option State :=
  s.freeTag.map (fun t =>
    let s := s.drawn
    let s := { s with hep := { s.hep with tags := Map.put s.hep.tags t use } }
    (s.emit (.hostRead pasid x.1 (BitVec.ofNat 64 x.2.1) x.2.2 (BitVec.ofNat 14 t) (s.reqAttr relaxed))).stat statTxTlp)

/-- R266: a read that ends within its command is issued: it holds a tag until then. -/
def State.briefRead (s : State) (pasid : Option (BitVec 20)) (x : Bool × Nat × Nat) : Option State :=
  s.freeTag.map (fun t =>
    let s := s.drawn
    (s.emit (.hostRead pasid x.1 (BitVec.ofNat 64 x.2.1) x.2.2 (BitVec.ofNat 14 t) (s.reqAttr false))).stat statTxTlp)

/-- R257, R265: reads of a range, each of at most Max_Read_Request_Size and within a 4 KiB page; the fuel covers them. -/
def State.sendRead : Nat → State → Option (BitVec 20) → Bool × Nat × Nat → Option State
  | 0, s, _, _ => some s
  | f + 1, s, p, (xl, a, n) =>
    let m := min (min n s.maxRead) (4096 - a % 4096)
    match s.briefRead p (xl, a, m) with
    | none => none
    | some s => if n ≤ m then some s else State.sendRead f s p (xl, a + m, n - m)

/-- R265: reads of the pieces of a transfer. -/
def State.sendReads : State → Option (BitVec 20) → List (Bool × Nat × Nat) → Option State
  | s, _, [] => some s
  | s, p, x :: t =>
    match State.sendRead (x.2.2 / 128 + 34) s p x with
    | some s => State.sendReads s p t
    | none => none

/-! R277: invalidations wait for the reads and the writes that use a translation. -/

/-- R277: a burst whose write an invalidation waits for has not left. -/
def State.burstStands (s : State) (b : Nat × Nat × Nat) : Bool :=
  (s.chan b.1).run = b.2.1 && (s.chan b.1).queue.any (fun q => q.no = b.2.2)

/-- R277: invalidations complete in arrival order, each once its reads have ended and its writes have left; the fuel covers
the list. -/
def State.settleInval : Nat → State → State
  | 0, s => s
  | f + 1, s =>
    match s.hep.inval with
    | [] => s
    | i :: t =>
      if i.reads.any (fun r => (Map.get s.hep.tags r).isSome) || i.bursts.any (fun b => s.burstStands b) then s
      else State.settleInval f (({ s with hep := { s.hep with inval := t } }.emit (.atsInvalidated i.itag)).stat statTxTlp)

/-- Invalidations that nothing holds up any more are answered. -/
def State.checkInval (s : State) : State := State.settleInval (s.hep.inval.length + 1) s

/-- R266: a tag is free again. -/
def State.dropTag (s : State) (t : Nat) : State :=
  { s with hep := { s.hep with tags := Map.del s.hep.tags t } }.checkInval

/-! R324: the arbiter. -/

/-- R266, R324: a channel is ready to issue a burst: where its source lies in host space, only with a tag to issue. -/
def State.chReady (s : State) (c : Nat) (x : Chan) : Bool :=
  x.active && x.flush = 0 && x.op = 1 && !s.hep.atsWait.any (fun w => w.ch = c) &&
    (!x.srcHost || !s.bmeOn || s.freeTag.isSome)

/-- R324: the channels ready to issue a burst. -/
def State.readyChans (s : State) : List Nat := (s.dma.ch.filter (fun e => s.chReady e.1 e.2)).map (fun e => e.1)

/-- R324: a burst slot is used by a channel at a priority. -/
def State.servedAt (s : State) (c prio : Nat) : State :=
  let r := s.readyChans
  let p := s.dma.passed.filter (fun e => r.contains e.1 && e.1 ≠ c)
  let p := (r.filter (fun d => d ≠ c)).foldl (fun p d => Map.upd p d 0 (· + 1)) p
  { s with dma := { s.dma with passed := p, turn := Map.put s.dma.turn prio c } }

/-- R315, R316, R340: a unit's transfer as a program of a device channel, which it runs from IDLE to IDLE: DESIGN CHOICE (log
161): which channel of 0 to 511 is a free value, and the burst slot comes with the unit's command. -/
def State.devChan (s : State) (prio n : Nat) (write : Bool) : State :=
  let c := s.freeNext % 512
  let s := s.drawn.servedAt c prio
  let s := s.modChan c (fun x => { x with
    prog := unitProgram prio n write, pc := 1, bytes := n, status := 0, run := x.run + 1 })
  (s.stat statPrograms).statN (if write then statHostWr else statHostRd) n

/-! R265: writes and reads. -/

/-- R265: a write of data leaves in its pieces. -/
def State.writePieces (s : State) (pasid : Option (BitVec 20)) (attr : ReqAttr) :
    List (Bool × Nat × Nat) → List Byte → State
  | [], _ => s
  | (x, a, n) :: t, d =>
    State.writePieces ((s.emit (.hostWrite pasid x (BitVec.ofNat 64 a) (d.take n) attr)).countTlp statTxTlp s.maxPayload a n)
      pasid attr t (d.drop n)

/-- R265: a posted write for an owner, with or without Relaxed Ordering: none where the endpoint may issue nothing or its
translation is not there; some false where its translation is denied. -/
def State.putOrdered (s : State) (relaxed : Bool) (who : Option (BitVec 16)) (addr : Nat) (data : List Byte) :
    Option Bool × State :=
  if !s.bmeOn then (none, s)
  else match s.xlate who addr data.length 4096 with
    | (.pieces l _, s) => (some true, s.writePieces (s.pasidOf who) (s.reqAttr relaxed) l data)
    | (.wait, s) => (none, s)
    | (.denied, s) => (some false, s)

/-- R265: a posted write that keeps its place among the device's writes. -/
abbrev State.hostPut (s : State) (who : Option (BitVec 16)) (addr : Nat) (data : List Byte) : Option Bool × State :=
  s.putOrdered false who addr data

/-- R265, R315: a unit has a device channel make a write of data, at its priority. -/
def State.unitPut (s : State) (prio : Nat) (who : Option (BitVec 16)) (addr : Nat) (data : List Byte) : Option Bool × State :=
  match s.putOrdered true who addr data with
  | (some true, s) => (some true, s.devChan prio data.length true)
  | r => r

/-- R265: a posted write of PF0. -/
def State.putPf0 (s : State) (addr : Nat) (data : List Byte) : State := (s.hostPut none addr data).2

/-- R265: a posted write goes to several places, all or none: first every translation, then the writes. -/
def State.hostReady (s : State) (who : Option (BitVec 16)) : List (Nat × Nat) → Option Bool × State
  | [] => (some true, s)
  | (a, n) :: t =>
    match s.xlate who a n 4096 with
    | (.pieces _ _, s) => State.hostReady s who t
    | (.wait, s) => (none, s)
    | (.denied, s) => (some false, s)

/-- R267: a read's completion timeout is logged and counted. -/
def State.timedOut (s : State) : State := ((s.aerLog .timeout).count cntCto).hepEvent 4

/-- R270: the endpoint checks ECRC. -/
def State.ecrcOn (s : State) : Bool := (s.cfgWord 0x118).getLsbD 8

/-- R265 to R267, R270, R275: a read of host memory for a unit, whose end the command that makes it brings: no answer while
the endpoint may issue nothing, its translation has to be waited for or no tag is free; none where it has failed. -/
def State.readFor (s : State) (who : Option (BitVec 16)) (addr len : Nat) (r : ReadData) : Option (Option (List Byte)) × State :=
  if !s.bmeOn then (none, s)
  else match s.xlate who addr len 4096 with
    | (.wait, s) => (none, s)
    | (.denied, s) => (some none, s)
    | (.pieces l _, s) =>
      match s.sendReads (s.pasidOf who) l with
      | none => (none, s)
      | some s =>
        match r with
        | .ok d => (some (some d), s.rxCpl addr len)
        | .error => (some none, s.rxCpl 0 0)
        | .poisoned => (some none, (s.rxCpl addr len).aerLog .poisoned)
        | .badEcrc => (some none, ((s.rxCpl addr len).aerLog .ecrc).timedOut)
        | .timeout => (some none, s.timedOut)

/-- R265, R315: the same for a unit that has a device channel make it, at priority 6. -/
def State.unitRead (s : State) (who : Option (BitVec 16)) (addr len : Nat) (r : ReadData) : Option (Option (List Byte)) × State :=
  match s.readFor who addr len r with
  | (some (some d), s) => (some (some d), s.devChan 6 len false)
  | a => a

/-- R267: the completion timeout in force, µs, by the standard's encodings of Device Control 2; the value within
an encoding's range is the implementation's. -/
def State.ctoUs (s : State) : Nat :=
  match s.hep.cto.toNat with
  | 1 => 50 + Config.ctoWithin 1 % 51
  | 2 => 1000 + Config.ctoWithin 2 % 9001
  | 5 => 16000 + Config.ctoWithin 5 % 39001
  | 6 => 65000 + Config.ctoWithin 6 % 145001
  | _ => 10000

end Sys2Proof.Machine
end

