-- ==== Sys2Proof/Machine/Dma.lean ====
section
/-! DEFINITION. DMA channel programs (R313 to R325), memory errors and the scrub (R326 to R329). -/

namespace Sys2Proof.Machine

/-! R313, R314: the internal address space. -/

/-- R330: the first byte of the ledger area, and of the device context area below it. -/
def State.ledgerBase (s : State) : Nat := 2 ^ 34 - s.mainNat 0xA110 4 * 2 ^ 20
def State.contextBase (s : State) : Nat := s.ledgerBase - 2 ^ 30

/-- R314: the regions that a register with EN and a base in MiB names, while it is enabled or being zeroed. -/
def State.region (s : State) (reg size : Nat) (init : Bool) : List (Nat × Nat) :=
  let r := s.regNat reg
  if bit r 31 || init then [(bits r 13 0 * 2 ^ 20, size * 2 ^ 20)] else []

/-- R314: the protected regions: base and length. In reduced-capacity mode the tables lie in the context cache and
store (R26) and the free rings in SRAM (R337). -/
def State.protectedRegions (s : State) : List (Nat × Nat) :=
  let ring := s.regNat bpmRingBase
  if s.mem.reduced then
    if bit ring 31 then
      [(0x001000000000 + bits ring 13 0 * 1024,
        (List.range 8).foldl (fun n p => if s.poolEn p then n + 4 * s.poolCount p else n) 0)]
    else []
  else
    s.region (FWT + 0x010) 64 (s.fwt.init.getLsbD 0) ++
    (List.range 4).flatMap (fun t => s.region (FWT + 0x020 + 8 * t) 8 (s.fwt.init.getLsbD (1 + t))) ++
    s.region (TRN + 0x010) 512 s.trn.initCtx ++ s.region (TRN + 0x018) 256 s.trn.initIdx ++
    s.region (RWC + 0x010) 128 s.rwc.initSa ++ s.region (RWC + 0x018) 8 s.rwc.initTpl ++
    [(s.contextBase, 2 ^ 34 - s.contextBase)] ++
    (if bit ring 31 then [(bits ring 13 0 * 2 ^ 20, 256 * 2 ^ 20)] else [])

/-- R313: which memory an access lies in wholly: 0 HBM, 1 packet SRAM, 2 core-local SRAM. -/
def memOf (a n : Nat) : Option Nat :=
  if a + n ≤ 2 ^ 34 then some 0
  else if 0x001000000000 ≤ a ∧ a + n ≤ 0x001004000000 then some 1
  else if 0x001200000000 ≤ a ∧ a + n ≤ 0x001201000000 then some 2
  else none

/-- R314: an access by a manager or service channel or a peer window is answered with an error. -/
def State.accessBad (s : State) (a n : Nat) : Bool :=
  match memOf a n with
  | none => true
  | some 0 => s.mem.reduced || !s.powered 6 || s.protectedRegions.any (fun r => decide (a < r.1 + r.2 ∧ r.1 < a + n))
  | some 1 =>
    let o := a - 0x001000000000
    let touches := fun (b : Nat) => decide (o < (b + 1) * 0x800000 ∧ b * 0x800000 < o + n)
    (List.range 8).any (fun b => touches b && !s.powered (9 + b)) ||
    (s.mem.reduced && (touches 5 || touches 6 || touches 7)) ||
    s.protectedRegions.any (fun r => decide (a < r.1 + r.2 ∧ r.1 < a + n))
  | some _ =>
    let o := a - 0x001200000000
    (List.range 8).any (fun k => decide (o < (k + 1) * 0x200000 ∧ k * 0x200000 < o + n) && !s.powered (71 + k))

/-- R327, R329: a read of a range meets an uncorrectable word: poison, or any HBM once HBM has failed. -/
def State.readBad (s : State) (a n : Nat) : Bool := s.poisoned a n || (s.mem.hbmFail && memOf a n = some 0)

/-- R327, R329: what such a read counts. -/
def State.noteBad (s : State) (a n : Nat) : State :=
  if s.poisoned a n then s else s.uncorrectable (a / 8 * 8)

/-- R313, R327: bytes land in the internal memory; words written in full lose their poison. -/
def State.land (s : State) (a : Nat) (d : List Byte) : State := (s.cleanse a d.length).writeBytes a d

/-! R315: who owns a channel, and what its space 1 is. -/

/-- R315: owner: 0 manager, 1 service, 2 device. -/
def State.chOwner (s : State) (c : Nat) : Nat := if c < 512 then 2 else s.regBits (dmaCfg c) 31 30

/-- R315: the cluster of a service channel. -/
def State.chCluster (s : State) (c : Nat) : Nat := s.regBits (dmaCfg c) 26 24

/-- R318: the instance whose host space a channel reaches. -/
def State.chInst (s : State) (c : Nat) : Option (BitVec 16) :=
  if bit (s.regNat (dmaCfg c)) 20 then some ((s.getReg (dmaCfg c)).setWidth 16) else none

/-- R321, R348: a channel may use a counter. -/
def State.counterOk (s : State) (c n : Nat) : Bool :=
  match s.chOwner c with
  | 0 => decide (256 ≤ n ∧ n < 512)
  | 1 =>
    match s.slotOf (s.chCluster c) with
    | some slot =>
      let first := s.desc slot 0x1C 2
      decide (512 ≤ n ∧ n < 1024 ∧ first ≤ n ∧ n < first + s.desc slot 0x1E 2)
    | none => false
  | _ => decide (n < 256)

/-- R356: a service channel reaches an internal range: local SRAM of its service's clusters, or its span of the
shared window. -/
def State.serviceReach (s : State) (c a n : Nat) : Bool :=
  match s.slotOf (s.chCluster c) with
  | none => false
  | some slot =>
    let o := a - 0x001200000000
    let inLocal := memOf a n = some 2 && (List.range 8).all (fun k =>
      !decide (o < (k + 1) * 0x200000 ∧ k * 0x200000 < o + n) || s.slotOf k = some slot)
    let inWindow := match s.shwin with
      | some b =>
        let f := b + s.desc slot 0x20 4 * 2 ^ 20
        decide (f ≤ a ∧ a + n ≤ f + s.desc slot 0x24 4 * 2 ^ 20)
      | none => false
    inLocal || inWindow

/-- R369: a service's host address through its window. -/
def State.hwin (s : State) (slot a n : Nat) (write : Bool) : Option (Option (BitVec 20) × Nat) :=
  let w := a / 2 ^ 58
  let o := a % 2 ^ 58
  if 32 ≤ w then none else
    let c := s.regNat (hwinCtrl w)
    if bit c 31 && bit c (if write then 29 else 30) && bit c (20 + slot) && bit (s.desc slot 0x18 4) w &&
        decide (o + n ≤ 4096 * s.regNat (hwinSize w)) then
      some (if bit c 28 && s.hep.pasid then some (BitVec.ofNat 20 c) else none,
        s.regNat (hwinHi w) * 2 ^ 32 + s.regNat (hwinLo w) + o)
    else none

/-- R318, R356: where a host range of a channel lies: PASID and pieces. -/
def State.chHost (s : State) (c a n : Nat) (write : Bool) : (Option (BitVec 20)) × Xlat × State :=
  if s.chOwner c = 1 then
    match s.slotOf (s.chCluster c) with
    | some slot =>
      match s.hwin slot a n write with
      | some (p, b) => (p, .pieces [(false, b, n)] [], s)
      | none => (none, .denied, s)
    | none => (none, .denied, s)
  else
    let w := s.chInst c
    let (x, s) := s.xlate w a n c
    (s.pasidOf w, x, s)

/-- R314, R356: a channel's internal range is answered with an error. -/
def State.chBad (s : State) (c a n : Nat) : Bool :=
  s.accessBad a n || (s.chOwner c = 1 && !s.serviceReach c a n)

/-! R317, R318: programs. -/

/-- R323: the instruction now executing makes the program a bad one. -/
def State.badInstr (s : State) (c : Nat) : Bool :=
  let x := s.chan c
  let b := x.instr x.pc
  if x.count ≤ x.pc ∨ 1024 ≤ x.pc then true
  else match x.op with
    | 1 => leAt b 4 3 = 0 || decide (2 ≤ leAt b 2 1 % 4) || decide (2 ≤ leAt b 2 1 / 16 % 4)
    | 2 => decide (x.pc ≤ leAt b 4 2) || leAt b 8 4 = 0
    | 3 => !s.counterOk c (leAt b 4 2)
    | 4 => !s.counterOk c (leAt b 4 2)
    | 5 => false
    | _ => true

/-- R322, R323: the program is over: statistics, the thread's event, and IDLE. -/
def State.progOver (s : State) (c status : Nat) : State :=
  let x := s.chan c
  let s := s.modChan c (fun x => { x with st := .idle, status := status, ending := none, flush := 0, thread := none })
  let s := match status with
    | 0x00 => s.stat statPrograms
    | 0x06 => s.count (DMA + 0x204)
    | 0x10 => s.count (DMA + 0x208)
    | 0x11 => s.count (DMA + 0x200)
    | 0x12 => s.count (DMA + 0x20C)
    | 0x14 => s.count (DMA + 0x210)
    | _ => s
  let s := if status ≠ 0 then s.dmaEvent 1 else s
  match x.thread with
  | some t => s.threadEvent t.toNat (2 ^ 24)
  | none => s

/-- R322: BYTES and then the STATUS word are written back; R314: where the program may not be written, nothing changes. -/
def State.writeBack (s : State) (c status : Nat) : State :=
  let x := s.chan c
  let w := leBytes 4 (status * 65536 + x.pc % 65536)
  let b := leBytes 8 x.bytes
  let a := x.paddr.toNat
  let at_ := fun (s : State) (a : Nat) (d : List Byte) => if s.chBad c a d.length then s else s.land a d
  if x.space then (s.putPf0 (a + 8) b).putPf0 a w else at_ (at_ s (a + 8) b) a w

/-- R322, R325: a program that has ended writes back once its last write has left. One in host space that may not
issue the write becomes HALTED_BME before it. -/
def State.settleEnd (s : State) (c : Nat) : State :=
  let x := s.chan c
  match x.ending with
  | some status =>
    if !x.queue.isEmpty then s
    else if status = 0x15 then s.progOver c status
    else if x.space && !s.bmeOn then
      if status = 0x13 then s.progOver c status
      else (s.modChan c (fun x => { x with st := .haltedBme })).dmaEvent 2
    else (s.writeBack c status).progOver c status
  | none => s

/-- R323: a program ends with a status. -/
def State.endProg (s : State) (c status : Nat) : State :=
  (s.modChan c (fun x => { x with ending := some status, st := .running })).settleEnd c

/-- R323: an instruction is about to execute. -/
def State.enterInstr (s : State) (c : Nat) : State := if s.badInstr c then s.endProg c 0x11 else s

/-- The next instruction; R317: one beyond COUNT has not executed, so it is not LAST. -/
def State.gotoInstr (s : State) (c pc : Nat) : State :=
  if decide ((s.chan c).count ≤ pc) || decide (1024 ≤ pc) then s.endProg c 0x11
  else (s.modChan c (fun x => { x with pc := pc, issued := 0, st := .running })).enterInstr c

/-! R317, R325, R340: commands. -/

/-- R325: a channel whose next request needs the endpoint halts before it issues it. -/
def State.halt (s : State) (c : Nat) : State := (s.modChan c (fun x => { x with st := .haltedBme })).dmaEvent 2

/-- R314, R356: a channel may not read its program there: DMAGO's lies in the local SRAM of the caller's cluster. -/
def State.progBad (s : State) (c a n : Nat) : Bool :=
  let k := 0x001200000000 + 0x200000 * s.chCluster c
  s.chBad c a n || (s.chOwner c = 1 && !decide (k ≤ a ∧ a + n ≤ k + 0x200000))

/-- R317, R318: the instructions behind a header, in bytes. -/
def progBytes (header : List Byte) : Nat := 32 * min 1024 (leAt header 4 2)

/-- R315, R317: a program in host space is read under PF0's identity: its header, and its instructions where OWN is set.
DESIGN CHOICE (log 161): a start that finds no free tag has no effect: the command comes when there is one. -/
def State.startHost (s : State) (c a : Nat) (r : ReadData) : State :=
  let header := match r with
    | .ok b => .ok (slicePad b 0 32)
    | e => e
  match s.readFor none a 32 header with
  | (none, _) => s.modChan c (fun x => { x with st := .idle })
  | (some none, s) => s.endProg c 0x06
  | (some (some h), s) =>
    if !bit (leAt h 0 4) 31 then s.endProg c 0x15
    else
      let n := progBytes h
      let body := match r with
        | .ok b => .ok (slicePad b 32 n)
        | e => e
      match s.readFor none (a + 32) n body with
      | (some (some d), s) => (s.modChan c (fun x => { x with prog := h ++ d })).enterInstr c
      | (_, s) => s.endProg c 0x06

/-- R317, R356: a program starts: its header and instructions are read. -/
def State.startProg (s : State) (c : Nat) (space : Bool) (paddr : BitVec 64) (th : Option (BitVec 10)) (r : ReadData) : State :=
  let s := s.modChan c (fun x => { x with
    st := .running, status := x.status, prog := [], space := space, paddr := paddr, pc := 0, ks := [], loops := [],
    bytes := 0, issued := 0, queue := [], flush := 0, ending := none, waitAt := 0, thread := th, run := x.run + 1 })
  let a := paddr.toNat
  if space then if !s.bmeOn then s.halt c else s.startHost c a r
  else if s.progBad c a 32 then s.endProg c 0x06
  else if s.readBad a 32 then (s.noteBad a 32).endProg c 0x10
  else
    let h := s.readBytes a 32
    if !bit (leAt h 0 4) 31 then s.endProg c 0x15
    else
      let n := progBytes h
      if s.progBad c (a + 32) n then s.endProg c 0x06
      else if s.readBad (a + 32) n then (s.noteBad (a + 32) n).endProg c 0x10
      else (s.modChan c (fun x => { x with prog := h ++ s.readBytes (a + 32) n })).enterInstr c

/-- R340: a whole write of DMA_CH_CMD with OP START. -/
def State.opDmaStart (s : State) (c : Nat) (v : Word) (prog : ReadData) : State :=
  s.onCmd (dmaCmd c) false (fun s =>
    if c < 512 then s
    else if bits v.toNat 3 0 = 1 ∧ (s.chan c).st = .idle then
      (s.setReg (dmaCmd c) (v &&& 0x3F)).startProg c (bits v.toNat 5 4 = 1) (s.getReg64 (dmaPaddr c)) none prog
    else s.accErr errBusy (dmaCmd c))

/-- R325: ABORT. -/
def State.abortChan (s : State) (c : Nat) : State :=
  match (s.chan c).st with
  | .idle => s
  | _ => s.endProg c 0x13

/-- R340: a whole write with OP ABORT. -/
def State.opDmaAbort (s : State) (c : Nat) (v : Word) : State :=
  s.onCmd (dmaCmd c) false (fun s =>
    if c < 512 then s
    else if bits v.toNat 3 0 = 2 ∧ (s.chan c).st ≠ .idle then (s.setReg (dmaCmd c) (v &&& 0x3F)).abortChan c
    else s.accErr errBusy (dmaCmd c))

/-- R319: a stepped address. -/
def stepped (base k : Nat) (step : Nat) : Nat :=
  (((base : Int) + (k : Int) * (BitVec.ofNat 32 step).toInt) % (2 ^ 64 : Int)).toNat

/-- R322: the last byte of the last execution of the MOVE at hand. -/
def Chan.flushAt (x : Chan) : Nat :=
  let b := x.instr x.pc
  (stepped (leAt b 16 8) (Map.at_ x.ks x.pc 0 - 1) (leAt b 28 4) + leAt b 4 3 - 1) % 2 ^ 64

/-- R322: the flush read is issued once the MOVE's last write has left: to the last byte of its destination. -/
def State.issueFlush (s : State) (c : Nat) : State :=
  let x := s.chan c
  if x.flush ≠ 1 ∨ x.st ≠ .running ∨ !x.queue.isEmpty then s
  else if x.dstHost then
    if !s.bmeOn then s.halt c
    else match s.chHost c x.flushAt 1 false with
      | (p, .pieces ((xl, a, _) :: _) keys, s) =>
        match s.issueRead p (.flush c x.run keys) (xl, a, 0) false with
        | some s => s.modChan c (fun x => { x with flush := 2 })
        | none => s
      | (_, .wait, s) => s
      | (_, _, s) => s.endProg c 0x06
  else s.modChan c (fun x => { x with flush := 2 })

/-- R266, R276, R322: the flush reads that waited for a translation or a tag are tried again. -/
def State.retryFlush (s : State) : State :=
  s.dma.ch.foldl (fun s e => if e.2.flush = 1 then s.issueFlush e.1 else s) s

/-- R325: a whole write with OP RESUME: only while BME is 1 and the channel is HALTED_BME. -/
def State.opDmaResume (s : State) (c : Nat) (v : Word) (prog : ReadData) : State :=
  s.onCmd (dmaCmd c) false (fun s =>
    let x := s.chan c
    if c < 512 then s
    else if bits v.toNat 3 0 = 3 ∧ x.st = .haltedBme then
      if !s.bmeOn then s.accErr errBusy (dmaCmd c)
      else
        let s := (s.setReg (dmaCmd c) (v &&& 0x3F)).modChan c (fun x => { x with st := .running, issued := 0 })
        if x.ending.isSome then s.settleEnd c
        else if x.flush ≠ 0 then (s.modChan c (fun x => { x with flush := 1 })).issueFlush c
        else if x.prog = [] then s.startProg c x.space x.paddr x.thread prog
        else s.enterInstr c
    else s.accErr errBusy (dmaCmd c))

/-! R319, R324: MOVE. -/

/-- R324: the channel that the next burst slot serves. -/
def State.arbiter (s : State) : Option Nat :=
  let r := s.readyChans
  match r.find? (fun c => decide (4096 ≤ Map.at_ s.dma.passed c 0)) with
  | some c => some c
  | none =>
    let top := r.foldl (fun m c => max m (s.chan c).prio) 0
    let l := r.filter (fun c => (s.chan c).prio = top)
    let last := Map.at_ s.dma.turn top 0
    match l.find? (fun c => decide (last < c)) with
    | some c => some c
    | none => l.head?

/-- R324: the slot is used. -/
def State.served (s : State) (c : Nat) : State := s.servedAt c (s.chan c).prio

/-- R257, R319: a burst of the MOVE now executing: source, destination and length. -/
def State.burstOf (s : State) (x : Chan) : Nat × Nat × Nat :=
  let b := x.instr x.pc
  let k := Map.at_ x.ks x.pc 0
  let src := stepped (leAt b 8 8) k (leAt b 24 4) + x.issued
  let dst := stepped (leAt b 16 8) k (leAt b 28 4) + x.issued
  let most := if x.srcHost then min 512 s.maxRead else 512
  (src, dst, min (min most (leAt b 4 3 - x.issued)) (min (4096 - src % 4096) (4096 - dst % 4096)))

/-- R319: a burst has been issued; after the last one the next instruction starts, or the flush read is owed. -/
def State.burstIssued (s : State) (c n : Nat) : State :=
  let x := s.chan c
  let b := x.instr x.pc
  if x.ending.isSome then s
  else if x.issued + n < leAt b 4 3 then s.modChan c (fun x => { x with issued := x.issued + n })
  else
    let s := s.modChan c (fun x => { x with issued := 0, ks := Map.upd x.ks x.pc 0 (· + 1) })
    if bit (leAt b 1 1) 0 then (s.modChan c (fun x => { x with flush := 1 })).issueFlush c
    else s.gotoInstr c (x.pc + 1)

/-- R319, R340: a burst's data has been written. -/
def State.moved (s : State) (c n : Nat) (host : Bool) : State :=
  (s.modChan c (fun x => { x with bytes := x.bytes + n })).statN (if host then statHostWr else statInt) n

/-- R323: an error or an abort has ended a channel's program. -/
def Chan.failed (x : Chan) : Bool := x.ending.isSome && x.ending ≠ some 0

/-- R323: an error ends a program; the first one stands. -/
def State.failProg (s : State) (c status : Nat) : State :=
  s.modChan c (fun x => if x.failed then x else { x with ending := some status, st := .running })

/-- R319, R356, R369: a burst's write leaves: a service's through its window as that now stands. -/
def State.leave (s : State) (c : Nat) (b : Burst) (d : List Byte) : State :=
  match b.dst with
  | none => (s.land b.addr d).moved c b.len false
  | some l =>
    if s.chOwner c = 1 then
      match s.chHost c b.addr b.len true with
      | (p, .pieces l _, s) => (s.writePieces p (s.reqAttr true) l d).moved c b.len true
      | (_, _, s) => s.failProg c 0x06
    else (s.writePieces (s.pasidOf (s.chInst c)) (s.reqAttr true) l d).moved c b.len true

/-- R319: writes leave in the order in which their bursts were issued, each once its data is there; the fuel covers the
bursts. -/
def State.settleQueue : Nat → State → Nat → State
  | 0, s, _ => s
  | f + 1, s, c =>
    match (s.chan c).queue with
    | b :: t =>
      match b.data with
      | some d => State.settleQueue f ((s.modChan c (fun x => { x with queue := t })).leave c b d) c
      | none => s
    | [] => s

/-- R319, R277: the writes that can leave have left, and invalidations that waited for them are answered. -/
def State.drain (s : State) (c : Nat) : State := (State.settleQueue (s.chan c).queue.length s c).checkInval

/-- R319, R325: a burst of the MOVE at hand joins those whose writes have not left. -/
def State.pushBurst (s : State) (c : Nat) (dst : Option (List (Bool × Nat × Nat))) (addr len : Nat) (pages : List Nat)
    (data : Option (List Byte)) : State :=
  s.modChan c (fun x => { x with
    nextNo := x.nextNo + 1
    queue := x.queue ++ [{ no := x.nextNo, pc := x.pc, ks := x.ks, loops := x.loops, dst := dst, addr := addr, len := len
                           pages := pages, data := data }] })

/-- R305: the instance for which a manager channel acts, and its generation. -/
def State.chActs (s : State) (c : Nat) : Option (BitVec 16 × Byte) :=
  if s.chOwner c = 0 then (s.chInst c).map (fun i => (i, (s.inst i.toNat).gen)) else none

/-- R319: a burst is issued towards a destination that may take it. -/
def State.issueBurst (s : State) (c src dst n : Nat) (dl : Option (List (Bool × Nat × Nat))) (dkeys : List Nat) : State :=
  let x := s.chan c
  if x.srcHost then
    match s.chHost c src n false with
    | (p, .pieces (y :: _) keys, s) =>
      match s.issueRead p (.dma c x.run x.nextNo n keys (s.chActs c)) (y.1, y.2.1, n) true with
      | some s => ((s.served c).pushBurst c dl dst n dkeys none).burstIssued c n
      | none => s
    | (_, .denied, s) => s.endProg c 0x06
    | (_, _, s) => s
  else if s.chBad c src n then s.endProg c 0x06
  else if s.readBad src n then (s.noteBad src n).endProg c 0x10
  else (((s.served c).pushBurst c dl dst n dkeys (some (s.readBytes src n))).drain c).burstIssued c n

/-- R319: one burst of a channel's MOVE. -/
def State.moveBurst (s : State) (c : Nat) : State :=
  let x := s.chan c
  let (src, dst, n) := s.burstOf x
  if (x.srcHost || x.dstHost) && !s.bmeOn then s.halt c
  else if x.dstHost then
    match s.chHost c dst n true with
    | (_, .pieces l keys, s) => s.issueBurst c src dst n (some l) keys
    | (_, .wait, s) => s
    | (_, .denied, s) => s.endProg c 0x06
  else if s.chBad c dst n then s.endProg c 0x06
  else s.issueBurst c src dst n none []

/-- R319, R324: a burst slot is given to a channel in its MOVE: it issues a burst when the arbiter serves it. -/
def State.opMove (s : State) (c : Nat) : State :=
  if s.chReady c (s.chan c) && s.arbiter = some c then s.moveBurst c else s

/-- R305: a read of an old generation has ended at the landing stage. -/
def State.staleRead (s : State) (who : Option (BitVec 16 × Byte)) : State :=
  match who with
  | some (i, g) => if (s.inst i.toNat).gen = g then s else s.staleGen (some i)
  | none => s

/-- R319, R268, R305: the completion of a burst's read. Data for a program that is over or halted is discarded. -/
def State.burstReturn (s : State) (c run no n : Nat) (who : Option (BitVec 16 × Byte)) (data : Option (List Byte)) : State :=
  if (s.chan c).run ≠ run ∨ !(s.chan c).queue.any (fun b => b.no = no) then s.staleRead who
  else
    let s := match data with
      | none => (s.modChan c (fun x => { x with queue := x.queue.filter (fun b => b.no ≠ no) })).failProg c 0x06
      | some d => (s.modChan c (fun x => { x with
          queue := x.queue.map (fun (b : Burst) => if b.no = no then { b with data := some d } else b) })).statN statHostRd n
    let s := s.drain c
    if (s.chan c).ending.isSome then s.settleEnd c else s.issueFlush c

/-- R322: a flush read returns, or fails. -/
def State.opFlushReturn (s : State) (c : Nat) (ok : Bool) : State :=
  let x := s.chan c
  let mine := fun (u : TagUse) => match u with
    | .flush d run _ => d = c && run = x.run
    | .dma .. => false
  let s := { s with hep := { s.hep with tags := s.hep.tags.filter (fun e => !mine e.2) } }.checkInval
  if x.flush ≠ 2 ∨ x.st ≠ .running then s
  else
    let s := s.modChan c (fun x => { x with flush := 0 })
    if x.ending.isSome then s
    else if ok then s.gotoInstr c (x.pc + 1) else s.endProg c 0x14

/-! R320, R321, R323: LOOP, WAIT, SIGNAL, END. -/

/-- R320: LOOP. -/
def State.opLoop (s : State) (c : Nat) : State :=
  let x := s.chan c
  if x.active && x.flush = 0 && x.op = 2 then
    let b := x.instr x.pc
    let runs := Map.at_ x.loops x.pc 0 + 1
    if runs < leAt b 8 4 then
      (s.modChan c (fun x => { x with loops := Map.put x.loops x.pc runs })).gotoInstr c (leAt b 4 2)
    else (s.modChan c (fun x => { x with loops := Map.del x.loops x.pc })).gotoInstr c (x.pc + 1)
  else s

/-- R321: a WAIT's condition: counter less VALUE, as signed 32-bit, is at least 0. -/
def State.waitMet (s : State) (b : List Byte) : Bool :=
  decide (0 ≤ (s.getReg (dmaSync (leAt b 4 2)) - BitVec.ofNat 32 (leAt b 8 4)).toInt)

/-- R321: WAIT. -/
def State.opWait (s : State) (c : Nat) : State :=
  let x := s.chan c
  if x.active && x.flush = 0 && x.op = 3 then
    if s.waitMet (x.instr x.pc) then s.gotoInstr c (x.pc + 1)
    else s.modChan c (fun x => { x with st := .waiting, waitAt := s.repTime 2 })
  else s

/-- R321: a waiting channel's condition has become true. -/
def State.opWaitSatisfied (s : State) (c : Nat) : State :=
  let x := s.chan c
  if x.st = .waiting ∧ s.waitMet (x.instr x.pc) = true then s.gotoInstr c (x.pc + 1) else s

/-- R323: TIMEOUT µs have passed on replica 2. -/
def State.opWaitTimeout (s : State) (c : Nat) : State :=
  let x := s.chan c
  let t := leAt (x.instr x.pc) 12 4
  if x.st = .waiting ∧ t ≠ 0 ∧ x.waitAt + usec t ≤ s.repTime 2 then s.endProg c 0x12 else s

/-- R321: SIGNAL, once every earlier write of its channel has left. -/
def State.opSignal (s : State) (c : Nat) : State :=
  let x := s.chan c
  if x.active && x.flush = 0 && x.op = 4 && x.queue.isEmpty then
    let b := x.instr x.pc
    let r := dmaSync (leAt b 4 2)
    let s := s.setReg r (s.getReg r + BitVec.ofNat 32 (leAt b 8 4))
    let s := if bit (leAt b 1 1) 0 then
        if s.chOwner c = 0 then s.dmaEvent 0
        else match x.thread with
          | some t => s.threadEvent t.toNat (2 ^ 25)
          | none => s
      else s
    s.gotoInstr c (x.pc + 1)
  else s

/-- R322: END. -/
def State.opEnd (s : State) (c : Nat) : State :=
  let x := s.chan c
  if x.active && x.flush = 0 && x.op = 5 then s.endProg c 0x00 else s

/-- R325: a channel's next request, or one that is outstanding, needs the endpoint. -/
def Chan.needsHost (x : Chan) : Bool :=
  !x.queue.isEmpty || (decide (0 < x.flush) && x.dstHost) ||
    (x.op = 1 && decide (0 < x.issued) && (x.srcHost || x.dstHost))

/-- R268, R325: a channel halts with what it had outstanding discarded. It is at the first MOVE that had not been written in
full, with the counts that stood when that MOVE began; one that had reached END has not ended. -/
def Chan.halted (x : Chan) : Chan :=
  let y := { x with
    st := .haltedBme, run := x.run + 1, queue := [], issued := 0, flush := if x.flush = 2 then 1 else x.flush }
  match x.queue with
  | [] => y
  | b :: _ => { y with pc := b.pc, ks := b.ks, loops := b.loops, flush := 0, ending := none }

/-- R268, R325: Bus Master Enable has been cleared: channels whose work needs the endpoint halt; one that an error has ended
goes on to its end. -/
def State.haltChans (s : State) : State :=
  s.dma.ch.foldl (fun s e =>
    if (e.2.st = .running || e.2.st = .waiting) && e.2.needsHost then
      if e.2.failed then (s.modChan e.1 (fun x => { x with queue := [], run := x.run + 1 })).settleEnd e.1
      else (s.modChan e.1 Chan.halted).dmaEvent 2
    else s) s

/-- R325: at the end of a function-level reset every manager channel becomes IDLE without write-back. -/
def State.idleManagers (s : State) : State :=
  s.dma.ch.foldl (fun s e =>
    if s.chOwner e.1 = 0 && e.2.st ≠ .idle then
      s.modChan e.1 (fun x => { x with st := .idle, ending := none, flush := 0, queue := [], run := x.run + 1 })
    else s) s

/-- R323: a channel's program ends with a status at once: reads that are outstanding find no burst when they return. -/
def State.killProg (s : State) (c status : Nat) : State :=
  (s.modChan c (fun x => { x with queue := [], run := x.run + 1 })).endProg c status

/-- R305, R325: a manager channel that acts for an instance in reset ends with ABORTED; what has not landed is discarded:
data that waits here is counted now, and a read that is outstanding when it ends. -/
def State.abortFor (s : State) (i : BitVec 16) : State :=
  s.dma.ch.foldl (fun s e =>
    if s.chOwner e.1 = 0 && s.chInst e.1 = some i && e.2.st ≠ .idle then
      let s := (e.2.queue.filter (fun b => b.data.isSome)).foldl (fun s _ => s.staleGen (some i)) s
      s.killProg e.1 0x13
    else s) s

/-! R326 to R329: errors, scrub and the loss of HBM. -/

/-- R326: what the code makes of a word. -/
inductive EccResult where
  | good | corrected | uncorrectable
  deriving DecidableEq, Repr

/-- R326: SECDED over the 64 data bits and 8 check bits of a word, some of which have flipped: one is corrected, two are
detected. The spec gives the code no answer for more (log 163). -/
def State.eccOf (s : State) (flips : List (Fin 72)) : EccResult :=
  match flips.eraseDups.length with
  | 0 => .good
  | 1 => .corrected
  | 2 => .uncorrectable
  | _ => match s.freeNext % 3 with
    | 0 => .good
    | 1 => .corrected
    | _ => .uncorrectable

/-- R327: a corrected error. -/
def State.corrected (s : State) (a : Nat) : State :=
  let s := s.stat (MEM + 0x020)
  if (s.getReg64 (MEM + 0x010)).getLsbD 63 then s
  else s.setReg64 (MEM + 0x010) (BitVec.ofNat 64 (2 ^ 63 + (if a < 2 ^ 34 then 2 ^ 62 else 0) + a % 2 ^ 48))

/-- R326: a word that the code has misread holds what it then reads as, which the spec does not give. -/
def State.misread (s : State) (a : Nat) (flips : List (Fin 72)) : State :=
  if flips.eraseDups.length ≤ 2 then s else (s.writeBytes a (s.freeBytes 8)).drawn

/-- R328, R437: a scrub read of a word, with the bits of it that have flipped. -/
def State.opScrub (s : State) (a : Nat) (flips : List (Fin 72)) : State :=
  let w := a / 8 * 8
  match s.eccOf flips with
  | .good => s.misread w flips
  | .corrected => (s.misread w flips).corrected w
  | .uncorrectable => s.uncorrectable w

/-- R328, R329: a patrol scrub read of an HBM word: there is none in reduced-capacity mode, and none succeeds once HBM has
failed. -/
def State.opPatrol (s : State) (a : Nat) (flips : List (Fin 72)) : State :=
  if s.mem.reduced || !s.powered 6 || decide (2 ^ 34 ≤ a) then s
  else if s.mem.hbmFail then s.uncorrectable (a / 8 * 8) else s.opScrub a flips

/-- R328: a scrub read of packet SRAM or of a context-cache line. -/
def State.opSramScrub (s : State) (p : ScrubPlace) (flips : List (Fin 72)) : State :=
  match p with
  | .sram a =>
    if memOf a 1 = some 1 && s.powered (9 + (a - 0x001000000000) / 0x800000) then s.opScrub a flips else s
  | .cache line =>
    if 524288 ≤ line ∨ s.powered 87 = false then s
    else match s.eccOf flips with
      | .good => s
      | .corrected => s.corrected (line * 64)
      | .uncorrectable =>
        let s := (s.count cntEccUe).memEvent 1
        if s.mem.badLines.contains line then s
        else { s with mem := { s.mem with badLines := s.mem.badLines ++ [line] } }

end Sys2Proof.Machine
end

