-- ==== Sys2Proof/Machine/Pcl.lean ====
section
/-! DEFINITION. What a pipeline's program is: the parse graph (R142, R143), stages, keys and tables (R144 to R148),
actions (R151, R152), fragments (R157), and the check of a staged program (R166). -/

namespace Sys2Proof.Machine

/-! R169: registers of a pipeline. -/
abbrev pipeReg (p off : Nat) : Nat := PIPE0 + 0x10000 * p + off
abbrev pclEvt : Nat := PCL + 0x004
abbrev pipeCfg (p : Nat) : Nat := pipeReg p 0
abbrev mirrorReg (n w : Nat) : Nat := PCL + 0x1000 + 0x10 * n + 4 * w

/-- R169: bits of PCL_EVT set. -/
def State.pclEvent (s : State) (b : Nat) : State := s.setEvt pclEvt 7 (BitVec.ofNat 32 (2 ^ b))

/-- R137: a pipeline. -/
def State.pipe (s : State) (p : Nat) : Pipe := Map.at_ s.pcl p {}

/-- A pipeline is changed. -/
def State.modPipe (s : State) (p : Nat) (f : Pipe → Pipe) : State :=
  { s with pcl := Map.set s.pcl p (f (s.pipe p)) {} }

/-- R163: the replica that a pipeline reads. -/
def State.pipeTime (s : State) (p : Nat) : Nat := s.repTime (19 + p)

/-! R149: metadata. -/

abbrev fSRC : Nat := 0
abbrev fQUEUEIN : Nat := 1
abbrev fSTAMP : Nat := 2
abbrev fBOUND : Nat := 3
abbrev fLEN : Nat := 4
abbrev fPRIO : Nat := 5
abbrev fSTATUS : Nat := 6
abbrev fHDRVEC : Nat := 7
abbrev fSRCEP : Nat := 8
abbrev fDSTEP : Nat := 9
abbrev fSESSION : Nat := 10
abbrev fSTREAM : Nat := 11
abbrev fLCLASS : Nat := 12
abbrev fTEMPLATE : Nat := 13
abbrev fSA : Nat := 14
abbrev fDESTKIND : Nat := 15
abbrev fDEST : Nat := 16
abbrev fTC : Nat := 17
abbrev fPOLICER : Nat := 18
abbrev fMIRROR : Nat := 19
abbrev fCOPYQ : Nat := 20
abbrev fCOPYREASON : Nat := 21
abbrev fVERDICT : Nat := 22
abbrev fFLAGS : Nat := 23
abbrev fSCRATCH : Nat := 24
abbrev fURGENT : Nat := 25
abbrev fTSACT : Nat := 26
abbrev fPTPOFF : Nat := 27
abbrev fCSUMOFF : Nat := 28
abbrev fTSTAG : Nat := 29
abbrev fVSTAGE : Nat := 30

/-- R149: bits of the fields. -/
def fieldBits : List Nat :=
  [18, 20, 64, 16, 14, 3, 9, 64, 20, 20, 22, 7, 4, 17, 21, 3, 20, 3, 19, 7, 20, 8, 2, 64, 128, 1, 2, 9, 9, 16, 5]

/-- R149: fields that an action may write in an ingress pipeline, and in an egress pipeline. -/
def fieldWritable (egress : Bool) (n : Nat) : Bool :=
  if egress then [5, 12, 14, 19, 20, 21, 23, 24, 25, 26, 27, 28, 29].contains n
  else [5, 8, 9, 10, 11, 12, 13, 14, 15, 16, 17, 18, 19, 20, 21, 23, 24].contains n

/-! R142, R143: the parse graph. -/

/-- Bytes of a bank. -/
def bankBytes (b : PclBank) (a n : Nat) : List Byte := (List.range n).map (fun i => Map.at_ (α := Byte) b (a + i) 0)

/-- R142: a bit of a frame, most significant first; bits beyond the frame or byte 512 read as zero. -/
def frameBit (f : List Byte) (n : Nat) : Bool := decide (n / 8 < 512) && (f.getD (n / 8) 0).getLsbD (7 - n % 8)

/-- R142: a field of a frame. -/
def frameBits (f : List Byte) (off w : Nat) : Nat :=
  (List.range w).foldl (fun v i => 2 * v + (if frameBit f (off + i) then 1 else 0)) 0

/-- R142: the transition that a header takes. -/
def nextType (e f : List Byte) (off : Nat) : Option Nat :=
  let s0 := leAt e 8 4
  let s1 := leAt e 12 4
  let sel := frameBits f (off * 8 + bits s0 11 0) (bits s0 16 12) * 2 ^ bits s1 16 12 +
    frameBits f (off * 8 + bits s1 11 0) (bits s1 16 12)
  (List.range 16).findSome? (fun i =>
    let t := 0x10 + 0xC * i
    let last := leAt e (t + 8) 4
    if bit last 7 && ((BitVec.ofNat 32 sel ^^^ BitVec.ofNat 32 (leAt e t 4)) &&& BitVec.ofNat 32 (leAt e (t + 4) 4)) = 0
    then some (bits last 5 0) else none)

/-- R143: the header instances of a frame, and the parse status. -/
def parseGo (b : PclBank) (f : List Byte) : Nat → Nat → Nat → List Hdr → List Hdr × Nat
  | 0, _, _, h => (h, 3)
  | fuel + 1, t, off, h =>
    let e := bankBytes b (0x100 * t) 256
    let w0 := leAt e 0 4
    let w4 := leAt e 4 4
    let lw := bits w4 16 12
    let lbit := off * 8 + bits w4 11 0
    let lend := (lbit + lw + 7) / 8
    let len := if lw = 0 then bits w0 15 8 else frameBits f lbit lw * 2 ^ bits w4 19 17 + bits w4 31 24
    if lw ≠ 0 ∧ 512 < lend then (h, 1)
    else if lw ≠ 0 ∧ f.length < lend then (h, 2)
    else if 512 < off + len then (h, 1)
    else if f.length < off + len then (h, 2)
    else if h.length = 24 then (h, 3)
    else if len = 0 then (h, 4)
    else
      let h := h ++ [{ typ := t, off := off, len := len }]
      if bit w0 1 then (h, 0)
      else match nextType e f off with
        | some n => parseGo b f fuel n (off + len) h
        | none => (h, 0)

/-- R143: a frame is parsed from type 0. -/
def parseFrame (b : PclBank) (f : List Byte) : List Hdr × Nat := parseGo b f 26 0 0 []

/-- R143, R144: the header instance of a type and ordinal; ordinal 7 is the last. -/
def hdrOf (h : List Hdr) (typ ord : Nat) : Option Hdr :=
  let l := h.filter (fun x => x.typ = typ)
  if ord = 7 then l.getLast? else l[ord]?

/-! R157, R158, R160: fragments. -/

/-- R157: an item is a fragment: its first FRAG4 or FRAG6 header shows an offset or more fragments. The IPv6 header
before a Fragment header is the last instance of 40 bytes whose version is 6. -/
def fragInfo (b : PclBank) (f : List Byte) (h : List Hdr) : Option FragInfo :=
  let mark := fun (x : Hdr) => bits (leAt (bankBytes b (0x100 * x.typ) 4) 0 4) 3 2
  let rec go : List Hdr → List Hdr → Option FragInfo
    | _, [] => none
    | before, x :: t =>
      let m := mark x
      if bit m 0 then
        let w := beAt f (x.off + 6) 2
        if bits w 12 0 = 0 ∧ bit w 13 = false then none
        else some { key := slicePad f (x.off + 12) 8 ++ slicePad f (x.off + 4) 2 ++ slicePad f (x.off + 9) 1
                    off := 8 * bits w 12 0, more := bit w 13
                    payload := beAt f (x.off + 2) 2 - 4 * (beAt f x.off 1 % 16) }
      else if bit m 1 then
        let w := beAt f (x.off + 2) 2
        if bits w 15 3 = 0 ∧ bit w 0 = false then none
        else
          let ip := (before.filter (fun y => y.len = 40 && beAt f y.off 1 / 16 = 6)).getLast?
          let io := (ip.map (fun (y : Hdr) => y.off)).getD 0
          some { key := slicePad f (io + 8) 32 ++ slicePad f (x.off + 4) 4 ++ slicePad f x.off 1
                 off := 8 * bits w 15 3, more := bit w 0
                 payload := beAt f (io + 4) 2 + io + 40 - (x.off + 8) }
      else go (before ++ [x]) t
  go [] h

/-! R144: stages and keys. -/

/-- R170: a stage's configuration. -/
def stageCfg (b : PclBank) (st : Nat) : List Byte := bankBytes b (0x4000 + 0x100 * st) 256
def cfgKind (c : List Byte) : Nat := bits (leAt c 0 4) 3 0
def cfgTarget (c : List Byte) : Nat := bits (leAt c 0 4) 7 4
def cfgEsize (c : List Byte) : Nat := 16 * 2 ^ bits (leAt c 0 4) 9 8
def cfgAdata (c : List Byte) : Nat := bits (leAt c 0 4) 21 16
def cfgFrag (c : List Byte) (i : Nat) : Nat := leAt c (0x20 + 8 * i) 8

/-- R144: width of a fragment. -/
def fragWidth (v : Nat) : Nat := bits v 42 36 + 1

/-- R144: header bits of an item: none where the instance was not parsed or is too short. -/
def hdrBits (i : Item) (typ ord byte bt w : Nat) : Option Nat :=
  match hdrOf i.hdrs typ ord with
  | some h =>
    let start := byte * 8 + bt
    if start + w ≤ h.len * 8 then some (frameBits i.frame (h.off * 8 + start) w) else none
  | none => none

/-- R144: a key fragment. -/
def fragValue (i : Item) (v : Nat) : Option Nat :=
  if bit v 62 then some (i.fld (bits v 61 56) / 2 ^ bits v 52 44 % 2 ^ fragWidth v)
  else hdrBits i (bits v 61 56) (bits v 55 53) (bits v 52 44) (bits v 35 33) (fragWidth v)

/-- R144: a key: presence mask, value, width, and whether every fragment was present. -/
structure Key where
  mask  : Nat := 0
  value : Nat := 0
  width : Nat := 0
  all   : Bool := true
  deriving DecidableEq, Repr

/-- R144: a stage's key. -/
def stageKey (c : List Byte) (i : Item) : Key :=
  (List.range 8).foldl (fun (k : Key) j =>
    let v := cfgFrag c j
    if bit v 63 then
      let x := fragValue i v
      { mask := k.mask + (if x.isSome then 2 ^ (7 - j) else 0)
        value := k.value * 2 ^ fragWidth v + x.getD 0
        width := k.width + fragWidth v
        all := k.all && x.isSome }
    else k) {}

/-- R146: a number of bits as bytes, most significant first, the last padded with zero bits. -/
def keyBytes (v w : Nat) : List Byte := beBytes ((w + 7) / 8) (v * 2 ^ ((8 - w % 8) % 8))

/-- R146: the Castagnoli CRC with an initial register and final complement. -/
def crcSeed (init : Word) (m : List Byte) : Word := ~~~(m.foldl (crcByte 0x82F63B78) init)

/-- R146: the two buckets of a key in a table of n entries. -/
def bucketA (seed : Word) (key : List Byte) (n : Nat) : Nat := (crcSeed seed key).toNat % (n / 4)
def bucketB (seed : Word) (key : List Byte) (n : Nat) : Nat := (crcSeed (seed ^^^ 0xFFFFFFFF) key).toNat % (n / 4)

/-- R144, R151: the bytes of a stage's key: with the presence mask for hashed and ternary tables. -/
def keyOfKind (kind : Nat) (k : Key) : List Byte :=
  if kind = 2 ∨ kind = 3 then keyBytes (k.mask * 2 ^ k.width + k.value) (8 + k.width) else keyBytes k.value k.width

/-! R145, R146, R148: local tables. -/

/-- A found entry: its action and its action data. -/
structure Found where
  act   : Nat
  adata : List Byte
  deriving DecidableEq, Repr

/-- R148: an entry of a stage's bank. -/
def bankEntry (b : PclBank) (st es i : Nat) : List Byte := bankBytes b (0x100000 + 0x10000 * st + i * es) es

/-- R145, R148: a direct-indexed lookup. -/
def lookDirect (b : PclBank) (c : List Byte) (st : Nat) (k : Key) : Option Found :=
  let es := cfgEsize c
  if !k.all || decide (min (2 ^ k.width) (65536 / es) ≤ k.value) then none
  else
    let e := bankEntry b st es k.value
    if bit (leAt e 0 1) 7 then some { act := leAt e 1 1, adata := slice e 4 (cfgAdata c) } else none

/-- R146, R148: a hashed lookup: of two valid entries that hit, the lower-addressed one. -/
def lookHashed (b : PclBank) (c : List Byte) (st : Nat) (k : Key) : Option Found :=
  let es := cfgEsize c
  let n := 65536 / es
  let kb := keyOfKind 2 k
  let seed := BitVec.ofNat 32 (leAt c 4 4)
  let a := bucketA seed kb n
  let bb := bucketB seed kb n
  let slots := fun (x : Nat) => (List.range 4).map (fun j => x * 4 + j)
  (slots (min a bb) ++ slots (max a bb)).findSome? (fun i =>
    let e := bankEntry b st es i
    if bit (leAt e 0 1) 7 && slice e 4 kb.length = kb then
      some { act := leAt e 1 1, adata := slice e (4 + kb.length) (cfgAdata c) }
    else none)

/-- R145, R146, R148: a ternary lookup: the lowest-numbered matching entry of the stage's blocks. -/
def lookTernary (b : PclBank) (c : List Byte) (k : Key) : Option Found :=
  let first := bits (leAt c 8 4) 3 0
  let count := bits (leAt c 8 4) 8 4
  let kv := beNat (keyOfKind 3 k ++ List.replicate (40 - (keyOfKind 3 k).length) 0)
  (List.range (1024 * count)).findSome? (fun j =>
    let e := bankBytes b (0x1000000 + 0x80 * (1024 * first + j)) 128
    if bit (leAt e 80 1) 7 && (Nat.xor kv (beAt e 0 40)).land (beAt e 40 40) = 0 then
      some { act := leAt e 81 1, adata := slice e 84 32 }
    else none)

/-! R151, R152: actions. -/

/-- R151: where an action's primitives read from. -/
structure ActCtx where
  adata  : Nat := 0
  result : Nat := 0
  key    : List Byte := []
  stage  : Nat := 0
  deriving DecidableEq, Repr

/-- R151, R152: a primitive: the item after it, and whether the action goes on. -/
def primitive (x : ActCtx) (i : Item) (v : Nat) : Item × Bool :=
  let dst := bits v 59 54
  let w := bits v 53 47 + 1
  let db := bits v 46 40
  let put := fun (n : Nat) => (i.setFld dst (putBits (i.fld dst) (db + w - 1) db n), true)
  match bits v 63 60 with
  | 0 => (i, false)
  | 1 => put (x.adata / 2 ^ bits v 39 32)
  | 2 => put ((hdrBits i (bits v 39 34) (bits v 33 31) (bits v 30 22) (bits v 21 19) w).getD 0)
  | 3 => put (i.fld (bits v 39 34) / 2 ^ bits v 33 27)
  | 4 => put (x.result / 2 ^ bits v 39 32)
  | 5 => (i.setFld fFLAGS ((Nat.lor (i.fld fFLAGS) (bits v 31 0 * 2 ^ db)) % 2 ^ 64), true)
  | 6 =>
    let verdict := bits v 1 0
    if verdict = 3 then ({ i.setFld fVERDICT 3 with dropped := true }.setFld fVSTAGE x.stage, false)
    else
      let i := (i.setFld fVERDICT verdict).setFld fVSTAGE x.stage
      (if verdict = 2 then i.setFld fCOPYREASON (bits v 15 8) else i, true)
  | 7 => put ((crcSeed (BitVec.ofNat 32 (bits v 31 0)) x.key).toNat)
  | _ => (i, true)

/-- R151: primitives run in order until an END or a DROP. -/
def runPrims (x : ActCtx) : Item → List Nat → Item
  | i, [] => i
  | i, v :: t =>
    let (i, more) := primitive x i v
    if more then runPrims x i t else i

/-- R151: an action of a bank. -/
def runAction (b : PclBank) (a : Nat) (x : ActCtx) (i : Item) : Item :=
  let e := bankBytes b (0x5000 + 0x40 * a) 64
  runPrims x i ((List.range 8).map (fun j => leAt e (8 * j) 8))

/-! R164, R165: which bank serves an item. -/

/-- R164: an item uses the new banks of the swap that stands. -/
def Pipe.newBank (p : Pipe) (i : Item) : Bool :=
  match p.swap with
  | some w => decide (w.time.toNat ≤ i.swapT.toNat)
  | none => false

/-- R164, R165: the bank of the program (none) or of a stage for an item: the old one of the first swap since its intake whose
activation time it precedes, or of the swap that stands; else the new one. -/
def Pipe.bankFor (p : Pipe) (i : Item) (what : Option Nat) : PclBank :=
  let named := fun (m : BitVec 17) => m.getLsbD 16 || (match what with | some st => m.getLsbD st | none => false)
  match p.olds.find? (fun o => decide (i.bankGen ≤ o.gen) && named o.mask && decide (i.swapT.toNat < o.time.toNat)) with
  | some o => o.bank
  | none =>
    match p.swap with
    | some w => if named w.mask && p.newBank i then p.staged else p.active
    | none => p.active

/-! R4: reserved bits of the staging and maquette windows. -/

/-- A bit mask of the bits [hi:lo] of a little-endian row of bytes, at one of its bytes. -/
def maskByte (fields : List (Nat × Nat)) (n : Nat) : Nat :=
  (List.range 8).foldl (fun m k => if fields.any (fun (f : Nat × Nat) => decide (f.2 ≤ 8 * n + k) && decide (8 * n + k ≤ f.1))
    then m + 2 ^ k else m) 0

/-- R142: the fields of a header type's entry, by bit. -/
def typeFields : List (Nat × Nat) :=
  [(3, 0), (15, 8), (51, 32), (63, 56), (80, 64), (112, 96)] ++ (List.range 16).flatMap (fun i =>
    let b := 8 * (0x10 + 0xC * i)
    [(b + 69, b), (b + 71, b + 71)])

/-- R170: the fields of a stage configuration, by bit. -/
def stageFields : List (Nat × Nat) := [(9, 0), (21, 16), (63, 32), (72, 64), (119, 96), (767, 128)]

/-- R4, R142, R148, R170: the bits that a byte of a window holds; reserved ones read zero. In a stage bank bytes 2 and 3 of an
entry are reserved, whose size, 16, 32 or 64 bytes, divides 64; which other bytes are rests on the configuration that will read
them: they hold what is written (log 133). -/
def windowMask (o : Nat) : Nat :=
  if o < 0x4000 then maskByte typeFields (o % 0x100)
  else if o < 0x5000 then maskByte stageFields (o % 0x100)
  else if o < 0x1000000 then (if o % 64 = 2 ∨ o % 64 = 3 then 0 else 255)
  else
    let k := o % 0x80
    if k < 80 then 255 else if k = 80 then 128 else if k = 81 ∨ (84 ≤ k ∧ k < 116) then 255 else 0

/-! R166: the check of a staged program. -/

/-- The first number below a bound that fails a check. -/
def firstBad (n : Nat) (bad : Nat → Bool) : Option Nat := (List.range n).find? bad

/-- R166 STATUS 1: a header type fails. -/
def badType (b : PclBank) (t : Nat) : Bool :=
  let e := bankBytes b (0x100 * t) 256
  let def_ := fun (u : Nat) => bit (leAt (bankBytes b (0x100 * u) 4) 0 4) 0
  let w4 := leAt e 4 4
  if !def_ t then t = 0
  else (List.range 16).any (fun i => bit (leAt e (0x18 + 0xC * i) 4) 7 && !def_ (bits (leAt e (0x18 + 0xC * i) 4) 5 0)) ||
    (bits w4 16 12 ≠ 0 && decide (4096 < bits w4 11 0 + bits w4 16 12)) || decide (16 < bits w4 16 12) ||
    decide (16 < bits (leAt e 8 4) 16 12) || decide (16 < bits (leAt e 12 4) 16 12)

/-- R144: the width of a stage's key. -/
def cfgWidth (c : List Byte) : Nat :=
  (List.range 8).foldl (fun w j => if bit (cfgFrag c j) 63 then w + fragWidth (cfgFrag c j) else w) 0

/-- R166 STATUS 2: a stage fails. -/
def badStage (b : PclBank) (st : Nat) : Bool :=
  let c := stageCfg b st
  let kind := cfgKind c
  let w := cfgWidth c
  let first := bits (leAt c 8 4) 3 0
  let count := bits (leAt c 8 4) 8 4
  let meta_ := (List.range 8).any (fun j => bit (cfgFrag c j) 63 && bit (cfgFrag c j) 62 && decide (30 < bits (cfgFrag c j) 61 56))
  if 4 < kind then true
  else if meta_ then true
  else if 32 < cfgAdata c then true
  else match kind with
    | 0 => false
    | 1 => decide (20 < w) || bits (leAt c 0 4) 9 8 = 3 || decide (cfgEsize c < 4 + cfgAdata c)
    | 2 => decide (320 < w + 8) || bits (leAt c 0 4) 9 8 = 3 || decide (cfgEsize c < 4 + (w + 15) / 8 + cfgAdata c)
    | 3 => decide (320 < w + 8) || (count ≠ 0 && (decide (16 < first + count) || (List.range 16).any (fun o =>
        let d := stageCfg b o
        let f := bits (leAt d 8 4) 3 0
        let n := bits (leAt d 8 4) 8 4
        o ≠ st && cfgKind d = 3 && n ≠ 0 && decide (first < f + n ∧ f < first + count))))
    | _ => match cfgTarget c with
      | 0 => decide (20 < w)
      | 1 => decide (64 < w)
      | 2 => decide (320 < w)
      | 3 => decide (20 < w)
      | _ => true

/-- R166 STATUS 3: a primitive fails. -/
def badPrim (egress : Bool) (v : Nat) : Bool :=
  let dst := bits v 59 54
  let w := bits v 53 47 + 1
  let db := bits v 46 40
  let badDst := !fieldWritable egress dst || decide (fieldBits.getD dst 0 < db + w)
  match bits v 63 60 with
  | 0 => false
  | 1 => badDst || decide (256 < bits v 39 32 + w)
  | 2 => badDst || decide (4096 < bits v 30 22 * 8 + bits v 21 19 + w)
  | 3 => badDst || decide (fieldBits.getD (bits v 39 34) 0 < bits v 33 27 + w)
  | 4 => badDst || decide (256 < bits v 39 32 + w)
  | 5 => decide (63 < db)
  | 6 => false
  | 7 => badDst || decide (32 < w)
  | _ => true

/-- R166: an action fails: one of its primitives up to an END does. -/
def badPrims (egress : Bool) : List Nat → Bool
  | [] => false
  | v :: t => if bits v 63 60 = 0 then false else badPrim egress v || badPrims egress t

/-- An action entry is not as the rules of its primitives ask. -/
def badAction (b : PclBank) (egress : Bool) (a : Nat) : Bool :=
  let e := bankBytes b (0x5000 + 0x40 * a) 64
  badPrims egress ((List.range 8).map (fun j => leAt e (8 * j) 8))

/-- R166: the STATUS and DETAIL of a staged program. -/
def checkProgram (b : PclBank) (egress : Bool) : Nat × Nat :=
  match firstBad 64 (badType b) with
  | some t => (1, t)
  | none =>
    match firstBad 16 (badStage b) with
    | some t => (2, t)
    | none =>
      match firstBad 256 (badAction b egress) with
      | some a => (3, a)
      | none => (0, 0)

end Sys2Proof.Machine
end

