-- ==== Sys2Proof/Machine/PclFlow.lean ====
section
/-! DEFINITION. Items in the pipelines: intake (R138 to R141, R150), stages, exits (R153 to R156), the fragment table
(R158 to R160), maquette banks and swaps (R161 to R167). -/

namespace Sys2Proof.Machine

/-- R138: the internal intake holds 64 items, and its sources then hold theirs. -/
def Pipe.internalFull (x : Pipe) : Bool := decide (64 ≤ x.ret.length + x.host.length + x.thread.length)

/-- R138: a host frame of the transport engine joins the internal intake, or is held. -/
def Pipe.handHost (x : Pipe) (i : Item) : Pipe :=
  if x.internalFull || !x.held.isEmpty then { x with held := x.held ++ [i] } else { x with host := x.host ++ [i] }

/-- R138: the internal intake has room again, and takes the first held frame. -/
def Pipe.pull (x : Pipe) : Pipe :=
  match x.held with
  | i :: t => if x.internalFull then x else { x with host := x.host ++ [i], held := t }
  | [] => x

/-- R137: how many items a pipeline holds between intake and exit. -/
def Pipe.inflight (p : Pipe) : Nat := p.flight.length

/-- An item of a pipeline's flight is replaced. -/
def State.setFlight (s : State) (p idx : Nat) (i : Item) : State :=
  s.modPipe p (fun x => { x with flight := x.flight.set idx i })

/-- An item leaves a pipeline's flight. -/
def State.leaveFlight (s : State) (p idx : Nat) : State :=
  s.modPipe p (fun x => { x with flight := x.flight.eraseIdx idx })

/-! R158 to R160: the fragment table. -/

/-- R158: the fields of a stored decision. -/
def decisionFields : List Nat := [22, 30, 15, 16, 13, 14, 17, 18, 19, 20, 21, 12, 8, 9]

/-- R158: an item's decision. -/
def Item.decision (i : Item) : Map Nat := decisionFields.foldl (fun m n => Map.set m n (i.fld n) 0) []

/-- R159: an item takes a stored decision. -/
def Item.take (i : Item) (d : Map Nat) : Item :=
  { decisionFields.foldl (fun (i : Item) n => i.setFld n (Map.at_ d n 0)) i with stage := 16, stored := true }

/-- R160: an entry serves a fragment: it is used now, sums the payload, and is removed when the sum has reached the
total. -/
def Frag.serve (e : Frag) (f : FragInfo) (now : Nat) : Option Frag :=
  let total := if f.more then e.total else some (f.off + f.payload)
  let sum := e.sum + f.payload
  match total with
  | some t => if t ≤ sum then none else some { e with total := total, sum := sum, used := now }
  | none => some { e with total := total, sum := sum, used := now }

/-- R152: a stage drops an item: it is counted and refused at once. -/
def State.stageDrop (s : State) (p : Nat) (i : Item) : State :=
  (s.count (pipeReg p (0x800 + 4 * i.fld fVSTAGE))).dropItem i

/-- R158, R159: a first fragment stores its decision, and the fragments held for it leave with it. -/
def State.storeFrag (s : State) (p : Nat) (i : Item) : State :=
  match i.frag with
  | none => s
  | some f =>
    if f.off ≠ 0 || !(s.getReg (pipeCfg p)).getLsbD 20 || i.stored then s
    else
      let old := (s.pipe p).frags.filter (fun e => e.key ≠ f.key)
      if 4096 ≤ old.length then s.count (pipeReg p 0x848)
      else
        let e : Frag := { key := f.key, dec := i.decision, drop := i.dropped, total := none, sum := 0, used := s.clock }
        let new := match e.serve f s.clock with | some e => old ++ [e] | none => old
        let dec := i.decision
        let go := (s.pipe p).early.filter (fun h => h.1.frag.map (fun (x : FragInfo) => x.key) = some f.key)
        let stay := (s.pipe p).early.filter (fun h => h.1.frag.map (fun (x : FragInfo) => x.key) ≠ some f.key)
        let s := s.modPipe p (fun x => { x with
          frags := new, early := stay
          flight := (if i.dropped then [] else go.map (fun h => h.1.take dec)) ++ x.flight })
        go.foldl (fun s h =>
          let s := match h.1.frag with
            | some g => s.modPipe p (fun x => { x with frags := x.frags.filterMap (fun e =>
                if e.key = g.key then e.serve g s.clock else some e) })
            | none => s
          if i.dropped then s.stageDrop p (h.1.take dec) else s) s

/-! R144, R145, R151: stages. -/

/-- R169: a stage's hit or miss is counted. -/
def State.countHit (s : State) (p st : Nat) (hit : Bool) : State :=
  s.stat (pipeReg p (0x200 + 0x10 * st + (if hit then 0 else 8)))

/-- R144 to R147, R151: an item's stages run until one asks a global table, drops it, or all have run. -/
def State.runStages (p : Nat) : Nat → State → Item → State × Item
  | 0, s, i => (s, i)
  | fuel + 1, s, i =>
    if 16 ≤ i.stage || i.dropped then (s, i) else
      let st := i.stage
      let prog := (s.pipe p).bankFor i none
      let c := stageCfg prog st
      let kind := cfgKind c
      if (i.fld fFLAGS).land (leAt c 0x10 8) ≠ leAt c 0x18 8 ∨ kind = 0 then
        State.runStages p fuel s { i with stage := st + 1 }
      else
        let k := stageKey c i
        if kind = 4 then
          if k.all then (s, { i with want := some k.value, wantAt := s.clock })
          else
            let x : ActCtx := { key := keyBytes k.value k.width, stage := st }
            State.runStages p fuel (s.countHit p st false)
              (runAction prog (bits (leAt c 0xC 4) 23 16) x { i with stage := st + 1 })
        else
          let b := (s.pipe p).bankFor i (some st)
          let found := match kind with
            | 1 => lookDirect b c st k
            | 2 => lookHashed b c st k
            | _ => lookTernary b c k
          let act := match found with | some f => f.act | none => bits (leAt c 0xC 4) 7 0
          let x : ActCtx := { adata := match found with | some f => leNat f.adata | none => 0
                              key := keyOfKind kind k, stage := st }
          State.runStages p fuel (s.countHit p st found.isSome) (runAction prog act x { i with stage := st + 1 })

/-- R152: an item of the flight that a stage dropped leaves at once; a first fragment stores its decision. -/
def State.settleItem (s : State) (p idx : Nat) : State :=
  match (s.pipe p).flight[idx]? with
  | some i =>
    if i.dropped then ((s.leaveFlight p idx).storeFrag p i).stageDrop p i else s
  | none => s

/-- R137, R147, R151, R177: a global lookup's answer lets the item's stages go on. A timeout, which an answer after more
than 2 µs is, is a miss. -/
def State.answerLookup (s : State) (p idx : Nat) (found : Option Nat) (timeout : Bool) : State :=
  match (s.pipe p).flight[idx]? with
  | some i =>
    match i.want with
    | some k =>
      let tmo := timeout || decide (i.wantAt + usec 2 < s.clock)
      let res := if tmo then none else found
      let st := i.stage
      let prog := (s.pipe p).bankFor i none
      let c := stageCfg prog st
      let i := { i with stage := st + 1, want := none,
                        learn := if decide (p < 4) && cfgTarget c = 1 then Map.put i.learn st res else i.learn }
      let i := if tmo then i.setFld fSTATUS (Nat.lor (i.fld fSTATUS) 64) else i
      let s := if tmo then s.count (pipeReg p 0x844) else s
      let x : ActCtx := { result := res.getD 0, key := keyBytes k (stageKey c i).width, stage := st }
      let a := if res.isSome then bits (leAt c 0xC 4) 15 8 else bits (leAt c 0xC 4) 23 16
      let (s, i) := State.runStages p 17 (s.countHit p st res.isSome) (runAction prog a x i)
      (s.setFlight p idx i).settleItem p idx
    | none => s
  | none => s

/-- R137: a lookup has not answered within 2 µs. -/
def State.opLookupTimeout (s : State) (p idx : Nat) : State :=
  match (s.pipe p).flight[idx]? with
  | some i => if i.want.isSome && s.due i.wantAt (usec 2) then s.answerLookup p idx none true else s
  | none => s

/-- R147: the target table and key of the lookup that an item waits for. -/
def State.wanted (s : State) (p idx : Nat) : Option (Nat × Nat) :=
  match (s.pipe p).flight[idx]? with
  | some i => i.want.map (fun k => (cfgTarget (stageCfg ((s.pipe p).bankFor i none) i.stage), k))
  | none => none

/-! R138 to R141, R150, R162: intake. -/

/-- R138: a descriptor enters the port intake buffer before another: the one complete first, then by raw stamp, then
the lower MAC. -/
def Item.enters (a b : Item) : Bool :=
  decide (a.ready < b.ready) || (decide (a.ready = b.ready) && (decide (a.tag.raw.time.toNat < b.tag.raw.time.toNat) ||
    (decide (a.tag.raw.time = b.tag.raw.time) && decide (a.src < b.src))))

/-- R138: the port intake buffer with one more descriptor. -/
def intakeJoin (l : List Item) (i : Item) : List Item :=
  l.takeWhile (fun x => !i.enters x) ++ i :: l.dropWhile (fun x => !i.enters x)

/-- R138: the next item, and the pipeline without it. In 32 clocks an internal item goes at least once while one
waits. -/
def Pipe.next (x : Pipe) (clock : Nat) : Option (Item × Pipe) :=
  let internal := !x.ret.isEmpty || !x.host.isEmpty || !x.thread.isEmpty
  let there := match x.port with
    | i :: _ => decide (i.ready ≤ clock)
    | [] => false
  if there && (!internal || decide (x.portRun < 31)) then
    match x.port with
    | i :: t => some (i, { x with port := t, portRun := if internal then x.portRun + 1 else 0 })
    | [] => none
  else match x.ret with
    | i :: t => some (i, { x with ret := t, portRun := 0 })
    | [] =>
      let takeThread := match x.host, x.thread with
        | [], _ :: _ => true
        | _ :: _, _ :: _ => x.thrTurn
        | _, [] => false
      match takeThread, x.host, x.thread with
      | true, _, i :: t => some (i, { x with thread := t, thrTurn := false, portRun := 0 })
      | false, i :: t, _ => some (i, { x with host := t, thrTurn := true, portRun := 0 })
      | _, _, _ => none

/-- R140: an item would meet no program. -/
def Pipe.noProgram (x : Pipe) (swapT : BitVec 64) : Bool :=
  !x.valid && (match x.swap with
    | some w => !w.mask.getLsbD 16 || decide (swapT.toNat < w.time.toNat)
    | none => true)

/-- R150: the fields that a frame carries to an egress pipeline. -/
def egressFields (i : Item) : Map Nat :=
  [fPRIO, fSRCEP, fDSTEP, fDEST, fTC, fURGENT].foldl (fun m n => Map.set m n (i.fld n) 0)
    (Map.set [(fDESTKIND, 1)] fFLAGS (i.fld fFLAGS % 2 ^ 32) 0)

/-- R150: the metadata at intake. DESIGN CHOICE (log 166): VSTAGE starts as 31 in egress too, as R149 gives it for no stage. -/
def State.intakeFields (s : State) (p : Nat) (i : Item) : Item :=
  let i := { i with fields := if p < 4 then [] else egressFields i }
  let i := ((((((i.setFld fSRC i.src).setFld fQUEUEIN (if p < 4 then i.queueIn else 0)).setFld fSTAMP i.tag.raw.time.toNat).setFld
    fBOUND i.tag.raw.bound.toNat).setFld fLEN i.frame.length).setFld fCOPYQ (s.regBits (pipeCfg p) 19 0)).setFld fVSTAGE 31
  if p < 4 then (i.setFld fPRIO i.prio).setFld fSRCEP i.srcEp else i

/-- R143, R149, R157: the item is parsed, and STATUS and HDRVEC set. -/
def State.parseItem (s : State) (p : Nat) (i : Item) : State × Item :=
  let b := (s.pipe p).bankFor i none
  let (h, st) := parseFrame b i.frame
  let fr := fragInfo b i.frame h
  let i := { i with hdrs := h, frag := fr }
  let status := st + (if i.unprot && decide (p < 4) then 16 else 0) + (if i.pass then 32 else 0) +
    (match fr with | some f => 128 + (if f.off = 0 then 256 else 0) | none => 0)
  let vec := h.foldl (fun v x => Nat.lor v (2 ^ x.typ)) 0
  (if st ≠ 0 then s.stat (pipeReg p 0x120) else s, (i.setFld fSTATUS status).setFld fHDRVEC vec)

/-- R159: a fragment that is no first fragment: a stored decision, the early store, or COPY_Q. -/
def State.laterFrag (s : State) (p : Nat) (i : Item) (f : FragInfo) : State :=
  match (s.pipe p).frags.find? (fun e => e.key = f.key) with
  | some e =>
    let s := s.modPipe p (fun x => { x with frags := x.frags.filterMap (fun e =>
      if e.key = f.key then e.serve f s.clock else some e) })
    let s := s.stat (pipeReg p 0x128)
    let i := i.take e.dec
    if e.drop then s.stageDrop p i else s.modPipe p (fun x => { x with flight := x.flight ++ [i] })
  | none =>
    let s := s.retireItem i
    let i := { i with token := none }
    if (s.pipe p).early.length < 64 then s.modPipe p (fun x => { x with early := x.early ++ [(i, s.repTime (19 + p))] })
    else
      let i := ((i.setFld fVERDICT 2).setFld fCOPYREASON 0x81).setFld fCOPYQ (s.regBits (pipeCfg p) 19 0)
      (s.count (pipeReg p 0x84C)).modPipe p (fun x => { x with flight := x.flight ++ [{ i with stage := 16 }] })

/-- R140, R162, R164: an item enters a pipeline that has a program. -/
def State.enterPipe (s : State) (p : Nat) (i : Item) : State :=
  let x := s.pipe p
  let late := decide (0 < x.swaps) && decide (i.swapT.toNat < x.lastT.toNat)
  let s := if late then s.count (pipeReg p 0x854) else s
  let i := { i with bankGen := x.swaps }
  let s := if x.firstDue then s.modPipe p (fun x => { x with firstDue := false, firstT := i.swapT }) else s
  let s := match x.swap with
    | some w => if x.newBank i && !w.first then s.modPipe p (fun x => { x with
        swap := some { w with first := true }, firstT := i.swapT }) else s
    | none => s
  let (s, i) := s.parseItem p i
  match i.frag with
  | some f =>
    if f.off ≠ 0 && (s.getReg (pipeCfg p)).getLsbD 20 then s.laterFrag p i f
    else
      let (s, i) := State.runStages p 17 s i
      let n := (s.pipe p).flight.length
      (s.modPipe p (fun x => { x with flight := x.flight ++ [i] })).settleItem p n
  | none =>
    let (s, i) := State.runStages p 17 s i
    let n := (s.pipe p).flight.length
    (s.modPipe p (fun x => { x with flight := x.flight ++ [i] })).settleItem p n

/-- R138, R140: a pipeline takes one item, or refuses it. DESIGN CHOICE (log 169): a mirror copy for a MAC runs no stage
and stands under R155's length check only, so it passes a pipeline that R140 would have refuse it. -/
def State.opIntake (s : State) (p : Nat) : State :=
  if !s.powered (49 + p) then s else
    match (s.pipe p).next s.clock with
    | none => s
    | some (i, x) =>
      let s := s.modPipe p (fun _ => x.pull)
      let port := i.src < 2 ^ 16
      let i := if i.pass then i else
        { i with swapT := if port && i.tag.raw.bound ≠ 0xFFFF then i.tag.raw.time else BitVec.ofNat 64 (s.pipeTime p) }
      let i := { s.intakeFields p i with
        orig := i.frame, stage := 0, want := none, learn := [], stored := false, dropped := false }
      let s := s.stat (pipeReg p 0x100)
      if i.copy then s.modPipe p (fun x => { x with flight := x.flight ++ [{ i with stage := 16 }] })
      else if !(s.getReg (pipeCfg p)).getLsbD 31 || (s.pipe p).noProgram i.swapT then (s.count (pipeReg p 0x864)).dropItem i
      else s.enterPipe p i

/-! R153 to R156: exits. -/

/-- R297, R301: a frame is delivered to a global queue. -/
def State.deliverItem (s : State) (p : Nat) (i : Item) (q : Nat) (copy : Bool) : State :=
  let flags := (if copy then 2 ^ 11 else 0) + (if i.tag.inc.isSome then 2 ^ 12 else 0)
  let detail := (if copy then i.fld fCOPYREASON * 2 ^ 24 else 0) + p * 2 ^ 21 + i.src
  (s.retireItem i).deliver { queue := q, data := i.frame, stamp := some i.tag.raw, detail := BitVec.ofNat 32 detail
                             flags := BitVec.ofNat 16 flags, bufs := i.bufs, entry := i.entry }

/-- R236: the leaf that a frame for a MAC enters; 2^21 where none is found. -/
def State.leafOf (s : State) (i : Item) (m tc : Nat) : Nat :=
  let cfg := s.getReg (TMG + 0xC00 + 8 * (8 * m + tc))
  if bit (i.fld fSCRATCH) 108 then bits (i.fld fSCRATCH) 107 88
  else if i.src / 2 ^ 16 = 2 ∨ i.src / 2 ^ 16 = 1 then i.queueIn
  else if m < 16 ∧ cfg.getLsbD 31 then bits cfg.toNat 19 0 else 2 ^ 21

/-- R155: a copy of a frame goes to a mirror session, in buffers of the pipelines' own. -/
def State.mirrorCopy (s : State) (p : Nat) (i : Item) (frame : List Byte) (n : Nat) : State :=
  let w0 := s.getReg (mirrorReg n 0)
  let w1 := s.getReg (mirrorReg n 1)
  if !w0.getLsbD 31 then s
  else
    let trunc := bits w1.toNat 29 16
    let f := if trunc = 0 then frame else frame.take trunc
    match s.allocLen 38 0 false f.length none with
    | (.granted h, s) =>
      let c : Item := { frame := f, orig := f, tag := i.tag, src := i.src, bufs := [h], copy := true }
      let s := s.stat (pipeReg p 0x110)
      match bits w0.toNat 30 29 with
      | 0 =>
        let m := bits w0.toNat 27 24
        let tc := bits w1.toNat 2 0
        let leaf := s.leafOf i m tc
        { s with tmg := { s.tmg with input := s.tmg.input ++ [((c.setFld fDEST m).setFld fTC tc, leaf)] } }
      | 1 => s.deliverItem p c (bits w0.toNat 19 0) false
      | _ => s.freeBufs 38 [h]
    | (_, s) => s

/-- R153: a frame that its policer passed and the rewrite left goes to its destination. -/
def State.route (s : State) (p : Nat) (i : Item) : State :=
  match i.fld fDESTKIND with
  | 1 =>
    { s with tmg := { s.tmg with input := s.tmg.input ++ [(i, s.leafOf i (i.fld fDEST) (i.fld fTC))] } }
  | 2 => s.deliverItem p i (i.fld fDEST) false
  | 4 => s.modPipe p (fun x => { x with ret := x.ret ++ [{ i with pass := true }] })
  | _ => s

/-- R120, R122: a frame joins a MAC's transmit store, unless the MAC's link is down or its EN is 0. R327: it is read from
its buffers. -/
def State.toStore (s : State) (m : Nat) (i : Item) : State :=
  if !(s.mac m).link || !s.macEn m then (s.stat (macReg m 0x438)).dropItem i
  else match s.badBuf i.bufs i.frame.length with
    | some h => (s.poisonDrop h).dropItem i
    | none => s.modMac m (fun c => { c with store := c.store ++ [i] })

/-! R119, R120: a MAC's frames keep their order past the cipher lanes. While one of them is at a lane, those behind it
wait; the one at the lane stands in the list as none. -/

/-- R120: a frame handed over for transmission. -/
def State.txPass (s : State) (m : Nat) (i : Item) : State :=
  if (s.mac m).txHold.isEmpty then s.toStore m i else s.modMac m (fun c => { c with txHold := c.txHold ++ [some i] })

/-- R119: a received frame goes to the pipeline. -/
def State.rxPass (s : State) (m : Nat) (i : Item) : State :=
  if (s.mac m).rxHold.isEmpty then s.modPipe (s.macPipe m) (fun x => { x with port := intakeJoin x.port i })
  else s.modMac m (fun c => { c with rxHold := c.rxHold ++ [some i] })

/-- The frames that go on once the first of a list has left its lane, and what stays. -/
def heldGo (l : List (Option Item)) : List Item × List (Option Item) :=
  ((l.drop 1).takeWhile Option.isSome |>.filterMap id, (l.drop 1).dropWhile Option.isSome)

/-- R120: a frame for transmission has left its lane. -/
def State.txDone (s : State) (m : Nat) : State :=
  let g := heldGo (s.mac m).txHold
  g.1.foldl (fun s i => s.toStore m i) (s.modMac m (fun c => { c with txHold := g.2 }))

/-- R119: a received frame has left its lane. -/
def State.rxDone (s : State) (m : Nat) : State :=
  let g := heldGo (s.mac m).rxHold
  g.1.foldl (fun s i => s.modPipe (s.macPipe m) (fun x => { x with port := intakeJoin x.port i }))
    (s.modMac m (fun c => { c with rxHold := g.2 }))

/-- R187, R209: an item is inline cipher work: every MACsec frame, and an item at an ingress exit with an SA. -/
def needsLane (pt : RwcPoint) (i : Item) : Bool :=
  match pt with
  | .ingress _ => bit (i.fld fSA) 20
  | _ => true

/-- R209: why the engine refuses an inline item as it arrives: every lane is fenced, or its input store is full. -/
def State.rwcRefuses (s : State) (pt : RwcPoint) (i : Item) : Option Nat :=
  if !needsLane pt i then none
  else if (List.range 8).all (fun l => !s.powered (59 + l) || s.rwc.fenced.getLsbD l) then some (RWC + 0x41C)
  else if 2048 ≤ (s.rwc.input.filter (fun e => needsLane e.1 e.2)).length then some (RWC + 0x418)
  else none

/-- R119, R120: a MAC's frame is at a lane, and those behind it wait. -/
def State.markLane (s : State) (pt : RwcPoint) : State :=
  match pt with
  | .ingress _ => s
  | .macTx m => s.modMac m.val (fun c => { c with txHold := c.txHold ++ [none] })
  | .macRx m => s.modMac m.val (fun c => { c with rxHold := c.rxHold ++ [none] })

/-- R207, R209: an item reaches the rewrite and cipher unit's input store, in the order in which items are complete. -/
def State.rwcInput (s : State) (pt : RwcPoint) (i : Item) : State :=
  match s.rwcRefuses pt i with
  | some c => (s.count c).dropItem i
  | none =>
    let i := { i with ready := max i.ready s.clock }
    let l := s.rwc.input.takeWhile (fun (x : RwcPoint × Item) => decide (x.2.ready ≤ i.ready)) ++
      (pt, i) :: s.rwc.input.dropWhile (fun (x : RwcPoint × Item) => decide (x.2.ready ≤ i.ready))
    { s with rwc := { s.rwc with input := l } }.markLane pt

/-- R187, R209: a frame goes through the rewrite and cipher unit where TEMPLATE or SA is valid. -/
def State.toRewrite (s : State) (p : Nat) (i : Item) : State :=
  if bit (i.fld fTEMPLATE) 16 || bit (i.fld fSA) 20 then
    if h : p < 4 then s.rwcInput (.ingress ⟨p, h⟩) i else s
  else s.route p i

/-- R154: the exit presents an item to the plinth. -/
def Item.presents (i : Item) : Bool :=
  decide (i.fld fVERDICT ≤ 1) && decide (i.src < 2 ^ 16) && bit (i.fld fSTREAM) 6 &&
    (i.fld fDESTKIND = 1 || i.fld fDESTKIND = 2)

/-- R153: an item goes to a second pass. -/
def Item.second (i : Item) : Bool := decide (i.fld fVERDICT ≤ 1) && i.fld fDESTKIND = 4

/-- R153: an item goes to a session. -/
def Item.toSession (i : Item) : Bool := decide (i.fld fVERDICT ≤ 1) && i.fld fDESTKIND = 3

/-- R93, R153, R154: an item that its policer passed: to the plinth, or recorded and on to its destination. -/
def State.afterPolicer (s : State) (p : Nat) (i : Item) : State :=
  let msg : Msg := { stream := BitVec.ofNat 6 (i.fld fSTREAM), src := BitVec.ofNat 18 i.src, tag := i.tag
                     data := i.orig, mac := i.token, entry := i.entry, bufs := i.bufs }
  if i.presents then { s with sql := { s.sql with inbox := s.sql.inbox ++ [msg] } }
  else
    let session := i.toSession && decide (i.src < 2 ^ 16) && bit (i.fld fSTREAM) 6
    let (ok, s) := if i.second || session then (true, s) else s.recordUnseq msg (i.fld fLCLASS) false
    if !ok then s.dropItem i
    else if i.fld fVERDICT = 2 then s.deliverItem p i (i.fld fCOPYQ) true
    else if i.fld fDESTKIND = 3 then { s with trn := { s.trn with input := s.trn.input ++ [i] } }
    else s.toRewrite p i

/-- R153: a disposition that refuses: its counter. -/
def refusedAt (i : Item) : Option Nat :=
  match i.fld fVERDICT, i.fld fDESTKIND with
  | 2, _ => none
  | _, 1 => none
  | _, 2 => none
  | _, 3 => if bit (i.fld fSESSION) 21 then none else some 0x840
  | _, 4 => if i.pass then some 0x860 else none
  | _, _ => some 0x840

/-- R177, R186: pipeline p's learning stage is not of KIND 4 and TARGET 1. -/
def State.lrnCfgBad (s : State) (p : Nat) : Bool :=
  let cfg := s.getReg (FWT + 0x070 + 4 * p)
  let c := stageCfg (s.pipe p).active (bits cfg.toNat 19 16)
  cfg.getLsbD 31 && !(decide (cfgKind c = 4) && decide (cfgTarget c = 1))

/-- R177, R178: the learn request that an item sends at its exit, by what FWT_LRN_CFG then names and with the key and
SRC_EP as they then stand. DEDUCED (log 170): R177 speaks of the item's last pass, so an exit to a second pass sends
none. -/
def State.learnAt (s : State) (p : Nat) (i : Item) : State :=
  let cfg := s.getReg (FWT + 0x070 + 4 * p)
  let st := bits cfg.toNat 19 16
  match Map.get i.learn st with
  | none => s
  | some e =>
    let ep := i.fld fSRCEP
    let stale := match e with
      | none => true
      | some w => decide (bits w 19 0 ≠ ep) || !bit w 29 || bit w 28
    if !cfg.getLsbD 31 || s.lrnCfgBad p || bit (i.fld fSTATUS) 6 || i.stored || !stale || (i.second && !i.pass) then s
    else
      let q := Map.at_ s.fwt.reqs p []
      if 1024 ≤ q.length then s.count (FWT + 0x204 + 0x20 * p)
      else
        let k := (stageKey (stageCfg ((s.pipe p).bankFor i none) st) i).value
        let r : LearnReq := { key := BitVec.ofNat 64 k, ep := BitVec.ofNat 20 ep }
        let reqs := Map.set s.fwt.reqs p (q ++ [r]) []
        { s with fwt := { s.fwt with reqs := reqs } }

/-- R157: fragments take no stream, and none goes to a session. -/
def fragRules (i : Item) : Item :=
  if bit (i.fld fSTATUS) 7 then
    let i := i.setFld fSTREAM 0
    if i.fld fDESTKIND = 3 && decide (i.fld fVERDICT ≤ 1) then (i.setFld fVERDICT 2).setFld fCOPYREASON 0x82 else i
  else i

/-- The first item of a pipeline's flight when all its stages have run. -/
def State.exitItem (s : State) (p : Nat) : Option Item :=
  match (s.pipe p).flight with
  | i :: _ => if 16 ≤ i.stage && i.want.isNone then some i else none
  | [] => none

/-- R138, R153: an item goes straight to a second pass, and the internal intake is full. -/
def State.exitHeld (s : State) (p : Nat) (i : Item) : Bool :=
  i.second && !i.pass && !(bit (i.fld fTEMPLATE) 16 || bit (i.fld fSA) 20) && (s.pipe p).internalFull

/-- R153: an item's disposition is counted. -/
def State.countExit (s : State) (p : Nat) (i : Item) : State :=
  s.stat (pipeReg p (if i.fld fVERDICT = 2 then 0x118 else if i.fld fDESTKIND = 4 then 0x130 else 0x108))

/-- R154: the token of an item that neither is presented, nor goes to a session, nor returns, is retired at the exit. -/
def State.exitToken (s : State) (i : Item) : State × Item :=
  if i.presents || i.toSession || i.second then (s, i) else (s.retireItem i, { i with token := none })

/-- R153 to R155, R157, R158, R177, R250: an item leaves an ingress pipeline. -/
def State.opIngressExit (s : State) (p : Nat) : State :=
  match s.exitItem p with
  | none => s
  | some i =>
    let i := fragRules i
    if s.exitHeld p i then s
    else
      let s := ((s.leaveFlight p 0).storeFrag p i).learnAt p i
      let s := if i.fld fVERDICT = 1 && bit (i.fld fMIRROR) 6 then s.mirrorCopy p i i.orig (i.fld fMIRROR % 64) else s
      match refusedAt i with
      | some c => (s.count (pipeReg p c)).dropItem i
      | none =>
        let (s, i) := (s.countExit p i).exitToken i
        if bit (i.fld fPOLICER) 18 && !i.second then
          if h : p < 4 then { s with tmg := { s.tmg with polIn := s.tmg.polIn ++ [(i, ⟨p, h⟩)] } } else s
        else s.afterPolicer p i

/-- R131: a frame that the MAC would protect. -/
def State.protects (s : State) (m : Nat) (f : List Byte) : Bool :=
  (s.getReg (macReg m 0x100)).getLsbD 0 && beAt f 12 2 ≠ 0x888E

/-- R156: an item leaves an egress pipeline. -/
def State.opEgressExit (s : State) (e : Nat) : State :=
  let p := 4 + e
  match s.exitItem p with
  | none => s
  | some i =>
    let m := i.fld fDEST % 16
    let i := fragRules i
    let s := (s.leaveFlight p 0)
    let s := if i.copy then s else s.storeFrag p i
    if i.fld fVERDICT = 2 && !i.copy then ((s.stat (pipeReg p 0x118))).deliverItem p i (i.fld fCOPYQ) true
    else if s.regBits (macReg m 8) 13 0 < i.frame.length + 4 then (s.count (pipeReg p 0x858)).dropItem i
    else if s.protects m i.frame && !i.copy && !bit (i.fld fSA) 20 then (s.count (pipeReg p 0x85C)).dropItem i
    else
      let s := if i.fld fVERDICT = 1 && bit (i.fld fMIRROR) 6 && !i.copy then
        s.mirrorCopy p i i.frame (i.fld fMIRROR % 64) else s
      let s := if i.copy then s else s.stat (pipeReg p 0x108)
      if h : m < 16 then
        if s.protects m i.frame then s.rwcInput (.macTx ⟨m, h⟩) i else s.txPass m i
      else s

/-- R159: a fragment has been held for 1 ms by the pipeline's replica. -/
def State.opFragHold (s : State) (p : Nat) : State :=
  match (s.pipe p).early with
  | (i, t) :: rest =>
    if t + msec 1 ≤ s.repTime (19 + p) then
      let i := ((i.setFld fVERDICT 2).setFld fCOPYREASON 0x80).setFld fCOPYQ (s.regBits (pipeCfg p) 19 0)
      let s := (s.modPipe p (fun x => { x with early := rest })).count (pipeReg p 0x850)
      (s.stat (pipeReg p 0x118)).deliverItem p i (i.fld fCOPYQ) true
    else s
  | [] => s

/-- R160: a fragment-table entry has served no fragment for 2 s. -/
def State.opFragAge (s : State) (p idx : Nat) : State :=
  match (s.pipe p).frags[idx]? with
  | some e => if s.due e.used (secs 2) then s.modPipe p (fun x => { x with frags := x.frags.eraseIdx idx }) else s
  | none => s

/-! R161 to R167: banks, swaps and loading. -/

/-- R161: a swap or a copy holds the maquette banks. -/
def Pipe.busy (x : Pipe) : Bool := x.swap.isSome || x.copying.isSome

/-- Cells of one bank in a range are taken from another. -/
def bankTake (dst from_ : PclBank) (inR : Nat → Bool) : PclBank :=
  (from_.filter (fun c => inR c.1)).foldl (fun b c => Map.put (α := Byte) b c.1 c.2) (dst.filter (fun c => !inR c.1))

/-- R161, R165: the bytes of a bank that a mask of stages names: stage banks, and of ternary stages only their blocks. -/
def maskRange (prog : PclBank) (mask : Nat) (a : Nat) : Bool :=
  (List.range 16).any (fun st => bit mask st &&
    (let c := stageCfg prog st
     let first := bits (leAt c 8 4) 3 0
     if cfgKind c = 3 then
       decide (0x1000000 + 0x20000 * first ≤ a) && decide (a < 0x1000000 + 0x20000 * (first + bits (leAt c 8 4) 8 4))
     else decide (0x100000 + 0x10000 * st ≤ a) && decide (a < 0x100000 + 0x10000 * (st + 1))))

/-- R161: PCL_BANK_CMD. -/
def State.opBankCopy (s : State) (p : Nat) (v : Word) : State :=
  s.onCmd (pipeReg p 0x38) ((s.pipe p).busy) (fun s =>
    if v.getLsbD 0 then s.modPipe p (fun x => { x with copying := some (BitVec.ofNat 16 (bits v.toNat 16 1)) }) else s)

/-- R161: a bank copy has finished. -/
def State.opBankCopyDone (s : State) (p : Nat) : State :=
  match (s.pipe p).copying with
  | some m => s.modPipe p (fun x => { x with
      copying := none, staged := bankTake x.staged x.active (maskRange x.active m.toNat) })
  | none => s

/-- R163: a commit of the staged swap, BUSY aside. DESIGN CHOICE (log 167): a swap of a staged program that is VERIFIED is
accepted while 2060h.01 is 00h, which the spec leaves open. -/
def State.commitSwap (s : State) (p : Nat) : State :=
  let x := s.pipe p
  let t := s.getReg64 (pipeReg p 0x10)
  let mask := s.regNat (pipeReg p 0x18)
  let now := s.pipeTime p
  let badMask := if bit mask 16 then !x.verified
    else mask = 0 || (List.range 16).any (fun st => bit mask st &&
      (cfgKind (stageCfg x.active st) = 0 || cfgKind (stageCfg x.active st) = 4))
  let stat := if t.toNat < now + usec 10 then 1 else if now + secs 60 < t.toNat then 2 else if badMask then 3 else 0
  if stat ≠ 0 then (s.modPipe p (fun x => { x with swapStat := stat })).pclEvent p
  else s.modPipe p (fun x => { x with swapStat := 0, swap := some { time := t, mask := BitVec.ofNat 17 mask } })

/-- R163: a write of PCL_SWAP_CMD. -/
def State.opSwapCommit (s : State) (p : Nat) (v : Word) : State :=
  s.onCmd (pipeReg p 0x28) (s.pipe p).busy (fun s => if v.getLsbD 0 then s.commitSwap p else s)

/-- R163: PCL_SWAP_GO commits the swap of each named pipeline; a busy one ignores it. -/
def State.opSwapGo (s : State) (v : Word) : State :=
  (List.range 8).foldl (fun s p =>
    if !v.getLsbD p then s
    else if !s.powered (49 + p) then s.accErr errOff (PCL + 8)
    else if (s.pipe p).busy then s.accErr errBusy (PCL + 8)
    else s.commitSwap p) s

/-- R164: the pipeline's replica has reached the activation time. -/
def State.opSwapActivate (s : State) (p : Nat) : State :=
  match (s.pipe p).swap with
  | some w => if w.time.toNat ≤ s.pipeTime p then s.modPipe p (fun x => { x with swap := some { w with settling := true } }) else s
  | none => s

/-- R164 to R166: the settle time has ended. -/
def State.opSwapSettle (s : State) (p : Nat) : State :=
  match (s.pipe p).swap with
  | some w =>
    if w.settling && decide (w.time.toNat + usec (s.regBits (pipeReg p 0x20) 9 0) ≤ s.pipeTime p) then
      let x := s.pipe p
      let x := if w.mask.getLsbD 16 then
          { x with active := x.staged, staged := x.active, valid := true, stagedOk := x.valid, verified := x.valid }
        else
          let r := maskRange x.active w.mask.toNat
          { x with active := bankTake x.active x.staged r, staged := bankTake x.staged x.active r }
      let old : OldBank := { gen := x.swaps, mask := w.mask, time := w.time, bank := (s.pipe p).active }
      let x := { x with swap := none, swaps := x.swaps + 1, lastT := w.time, firstDue := !w.first
                        olds := if x.flight.isEmpty then [] else x.olds ++ [old] }
      (s.modPipe p (fun _ => x)).pclEvent (8 + p)
    else s
  | none => s

/-- R171: the pipeline and the place in its bank that a window address names. -/
def pclWindow (a : Nat) : Option (Nat × Nat) :=
  if 0x1000000 ≤ a ∧ a < 0x2000000 then
    let o := (a - 0x1000000) % 0x200000
    if o < 0x9000 ∨ 0x100000 ≤ o then some ((a - 0x1000000) / 0x200000, o) else none
  else if 0x2000000 ≤ a ∧ a < 0x3000000 then some ((a - 0x2000000) / 0x200000, 0x1000000 + (a - 0x2000000) % 0x200000)
  else none

/-- R160: PCL_PIPE_CFG takes a value; clearing FRAG_EN empties the fragment table. -/
def State.pipeCfgSet (s : State) (p : Nat) (v : Word) : State :=
  if v.getLsbD 20 then s else s.modPipe p (fun x => { x with frags := [] })

/-- R4, R161, R166, R167: a write to a staging or maquette window. -/
def State.opStaging (s : State) (a : Nat) (d : List Byte) : State :=
  match pclWindow a with
  | none => s.accErr errUnmap a
  | some (p, o) =>
    if !s.powered (49 + p) then s.accErr errOff a
    else if o < 0x9000 && !s.mainBool 0x2060 1 then s.accErr errLocked a
    else if (s.pipe p).busy then s.accErr errBusy a
    else s.modPipe p (fun x => { x with
      staged := (d.zipIdx).foldl (fun b c =>
        Map.set (α := Byte) b (o + c.2) (c.1 &&& BitVec.ofNat 8 (windowMask (o + c.2))) 0) x.staged
      verified := if o < 0x9000 then false else x.verified, stagedOk := if o < 0x9000 then false else x.stagedOk })

/-- R166: a write of PCL_LOAD_CMD. -/
def State.opLoadVerify (s : State) (p : Nat) (v : Word) : State :=
  s.onCmd (pipeReg p 0x30) false (fun s =>
    if !v.getLsbD 0 then s
    else if !s.mainBool 0x2060 1 then s.modPipe p (fun x => { x with loadStat := 4, loadDet := 0 })
    else
      let r := checkProgram (s.pipe p).staged (decide (4 ≤ p))
      s.modPipe p (fun x => { x with loadStat := r.1, loadDet := r.2, verified := r.1 = 0 }))

/-- R169: the read-only words of the PCL. -/
def State.pclView (s : State) (o : Nat) : Option Nat :=
  if o = 0 then some ((List.range 8).foldl (fun w p =>
    w + (if (s.pipe p).valid then 2 ^ (8 + p) else 0) + (if (s.pipe p).swap.isSome then 2 ^ p else 0)) 0)
  else if o < 0x10000 then none
  else
    let x := s.pipe ((o - 0x10000) / 0x10000)
    let settling := (x.swap.map (fun (w : Swap) => w.settling)).getD false
    match o % 0x10000 with
    | 0x08 => some ((if x.valid then 2 ^ 31 else 0) + (if x.swap.isSome && !settling then 2 ^ 30 else 0) +
        (if settling then 2 ^ 29 else 0) + x.inflight)
    | 0x28 => some ((if x.swap.isSome then 2 ^ 31 else 0) + x.swapStat * 2 ^ 24)
    | 0x30 => some ((if x.verified then 2 ^ 30 else 0) + x.loadStat * 2 ^ 24 + x.loadDet * 2 ^ 16)
    | 0x38 => some ((if x.copying.isSome then 2 ^ 31 else 0) + ((x.copying.getD 0).toNat * 2))
    | 0x40 => some (x.lastT.toNat % 2 ^ 32)
    | 0x44 => some (x.lastT.toNat / 2 ^ 32)
    | 0x48 => some (x.firstT.toNat % 2 ^ 32)
    | 0x4C => some (x.firstT.toNat / 2 ^ 32)
    | _ => none

end Sys2Proof.Machine
end

