-- ==== Sys2Proof/Machine/Fwt.lean ====
section
/-! DEFINITION. The forwarding tables: enabling (R172, R173), lookups (R174 to R176), learning (R178), the sweeper
(R180), and table commands (R183 to R185). -/

namespace Sys2Proof.Machine

/-! R186: registers. -/
abbrev fwtEpBase : Nat := FWT + 0x010
abbrev fwtLrnBase (t : Nat) : Nat := FWT + 0x020 + 8 * t
abbrev fwtSeed (t : Nat) : Nat := FWT + 0x040 + 8 * t
abbrev fwtSweepCfg : Nat := FWT + 0x060
abbrev fwtCmd : Nat := FWT + 0x080
abbrev fwtIndex : Nat := FWT + 0x084
abbrev fwtKey : Nat := FWT + 0x088
abbrev fwtData (w : Nat) : Nat := FWT + 0x0A0 + 4 * w
abbrev fwtStatNew (t : Nat) : Nat := FWT + 0x100 + 0x40 * t
abbrev fwtStatMove (t : Nat) : Nat := FWT + 0x108 + 0x40 * t
abbrev fwtStatRefresh (t : Nat) : Nat := FWT + 0x110 + 0x40 * t
abbrev fwtStatAged (t : Nat) : Nat := FWT + 0x118 + 0x40 * t
abbrev fwtFull (t : Nat) : Nat := FWT + 0x200 + 0x20 * t
abbrev fwtLrnStatic (t : Nat) : Nat := FWT + 0x208 + 0x20 * t
abbrev fwtLrnLimit (t : Nat) : Nat := FWT + 0x20C + 0x20 * t
abbrev fwtLrnDeny (t : Nat) : Nat := FWT + 0x210 + 0x20 * t

/-- R172, R173: capacity in force of the endpoint table and of a learning table. -/
def State.epCap (s : State) : Nat := if s.mem.reduced then 65536 else 1048576
def State.lrnCap (s : State) : Nat := if s.mem.reduced then 16384 else 262144

/-- R172: a table serves: EN is set and its region is not being zeroed. -/
def State.epOn (s : State) : Bool := s.powered 91 && (s.getReg fwtEpBase).getLsbD 31 && !s.fwt.init.getLsbD 0
def State.lrnOn (s : State) (t : Nat) : Bool :=
  s.powered 91 && (s.getReg (fwtLrnBase t)).getLsbD 31 && !s.fwt.init.getLsbD (1 + t)

/-- R327, R329: an entry in a region that a base register names is poisoned; it is treated as not VALID. -/
def State.tableBad (s : State) (reg off n : Nat) : Bool :=
  (!s.mem.reduced && s.readBad (s.regBits reg 13 0 * 2 ^ 20 + off) n) ||
    s.mem.badCtx.any (fun e => e.1 = reg && decide (e.2 < off + n ∧ off < e.2 + 64))

/-- R327: the entry is written in full. -/
def State.tableClean (s : State) (reg off n : Nat) : State :=
  let s := if s.mem.badCtx.isEmpty then s else { s with mem := { s.mem with
    badCtx := s.mem.badCtx.filter (fun e => !(e.1 = reg && decide (e.2 < off + n ∧ off < e.2 + 64))) } }
  if s.mem.reduced then s else s.cleanse (s.regBits reg 13 0 * 2 ^ 20 + off) n

/-- R175: an endpoint entry, and its count. -/
def State.epEntry (s : State) (i : Nat) : BitVec 256 :=
  if s.tableBad fwtEpBase (32 * i) 32 then 0 else Map.at_ s.fwt.ep i 0
def State.epCount (s : State) (i : Nat) : Nat := Map.at_ s.fwt.count i 0

/-- R176: a learning slot. -/
def lrnSlot (t i : Nat) : Nat := 2 ^ 20 * t + i
def State.lrnEntry (s : State) (t i : Nat) : BitVec 256 :=
  if s.tableBad (fwtLrnBase t) (32 * i) 32 then 0 else Map.at_ s.fwt.lrn (lrnSlot t i) 0

/-! R176: fields of a learning entry. -/
def lrnValid (e : BitVec 256) : Bool := e.getLsbD 31
def lrnStatic (e : BitVec 256) : Bool := e.getLsbD 30
def lrnHit (e : BitVec 256) : Bool := e.getLsbD 29
def lrnClear1 (e : BitVec 256) : Bool := e.getLsbD 28
def lrnEp (e : BitVec 256) : Nat := bits e.toNat 19 0
def lrnKey (e : BitVec 256) : BitVec 64 := e.extractLsb' 32 32 ++ e.extractLsb' 64 32

/-- R176: an entry from its fields. -/
def lrnMake (static hit clear1 : Bool) (ep : Nat) (key time : BitVec 64) (user : Word) : BitVec 256 :=
  let dw0 := 2 ^ 31 + (if static then 2 ^ 30 else 0) + (if hit then 2 ^ 29 else 0) + (if clear1 then 2 ^ 28 else 0) +
    ep % 2 ^ 20
  BitVec.ofNat 256 (dw0 + key.toNat / 2 ^ 32 * 2 ^ 32 + key.toNat % 2 ^ 32 * 2 ^ 64 + time.toNat * 2 ^ 96 +
    user.toNat * 2 ^ 160)

/-- HIT and CLEAR1 of an entry are set. -/
def lrnMark (e : BitVec 256) (hit clear1 : Bool) : BitVec 256 :=
  BitVec.ofNat 256 (putBits e.toNat 29 28 ((if hit then 2 else 0) + (if clear1 then 1 else 0)))

/-- R146, R176: the slots that a key may live in: bucket a, then bucket b. -/
def State.lrnSlots (s : State) (t : Nat) (key : BitVec 64) : List Nat :=
  let kb := beBytes 8 key.toNat
  let a := bucketA (s.getReg (fwtSeed t)) kb s.lrnCap
  let b := bucketB (s.getReg (fwtSeed t)) kb s.lrnCap
  let of_ := fun (x : Nat) => (List.range 4).map (fun j => x * 4 + j)
  if a = b then of_ a else of_ a ++ of_ b

/-- R176: the slot that holds a key. -/
def State.lrnFind (s : State) (t : Nat) (key : BitVec 64) : Option Nat :=
  (s.lrnSlots t key).find? (fun i => lrnValid (s.lrnEntry t i) && lrnKey (s.lrnEntry t i) = key)

/-- R178: the first free slot of bucket a, then of bucket b. -/
def State.lrnFree (s : State) (t : Nat) (key : BitVec 64) : Option Nat :=
  (s.lrnSlots t key).find? (fun i => !lrnValid (s.lrnEntry t i))

/-- R178: an endpoint's count goes up or down by one. -/
def State.countEp (s : State) (ep : Nat) (up : Bool) : State :=
  let n := s.epCount ep
  { s with fwt := { s.fwt with count := Map.set s.fwt.count ep (if up then n + 1 else n - 1) 0 } }

/-- R178: an entry counts against its endpoint. -/
def lrnCounts (e : BitVec 256) : Bool := lrnValid e && !lrnStatic e

/-- R178, R184: a slot is written, and the counts follow the old and the new entry. -/
def State.lrnPut (s : State) (t i : Nat) (e : BitVec 256) : State :=
  let old := s.lrnEntry t i
  let s := if lrnCounts old then s.countEp (lrnEp old) false else s
  let s := (if lrnCounts e then s.countEp (lrnEp e) true else s).tableClean (fwtLrnBase t) (32 * i) 32
  { s with fwt := { s.fwt with lrn := Map.set s.fwt.lrn (lrnSlot t i) e 0 } }

/-- R178, R180: HIT and CLEAR1 of an entry change; its count does not. -/
def State.lrnTouch (s : State) (t i : Nat) (hit clear1 : Bool) : State :=
  let e := lrnMark (s.lrnEntry t i) hit clear1
  let s := s.tableClean (fwtLrnBase t) (32 * i) 32
  { s with fwt := { s.fwt with lrn := Map.set s.fwt.lrn (lrnSlot t i) e 0 } }

/-- R174: a lookup of the endpoint table. -/
def State.lookEp (s : State) (key : Nat) : Option Nat :=
  if s.epOn && decide (key < s.epCap) && (s.epEntry key).getLsbD 31 then some (s.epEntry key).toNat else none

/-- R176: a lookup of learning table t. -/
def State.lookLrn (s : State) (t key : Nat) : Option Nat :=
  if s.lrnOn t then (s.lrnFind t (BitVec.ofNat 64 key)).map (fun i => (s.lrnEntry t i).toNat) else none

/-! R183 to R185: table commands. -/

/-- R184: DATA as written. -/
def State.cmdData (s : State) : BitVec 256 :=
  (List.range 8).foldl (fun v w => v ||| ((s.getReg (fwtData w)).setWidth 256 <<< (32 * w))) 0

/-- R184: DATA is loaded. -/
def State.setCmdData (s : State) (e : BitVec 256) : State :=
  (List.range 8).foldl (fun s w => s.setReg (fwtData w) (e.extractLsb' (32 * w) 32)) s

/-- R185: a learning table's result. The spec states no slot for a table in which none was found: it is free. -/
def State.fwtRes (s : State) (t status : Nat) (slot : Option Nat) : State :=
  let (i, s) := match slot with
    | some i => (i, s)
    | none => (s.freeNext % 2 ^ 18, s.drawn)
  { s with fwt := { s.fwt with res := Map.set s.fwt.res t (status, i) (0, 0) } }

/-- R185: the status of the command. -/
def State.fwtStatus (s : State) (n : Nat) : State := { s with fwt := { s.fwt with stat := n } }

/-- R4, R175, R176: the bits of an endpoint entry and of a learning entry that are not reserved. -/
def epMask : BitVec 256 := ~~~(0x7FF#256 <<< 85 ||| 0x3F#256 <<< 122 ||| 1#256 <<< 159)
def lrnMask : BitVec 256 := 0xFFFFFFFFFFFFFFFFFFFFFFFFFFFFFFFFFFFFFFFFF00FFFFF#256

/-- R184: an operation on one learning table: status, slot and state. -/
def State.lrnOp (s : State) (op t : Nat) (replace : Bool) : Nat × Option Nat × State :=
  let idx := s.regBits fwtIndex 19 0
  let key := s.getReg64 fwtKey
  let data := s.cmdData
  if (op = 1 ∨ op = 2) ∧ s.lrnCap ≤ idx then (4, none, s)
  else if !s.lrnOn t then (7, none, s)
  else match op with
    | 1 => (0, some idx, s.setCmdData (s.lrnEntry t idx))
    | 2 =>
      if lrnValid data && !(s.lrnSlots t (lrnKey data)).contains idx then (5, some idx, s)
      else if lrnValid data && (s.lrnSlots t (lrnKey data)).any (fun j =>
          j ≠ idx && lrnValid (s.lrnEntry t j) && lrnKey (s.lrnEntry t j) = lrnKey data) then (6, some idx, s)
      else (0, some idx, s.lrnPut t idx (data &&& lrnMask))
    | 3 =>
      let e := lrnMake (lrnStatic data) true false (lrnEp data) key (BitVec.ofNat 64 (s.repTime 39)) (data.extractLsb' 160 32)
      match s.lrnFind t key with
      | some i => if replace then (0, some i, s.lrnPut t i e) else (2, some i, s)
      | none => match s.lrnFree t key with
        | some i => (0, some i, s.lrnPut t i e)
        | none => (3, none, s.count (fwtFull t))
    | 4 => match s.lrnFind t key with
      | some i => (0, some i, s.lrnPut t i 0)
      | none => (1, none, s)
    | _ => match s.lrnFind t key with
      | some i => (0, some i, s.setCmdData (s.lrnEntry t i))
      | none => (1, none, s)

/-- R184: READ and WRITE of an endpoint entry. -/
def State.epOp (s : State) (op : Nat) : Nat × State :=
  let idx := s.regBits fwtIndex 19 0
  if (op ≠ 1 ∧ op ≠ 2) ∨ s.epCap ≤ idx then (4, s)
  else if !s.epOn then (7, s)
  else if op = 1 then
    (0, { s.setCmdData (s.epEntry idx) with fwt := { s.fwt with epcount := s.epCount idx } })
  else
    let s := s.tableClean fwtEpBase (32 * idx) 32
    (0, { s with fwt := { s.fwt with ep := Map.set s.fwt.ep idx (s.cmdData &&& epMask) 0 } })

/-- R183, R185: a command that runs reaches the points of its tables that lie behind it, each at its own time: the first at the
command, and each later one a free time of at most 2 µs after the one before (DESIGN CHOICE, log 168). BUSY clears after the
last. The fuel covers the tables. -/
def State.fwtReach : Nat → State → State
  | 0, s => s
  | f + 1, s =>
    match s.fwt.run with
    | none => s
    | some r =>
      match r.left with
      | [] => s
      | t :: rest =>
        if s.clock < r.at_ then s
        else
          let now := s.clock
          let (st, slot, u) := State.lrnOp { s with clock := r.at_ } r.op t r.replace
          let s := { u with clock := now }.fwtRes t st slot
          let worst := if !r.many then st else if st = 0 then r.worst else 8
          let next : FwtRun := { r with left := rest, worst := worst, at_ := r.at_ + 1 + s.freeNext % usec 2 }
          if rest.isEmpty then ({ s with fwt := { s.fwt with run := none } }).fwtStatus worst
          else State.fwtReach f { s.drawn with fwt := { s.fwt with run := some next } }

/-- R181, R183: what uses the tables finds the points of a command that runs where they lie. -/
def State.fwtSettle (s : State) : State := State.fwtReach 4 s

/-- R183 to R185: a table command with its OP: the tables that LTMASK names one after another. -/
def State.fwtRun (s : State) (op : Nat) (table replace : Bool) (mask : Nat) : State :=
  if !table then
    let (st, s) := s.epOp op
    s.fwtStatus st
  else
    let ts := (List.range 4).filter (bit mask)
    let one := op = 1 ∨ op = 2 ∨ op = 5
    if op = 0 ∨ 5 < op ∨ ts.isEmpty ∨ (one ∧ ts.length ≠ 1) then
      (ts.foldl (fun s t => s.fwtRes t 4 none) s).fwtStatus (if (op = 0 ∨ 5 < op) ∧ 1 < ts.length then 8 else 4)
    else
      let r : FwtRun := { op := op, replace := replace, left := ts, at_ := s.clock, many := 1 < ts.length }
      { s with fwt := { s.fwt with run := some r } }.fwtSettle

/-! R172, R173: enabling. -/

/-- R172, R327: a region of HBM is zeroed, and holds no poison. -/
def State.zeroRegion (s : State) (base size : Nat) : State :=
  { s with mem := { s.mem with
    cells := s.mem.cells.filter (fun c => !decide (base ≤ c.1 ∧ c.1 < base + size))
    poison := s.mem.poison.filter (fun w => !decide (base ≤ w ∧ w < base + size)) } }

/-- R172: a completed write of a base register with EN: setting EN keeps the base written with it and starts the
zeroing; while EN is 1 only EN changes. True when zeroing starts. DESIGN CHOICE (log 71): a base that is not a multiple of the
size is taken as written. -/
def State.baseWrite (s : State) (a : Nat) (v : Word) (size : Nat) : Bool × State :=
  if (s.getReg a).getLsbD 31 then
    (false, s.setReg a (BitVec.ofNat 32 (putBits (s.regNat a) 31 31 (if v.getLsbD 31 then 1 else 0))))
  else
    let s := s.setReg a (v &&& 0x80003FFF)
    if !v.getLsbD 31 then (false, s)
    else (true, if s.mem.reduced then s else s.zeroRegion (bits v.toNat 13 0 * 2 ^ 20) (size * 2 ^ 20))

/-- R172, R188, R214: the entries of a table as they lie in HBM, from an address. -/
def State.spill (s : State) (base size : Nat) (l : List (Nat × Nat)) : State :=
  l.foldl (fun s e => s.writeBytes (base + size * e.1) (leBytes size e.2)) s

/-- R172: EN of a table is cleared: its contents stay in its region. -/
def State.leaveHbm (s : State) (table : FwtTable) : State :=
  if s.mem.reduced then s
  else match table with
    | .ep =>
      let base := s.regBits fwtEpBase 13 0 * 2 ^ 20
      (s.spill base 32 (s.fwt.ep.map (fun (e : Nat × BitVec 256) => (e.1, e.2.toNat)))).spill (base + 2 ^ 25) 4 s.fwt.count
    | .lrn t => s.spill (s.regBits (fwtLrnBase t.val) 13 0 * 2 ^ 20) 32
        ((s.fwt.lrn.filter (fun e => e.1 / 2 ^ 20 = t.val)).map (fun (e : Nat × BitVec 256) => (e.1 % 2 ^ 20, e.2.toNat)))

/-- R172: a completed write of a forwarding table's base register. -/
def State.opFwtBase (s : State) (table : FwtTable) (v : Word) : State :=
  let s := s.fwtSettle
  let f := s.fwt
  match table with
  | .ep => s.onCmd fwtEpBase false (fun s =>
    let s := if (s.getReg fwtEpBase).getLsbD 31 && !v.getLsbD 31 then s.leaveHbm .ep else s
    let (z, s) := s.baseWrite fwtEpBase v 64
    if z then { s with fwt := { f with ep := [], count := [], init := f.init ||| 1 } } else s)
  | .lrn t => s.onCmd (fwtLrnBase t.val) false (fun s =>
    let s := if (s.getReg (fwtLrnBase t.val)).getLsbD 31 && !v.getLsbD 31 then s.leaveHbm (.lrn t) else s
    let (z, s) := s.baseWrite (fwtLrnBase t.val) v 8
    let sweep := Map.del f.sweep t.val
    if z then
      let lrn := f.lrn.filter (fun e => e.1 / 2 ^ 20 ≠ t.val)
      { s with fwt := { f with lrn := lrn, sweep := sweep, init := f.init ||| BitVec.ofNat 5 (2 ^ (1 + t.val)) } }
    else if v.getLsbD 31 then s else { s with fwt := { f with sweep := sweep } })

/-- R172: a region is zeroed and its table enters service. -/
def State.opFwtZeroed (s : State) (table : FwtTable) : State :=
  let b := match table with | .ep => 0 | .lrn t => 1 + t.val
  { s with fwt := { s.fwt with init := s.fwt.init &&& ~~~(BitVec.ofNat 5 (2 ^ b)) } }

/-! R178: learning. -/

/-- R178 row 1: an endpoint may not be learned. -/
def State.lrnDenied (s : State) (ep : Nat) : Bool :=
  decide (s.epCap ≤ ep) || !s.epOn || !(s.epEntry ep).getLsbD 31 || !(s.epEntry ep).getLsbD 30

/-- R178 row 2: an endpoint's limit is reached. -/
def State.lrnLimited (s : State) (ep : Nat) : Bool :=
  let lim := bits (s.epEntry ep).toNat 223 208
  lim ≠ 0 && decide (lim ≤ s.epCount ep)

/-- R178: a learn request by the first row that applies. -/
def State.learn (s : State) (t : Nat) (r : LearnReq) : State :=
  let ep := r.ep.toNat
  let now := BitVec.ofNat 64 (s.repTime 39)
  match s.lrnFind t r.key with
  | none =>
    if s.lrnDenied ep then s.count (fwtLrnDeny t)
    else if s.lrnLimited ep then s.count (fwtLrnLimit t)
    else match s.lrnFree t r.key with
      | none => s.count (fwtFull t)
      | some i => (s.lrnPut t i (lrnMake false true false ep r.key now 0)).stat (fwtStatNew t)
  | some i =>
    let e := s.lrnEntry t i
    if lrnStatic e then (if lrnEp e ≠ ep then s.count (fwtLrnStatic t) else s)
    else if lrnEp e = ep then (s.lrnTouch t i true false).stat (fwtStatRefresh t)
    else if s.lrnDenied ep then s.count (fwtLrnDeny t)
    else if s.lrnLimited ep then s.count (fwtLrnLimit t)
    else
      (s.lrnPut t i (lrnMake false true false ep r.key now (e.extractLsb' 160 32))).stat (fwtStatMove t)

/-- R178: table t takes the oldest request of its pipeline. -/
def State.opLearn (s : State) (t : Nat) : State :=
  let s := s.fwtSettle
  if !s.lrnOn t then s
  else match Map.at_ s.fwt.reqs t [] with
    | [] => s
    | r :: rest => ({ s with fwt := { s.fwt with reqs := Map.set s.fwt.reqs t rest [] } }).learn t r

/-! R180: the sweeper. -/

/-- R180: the time by which visits are spaced. -/
def State.sweepTime (s : State) : Nat := s.islandTime 39

/-- R180: passes that have begun: each lasts its period, and takes the period that the register holds as it begins. -/
def State.rollPass (s : State) : State :=
  match s.fwt.pass with
  | some (start, period) =>
    let first := start + msec period
    if s.sweepTime < first then s
    else
      let p := s.regBits fwtSweepCfg 21 0
      { s with fwt := { s.fwt with pass := some (first + (s.sweepTime - first) / msec p * msec p, p) } }
  | none => s

/-- R180: the slot of table t that is to be visited next, its pass and its period: a table that has ended its pass is in
the present one, and one that has come into service takes it up where it stands. -/
def State.nextVisit (s : State) (t start period : Nat) : Nat × Nat × Nat :=
  match Map.get s.fwt.sweep t with
  | some (i, st, p) => if s.lrnCap ≤ i ∧ st < start then (0, start, period) else (i, st, p)
  | none => (((s.sweepTime - start) * s.lrnCap + msec period - 1) / msec period, start, period)

/-- R180, R181: the sweeper visits the next slot of table t when it is due and no learn request waits. -/
def State.opSweep (s : State) (t : Nat) : State :=
  let s := s.fwtSettle.rollPass
  match s.fwt.pass with
  | none => s
  | some (start, period) =>
    let (i, st, p) := s.nextVisit t start period
    let s := if s.lrnOn t then { s with fwt := { s.fwt with sweep := Map.put s.fwt.sweep t (i, st, p) } } else s
    if !s.lrnOn t || !(Map.at_ s.fwt.reqs t []).isEmpty || decide (s.lrnCap ≤ i) ||
        decide (s.sweepTime < st + msec p * i / s.lrnCap) then s
    else
      let e := s.lrnEntry t i
      let s :=
        if !lrnCounts e then s
        else if lrnHit e then s.lrnTouch t i false false
        else if lrnClear1 e then (s.lrnPut t i 0).stat (fwtStatAged t)
        else s.lrnTouch t i false true
      { s with fwt := { s.fwt with sweep := Map.put s.fwt.sweep t (i + 1, st, p) } }

/-- R180: a completed write of FWT_SWEEP_CFG; a period out of range is ignored. -/
def State.opSweepCfg (s : State) (v : Word) : State :=
  s.onCmd fwtSweepCfg false (fun s =>
    let p := bits v.toNat 21 0
    let p := if p < 100 ∨ 3600000 < p then s.regBits fwtSweepCfg 21 0 else p
    let was := (s.getReg fwtSweepCfg).getLsbD 31
    let s := s.rollPass.setReg fwtSweepCfg (BitVec.ofNat 32 ((if v.getLsbD 31 then 2 ^ 31 else 0) + p))
    if v.getLsbD 31 = was then s
    else
      { s with fwt := { s.fwt with sweep := [], pass := if v.getLsbD 31 then some (s.sweepTime, p) else none } })

/-! R183, R186: the command register. -/

/-- R183, R186: a whole write of FWT_CMD with an OP; without one it is no command. -/
def State.opFwtCmd (s : State) (v : Word) : State :=
  let s := s.fwtSettle
  s.onCmd fwtCmd s.fwt.run.isSome (fun s =>
    let s := s.setReg fwtCmd (v &&& 0x000F011F)
    let n := v.toNat
    if bits n 3 0 = 0 then s else s.fwtRun (bits n 3 0) (bit n 4) (bit n 8) (bits n 19 16))

/-- R183: the command of one operation: the value's OP is the operation's own. -/
def State.opFwt (s : State) (op : Nat) (v : Word) : State := s.opFwtCmd (BitVec.ofNat 32 (putBits v.toNat 3 0 op))

/-- R186: the read-only words of the FWT. -/
def State.fwtView (s : State) (o : Nat) : Option Nat :=
  let f := s.fwt
  let inTable := fun (t : Nat) (p : BitVec 256 → Bool) =>
    (f.lrn.filter (fun e => e.1 / 2 ^ 20 = t && p e.2)).length
  if o = 0 then some ((if s.mem.reduced then 2 ^ 31 else 0) + (if f.pass.isSome && (List.range 4).any s.lrnOn then 2 ^ 30 else 0) +
    (if f.init.getLsbD 0 then 2 ^ 28 else 0) + bits f.init.toNat 4 1 * 2 ^ 24 +
    (List.range 4).foldl (fun w p => if s.lrnCfgBad p then w + 2 ^ (4 + p) else w) 0)
  else if o = 0x80 then some ((s.getReg fwtCmd).toNat + f.stat * 2 ^ 24 + (if f.run.isSome then 2 ^ 31 else 0))
  else if o = 0x90 then some f.epcount
  else if 0xC0 ≤ o ∧ o < 0xD0 then
    let r := Map.at_ f.res ((o - 0xC0) / 4) (0, 0)
    some (r.1 * 2 ^ 28 + r.2)
  else if 0xD0 ≤ o ∧ o < 0xE0 then some (Map.at_ f.reqs ((o - 0xD0) / 4) []).length
  else if 0xE0 ≤ o ∧ o < 0xF0 then some (inTable ((o - 0xE0) / 4) lrnValid)
  else if 0xF0 ≤ o ∧ o < 0x100 then some (inTable ((o - 0xF0) / 4) (fun e => lrnValid e && lrnStatic e))
  else none

end Sys2Proof.Machine
end

