-- ==== Sys2Proof/Machine/Tmg.lean ====
section
/-! DEFINITION. The traffic manager: nodes (R235, R256), arrivals (R236 to R238), shapers (R239, R240), the choice of
the next frame (R242 to R246), policers (R249 to R251), samples (R252, R253) and commands (R247, R248, R255). -/

namespace Sys2Proof.Machine

/-! R255: registers. -/
abbrev tmgEvt : Nat := TMG + 0x004
abbrev tmgCmd : Nat := TMG + 0x010
abbrev tmgIndex : Nat := TMG + 0x014
abbrev tmgData (w : Nat) : Nat := TMG + 0x020 + 4 * w
abbrev tmgPortRate (m : Nat) : Nat := TMG + 0x100 + 0x10 * m
abbrev tmgClassRate (k : Nat) : Nat := TMG + 0x400 + 0x10 * k
abbrev tmgLeafBad : Nat := TMG + 0x3000
abbrev tmgSampleLost : Nat := TMG + 0x3004
abbrev tmgHeadExpire (k : Nat) : Nat := TMG + 0x3100 + 4 * k
abbrev tmgSampleCfg (m : Nat) : Nat := TMG + 0x1000 + 4 * m

/-- R255: bits of TMG_EVT set. -/
def State.tmgEvent (s : State) (b : Nat) : State := s.setEvt tmgEvt 11 (BitVec.ofNat 32 (2 ^ b))

/-! R235, R256: nodes by level: 0 leaf, 1 instance node, 2 group node, 3 policer. -/

/-- R235, R249: how many nodes of a level there are. -/
def State.nodeCap (s : State) (lvl : Nat) : Nat :=
  match lvl with
  | 0 => if s.mem.reduced then 65536 else 1048576
  | 1 => if s.mem.reduced then 16384 else 65536
  | 2 => 4096
  | _ => if s.mem.reduced then 65536 else 262144

/-- The nodes of a level: 0 leaves, 1 instances, 2 groups, 3 policers. -/
def State.nodes (s : State) (lvl : Nat) : Map Node :=
  match lvl with
  | 0 => s.tmg.leaf
  | 1 => s.tmg.inst
  | 2 => s.tmg.group
  | _ => s.tmg.pol

/-- A node. -/
def State.node (s : State) (lvl i : Nat) : Node := Map.at_ (s.nodes lvl) i {}

/-- The nodes of a level are replaced. -/
def State.setNodes (s : State) (lvl : Nat) (m : Map Node) : State :=
  match lvl with
  | 0 => { s with tmg := { s.tmg with leaf := m } }
  | 1 => { s with tmg := { s.tmg with inst := m } }
  | 2 => { s with tmg := { s.tmg with group := m } }
  | _ => { s with tmg := { s.tmg with pol := m } }

/-- A node changes. -/
def State.modNode (s : State) (lvl i : Nat) (f : Node → Node) : State :=
  s.setNodes lvl (Map.set (s.nodes lvl) i (f (s.node lvl i)) {})

/-! R256: fields of an entry. -/
def dword (e : BitVec 256) (w : Nat) : Nat := bits e.toNat (32 * w + 31) (32 * w)
def Node.en (n : Node) : Bool := n.words.getLsbD 31 && !n.bad
def Node.urgent (n : Node) : Bool := n.words.getLsbD 28
def Node.weight (n : Node) : Nat := max 1 (bits (dword n.words 0) 23 16)
def Node.parent (n : Node) : Nat := bits (dword n.words 0) 15 0
def Node.rate (n : Node) : Nat := bits (dword n.words 1) 19 0
def Node.overhead (n : Node) : Int := (n.words.extractLsb' 56 8).toInt
def Node.burst (n : Node) : Nat := bits (dword n.words 2) 14 0
/-- R237: bytes that a leaf holds. -/
def Node.depth (n : Node) : Nat := n.frames.foldl (fun d f => d + f.flen) 0

/-- R240: a node that is shaped. -/
def shapedAt (rate : Nat) (level : Int) : Bool := rate ≠ 0 && decide (level < 0)
def Node.shaped (n : Node) : Bool := shapedAt n.rate n.level

/-- R235: the index of a node's parent on the level above it. -/
def State.parentOf (s : State) (lvl i : Nat) : Nat :=
  let p := (s.node lvl i).parent
  match lvl with
  | 1 => p % 4096
  | 2 => p % 128
  | _ => p

/-- R235: the class at which a leaf's chain ends. -/
def State.leafClass (s : State) (l : Nat) : Nat := s.parentOf 2 (s.parentOf 1 (s.parentOf 0 l))

/-- The leaves below a node of a level, or of class k at level 3. -/
def State.leavesUnder (s : State) (lvl i : Nat) : List (Nat × Node) :=
  s.tmg.leaf.filter (fun e => match lvl with
    | 0 => e.1 = i
    | 1 => s.parentOf 0 e.1 = i
    | 2 => s.parentOf 1 (s.parentOf 0 e.1) = i
    | _ => s.leafClass e.1 = i)

/-- R256 HELD: bytes held below a node. -/
def State.heldUnder (s : State) (lvl i : Nat) : Nat := (s.leavesUnder lvl i).foldl (fun d e => d + e.2.depth) 0

/-! R239, R240: buckets. -/

/-- R239: a bucket's level after n refills, one or more. -/
def refilled (n rate burst : Nat) (level : Int) : Int := min (level + n * rate * 256) (burst * 8192000)

/-- R240: a bucket's level after a frame; an unshaped node keeps its level. -/
def debited (rate : Nat) (overhead level : Int) (flen : Nat) : Int :=
  if rate = 0 then level else level - (flen + overhead) * 8000

/-- R255: RATE, BURST and OVERHEAD of a class or port. -/
def State.shape (s : State) (rateReg : Nat) : Nat × Nat × Int :=
  (s.regBits rateReg 19 0, s.regBits (rateReg + 8) 14 0, ((s.getReg (rateReg + 8)).extractLsb' 24 8).toInt)

/-- The level of a class's shaper. -/
def State.clsLevel (s : State) (k : Nat) : Int := Map.at_ s.tmg.clsLvl k 0
def State.prtLevel (s : State) (m : Nat) : Int := Map.at_ s.tmg.prtLvl m 0
def State.clsShaped (s : State) (k : Nat) : Bool := shapedAt (s.shape (tmgClassRate k)).1 (s.clsLevel k)
def State.prtShaped (s : State) (m : Nat) : Bool := shapedAt (s.shape (tmgPortRate m)).1 (s.prtLevel m)

/-- R256: bits of an entry that WRITE sets, as a mask of each word. -/
def writeMask (lvl : Nat) : BitVec 256 :=
  let m : List Nat := match lvl with
    | 0 => [0x90FFFFFF, 0xFF0FFFFF, 0x7FFF, 0xFFFFFF, 0x1FFFF, 0xFFFFFF]
    | 3 => [0xC0000000, 0xFF0FFFFF, 0x7FFF]
    | _ => [0x80FFFFFF, 0xFF0FFFFF, 0x7FFF]
  BitVec.ofNat 256 ((m.zipIdx).foldl (fun v x => v + x.1 * 2 ^ (32 * x.2)) 0)

/-- R247: a write that has waited takes effect: the level falls to a new burst and the deficit to the new weight. -/
def State.applyPend (s : State) (p : TmPend) : State :=
  match p with
  | .node lvl i w =>
    s.modNode lvl i (fun n =>
      let words := (n.words &&& ~~~(writeMask lvl)) ||| (w &&& writeMask lvl)
      let n := { n with words := words, bad := false }
      { n with deficit := min n.deficit (n.weight * 128) })
  | .reg a v => s.setReg a v

/-- R239: the refills due since the last one: one each 256 ns of the island clock. -/
def State.refillsDue (s : State) : Nat := (s.clock - s.tmg.refillAt) / 1024

/-- R239, R247: n refills: waiting writes take effect at the first, then every bucket is credited. -/
def State.refills (s : State) (n : Nat) : State :=
  let p := s.tmg.pend
  let s := { s with tmg := { s.tmg with pend := [], busy := false, refillAt := s.tmg.refillAt + 1024 * n } }
  let s := p.foldl State.applyPend s
  let up := fun (m : Map Node) => m.map (fun e => (e.1, { e.2 with level := refilled n e.2.rate e.2.burst e.2.level }))
  let s := { s with tmg := { s.tmg with leaf := up s.tmg.leaf, inst := up s.tmg.inst, group := up s.tmg.group, pol := up s.tmg.pol } }
  let cls := (List.range 128).foldl (fun (m : Map Int) k =>
    Map.set m k (refilled n (s.shape (tmgClassRate k)).1 (s.shape (tmgClassRate k)).2.1 (s.clsLevel k)) 0) []
  let prt := (List.range 16).foldl (fun (m : Map Int) k =>
    Map.set m k (refilled n (s.shape (tmgPortRate k)).1 (s.shape (tmgPortRate k)).2.1 (s.prtLevel k)) 0) []
  { s with tmg := { s.tmg with clsLvl := cls, prtLvl := prt } }

/-- R239: the refills that are due: none comes before its 256 ns have passed, and none is lost. -/
def State.opRefillShapers (s : State) : State := if s.refillsDue = 0 then s else s.refills s.refillsDue

/-! R236 to R238: arrivals. -/

/-- R237: the frame length F. -/
def frameLen (n : Nat) : Nat := max n 60 + 4

/-- R237, R238: a frame arrives at a leaf. -/
def State.arrive (s : State) (i : Item) (leaf : Nat) : State :=
  let n := s.node 0 leaf
  let inst := s.parentOf 0 leaf
  let group := s.parentOf 1 inst
  let f := frameLen i.frame.length
  let bad := decide (s.nodeCap 0 ≤ leaf) || !n.en || !(s.node 1 inst).en || !(s.node 2 group).en ||
    s.parentOf 2 group ≠ 8 * i.fld fDEST + i.fld fTC % 8
  let drop := fun (s : State) => (s.modNode 0 leaf (fun n =>
    let c := dword n.words 7
    let w := if c = 0xFFFFFFFF then putBits n.words.toNat 29 29 1 else putBits n.words.toNat 255 224 (c + 1)
    { n with words := BitVec.ofNat 256 w })).dropItem i
  let share := bits (dword n.words 4) 16 0 * 1024
  let limit := if s.mem.reduced then share else bits (dword n.words 3) 23 0 * 1024
  if bad then ((s.count tmgLeafBad).tmgEvent 2).dropItem i
  else if i.mark && decide (bits (dword n.words 5) 23 0 * 1024 < n.depth + f) then drop s
  else if limit < n.depth + f then drop s
  else
    let enq := BitVec.ofNat 64 (s.repTime 29)
    let add := fun (s : State) (i : Item) (ovf : Bool) =>
      let fr : TmFrame := { item := i, flen := f, enq := enq, ovf := ovf }
      s.modNode 0 leaf (fun n => { n with frames := n.frames ++ [fr] })
    if n.depth + f ≤ share then add s i false
    else match s.badBuf i.bufs i.frame.length with
    | some h => (s.poisonDrop h).dropItem i
    | none => match s.allocLen 32 0 true i.frame.length none with
      | (.granted h, s) => add (s.freeBufs i.holder i.bufs) { i with bufs := [h], holder := 32 } true
      | (_, s) => s.dropItem i

/-- R236, R237: the oldest frame bound for a leaf arrives. -/
def State.opTmgEnqueue (s : State) : State :=
  match s.tmg.input with
  | [] => s
  | (i, leaf) :: t => ({ s with tmg := { s.tmg with input := t } }).arrive i leaf

/-! R242, R243: deficit weighted round robin. -/

/-- A candidate child: its index, the F of its next frame and the leaf that holds it. -/
structure Cand where
  idx  : Nat
  flen : Nat
  leaf : Nat
  deriving DecidableEq, Repr

/-- R243: the rounds until some candidate's deficit reaches the F of its next frame. -/
def State.dwrrRounds (s : State) (lvl : Nat) (l : List Cand) : Nat :=
  l.foldl (fun m c =>
    let n := s.node lvl c.idx
    min m ((c.flen - n.deficit + n.weight * 128 - 1).toNat / (n.weight * 128))) 10000

/-- R243: the rounds are run, and a candidate whose deficit suffices goes; which one of several the spec leaves
open. -/
def State.dwrr (s : State) (lvl : Nat) (l : List Cand) : Option Cand × State :=
  if l.isEmpty then (none, s)
  else
    let r := s.dwrrRounds lvl l
    let s := l.foldl (fun s c => s.modNode lvl c.idx (fun n => { n with deficit := n.deficit + r * n.weight * 128 })) s
    let ok := l.filter (fun c => decide (c.flen ≤ (s.node lvl c.idx).deficit))
    (ok[s.freeNext % max 1 ok.length]?, s.drawn)

/-- R242: the leaves of an instance node that are candidates. -/
def State.leafCands (s : State) (i : Nat) (urgent : Bool) : List Cand :=
  s.tmg.leaf.filterMap (fun e => match e.2.frames with
    | f :: _ => if e.2.parent = i && !e.2.shaped && (!urgent || e.2.urgent) then some ⟨e.1, f.flen, e.1⟩ else none
    | [] => none)

/-- R242, R243: the children of a node of the level above that are candidates, EN and not shaped, each with the frame that its own
round would send. -/
def State.childCands (s : State) (lvl parent : Nat) (pick : State → Nat → Option Cand × State) : List Cand × State :=
  let kids := (s.nodes lvl).filter (fun e => s.parentOf lvl e.1 = parent && e.2.en && !e.2.shaped)
  kids.foldl (fun (r : List Cand × State) e =>
    match pick r.2 e.1 with
    | (some c, s) => (r.1 ++ [⟨e.1, c.flen, c.leaf⟩], s)
    | (none, s) => (r.1, s)) ([], s)

/-- A leaf of an inner node is chosen. -/
def State.pickLeaf (urgent : Bool) (s : State) (i : Nat) : Option Cand × State := s.dwrr 0 (s.leafCands i urgent)

/-- An instance of a group is chosen. -/
def State.pickInst (urgent : Bool) (s : State) (g : Nat) : Option Cand × State :=
  let (l, s) := s.childCands 1 g (State.pickLeaf urgent)
  s.dwrr 1 l

/-- R242: the pick of class k: the leaf whose first frame goes. -/
def State.pickClass (s : State) (k : Nat) (urgent : Bool) : Option Nat × State :=
  let (l, s) := s.childCands 2 k (State.pickInst urgent)
  let (c, s) := s.dwrr 2 l
  (c.map (fun (c : Cand) => c.leaf), s)

/-! R252, R253: samples. -/

/-- R243: the nodes of a chain that hold nothing lose their deficit. -/
def State.emptied (s : State) (leaf inst group : Nat) : State :=
  let f := fun (s : State) (lvl i : Nat) => if s.heldUnder lvl i = 0 then s.modNode lvl i (fun n => { n with deficit := 0 })
    else s
  f (f (f s 0 leaf) 1 inst) 2 group

/-- R253: the device-wide sample rate leaves room for one more sample. -/
def State.sampleRoom (s : State) : Bool :=
  match s.tmg.sampleAt with
  | some t => s.due t 100
  | none => true

/-- R253: a sample is written to the ring, or counted as lost: when the ring is full, when the write cannot be made, or
when it comes less than 25 ns after the last one written, beyond 40 M samples/s (log 138). -/
def State.putSample (s : State) (m k leaf : Nat) (f : TmFrame) : State :=
  let ring := s.getReg (TMG + 0x048)
  let log2 := bits ring.toNat 4 0
  let prod := s.tmg.prod
  if !ring.getLsbD 31 then s
  else if 2 ^ log2 < (prod - s.getReg (TMG + 0x050)).toNat + 2 || !s.bmeOn || !s.sampleRoom then
    (s.count tmgSampleLost).tmgEvent 0
  else
    let t := s.stampTag .sample 0 0
    let n := s.node 0 leaf
    let delay := (s.repTime 29 - f.enq.toNat) / 4
    let phase := 1 - prod.toNat / 2 ^ log2 % 2
    let data := leBytes 8 t.raw.time.toNat ++ leBytes 2 t.raw.bound.toNat ++ leBytes 1 (k % 8 * 16 + m) ++
      leBytes 1 ((if f.ovf then 2 else 0) + (if f.item.mark then 1 else 0)) ++ leBytes 4 leaf ++
      leBytes 4 ((n.depth + 63) / 64) ++ leBytes 4 ((s.heldUnder 3 k + 1023) / 1024) ++
      leBytes 4 (min delay 0xFFFFFFFF) ++ leBytes 2 f.flen ++ [0] ++ leBytes 1 phase
    let addr := (s.getReg64 (TMG + 0x040)).toNat + 16 * (prod.toNat % 2 ^ log2)
    let s := (s.countStamp t).putPf0 addr data
    { s with tmg := { s.tmg with prod := prod + 2, sampleAt := some s.clock } }

/-- R252: MAC m's port counts a dequeue of a class, and takes a sample at every Nth. -/
def State.sample (s : State) (m k leaf : Nat) (f : TmFrame) : State :=
  let cfg := s.getReg (tmgSampleCfg m)
  if !cfg.getLsbD 31 || !cfg.getLsbD (16 + k % 8) then s
  else
    let n := Map.at_ s.tmg.nth m 0
    if n < bits cfg.toNat 15 0 then { s with tmg := { s.tmg with nth := Map.set s.tmg.nth m (n + 1) 0 } }
    else ({ s with tmg := { s.tmg with nth := Map.set s.tmg.nth m 0 0 } }).putSample m k leaf f

/-! R240, R242 to R246: dequeuing. -/

/-- R243: a child has sent a frame: all of its F is deducted; an empty one loses its deficit. -/
def State.spend (s : State) (lvl i f : Nat) : State :=
  let empty := (s.heldUnder lvl i) = 0
  s.modNode lvl i (fun n => { n with
    deficit := if empty then 0 else n.deficit - f
    level := debited n.rate n.overhead n.level f })

/-- R240, R242: the first frame of a leaf of class k is dequeued for MAC m and handed to its egress pipeline. -/
def State.dequeue (s : State) (m k leaf : Nat) : State :=
  match (s.node 0 leaf).frames with
  | [] => s
  | f :: rest =>
    let urgent := (s.node 0 leaf).urgent
    let inst := s.parentOf 0 leaf
    let group := s.parentOf 1 inst
    let s := s.modNode 0 leaf (fun n => { n with frames := rest })
    let s := ((s.spend 0 leaf f.flen).spend 1 inst f.flen).spend 2 group f.flen
    let c := s.shape (tmgClassRate k)
    let p := s.shape (tmgPortRate m)
    let cls := Map.set s.tmg.clsLvl k (debited c.1 c.2.2 (s.clsLevel k) f.flen) 0
    let prt := Map.set s.tmg.prtLvl m (debited p.1 p.2.2 (s.prtLevel m) f.flen) 0
    let head := if (Map.get s.tmg.head k).map (fun (h : Nat × Nat) => h.1) = some leaf then Map.del s.tmg.head k
      else s.tmg.head
    let s := { s with tmg := { s.tmg with clsLvl := cls, prtLvl := prt, head := head } }
    let s := (s.stat (TMG + 0x2000 + 0x10 * k)).statN (TMG + 0x2008 + 0x10 * k) f.flen
    let s := s.sample m k leaf f
    let i := { (f.item.setFld fURGENT (if urgent then 1 else 0)).setFld fDEST m with pass := false, cls := k % 8 }
    s.modPipe (4 + s.macPipe m) (fun x => { x with port := x.port ++ [i] })

/-- R123: the wire length of a leaf's first frame at a MAC. -/
def State.wireLen (s : State) (m leaf : Nat) : Nat :=
  match (s.node 0 leaf).frames with
  | f :: _ => f.flen + (if s.protects m f.item.frame then 32 else 0) + 20
  | [] => 0

/-- R242: the classes of a port from 7 down: the first that can send does. -/
def State.chooseClass (m : Nat) : List Nat → State → State
  | [], s => s
  | c :: t, s =>
    let k := 8 * m + c
    if !s.sendable m c || s.clsShaped k then State.chooseClass m t s
    else
      let open_ := (s.gates m).getLsbD c
      let fits := fun (s : State) (leaf : Nat) => (s.node 0 leaf).urgent || (match s.openBudget m c with
        | some b => decide (s.wireLen m leaf ≤ b)
        | none => true)
      let head := (Map.get s.tmg.head k).map (fun (h : Nat × Nat) => h.1)
      let waits := match head with
        | some leaf => !fits s leaf
        | none => false
      let (u, s) := if !open_ || waits then s.pickClass k true else (none, s)
      match u with
      | some leaf => s.dequeue m k leaf
      | none =>
        if !open_ then State.chooseClass m t s
        else match head with
          | some leaf => if fits s leaf then s.dequeue m k leaf else State.chooseClass m t s
          | none =>
            match s.pickClass k false with
            | (none, s) => State.chooseClass m t s
            | (some leaf, s) =>
              let s := { s with tmg := { s.tmg with head := Map.put s.tmg.head k (leaf, s.clock) } }
              if fits s leaf then s.dequeue m k leaf else State.chooseClass m t s

/-- R120, R121: bytes of a MAC's transmit store in use or on their way to it: through its egress pipeline, at the
cipher lanes, or behind a frame there. -/
def State.storeUsed (s : State) (m : Nat) : Nat :=
  let x := s.pipe (4 + s.macPipe m)
  let sum := fun (l : List Item) => l.foldl (fun n i => n + frameLen i.frame.length + (if s.protects m i.frame then 32 else 0)) 0
  let lane := s.rwc.input.filterMap (fun (e : RwcPoint × Item) => match e.1 with
    | .macTx k => if k.val = m then some e.2 else none
    | _ => none)
  (s.mac m).store.foldl (fun n i => n + frameLen i.frame.length) 0 + sum ((x.port ++ x.flight).filter (fun i => i.fld fDEST % 16 = m)) + sum lane +
    sum ((s.mac m).txHold.filterMap id)

/-- R121: the largest frame that a MAC may carry: MAXLEN, and 32 more bytes where it protects frames. -/
def State.largest (s : State) (m : Nat) : Nat :=
  s.regBits (macReg m 8) 13 0 + (if (s.getReg (macReg m 0x100)).getLsbD 0 then 32 else 0)

/-- R120, R121, R242: a MAC's transmit store has room for the largest frame that it may carry. -/
def State.storeRoom (s : State) (m : Nat) : Bool :=
  decide (s.storeUsed m + s.largest m ≤ 12288 * modeLanes (s.modeOf (m / 8)))

/-- R242: a MAC with room in its store asks its port for a frame. -/
def State.opMacRequest (s : State) (m : Nat) : State :=
  if !s.storeRoom m || !s.macThere m || s.prtShaped m then s
  else State.chooseClass m [7, 6, 5, 4, 3, 2, 1, 0] s

/-- R245: a class's head has waited for its limit. -/
def State.opHeadExpire (s : State) (k : Nat) : State :=
  match Map.get s.tmg.head k with
  | none => s
  | some (leaf, since) =>
    let lim := s.regBits (TMG + 0xC04 + 8 * k) 15 0
    if lim = 0 || !s.due since (msec lim) then s
    else
      let s := { s with tmg := { s.tmg with head := Map.del s.tmg.head k } }
      let s := (s.count (tmgHeadExpire k)).tmgEvent 1
      match (s.node 0 leaf).frames with
      | f :: rest =>
        let inst := s.parentOf 0 leaf
        ((s.modNode 0 leaf (fun n => { n with frames := rest })).emptied leaf inst (s.parentOf 1 inst)).dropItem f.item
      | [] => s

/-! R249 to R251: policers. -/

/-- R250: a policer's decision on the oldest item at the unit. -/
def State.opPolice (s : State) : State :=
  match s.tmg.polIn with
  | [] => s
  | (i, p) :: t =>
    let s := { s with tmg := { s.tmg with polIn := t } }
    let q := bits (i.fld fPOLICER) 17 0
    let n := s.node 3 q
    if s.nodeCap 3 ≤ q || !n.en then s.afterPolicer p.val i
    else
      let need : Int := ((frameLen (i.fld fLEN) : Nat) + n.overhead) * 8000
      if need ≤ n.level then
        (s.modNode 3 q (fun n => { n with
          level := n.level - need
          words := BitVec.ofNat 256 (putBits n.words.toNat 255 192 (bits n.words.toNat 255 192 + 1)) })).afterPolicer p.val i
      else if n.words.getLsbD 30 then
        (s.modNode 3 q (fun n => { n with
          words := BitVec.ofNat 256 (putBits n.words.toNat 191 128 (bits n.words.toNat 191 128 + 1)) })).afterPolicer p.val
          { i with mark := true }
      else
        (s.modNode 3 q (fun n =>
          let c := dword n.words 3
          let w := if c = 0xFFFFFFFF then putBits n.words.toNat 29 29 1 else putBits n.words.toNat 127 96 (c + 1)
          { n with words := BitVec.ofNat 256 w })).dropItem i

/-! R247, R248, R255: commands. -/

/-- R256: an entry as READ returns it. -/
def State.nodeView (s : State) (lvl i : Nat) : BitVec 256 :=
  let n := s.node lvl i
  let w := n.words.toNat
  match lvl with
  | 0 =>
    let over_ := decide (bits (dword n.words 3) 23 0 * 1024 < n.depth) || decide (bits (dword n.words 4) 16 0 * 1024 < n.depth) ||
      decide (bits (dword n.words 5) 23 0 * 1024 < n.depth)
    BitVec.ofNat 256 (putBits (putBits w 30 30 (if over_ then 1 else 0)) 223 192 ((n.depth + 63) / 64))
  | 3 => n.words
  | _ => BitVec.ofNat 256 (putBits w 127 96 ((s.heldUnder lvl i + 63) / 64))

/-- R255: an index or a field of a written entry is out of range. -/
def State.badEntry (s : State) (lvl i : Nat) (w : BitVec 256) : Bool :=
  let n : Node := { words := w }
  let top := match lvl with
    | 0 => s.nodeCap 1
    | 1 => 4096
    | _ => 128
  decide (s.nodeCap lvl ≤ i) || decide (800000 < n.rate) || n.burst = 0 || decide (16384 < n.burst) ||
    decide (n.overhead < -64) ||
    (if lvl = 3 then w.getLsbD 31 && n.rate = 0
     else bits (dword w 0) 23 16 = 0 || decide (top ≤ n.parent))

/-- R247, R248, R255: WRITE. -/
def State.tmgWrite (s : State) (lvl i : Nat) : State :=
  let w := (List.range 8).foldl (fun (v : BitVec 256) k => v ||| ((s.getReg (tmgData k)).setWidth 256 <<< (32 * k))) 0
  let n : Node := { words := w }
  let old := s.node lvl i
  let status :=
    if 3 < lvl || s.badEntry lvl i w then 1
    else if lvl < 3 && n.parent ≠ old.parent && s.heldUnder lvl i ≠ 0 then 2
    else if lvl < 2 && w.getLsbD 31 && !(s.node (lvl + 1) n.parent).en then 3
    else 0
  if status ≠ 0 then { s with tmg := { s.tmg with stat := status } }
  else { s with tmg := { s.tmg with stat := 0, busy := true, pend := s.tmg.pend ++ [.node lvl i w] } }

/-- R255, R256: READ, with CLR. -/
def State.tmgRead (s : State) (lvl i : Nat) (clr : Bool) : State :=
  if 3 < lvl || decide (s.nodeCap lvl ≤ i) then { s with tmg := { s.tmg with stat := 1 } }
  else
    let v := s.nodeView lvl i
    let s := (List.range 8).foldl (fun s w => s.setReg (tmgData w) (v.extractLsb' (32 * w) 32)) s
    let s := if !clr then s else s.modNode lvl i (fun n => match lvl with
      | 0 => { n with words := BitVec.ofNat 256 (putBits (putBits n.words.toNat 29 29 0) 255 224 0) }
      | 3 => { n with words := BitVec.ofNat 256 (putBits (putBits n.words.toNat 29 29 0) 127 96 0) }
      | _ => n)
    { s with tmg := { s.tmg with stat := 0 } }

/-- R255: a whole write of TMG_CMD; without an OP it is no command. -/
def State.opTmgCmd (s : State) (v : Word) : State :=
  s.onCmd tmgCmd s.tmg.busy (fun s =>
    let s := s.setReg tmgCmd (v &&& 0x71F)
    let n := v.toNat
    let i := s.regBits tmgIndex 19 0
    match bits n 3 0 with
    | 0 => s
    | 1 => s.tmgRead (bits n 10 8) i (bit n 4)
    | 2 => s.tmgWrite (bits n 10 8) i
    | _ => { s with tmg := { s.tmg with stat := 1 } })

/-- R255: the command of one operation: the value's OP is the operation's own. -/
def State.opTmg (s : State) (op : Nat) (v : Word) : State := s.opTmgCmd (BitVec.ofNat 32 (putBits v.toNat 3 0 op))

/-- R255: a class or port rate register takes a value. -/
def tmgRateOk (a : Nat) (v : Word) : Bool :=
  if a % 16 = 0 then decide (bits v.toNat 19 0 ≤ 800000)
  else decide (1 ≤ bits v.toNat 14 0) && decide (bits v.toNat 14 0 ≤ 16384) && decide (-64 ≤ (v.extractLsb' 24 8).toInt)

/-- R247, R255: a completed write of a class or port rate register waits for the next refill. -/
def State.opTmgRate (s : State) (a : Nat) (v : Word) : State :=
  s.onCmd a false (fun s =>
    match findReg a with
    | some (r, _, _, 0) =>
      if !(decide (TMG + 0x100 ≤ a) && decide (a < TMG + 0xC00) && r.acc = .rwg) || !tmgRateOk a v then s
      else { s with tmg := { s.tmg with pend := s.tmg.pend ++ [.reg a (v &&& BitVec.ofNat 32 r.mask)] } }
    | _ => s)

/-- R255: the read-only words of the TMG. -/
def State.tmgView (s : State) (o : Nat) : Option Nat :=
  if o = 0 then some (if s.mem.reduced then 2 ^ 31 else 0)
  else if o = 0x10 then some ((s.getReg tmgCmd).toNat + (if s.tmg.busy then 2 ^ 31 else 0) + s.tmg.stat * 2 ^ 24)
  else if o = 0x4C then some s.tmg.prod.toNat
  else if 0x200 ≤ o ∧ o < 0x240 then
    let m := (o - 0x200) / 4
    some ((if s.prtShaped m then 2 ^ 31 else 0) +
      (List.range 8).foldl (fun w c => if s.heldUnder 3 (8 * m + c) ≠ 0 then w + 2 ^ c else w) 0)
  else if 0x1400 ≤ o ∧ o < 0x1600 then
    let k := (o - 0x1400) / 4
    let held := s.heldUnder 3 k
    some ((if (Map.get s.tmg.head k).isSome then 2 ^ 31 else 0) + (if s.clsShaped k then 2 ^ 30 else 0) +
      (if held ≠ 0 then 2 ^ 29 else 0) + (held + 1023) / 1024 % 2 ^ 24)
  else none

end Sys2Proof.Machine
end

