-- ==== Sys2Proof/Machine/Aes.lean ====
section
/-! DEFINITION. AES (FIPS 197) and the modes that R192, R195, R199, R201, R204 and R206 name: CBC, CTR, CFB-128 and OFB
(SP 800-38A), GCM (SP 800-38D) and XTS (IEEE 1619). The spec names them and their standards give them (log 68). -/

namespace Sys2Proof.Machine

/-- The S-box: eight rows of 32 bytes, the lowest byte first. -/
def aesSbox : List Nat := [
  0xc072a49cafa2d4adf04759fa7dc982ca76abd7fe2b670130c56f6bf27b777c63,
  0x75b227ebe28012079a059618c323c7041531d871f1e5a534ccf73f362693fdb7,
  0xcf584c4a39becb6a5bb1fc20ed00d153842fe329b3d63b52a05a6e1b1a2c8309,
  0xd2f3ff1021dab6bcf5389d928f40a351a89f3c507f02f94585334d43fbaaefd0,
  0xdb0b5ede14b8ee4688902a22dc4f816073195d643d7ea7c41744975fec130ccd,
  0x08ae7a65eaf4566ca94ed58d6d37c8e779e4959162acd3c25c2406490a3a32e0,
  0x9e1dc186b95735610ef6034866b53e708a8bbd4b1f74dde8c6b4a61c2e2578ba,
  0x16bb54b00f2d99416842e6bf0d89a18cdf2855cee9871e9b948ed9691198f8e1]

/-- The inverse S-box. -/
def aesInvSbox : List Nat := [
  0xcbe9dec444438e3487ff2f9b8239e37cfbd7f3819ea340bf38a53630d56a0952,
  0x25d18b6d49a25b76b224d92866a12e084ec3fa420b954cee3d23c2a632947b54,
  0x849d8da75746155edab9edfd5048706c92b6655dcc5ca4d41698688664f6f872,
  0x6b8a130103bdafc1020f3fca8f1e2cd00645b3b80558e4f70ad3bc8c00abd890,
  0x6edf751ce837f9e28535ade72274ac9673e6b4f0cecff297eadc674f4111913a,
  0xf45acd78fec0db9a2079d2c64b3e56fc1bbe18aa0e62b76f89c5291d711af147,
  0xef9cc9939f7ae52d0d4ab519a97f51605fec8027591012b131c7078833a8dd1f,
  0x7d0c2155631469e126d677ba7e042b17619953833cbbebc8b0f52aae4d3be0a0]

/-- A byte of a table. -/
def boxAt (t : List Nat) (b : Byte) : Byte := BitVec.ofNat 8 (t.getD (b.toNat / 32) 0 >>> (8 * (b.toNat % 32)))

/-- Bytes added in GF(2). -/
def xorBytes (a b : List Byte) : List Byte := List.zipWith (· ^^^ ·) a b

/-- A byte times x in the field of AES. -/
def aesX (b : Byte) : Byte := (b <<< 1) ^^^ (if b.getLsbD 7 then 0x1B else 0)

/-- A byte times a small constant in the field of AES. -/
def aesMul (k : Nat) (b : Byte) : Byte :=
  let t := fun (j : Nat) (v : Byte) => if bit k j then v else 0
  t 0 b ^^^ t 1 (aesX b) ^^^ t 2 (aesX (aesX b)) ^^^ t 3 (aesX (aesX (aesX b)))

/-- MixColumns with a row of constants. -/
def mixColumns (m : List Nat) : List Byte → List Byte
  | a :: b :: c :: d :: t =>
    let col := [a, b, c, d]
    let one := fun (r : Nat) => (List.range 4).foldl (fun (v : Byte) j =>
      v ^^^ aesMul (m.getD ((j + 4 - r) % 4) 0) (col.getD j 0)) 0
    [one 0, one 1, one 2, one 3] ++ mixColumns m t
  | _ => []

/-- The bytes of a block in another order. -/
def permute (order : List Nat) (b : List Byte) : List Byte := order.map (fun j => b.getD j 0)

/-- FIPS 197: ShiftRows and its inverse. -/
def shiftRows : List Byte → List Byte := permute [0, 5, 10, 15, 4, 9, 14, 3, 8, 13, 2, 7, 12, 1, 6, 11]
def invShiftRows : List Byte → List Byte := permute [0, 13, 10, 7, 4, 1, 14, 11, 8, 5, 2, 15, 12, 9, 6, 3]

/-- Further words of the key schedule, the newest first: nk is the key's words, i the number of the next. -/
def aesExpand (nk : Nat) : Nat → Nat → Byte → List (List Byte) → List (List Byte)
  | 0, _, _, w => w
  | n + 1, i, rcon, w =>
    let last := w.getD 0 []
    let t := if i % nk = 0 then
        xorBytes (permute [1, 2, 3, 0] (last.map (boxAt aesSbox))) [rcon, 0, 0, 0]
      else if nk = 8 ∧ i % nk = 4 then last.map (boxAt aesSbox) else last
    aesExpand nk n (i + 1) (if i % nk = 0 then aesX rcon else rcon) (xorBytes (w.getD (nk - 1) []) t :: w)

/-- The words of a key, the newest first. -/
def keyWords : List Byte → List (List Byte) → List (List Byte)
  | a :: b :: c :: d :: t, w => keyWords t ([a, b, c, d] :: w)
  | _, w => w

/-- The round keys of a key of 16 or 32 bytes, in order. -/
def aesKeys (key : List Byte) : List (List Byte) :=
  let nk := key.length / 4
  let w := (aesExpand nk (4 * (nk + 7) - nk) nk 1 (keyWords key [])).reverse
  (List.range (nk + 7)).map (fun r => ((w.drop (4 * r)).take 4).flatten)

/-- FIPS 197: one block enciphered under round keys. -/
def aesBlock (ks : List (List Byte)) (b : List Byte) : List Byte :=
  let mid := (ks.drop 1).dropLast.foldl (fun b k =>
    xorBytes (mixColumns [2, 3, 1, 1] (shiftRows (b.map (boxAt aesSbox)))) k) (xorBytes b (ks.headD []))
  xorBytes (shiftRows (mid.map (boxAt aesSbox))) (ks.getLastD [])

/-- FIPS 197: one block deciphered. -/
def aesUnblock (ks : List (List Byte)) (b : List Byte) : List Byte :=
  let mid := (ks.drop 1).dropLast.reverse.foldl (fun b k =>
    mixColumns [14, 11, 13, 9] (xorBytes ((invShiftRows b).map (boxAt aesInvSbox)) k)) (xorBytes b (ks.getLastD []))
  xorBytes ((invShiftRows mid).map (boxAt aesInvSbox)) (ks.headD [])

/-! SP 800-38A. Text is worked on in blocks of 16; the fuel covers them. -/

def cbcSeal (ks : List (List Byte)) : Nat → List Byte → List Byte → List Byte
  | 0, _, _ => []
  | n + 1, iv, d =>
    if d.isEmpty then []
    else
      let c := aesBlock ks (xorBytes (d.take 16) iv)
      c ++ cbcSeal ks n c (d.drop 16)

/-- SP 800-38A: CBC, deciphering. -/
def cbcOpen (ks : List (List Byte)) : Nat → List Byte → List Byte → List Byte
  | 0, _, _ => []
  | n + 1, iv, d =>
    if d.isEmpty then [] else xorBytes (aesUnblock ks (d.take 16)) iv ++ cbcOpen ks n (d.take 16) (d.drop 16)

/-- CFB-128: the next block follows from the ciphertext. -/
def cfb (ks : List (List Byte)) (opens : Bool) : Nat → List Byte → List Byte → List Byte
  | 0, _, _ => []
  | n + 1, iv, d =>
    if d.isEmpty then []
    else
      let o := xorBytes (d.take 16) (aesBlock ks iv)
      o ++ cfb ks opens n (if opens then d.take 16 else o) (d.drop 16)

/-- SP 800-38A: OFB. -/
def ofb (ks : List (List Byte)) : Nat → List Byte → List Byte → List Byte
  | 0, _, _ => []
  | n + 1, iv, d =>
    if d.isEmpty then []
    else
      let k := aesBlock ks iv
      xorBytes (d.take 16) k ++ ofb ks n k (d.drop 16)

/-- CTR: the counter is the low w bits of the block, big-endian. -/
def ctr (ks : List (List Byte)) (w : Nat) : Nat → Nat → List Byte → List Byte
  | 0, _, _ => []
  | n + 1, c, d =>
    if d.isEmpty then []
    else
      let next := c / 2 ^ w * 2 ^ w + (c + 1) % 2 ^ w
      xorBytes (d.take 16) (aesBlock ks (beBytes 16 c)) ++ ctr ks w n next (d.drop 16)

/-! SP 800-38D: GCM with a 96-bit IV and a tag of 16 bytes. -/

/-- A product in GHASH's field, bit 127 the first. -/
def ghashMul (x y : Nat) : Nat :=
  ((List.range 128).foldl (fun (s : Nat × Nat) j =>
    (if bit x (127 - j) then Nat.xor s.1 s.2 else s.1,
     if bit s.2 0 then Nat.xor (s.2 / 2) (225 * 2 ^ 120) else s.2 / 2)) (0, y)).1

/-- GHASH of bytes, each begun block filled with zeros. -/
def ghash (h : Nat) : Nat → Nat → List Byte → Nat
  | 0, y, _ => y
  | n + 1, y, d => if d.isEmpty then y else ghash h n (ghashMul (Nat.xor y (beNat (slicePad d 0 16))) h) (d.drop 16)

/-- GCM: the text enciphered or deciphered. -/
def gcmText (key iv text : List Byte) : List Byte := ctr (aesKeys key) 32 (text.length + 1) (beNat iv * 2 ^ 32 + 2) text

/-- GCM: the tag of additional data and ciphertext. -/
def gcmTag (key iv aad cipher : List Byte) : List Byte :=
  let ks := aesKeys key
  let h := beNat (aesBlock ks (List.replicate 16 0))
  let y := ghash h (aad.length + 1) 0 aad
  let y := ghash h (cipher.length + 1) y cipher
  let y := ghashMul (Nat.xor y (8 * aad.length * 2 ^ 64 + 8 * cipher.length)) h
  xorBytes (beBytes 16 y) (aesBlock ks (beBytes 16 (beNat iv * 2 ^ 32 + 1)))

/-- GCM: the ciphertext and tag of a text. -/
def gcmSeal (key iv aad text : List Byte) : List Byte × List Byte :=
  let c := gcmText key iv text
  (c, gcmTag key iv aad c)

/-- GCM: the text of a ciphertext whose tag verifies. -/
def gcmOpen (key iv aad cipher tag : List Byte) : Option (List Byte) :=
  if gcmTag key iv aad cipher = tag then some (gcmText key iv cipher) else none

/-! IEEE 1619: XTS of whole blocks. -/

/-- A tweak times x: bytes are little-endian. -/
def xtsNext (t : Nat) : Nat := Nat.xor (t * 2 % 2 ^ 128) (if bit t 127 then 135 else 0)

/-- SP 800-38E: the whole blocks of an XTS unit. -/
def xtsBlocks (ks : List (List Byte)) (opens : Bool) : Nat → Nat → List Byte → List Byte
  | 0, _, _ => []
  | n + 1, t, d =>
    if d.isEmpty then []
    else
      let tw := leBytes 16 t
      let x := xorBytes (d.take 16) tw
      xorBytes (if opens then aesUnblock ks x else aesBlock ks x) tw ++ xtsBlocks ks opens n (xtsNext t) (d.drop 16)

/-- XTS: one data unit of a number, under the two keys. -/
def xtsUnit (key1 key2 : List Byte) (opens : Bool) (unit : Nat) (d : List Byte) : List Byte :=
  xtsBlocks (aesKeys key1) opens (d.length + 1) (leNat (aesBlock (aesKeys key2) (leBytes 16 (unit % 2 ^ 128)))) d

end Sys2Proof.Machine
end

