-- ==== Sys2Proof/Machine/Rwc.lean ====
section
/-! DEFINITION. The rewrite and cipher unit: templates (R188 to R191), security associations (R193 to R198), inline
ESP (R199, R200), MACsec (R131, R132, R201, R202), lookaside jobs (R203 to R206), commands (R197, R212) and
known-answer tests (R210, R211). -/

namespace Sys2Proof.Machine

/-! R212: registers. -/
abbrev rwcEvt : Nat := RWC + 0x004
abbrev rwcSaBase : Nat := RWC + 0x010
abbrev rwcTplBase : Nat := RWC + 0x018
abbrev rwcSaCmd : Nat := RWC + 0x020
abbrev rwcSaIndex : Nat := RWC + 0x024
abbrev rwcTplCmd : Nat := RWC + 0x028
abbrev rwcTplIndex : Nat := RWC + 0x02C
abbrev rwcKeyData (w : Nat) : Nat := RWC + 0x100 + 8 * w
abbrev rwcSaData (w : Nat) : Nat := RWC + 0x800 + 4 * w
abbrev rwcTplData (w : Nat) : Nat := RWC + 0x1000 + 4 * w
abbrev rwcSaInvalid : Nat := RWC + 0x400
abbrev rwcSaExpired : Nat := RWC + 0x404
abbrev rwcReplay : Nat := RWC + 0x408
abbrev rwcSpiMismatch : Nat := RWC + 0x40C
abbrev rwcScMiss : Nat := RWC + 0x410
abbrev rwcEspNh : Nat := RWC + 0x414
abbrev rwcInFull : Nat := RWC + 0x418
abbrev rwcNoLane : Nat := RWC + 0x41C
abbrev rwcTooLong : Nat := RWC + 0x420
abbrev rwcTtlZero : Nat := RWC + 0x424
abbrev rwcExpOvf : Nat := RWC + 0x428
abbrev rwcKatFail : Nat := RWC + 0x42C
abbrev rwcLenReject (l : Nat) : Nat := RWC + 0x480 + 8 * l
abbrev rwcAuthFail (l : Nat) : Nat := RWC + 0x484 + 8 * l
abbrev rwcStatInline : Nat := RWC + 0x500
abbrev rwcStatLa : Nat := RWC + 0x508
abbrev rwcStatRewrites : Nat := RWC + 0x510
abbrev rwcStatEditSkip : Nat := RWC + 0x518

/-- R212: bits of RWC_EVT set. -/
def State.rwcEvent (s : State) (b : Nat) : State := s.setEvt rwcEvt 9 (BitVec.ofNat 32 (2 ^ b))

/-! R188, R193: regions. -/

def State.tplCap (s : State) : Nat := if s.mem.reduced then 16384 else 65536
def State.saCap (s : State) : Nat := if s.mem.reduced then 32768 else 1048576
def State.tplOn (s : State) : Bool := (s.getReg rwcTplBase).getLsbD 31 && !s.rwc.initTpl
def State.saOn (s : State) : Bool := (s.getReg rwcSaBase).getLsbD 31 && !s.rwc.initSa

/-- R188, R193: a completed write of a region's base register. -/
def State.opRwcBase (s : State) (region : RwcRegion) (v : Word) : State :=
  match region with
  | .tpl => s.onCmd rwcTplBase false (fun s =>
    let s := if (s.getReg rwcTplBase).getLsbD 31 && !v.getLsbD 31 && !s.mem.reduced then
        s.spill (s.regBits rwcTplBase 13 0 * 2 ^ 20) 128 (s.rwc.tpl.map (fun (e : Nat × BitVec 1024) => (e.1, e.2.toNat)))
      else s
    let (z, s) := s.baseWrite rwcTplBase v 8
    if z then { s with rwc := { s.rwc with tpl := [], initTpl := true } } else s)
  | .sa => s.onCmd rwcSaBase false (fun s =>
    let (z, s) := s.baseWrite rwcSaBase v 128
    if z then { s with rwc := { s.rwc with sas := [], initSa := true } } else s)

/-- R188, R193: a region has been zeroed. -/
def State.opRwcZeroed (s : State) (region : RwcRegion) : State :=
  match region with
  | .tpl => { s with rwc := { s.rwc with initTpl := false } }
  | .sa => { s with rwc := { s.rwc with initSa := false } }

/-- R188, R327: a template; one that is not VALID, not there or poisoned reads as zero. -/
def State.template (s : State) (n : Nat) : BitVec 1024 :=
  if !s.tplOn || decide (s.tplCap ≤ n) || s.tableBad rwcTplBase (128 * n) 128 then 0 else Map.at_ s.rwc.tpl n 0

/-- R194: a security association as stored. -/
def State.sa (s : State) (n : Nat) : Sa := Map.at_ s.rwc.sas n {}

/-- An SA is changed. -/
def State.modSa (s : State) (n : Nat) (f : Sa → Sa) : State :=
  { s with rwc := { s.rwc with sas := Map.set s.rwc.sas n (f (s.sa n)) {} } }

/-! R194: fields of an SA. -/
def Sa.field (a : Sa) (hi lo : Nat) : Nat := bits a.words.toNat hi lo
def Sa.setField (a : Sa) (hi lo v : Nat) : Sa := { a with words := BitVec.ofNat 512 (putBits a.words.toNat hi lo v) }
def Sa.valid (a : Sa) : Bool := a.words.getLsbD 31
def Sa.kind (a : Sa) : Nat := a.field 30 27
def Sa.dirIn (a : Sa) : Bool := a.words.getLsbD 26
def Sa.key256 (a : Sa) : Bool := a.words.getLsbD 25
def Sa.esn (a : Sa) : Bool := a.words.getLsbD 24
def Sa.st (a : Sa) : Nat := a.field 23 22
def Sa.keyed (a : Sa) : Bool := a.words.getLsbD 21
def Sa.instance_ (a : Sa) : Nat := a.field 15 0
def Sa.bytesAt (a : Sa) (off n : Nat) : List Byte := slice (leBytes 64 a.words.toNat) off n
def Sa.seq (a : Sa) : Nat := a.field 319 256
def Sa.win (a : Sa) : Nat := a.field 230 224
def Sa.keyBytes (a : Sa) (off n : Nat) : List Byte := slice (leBytes 64 a.key.toNat) off n
/-- R195: the AES key. -/
def Sa.aes (a : Sa) : List Byte := a.keyBytes 0 (if a.key256 then 32 else 16)

/-- R193, R327: SA n is VALID where it can be used. -/
def State.saValid (s : State) (n : Nat) : Bool :=
  s.saOn && decide (n < s.saCap) && (s.sa n).valid && !s.tableBad rwcSaBase (128 * n) 128

/-- R196: a lookup of an SA: the 32-byte result. -/
def State.lookSa (s : State) (n : Nat) : Option Nat :=
  if s.saValid n then
    let a := s.sa n
    some (a.field 63 0 + a.field 223 160 * 2 ^ 64 + a.field 255 224 * 2 ^ 128)
  else none

/-- R198: an SA's STATE changes: an expiry entry and its event. -/
def State.setSaState (s : State) (n st : Nat) (byTime : Bool) : State :=
  if st ≤ (s.sa n).st then s
  else
    let s := s.modSa n (fun a => a.setField 23 22 st)
    let e : SaExp := { sa := BitVec.ofNat 20 n, hard := st = 2, byTime := byTime }
    let s := if s.rwc.exp.length < 256 then { s with rwc := { s.rwc with exp := s.rwc.exp ++ [e] } }
      else s.count rwcExpOvf
    s.rwcEvent (if st = 2 then 1 else 0)

/-- R197, R198: an outbound SA's number is used: SEQ advances, and STATE follows. -/
def State.useSeq (s : State) (n : Nat) : State :=
  let a := s.sa n
  let seq := a.seq
  let soft := a.field 383 320
  let last := if a.esn || a.kind = 2 then 2 ^ 64 - 1 else 2 ^ 32 - 1
  let s := s.modSa n (fun a => a.setField 319 256 (seq + 1))
  if last ≤ seq then s.setSaState n 2 false
  else if soft ≠ 0 && decide (soft ≤ seq + 1) then s.setSaState n 1 false
  else s

/-- R198: replica 27 has reached an SA's EXPIRE_T; of any SA, a VALID one or not. -/
def State.opSaExpireTime (s : State) (n : Nat) : State :=
  let t := (s.sa n).field 447 384
  if t ≠ 0 && decide (t ≤ s.repTime 27) then s.setSaState n 2 true else s

/-- R198: RWC_EXP_NEXT. -/
def State.opExpNext (s : State) (v : Word) : State :=
  if v.getLsbD 0 then { s with rwc := { s.rwc with exp := s.rwc.exp.drop 1 } } else s

/-! R207, R210: lanes. -/

/-- R207, R211: lanes in service: powered and not fenced. -/
def State.lanes (s : State) : List Nat := (List.range 8).filter (fun l => s.powered (59 + l) && !s.rwc.fenced.getLsbD l)

/-- R210: the number of a lane's test slot at a time of replica 27: slots start 1.25 s × l after each whole multiple of
10 s. -/
def testSlot (l t : Nat) : Nat := (t + secs 10 - msec 1250 * l) / secs 10

/-- R210: a lane in service is under test: its slot began less than 50 µs ago and its test has not ended. -/
def State.testing (s : State) (l : Nat) : Bool :=
  let t := s.repTime 27
  s.lanes.contains l && decide ((t + secs 10 - msec 1250 * l) % secs 10 < usec 50) &&
    (match Map.get s.rwc.tested l with
      | some u => decide (testSlot l u < testSlot l t)
      | none => true)

/-- R207, R210: lanes that take items. -/
def State.freeLanes (s : State) : List Nat := s.lanes.filter (fun l => !s.testing l)

/-- R207: the lane of the next item; which one has the least work depends on work the model finishes at once. -/
def State.pickLane (s : State) : Option Nat × State :=
  (s.freeLanes[s.freeNext % max 1 s.freeLanes.length]?, s.drawn)

/-! R189, R190: rewriting. -/

/-- R189: an incremental update of an IPv4 header checksum for a change of bytes from an even offset. -/
def fixSum (hc : Nat) (old new : List Byte) : Nat :=
  let x := (65535 - hc) + (65535 - onesSum 0 old) + onesSum 0 new
  let y := x % 65536 + x / 65536
  65535 - (y % 65536 + y / 65536)

/-- Bytes of an instance are replaced; with FIX the checksum at byte 10 of the instance follows. -/
def editBytes (f : List Byte) (h : Hdr) (b : Nat) (d : List Byte) (fix : Bool) : List Byte :=
  let e := b / 2 * 2
  let n := (b + d.length + 1) / 2 * 2 - e
  let g := splice f (h.off + b) d
  if fix && decide (12 ≤ h.len) then
    splice g (h.off + 10) (beBytes 2 (fixSum (beAt g (h.off + 10) 2) (slicePad f (h.off + e) n) (slicePad g (h.off + e) n)))
  else g

/-- R189: an edit: the frame, or none where the item is refused, and the edits skipped so far. -/
def editFrame (hdrs : List Hdr) (data : List Byte) (r : Option (List Byte) × Nat) (v : Nat) : Option (List Byte) × Nat :=
  match r with
  | (none, k) => (none, k)
  | (some f, k) =>
    let len := if bits v 63 60 = 2 then 1 else bits v 41 38 + 1
    let b := bits v 50 42
    if bits v 63 60 ≠ 1 ∧ bits v 63 60 ≠ 2 then (some f, k)
    else match hdrOf hdrs (bits v 59 54) (bits v 53 51) with
      | none => (some f, k + 1)
      | some h =>
        if h.len < b + len then (some f, k + 1)
        else if bits v 63 60 = 1 then (some (editBytes f h b (slicePad data (bits v 36 30) len) (bit v 37)), k)
        else
          let x := beAt f (h.off + b) 1
          if x = 1 then (none, k) else (some (editBytes f h b (beBytes 1 ((x + 255) % 256)) (bit v 37)), k)

/-- R190: the strip: the frame, and whether it was skipped. -/
def stripFrame (hdrs : List Hdr) (t : Nat) (f : List Byte) : List Byte × Nat :=
  if !bit t 30 then (f, 0)
  else match hdrOf hdrs (bits t 63 58) (bits t 57 55) with
    | none => (f, 1)
    | some h =>
      let keep := if bit t 54 then (match hdrs with | x :: _ => x.off + x.len | [] => 0) else 0
      (f.take keep ++ f.drop (max keep (h.off + h.len)), 0)

/-- R190: the pushed block with its fields written. -/
def pushBlock (t scratch : Nat) (data opts : List Byte) (rest : List Byte) : List Byte :=
  let plen := bits t 6 0
  let tun := bits t 28 26
  let blk := slicePad data 0 plen
  if tun = 0 then blk
  else
    let v6 := bit t 25
    let ip := 14 + (if bit t 24 then 4 else 0)
    let l4 := ip + (if v6 then 40 else 20)
    let opt := if tun = 2 ∧ bit t 127 then slicePad opts 0 (bits t 119 112) else []
    let total := plen - ip + opt.length + rest.length
    let vni := bits t 95 72
    let blk := if v6 then splice blk (ip + 4) (beBytes 2 (total - 40)) else splice blk (ip + 2) (beBytes 2 total)
    let blk := if tun = 3 then
        let b := splice blk (l4 + 4) (beBytes 3 vni)
        if bit t 22 then splice b (l4 + 7) (beBytes 1 scratch) else b
      else
        let b := if bit t 22 then splice blk l4 (beBytes 2 (0xC000 + scratch % 0x4000)) else blk
        let b := splice b (l4 + 4) (beBytes 2 (plen - l4 + opt.length + rest.length))
        let b := splice (splice b (l4 + 6) [0, 0]) (l4 + 12) (beBytes 3 vni)
        if tun = 2 then splice b (l4 + 8) (beBytes 1 (putBits (beAt b (l4 + 8) 1) 5 0 (opt.length / 4))) else b
    let blk := blk.take (l4 + 16) ++ opt ++ blk.drop (l4 + 16)
    if v6 then
      if tun ≠ 3 ∧ bit t 23 then
        let udp := blk.drop l4 ++ rest
        let sum := inetSum (slicePad blk (ip + 8) 32 ++ beBytes 4 udp.length ++ [0, 0, 0, 17] ++ udp)
        splice blk (l4 + 6) (beBytes 2 (if sum = 0 then 65535 else sum))
      else blk
    else
      let z := splice blk (ip + 10) [0, 0]
      splice z (ip + 10) (beBytes 2 (inetSum (slicePad z ip 20)))

/-- R190: a template works on an item: the frame, or none where a TTL would be zero, and what was skipped. -/
def rewriteFrame (tpl : BitVec 1024) (opts : List Byte) (i : Item) : Option (List Byte) × Nat :=
  let t := tpl.toNat
  let data := (leBytes 128 t).drop 0x30
  let edits := (List.range 4).map (fun e => bits t (64 * e + 191) (64 * e + 128))
  match edits.foldl (editFrame i.hdrs data) (some i.frame, 0) with
  | (none, k) => (none, k)
  | (some f, k) =>
    let (f, j) := stripFrame i.hdrs t f
    (some (if bit t 29 then pushBlock t (i.fld fSCRATCH) data opts f ++ f else f), k + j)

/-- R191: the template command refuses a template. -/
def badTemplate (tpl : BitVec 1024) : Bool :=
  let t := tpl.toNat
  let plen := bits t 6 0
  let tun := bits t 28 26
  let need := 14 + (if bit t 24 then 4 else 0) + (if bit t 25 then 40 else 20) + (if tun = 3 then 8 else 16)
  let opt := bits t 119 112
  decide (80 < plen) || (tun ≠ 0 && decide (plen < need)) ||
    (bit t 127 && (tun ≠ 2 || decide (opt < 4) || decide (252 < opt) || opt % 4 ≠ 0)) ||
    (List.range 4).any (fun e =>
      let v := bits t (64 * e + 191) (64 * e + 128)
      decide (80 < bits v 36 30 + bits v 41 38 + 1))

/-! Replay (R200, R202). -/

/-- RFC 4303 A.2: the full sequence number from its low half. -/
def espFull (top win lo : Nat) : Nat :=
  let tl := top % 2 ^ 32
  let th := top / 2 ^ 32
  let w := max 1 win
  if w - 1 ≤ tl then (if tl - (w - 1) ≤ lo then th * 2 ^ 32 + lo else (th + 1) * 2 ^ 32 + lo)
  else if 2 ^ 32 + tl - (w - 1) ≤ lo then (th + 2 ^ 32 - 1) % 2 ^ 32 * 2 ^ 32 + lo else th * 2 ^ 32 + lo

/-- IEEE 802.1AE XPN: the full PN from its low half and the lowest acceptable PN. -/
def pnFull (top win lo : Nat) : Nat :=
  let low := top + 1 - win
  (low / 2 ^ 32 + (if bit low 31 && !bit lo 31 then 1 else 0)) * 2 ^ 32 + lo

/-- R200, RFC 4303 A.2: how far a number lies behind the highest accepted one, of 64 bits; none where it lies ahead. -/
def Sa.behind (a : Sa) (n : Nat) : Option Nat :=
  let d := (a.seq + 2 ^ 64 - n % 2 ^ 64) % 2 ^ 64
  if d < 2 ^ 63 then some d else none

/-- R194, R200: a number lies behind the window, or has been accepted. -/
def Sa.replayed (a : Sa) (n : Nat) : Bool :=
  match a.behind n with
  | some d => a.win ≠ 0 && (decide (a.win ≤ d) || bit (a.field 511 448) d)
  | none => false

/-- R200: SEQ and the window advance to an accepted number. -/
def Sa.accept (a : Sa) (n : Nat) : Sa :=
  let map := a.field 511 448
  match a.behind n with
  | none =>
    let far := (n + 2 ^ 64 - a.seq) % 2 ^ 64
    let shifted := if 64 ≤ far then 0 else map * 2 ^ far % 2 ^ 64
    (a.setField 511 448 (Nat.lor shifted 1)).setField 319 256 n
  | some d => if d < 64 then a.setField 511 448 (Nat.lor map (2 ^ d)) else a

/-! R199, R200: inline ESP. -/

/-- R199, R200: an IP header's length field and checksum follow a change of the bytes behind it. -/
def ipLength (f : List Byte) (ip : Nat) (d : Int) : List Byte :=
  let adj := fun (v : Nat) => (((v : Int) + d) % 65536).toNat
  if beAt f ip 1 / 16 = 4 then
    let g := splice f (ip + 2) (beBytes 2 (adj (beAt f (ip + 2) 2)))
    let z := splice g (ip + 10) [0, 0]
    splice z (ip + 10) (beBytes 2 (inetSum (slicePad z ip (4 * (beAt z ip 1 % 16)))))
  else if beAt f ip 1 / 16 = 6 then splice f (ip + 4) (beBytes 2 (adj (beAt f (ip + 4) 2)))
  else f

/-- R199: bytes of the IV behind the ESP header. -/
def Sa.ivLen (a : Sa) : Nat := if a.kind = 0 then 8 else 16

/-- RFC 4106, RFC 4303: additional data, and the text that the ICV of kind 1 covers. -/
def Sa.espAad (a : Sa) (n : Nat) : List Byte :=
  a.bytesAt 4 4 ++ (if a.esn then beBytes 4 (n / 2 ^ 32) else []) ++ beBytes 4 n
def Sa.espIcv (a : Sa) (n : Nat) (covered : List Byte) : List Byte :=
  (hmac256 (a.keyBytes 32 32) (covered ++ (if a.esn then beBytes 4 (n / 2 ^ 32) else []))).take 16

/-- R199: the frame that an outbound ESP SA makes of one; none where kind 1 has no whole blocks. -/
def Sa.espOut (a : Sa) (f : List Byte) (ip esp : Nat) : Option (List Byte) :=
  let n := a.seq
  let iv := if a.kind = 0 then beBytes 8 n else aesBlock (aesKeys (slicePad (leBytes 32 a.ivKey) 0 a.aes.length)) (beBytes 16 n)
  let start := esp + 8 + a.ivLen
  let plain := f.drop start
  if a.kind = 1 ∧ plain.length % 16 ≠ 0 then none
  else
    let hdr := a.bytesAt 4 4 ++ beBytes 4 n
    let (text, icv) := if a.kind = 0 then gcmSeal a.aes (a.bytesAt 8 4 ++ iv) (a.espAad n) plain
      else
        let t := cbcSeal (aesKeys a.aes) plain.length iv plain
        (t, a.espIcv n (hdr ++ iv ++ t))
    some (ipLength (slicePad f 0 esp ++ hdr ++ iv ++ text ++ icv) ip 16)

/-- How an inbound packet ends. -/
inductive EspEnd where
  | spi | replay | auth | len | nh
  | ok (f : List Byte)
  deriving DecidableEq, Repr

/-- R200 steps 5 to 7: the frame without ESP, from the decrypted payload. -/
def espStrip (a : Sa) (f : List Byte) (ip esp : Nat) (plain : List Byte) : EspEnd :=
  let pad := beAt plain (plain.length - 2) 1
  let nh := beAt plain (plain.length - 1) 1
  if plain.length < pad + 2 then .auth
  else
    let body := plain.take (plain.length - pad - 2)
    if bit (a.field 255 224) 31 then
      let typ := if nh = 4 then some 0x0800 else if nh = 41 then some 0x86DD else none
      match typ with
      | some t => .ok (splice (f.take ip) (ip - 2) (beBytes 2 t) ++ body)
      | none => .nh
    else if beAt f ip 1 / 16 = 6 ∧ esp ≠ ip + 40 then .nh
    else
      let g := f.take esp ++ body
      let g := splice g (if beAt f ip 1 / 16 = 6 then ip + 6 else ip + 9) (beBytes 1 nh)
      .ok (ipLength g ip ((body.length : Int) - ((f.length - esp : Nat) : Int)))

/-- R200 steps 1 to 3: the checks of an inbound packet: its end, or its number and plaintext. R18 has a CBC length that
is not whole blocks refused; it follows the ICV (log 139). -/
def Sa.espCheck (a : Sa) (f : List Byte) (esp : Nat) : EspEnd ⊕ (Nat × List Byte) :=
  let lo := beAt f (esp + 4) 4
  let n := if a.esn then espFull a.seq a.win lo else lo
  let start := esp + 8 + a.ivLen
  let iv := slicePad f (esp + 8) a.ivLen
  let text := (f.drop start).take (f.length - start - 16)
  let icv := slicePad f (f.length - 16) 16
  if slicePad f esp 4 ≠ a.bytesAt 4 4 then .inl .spi
  else if a.replayed n then .inl .replay
  else if f.length < start + 16 then .inl .auth
  else if a.kind = 0 then
    match gcmOpen a.aes (a.bytesAt 8 4 ++ iv) (a.espAad n) text icv with
    | some p => .inr (n, p)
    | none => .inl .auth
  else if icv ≠ a.espIcv n (slicePad f esp (8 + a.ivLen) ++ text) then .inl .auth
  else if text.length % 16 ≠ 0 then .inl .len
  else .inr (n, cbcOpen (aesKeys a.aes) text.length iv text)

/-! R187, R209: items at the unit. -/

/-- R187: an SA may serve a point; otherwise the counter of the refusal. -/
def State.saRefusal (s : State) (n : Nat) (ok : Sa → Bool) : Option Nat :=
  if !s.saValid n || !ok (s.sa n) then some rwcSaInvalid
  else if (s.sa n).st = 2 then some rwcSaExpired
  else none

/-- R187: an item leaves the unit with a frame: LEN follows, unless it is too long. -/
def State.rewritten (s : State) (p : Nat) (i : Item) (f : List Byte) : State :=
  if 9596 < f.length then (s.count rwcTooLong).dropItem i
  else s.route p (({ i with frame := f }).setFld fLEN f.length)

/-- R190: an item's template; none where it is refused. -/
def State.runTemplate (s : State) (i : Item) : Option Item × State :=
  if !bit (i.fld fTEMPLATE) 16 then (some i, s)
  else
    let t := s.template (bits (i.fld fTEMPLATE) 15 0)
    if !t.getLsbD 31 then (none, (s.count rwcSaInvalid).dropItem i)
    else
      let opts := leBytes 256 (Map.at_ s.rwc.opt (bits t.toNat 107 96) 0).toNat
      match rewriteFrame t opts i with
      | (none, k) => (none, ((s.statN rwcStatEditSkip k).count rwcTtlZero).dropItem i)
      | (some f, k) => (some { i with frame := f }, (s.stat rwcStatRewrites).statN rwcStatEditSkip k)

/-- R187, R199, R200: an item at an ingress exit. -/
def State.rwcIngress (s : State) (p : Nat) (i : Item) : State :=
  let n := bits (i.fld fSA) 19 0
  let ip := bits (i.fld fSCRATCH) 118 110
  let esp := bits (i.fld fSCRATCH) 127 119
  if !bit (i.fld fSA) 20 then
    match s.runTemplate i with
    | (some j, s) => s.rewritten p j j.frame
    | (none, s) => s
  else match s.saRefusal n (fun a => decide (a.kind ≤ 1) && !(a.dirIn && bit (i.fld fTEMPLATE) 16)) with
    | some c => (s.count c).dropItem i
    | none =>
      let (lane, s) := s.pickLane
      let l := lane.getD 0
      let a := s.sa n
      if !a.dirIn then
        match s.runTemplate i with
        | (none, s) => s
        | (some j, s) =>
          match a.espOut j.frame ip esp with
          | none => (s.count (rwcLenReject l)).dropItem j
          | some f => ((s.useSeq n).statN rwcStatInline f.length).rewritten p j f
      else match a.espCheck i.frame esp with
        | .inl .spi => (s.count rwcSpiMismatch).dropItem i
        | .inl .replay => (s.count rwcReplay).dropItem i
        | .inl .len => (s.count (rwcLenReject l)).dropItem i
        | .inl _ => (s.count (rwcAuthFail l)).dropItem i
        | .inr (seq, plain) =>
          let s := (s.modSa n (fun a => a.accept seq)).statN rwcStatInline i.frame.length
          match espStrip a i.frame ip esp plain with
          | .ok f => s.rewritten p i f
          | .nh => (s.count rwcEspNh).dropItem i
          | _ => (s.count (rwcAuthFail l)).dropItem i

/-- R131, R201: the MACsec frame of a padded frame. -/
def Sa.macsecOut (a : Sa) (f : List Byte) : List Byte :=
  let pn := a.seq
  let f := slicePad f 0 (max 60 f.length)
  let tag := beBytes 2 0x88E5 ++ beBytes 1 (0x2C + a.field 241 240) ++ [0] ++ beBytes 4 pn ++ a.bytesAt 20 8
  let nonce := beBytes 12 (Nat.xor (beNat (a.bytesAt 4 4 ++ beBytes 8 pn)) (beNat (a.bytesAt 8 12)))
  let (text, icv) := gcmSeal (a.keyBytes 0 32) nonce (f.take 12 ++ tag) (f.drop 12)
  f.take 12 ++ tag ++ text ++ icv

/-- R131, R187, R201: a frame that its MAC protects; it joins the transmit store. -/
def State.rwcMacTx (s : State) (m : Nat) (i : Item) : State :=
  let n := bits (i.fld fSA) 19 0
  match s.saRefusal n (fun a => bit (i.fld fSA) 20 && a.kind = 2 && !a.dirIn) with
  | some c => (s.count c).dropItem i
  | none =>
    let f := (s.sa n).macsecOut i.frame
    let s := (s.useSeq n).statN rwcStatInline f.length
    s.toStore m { i with frame := f }

/-- R132, R202: the SecTAG of a frame: TCI and AN, low PN, SCI and its length. -/
def secTag (f : List Byte) : Nat × Nat × List Byte × Nat :=
  let tci := beAt f 14 1
  if bit tci 5 then (tci, beAt f 16 4, slicePad f 20 8, 16)
  else (tci, beAt f 16 4, slicePad f 6 6 ++ [0, if bit tci 4 then 0 else 1], 8)

/-- R202: the SA that a MAC's receive SC table gives for an SCI and an AN. -/
def State.scLookup (s : State) (m : Nat) (sci : List Byte) (an : Nat) : Option Nat :=
  (List.range 64).findSome? (fun e =>
    let a := RWC + 0x2000 + 0x400 * m + 0x10 * e
    let w := s.regNat (a + 8)
    if leBytes 8 (s.getReg64 a).toNat = sci && bit w (28 + an) && decide (bits w 19 0 + an < 1048576) then
      some (bits w 19 0 + an) else none)

/-- R132, R202: a received MACsec frame; the decrypted one goes on to its pipeline. One that fails the replay check or
the integrity check is counted in the lane's RWC_AUTH_FAIL. -/
def State.rwcMacRx (s : State) (m : Nat) (i : Item) : State :=
  let f := i.frame
  let (tci, lo, sci, tl) := secTag f
  match s.scLookup m sci (tci % 4) with
  | none => (s.count rwcScMiss).dropItem i
  | some n =>
    match s.saRefusal n (fun a => a.kind = 2 && a.dirIn) with
    | some c => (s.count c).dropItem i
    | none =>
      let (lane, s) := s.pickLane
      let l := lane.getD 0
      let a := s.sa n
      let pn := pnFull a.seq a.win lo
      if a.replayed pn || decide (f.length < 12 + tl + 16) then (s.count (rwcAuthFail l)).dropItem i
      else
        let nonce := beBytes 12 (Nat.xor (beNat (a.bytesAt 4 4 ++ beBytes 8 pn)) (beNat (a.bytesAt 8 12)))
        let data := (f.drop (12 + tl)).take (f.length - 28 - tl)
        let icv := f.drop (f.length - 16)
        let r := if bit tci 3 then gcmOpen (a.keyBytes 0 32) nonce (f.take (12 + tl)) data icv
          else (gcmOpen (a.keyBytes 0 32) nonce (f.take (f.length - 16)) [] icv).map (fun (_ : List Byte) => data)
        match r with
        | none => (s.count (rwcAuthFail l)).dropItem i
        | some d =>
          let s := (s.modSa n (fun a => a.accept pn)).statN rwcStatInline f.length
          s.modPipe (s.macPipe m) (fun x => { x with port := intakeJoin x.port { i with frame := f.take 12 ++ d } })

/-- R138, R210: the oldest item waits: for the internal intake to which it returns, or for a lane that ends its test or
its fencing. -/
def State.rwcHolds (s : State) (pt : RwcPoint) (i : Item) : Bool :=
  (match pt with
    | .ingress p => i.second && (s.pipe p.val).internalFull
    | _ => false) || (needsLane pt i && s.freeLanes.isEmpty)

/-- R187, R209: the unit works on the oldest item of its input store. -/
def State.opRwcItem (s : State) : State :=
  match s.rwc.input with
  | [] => s
  | (pt, i) :: t =>
    if decide (s.clock < i.ready) || s.rwcHolds pt i then s else
    let s := { s with rwc := { s.rwc with input := t } }
    match pt with
    | .ingress p => s.rwcIngress p.val i
    | .macTx m => (s.rwcMacTx m.val i).txDone m.val
    | .macRx m => (s.rwcMacRx m.val i).rxDone m.val

/-- R425: the unit loses its power, and the items it held with it. -/
def State.rwcLost (s : State) : State :=
  let l := s.rwc.input
  let r := s.rwc
  l.foldl (fun (s : State) (e : RwcPoint × Item) =>
    let s := s.dropItem e.2
    match e.1 with
    | .ingress _ => s
    | .macTx m => s.txDone m.val
    | .macRx m => s.rxDone m.val) { s with rwc := { fenced := r.fenced, passes := r.passes, fails := r.fails } }

/-- R425: a MAC loses its power: the frames it held, and those of it at the lanes, are gone. -/
def State.macLost (s : State) (m : Nat) : State :=
  let c := s.mac m
  let mine := fun (e : RwcPoint × Item) => match e.1 with
    | .ingress _ => false
    | .macTx k => k.val = m
    | .macRx k => k.val = m
  let gone := (s.rwc.input.filter mine).map Prod.snd ++ (c.txHold ++ c.rxHold).filterMap id ++ c.store
  let s := { s with rwc := { s.rwc with input := s.rwc.input.filter (fun e => !mine e) } }
  gone.foldl (fun s i => s.dropItem i) (s.modMac m (fun c => { c with store := [], txHold := [], rxHold := [] }))

/-! R203 to R206: lookaside. -/

/-- R206: XTS over data units of the SA's size: unit k has the tweak IV + k. -/
def xtsUnits (k1 k2 : List Byte) (opens : Bool) (unit : Nat) : Nat → Nat → List Byte → List Byte
  | 0, _, _ => []
  | fuel + 1, iv, d =>
    if d.isEmpty then [] else xtsUnit k1 k2 opens iv (d.take unit) ++ xtsUnits k1 k2 opens unit fuel (iv + 1) (d.drop unit)

/-- R206: the size of an XTS SA's data units. -/
def Sa.unit (a : Sa) : Nat := if a.field 63 32 = 0 then 512 else 4096

/-- R206: the data of an XTS SA. -/
def Sa.xts (a : Sa) (opens : Bool) (iv : Nat) (d : List Byte) : List Byte :=
  xtsUnits a.aes (a.keyBytes 32 a.aes.length) opens a.unit (d.length + 1) iv d

/-- R204: the OP suits the SA's kind. -/
def opSuits (kind op : Nat) : Bool :=
  if kind = 9 ∨ kind = 10 then op = 2 || op = 3 else decide (3 ≤ kind) && decide (kind ≤ 8) && decide (op ≤ 1)

/-- R203, R204: TAGLEN is within its range. -/
def tagLenOk (kind n : Nat) : Bool :=
  match kind with
  | 7 => n = 16
  | 9 => decide (16 ≤ n) && decide (n ≤ 32)
  | 10 => decide (24 ≤ n) && decide (n ≤ 48)
  | _ => true

/-- R204, R206: the output and the tag of a job's data. -/
def jobData (a : Sa) (op : Nat) (aad iv d : List Byte) (taglen : Nat) : List Byte × List Byte :=
  let opens := decide (op = 1)
  let ks := aesKeys a.aes
  match a.kind with
  | 3 => (if opens then cbcOpen ks d.length iv d else cbcSeal ks d.length iv d, [])
  | 4 => (ctr ks 128 d.length (beNat iv) d, [])
  | 5 => (cfb ks opens d.length iv d, [])
  | 6 => (ofb ks d.length iv d, [])
  | 7 => if opens then (gcmText a.aes (iv.take 12) d, gcmTag a.aes (iv.take 12) aad d) else gcmSeal a.aes (iv.take 12) aad d
  | 8 => (a.xts opens (leNat iv) d, [])
  | 9 => ([], (hmac256 (a.keyBytes 0 (a.field 238 232)) d).take taglen)
  | _ => ([], (hmac384 (a.keyBytes 0 (a.field 238 232)) d).take taglen)

/-- R205: a lookaside job ends with a status. -/
def State.endJob (s : State) (j : LaJob) (status : Byte) (len : Nat) : State :=
  ({ s with rwc := { s.rwc with jobs := s.rwc.jobs.drop 1 } }).finishEntry j.entry status (fun e => { e with len := len })

/-- R203 to R206: a job with its input: it ends with OK, AUTH_FAIL or ADDRESS, or waits for a translation. -/
def State.runJob (s : State) (j : LaJob) (d : List Byte) (tagIn : List Byte) (l : Nat) : State :=
  let b := j.slots
  let op := leAt b 8 1
  let a := s.sa (bits (leAt b 12 4) 19 0)
  let who := (s.queue j.queue).owner
  let aadlen := if a.kind = 7 then leAt b 10 2 else 0
  let len := bits (leAt b 40 4) 23 0
  let (out, tag) := jobData a op (d.take aadlen) (slicePad b 48 16) (d.drop aadlen) (leAt b 9 1)
  let check := op = 3 || (a.kind = 7 && op = 1)
  let good := !check || slicePad tagIn 0 tag.length = tag
  let data := if a.kind ≤ 8 then [(leAt b 24 8, out)] else []
  let wr := data ++ (if op = 2 || (a.kind = 7 && op = 0) then [(leAt b 32 8, tag)] else [])
  match s.hostReady who (wr.map (fun (w : Nat × List Byte) => (w.1, w.2.length))) with
  | (none, s) => s
  | (some false, s) => s.endJob j 6 0
  | (some true, s) =>
    let s := wr.foldl (fun (s : State) (w : Nat × List Byte) => (s.hostPut who w.1 w.2).2) (s.statN rwcStatLa (aadlen + len))
    if good then s.endJob j 0 len else (s.count (rwcAuthFail l)).endJob j 1 len

/-- R203 to R206: the oldest lookaside job: its source and tag as read, and whether DST and TAG may be written. -/
def State.opJob (s : State) (src tagIn : ReadData) (dstOk : Bool) : State :=
  match s.rwc.jobs with
  | [] => s
  | j :: _ =>
    if s.queueGen j.queue ≠ j.entry.gen then
      { s with rwc := { s.rwc with jobs := s.rwc.jobs.drop 1 } }.staleGen (s.queue j.queue).owner
    else
      let b := j.slots
      let op := leAt b 8 1
      let n := bits (leAt b 12 4) 19 0
      let len := bits (leAt b 40 4) 23 0
      let a := s.sa n
      let who := (s.queue j.queue).owner
      let aadlen := if a.kind = 7 then leAt b 10 2 else 0
      let taglen := if a.kind = 7 then 16 else leAt b 9 1
      if !s.saValid n || decide (a.kind ≤ 2) || !opSuits a.kind op ||
          who.map (fun (x : BitVec 16) => x.toNat) ≠ some a.instance_ then
        (s.count rwcSaInvalid).endJob j 3 0
      else if a.st = 2 then (s.count rwcSaExpired).endJob j 4 0
      else if s.lanes.isEmpty then s.endJob j 5 0
      else if s.freeLanes.isEmpty || !s.bmeOn then s
      else
        let (lane, s) := s.pickLane
        let l := lane.getD 0
        if !tagLenOk a.kind (leAt b 9 1) || (decide (a.kind ≤ 8) && len = 0) ||
            ((a.kind = 3 || a.kind = 8) && len % 16 ≠ 0) then
          (s.count (rwcLenReject l)).endJob j 2 0
        else match s.readFor who (leAt b 16 8) (aadlen + len) src with
          | (none, s) => s
          | (some none, s) => s.endJob j 6 0
          | (some (some d), s) =>
            let d := slicePad d 0 (aadlen + len)
            if op = 3 || (a.kind = 7 && op = 1) then
              match s.readFor who (leAt b 32 8) taglen tagIn with
              | (none, s) => s
              | (some none, s) => s.endJob j 6 0
              | (some (some t), s) => if dstOk then s.runJob j d t l else s.endJob j 6 0
            else if dstOk then s.runJob j d [] l
            else s.endJob j 6 0

/-! R197, R212: commands. -/

/-- R212: the words of RWC_SA_DATA and RWC_KEY_DATA. -/
def State.saData (s : State) : BitVec 512 :=
  (List.range 16).foldl (fun v w => v ||| ((s.getReg (rwcSaData w)).setWidth 512 <<< (32 * w))) 0
def State.keyData (s : State) : BitVec 512 :=
  (List.range 16).foldl (fun v w => v ||| ((s.getReg (rwcKeyData w)).setWidth 512 <<< (32 * w))) 0

/-- R195: a WRITE's contents are no SA. -/
def badSa (w : BitVec 512) : Bool :=
  let a : Sa := { words := w }
  let hk := a.field 238 232
  a.valid && (decide (10 < a.kind) || (a.kind = 2 && !a.key256) ||
    (decide (9 ≤ a.kind) && (hk = 0 || decide (64 < hk))))

/-- R4, R194: the fields of an SA's words. -/
def saMask : BitVec 512 :=
  ~~~((0x001F0000#512) ||| (0x7FFC8080#512 <<< 224))

/-- R4, R188, R189: the fields of a template. -/
def tplMask : BitVec 1024 :=
  ~~~((0x003FFF80#1024) ||| (0x003FFFFF#1024 <<< 32) ||| (0xFF#1024 <<< 64) ||| (0x7F00F000#1024 <<< 96) |||
    (0x3FFFFFFF#1024 <<< 128) ||| (0x3FFFFFFF#1024 <<< 192) ||| (0x3FFFFFFF#1024 <<< 256) ||| (0x3FFFFFFF#1024 <<< 320))

/-- STATUS of the last SA command. -/
def State.saStatus (s : State) (n : Nat) : State := { s with rwc := { s.rwc with saStat := n } }

/-- R197: an SA command by its OP. -/
def State.saRun (s : State) (op : Nat) : State :=
  let n := s.regBits rwcSaIndex 19 0
  if op = 0 ∨ 4 < op ∨ s.saCap ≤ n then s.saStatus 1
  else if !s.saOn then s.saStatus 2
  else
    let a := s.sa n
    match op with
    | 1 => ((List.range 16).foldl (fun s w => s.setReg (rwcSaData w) (a.words.extractLsb' (32 * w) 32)) s).saStatus 0
    | 2 =>
      let d := s.saData
      if badSa d then s.saStatus 3
      else if d.getLsbD 31 && !a.keyed then s.saStatus 5
      else
        let w := putBits (putBits d.toNat 23 22 0) 21 21 (if a.keyed then 1 else 0)
        ((s.modSa n (fun a => { a with words := BitVec.ofNat 512 w &&& saMask })).tableClean rwcSaBase (128 * n) 128).saStatus 0
    | 3 =>
      if a.valid then s.saStatus 4
      else
        let iv := s.freeNext
        let k := s.keyData
        let s := s.modSa n (fun a => { (a.setField 21 21 1) with key := k, ivKey := iv })
        (((List.range 16).foldl (fun s w => s.setReg (rwcKeyData w) 0) s).drawn).saStatus 0
    | _ => (s.modSa n (fun a => { ((a.setField 31 31 0).setField 21 21 0) with key := 0 })).saStatus 0

/-- R212: a whole write of RWC_SA_CMD; without an OP it is no command. -/
def State.opSaCmd (s : State) (v : Word) : State :=
  s.onCmd rwcSaCmd false (fun s =>
    let s := s.setReg rwcSaCmd (v &&& 0xF)
    if bits v.toNat 3 0 = 0 then s else s.saRun (bits v.toNat 3 0))

/-- R197: the command of one operation. -/
def State.opSa (s : State) (op : Nat) (v : Word) : State := s.opSaCmd (BitVec.ofNat 32 (putBits v.toNat 3 0 op))

/-- STATUS of the last template command. -/
def State.tplStatus (s : State) (n : Nat) : State := { s with rwc := { s.rwc with tplStat := n } }

/-- R212: the words of RWC_TPL_DATA. -/
def State.tplData (s : State) : BitVec 2048 :=
  (List.range 64).foldl (fun v w => v ||| ((s.getReg (rwcTplData w)).setWidth 2048 <<< (32 * w))) 0

/-- R188, R191, R212: a template command by its OP. -/
def State.tplRun (s : State) (op : Nat) (optset : Bool) : State :=
  let n := if optset then s.regBits rwcTplIndex 11 0 else s.regBits rwcTplIndex 15 0
  let load := fun (s : State) (v : Nat) (k : Nat) =>
    (List.range k).foldl (fun s w => s.setReg (rwcTplData w) (BitVec.ofNat 32 (v / 2 ^ (32 * w)))) s
  if (op ≠ 1 ∧ op ≠ 2) ∨ (!optset ∧ s.tplCap ≤ n) then s.tplStatus 1
  else if optset then
    if op = 1 then (load s (Map.at_ s.rwc.opt n 0).toNat 64).tplStatus 0
    else ({ s with rwc := { s.rwc with opt := Map.set s.rwc.opt n s.tplData 0 } }).tplStatus 0
  else if !s.tplOn then s.tplStatus 2
  else if op = 1 then (load s (Map.at_ s.rwc.tpl n 0).toNat 32).tplStatus 0
  else
    let t := s.tplData.setWidth 1024
    if badTemplate t then s.tplStatus 3
    else
      let s := s.tableClean rwcTplBase (128 * n) 128
      ({ s with rwc := { s.rwc with tpl := Map.set s.rwc.tpl n (t &&& tplMask) 0 } }).tplStatus 0

/-- R212: a whole write of RWC_TPL_CMD. -/
def State.opTplCmd (s : State) (v : Word) : State :=
  s.onCmd rwcTplCmd false (fun s =>
    let s := s.setReg rwcTplCmd (v &&& 0x1F)
    if bits v.toNat 3 0 = 0 then s else s.tplRun (bits v.toNat 3 0) (v.getLsbD 4))

/-- A template command by its OP. -/
def State.opTpl (s : State) (op : Nat) (v : Word) : State := s.opTplCmd (BitVec.ofNat 32 (putBits v.toNat 3 0 op))

/-! R210, R211: known-answer tests. -/

/-- R210: a lane has passed or failed a test. -/
def State.katResult (s : State) (l : Nat) (pass : Bool) : State :=
  let m := BitVec.ofNat 8 (2 ^ l)
  let r := s.rwc
  let tested := Map.put r.tested l (s.repTime 27)
  if pass then
    let passes := Map.upd r.passes l 0 (fun n => min 65535 (n + 1))
    { s with rwc := { r with tested := tested, passes := passes, fenced := r.fenced &&& ~~~m } }
  else
    let s := { s with rwc := { r with tested := tested, fenced := r.fenced ||| m, fails := r.fails + 1 } }
    ((s.rwcEvent (8 + l)).count rwcKatFail).mainEvent 2 9 (s.repTime 27) [BitVec.ofNat 8 l]

/-- R210: the test of a lane ends with its result, at most 50 µs after its slot began; a fenced lane takes none. -/
def State.opKat (s : State) (l : Nat) (pass : Bool) : State := if s.testing l then s.katResult l pass else s

/-- R211: a write of 2080h.01 reruns the tests of the lanes it names. -/
def State.opUnfence (s : State) (v pass : Byte) : State :=
  (List.range 8).foldl (fun s l => if v.getLsbD l && s.powered (59 + l) then s.katResult l (pass.getLsbD l) else s) s

/-- R212: the read-only words of the RWC. -/
def State.rwcView (s : State) (o : Nat) : Option Nat :=
  let r := s.rwc
  if o = 0 then some ((if s.mem.reduced then 2 ^ 31 else 0) + (if r.initSa then 2 ^ 30 else 0) +
    (if r.initTpl then 2 ^ 29 else 0) + r.fenced.toNat * 256 + (s.lanes.foldl (fun w l => w + 2 ^ l) 0))
  else if o = 0x20 then some ((s.getReg rwcSaCmd).toNat + r.saStat * 2 ^ 24)
  else if o = 0x28 then some ((s.getReg rwcTplCmd).toNat + r.tplStat * 2 ^ 24)
  else if 0x100 ≤ o ∧ o < 0x180 then some 0
  else if 0x200 ≤ o ∧ o < 0x220 then
    let l := (o - 0x200) / 4
    some ((if r.fenced.getLsbD l then 2 ^ 31 else 0) + (if s.testing l then 2 ^ 30 else 0) + (if s.powered (59 + l) then 2 ^ 29 else 0) + Map.at_ r.passes l 0)
  else if o = 0x300 then some (match r.exp with
    | e :: _ => 2 ^ 31 + (if e.hard then 2 ^ 30 else 0) + (if e.byTime then 2 ^ 29 else 0) + e.sa.toNat
    | [] => 0)
  else none

end Sys2Proof.Machine
end

