-- ==== Sys2Proof/Machine/PortFrames.lean ====
section
/-! DEFINITION. Frames at the MACs: receive (R116 to R119), transmit (R120, R130) and the stamping actions (R133,
R134). -/

namespace Sys2Proof.Machine

/-! R117 to R119: receive. -/

/-- R118: a received frame's priority. -/
def State.rxPrio (s : State) (m : Nat) (f : List Byte) : Nat :=
  let et := beAt f 12 2
  if et = 0x8100 ∨ et = 0x88A8 then beAt f 14 1 / 32 else s.regBits (macReg m 0) 26 24

/-- R118: n buffers of 2 KiB for a frame; none where the pool manager refuses one, those it gave being freed. -/
def State.rxBuffers (m prio : Nat) : Nat → State → List Word → Option (List Word) × State
  | 0, s, l => (some l, s)
  | n + 1, s, l =>
    let lossless := (s.getReg (macReg m 0x20)).getLsbD (8 + prio)
    match s.alloc (if lossless then m else 16 + m) 0 false 1 (some (m, prio)) with
    | (.granted h, s) => State.rxBuffers m prio n (s.fillBufs [h] 2048) (l ++ [h])
    | (_, s) => (none, s.freeBufs (if lossless then m else 16 + m) l)

/-! R56 to R58: where a start of frame crosses the balls. Moments and delays are in 1/256 of 0.25 ns: a bit of a lane is
4096/425 of these. -/

/-- R58: a lane's temperature part is refreshed every millisecond from its sensor, whose reading is free. -/
def State.refreshLane (s : State) (n : Nat) : State :=
  if (s.lane n).tempMs = some (s.clock / msec 1) then s
  else (s.modLane n (fun l => { l with temp := s.freeNext % 65536, tempMs := some (s.clock / msec 1) })).drawn

/-- R58: a lane's delay from its fixed, temperature and phase parts and its bit-slip count. -/
def laneDelay (fixed : Nat) (coef : Int) (temp slip phase : Nat) : Nat :=
  ((fixed : Int) + coef * temp + phase + slip * 4096 / 425).toNat

/-- R58: d_rx of a lane of a MAC; no calibrated delay exceeds the MAC's greatest. -/
def State.laneRx (s : State) (m n phase : Nat) : Nat :=
  min (Config.laneRxMax m) (laneDelay (Config.laneRx n) (Config.laneRxCoef n) (s.lane n).temp (s.lane n).slipRx phase)

/-- R58: d_tx of a lane. -/
def State.laneTx (s : State) (n phase : Nat) : Nat :=
  laneDelay (Config.laneTx n) (Config.laneTxCoef n) (s.lane n).temp (s.lane n).slipTx phase

/-- R56: how long ago the edge of a symbol's word was, on a MAC's lowest lane or, by a deskew offset, on another: at most
what the decoder takes. -/
def sofBack (m : Nat) (p : SofPos) (deskew : Int) : Nat :=
  let b : Int := (wordSpan p.word.val : Nat) - (if p.lane.val = 0 then 0 else deskew)
  min (pcsSpan m) b.toNat

/-- R56: the raw receive stamp of a start of frame. The deskew offset, in 1/8 ns, and the phase part of d_rx (R58) are
free. -/
def State.rxTag (s : State) (m : Nat) (p : SofPos) : StampTag :=
  let ls := s.lanesOf m
  let n := (ls[p.lane.val % max 1 ls.length]?).getD 0
  let deskew := (((s.freeNext % 65536 : Nat) : Int) - 32768) * 128
  let d := s.laneRx m n (s.freeNext / 65536 % 65536)
  s.stampTagAt (.portRx m) (256 * s.clock - sofBack m p deskew) ((p.bit.val * 4096 / 425 : Nat) - (d : Int)) m

/-- R117 step 7, R119, R132: a frame is passed on, with its stamp and its token. -/
def State.passFrame (s : State) (m : Nat) (f : List Byte) (sof : SofPos) (prio holder : Nat) (bufs : List Word)
    (n : Nat) : State :=
  let s := (s.stat (macReg m 0x400)).statN (macReg m 0x408) n
  let s := s.refreshLane ((s.lanesOf m)[sof.lane.val % max 1 (s.lanesOf m).length]?.getD 0)
  let t := s.rxTag m sof
  let s := (s.drawn.countStamp t).addToken m t.raw.time
  let sec := beAt f 12 2 = 0x88E5
  let strict := (s.getReg (macReg m 0x100)).getLsbD 1
  if h : m < 16 then
    let i : Item := { frame := f, orig := f, tag := t, prio := prio, src := m, token := some ⟨m, h⟩, bufs := bufs,
                      holder := holder, unprot := strict && !sec, ready := s.clock + s.wireTime m n }
    if strict && sec then s.rwcInput (.macRx ⟨m, h⟩) i else s.rxPass m i
  else s

/-- R117: a received frame, by the first step that applies. -/
def State.opReceive (s : State) (m : Nat) (w : List Byte) (sof : SofPos) (e : RxEnd) : State :=
  let maxlen := s.regBits (macReg m 8) 13 0
  let n := w.length
  if !s.macEn m || !s.macPassing m then s.stat (macReg m 0x420)
  else if n < 64 then s.count (macReg m 0x800)
  else
    let f := w.take (n - 4)
    let prio := s.rxPrio m f
    let holder := if (s.getReg (macReg m 0x20)).getLsbD (8 + prio) then m else 16 + m
    match State.rxBuffers m prio ((min n maxlen + 2047) / 2048) s [] with
    | (none, s) => s
    | (some bufs, s) =>
      if maxlen < n then (s.freeBufs holder bufs).count (macReg m 0x804)
      else match e with
        | .badFcs | .errorBlock => (s.freeBufs holder bufs).count (macReg m 0x808)
        | .good =>
          if beAt f 12 2 = 0x8808 then (s.freeBufs holder bufs).loadPause m f
          else s.passFrame m f sof prio holder bufs n

/-! R133, R134: stamping actions. -/

/-- R133: a UDP checksum that is not zero follows a change of a frame's bytes. -/
def fixUdp (old new : List Byte) (off : Nat) : List Byte :=
  if off = 0 ∨ beAt old off 2 = 0 then new
  else
    let from_ := fun (f : List Byte) => (splice f off [0, 0]).drop (off % 2)
    splice new off (beBytes 2 (fixSum (beAt old off 2) (from_ old) (from_ new)))

/-- R133: correctionField grows by a signed amount of 2^-16 ns. -/
def addCorrection (f : List Byte) (ptp : Nat) (d : Int) : List Byte :=
  splice f (ptp + 8) (beBytes 8 ((((beAt f (ptp + 8) 8 : Nat) : Int) + d) % 2 ^ 64).toNat)

/-- R133: the frame after a one-step action. -/
def oneStep (act : Nat) (f : List Byte) (ptp csum : Nat) (tx rx : Nat) : List Byte :=
  if act = 2 then
    let g := splice f (ptp + 34) (beBytes 6 (ptpSeconds tx) ++ beBytes 4 (ptpNanos tx))
    fixUdp f (addCorrection g ptp (ptpSubns tx)) csum
  else fixUdp f (addCorrection f ptp (((tx : Int) - rx) * 16384)) csum

/-- R133, R134: a frame's stamping action: the frame, and the report where one is made. DESIGN CHOICE (log 159): the flags of
R134's cases go with an action that asks for a one-step write; the report of TS_ACT 01b carries none of them. -/
def State.stampAction (s : State) (m : Nat) (i : Item) (f : List Byte) (t : StampTag) : List Byte × Option TxReport :=
  let act := i.fld fTSACT
  if act = 0 then (f, none)
  else
    let ptp := i.fld fPTPOFF
    let csum := i.fld fCSUMOFF
    let step := decide (2 ≤ act)
    let demoted := step && (s.getReg (macReg m 0x100)).getLsbD 0
    let unknown := step && (t.raw.bound = 0xFFFF || (act = 3 && i.fld fBOUND = 0xFFFF))
    let badOff := step && decide (f.length < max (if act = 2 then ptp + 44 else ptp + 16) (if csum = 0 then 0 else csum + 2))
    let flags := (if demoted then 1 else 0) + (if unknown then 2 else 0) + (if badOff then 4 else 0) +
      (if t.inc.isSome then 8 else 0)
    let r : TxReport := { stamp := t.raw.time, bound := t.raw.bound, ttag := BitVec.ofNat 16 (i.fld fTSTAG),
                          flags := BitVec.ofNat 5 flags }
    (if step && !demoted && !unknown && !badOff then oneStep act f ptp csum t.raw.time.toNat (i.fld fSTAMP) else f, some r)

/-! R120, R130: transmit. -/

/-- R441: the physical lane that carries a MAC's k-th lane's data since the last training; a map that is no permutation
may carry it on none. -/
def State.txLane (s : State) (m k : Nat) : Option Nat :=
  (s.lanesOf m).find? (fun n => decide (bits (((s.lane n).cfg.getD (BitVec.ofNat 32 (n % 8))).toNat) 2 0 =
    ((s.lanesOf m)[k]?.getD 0) % 8))

/-- R57: the raw transmit stamp of a frame that starts now. Which lane and bit the symbol takes, the serializer word's
edge against the island clock (R57: the FIFO phase, within a word) and the phase part of d_tx (R58) are free. -/
def State.txTag (s : State) (m : Nat) : StampTag :=
  let v := s.freeNext
  let ls := s.lanesOf m
  let k := v % max 1 ls.length
  let n := (s.txLane m k).getD (ls[k]?.getD 0)
  let d := v / 8 % 1234 + v / 16384 % 128 * 4096 / 425 + s.laneTx n (v / 2097152 % 65536)
  { s.stampTagAt (.portTx m) (256 * s.clock) d m with corr := 0 }

/-- R130: the first frame of a list that meets a test, and the others. -/
def takeFirst (l : List Item) (p : Item → Bool) : Option (Item × List Item) :=
  match l.findIdx? p with
  | some k => (l[k]?).map (fun (i : Item) => (i, l.eraseIdx k))
  | none => none

/-- R124, R130: the frame of a store that goes next: of those whose class is not paused the first with URGENT, else the
first. -/
def nextFrame (l : List Item) (paused : Nat → Bool) : Option (Item × List Item) :=
  (takeFirst l (fun i => !paused i.cls && decide (i.fld fURGENT = 1))).or (takeFirst l (fun i => !paused i.cls))

/-- R93, R120, R133, R135: a frame leaves its MAC. R59: of the transmitted frames, those with a stamping action or a
ledger class are stamped events, for which an unknown bound is counted: DESIGN CHOICE (log 132), the spec does not say
which frames are. -/
def State.sendFrame (s : State) (m : Nat) (i : Item) : State :=
  let s := (s.lanesOf m).foldl State.refreshLane s
  let t := s.txTag m
  let s := s.drawn
  let used := i.fld fTSACT ≠ 0 || (!i.copy && s.classOn (i.fld fLCLASS))
  let s := if used then s.countStamp t else s
  let msg : Msg := { stream := 0, src := BitVec.ofNat 18 i.src, tag := t, data := i.orig }
  let (ok, s) := if i.copy then (true, s) else s.recordUnseq msg (i.fld fLCLASS) true
  if !ok then s.dropItem i
  else
    let f := slicePad i.frame 0 (max 60 i.frame.length)
    let (f, r) := s.stampAction m i f t
    let n := f.length + 4
    let s := s.modMac m (fun c => { c with sendRep := false })
    let s := match r with
      | some r => s.putReport m r
      | none => s
    let s := (s.stat (macReg m 0x410)).statN (macReg m 0x418) n
    let end_ := s.clock + s.wireTime m (n + 20)
    let s := s.modMac m (fun c => { c with
      sendEnd := end_, sendLen := n, sendEntry := i.entry.map (fun e => (e, r, i.orig.length)) })
    let s := if h : m < 16 then s.emit (.frame ⟨m, h⟩ (f ++ leBytes 4 (crc32 f).toNat)) else s
    s.freeBufs i.holder i.bufs

/-- R120, R130: the MAC starts a PFC frame that it owes, or else the next frame of its transmit store. -/
def State.opTransmit (s : State) (m : Nat) : State :=
  let c := s.mac m
  if !c.link || !s.macEn m || decide (s.clock < c.sendEnd) then s
  else
    let s := (s.settleSend m).settlePfc m
    if s.clock < (s.mac m).sendsTill then s
    else match nextFrame (s.mac m).store (s.paused m) with
      | some (i, rest) => (s.modMac m (fun c => { c with store := rest })).sendFrame m i
      | none => s

end Sys2Proof.Machine
end

