-- ==== Sys2Proof/Machine/Trn.lean ====
section
/-! DEFINITION. Sessions: regions (R214), states and commands (R215, R216), the connection index (R217, R218), contexts
(R233), quotas (R234) and instance resets (R231). -/

namespace Sys2Proof.Machine

/-! R233: fields of a context. -/

/-- Bits [hi:lo] of the little-endian word at an offset of a context. -/
def Sess.f (x : Sess) (off hi lo : Nat) : Nat := bits x.ctx.toNat (8 * off + hi) (8 * off + lo)

/-- A context with bits of a word replaced. -/
def Sess.setF (x : Sess) (off hi lo v : Nat) : Sess :=
  { x with ctx := BitVec.ofNat 2048 (putBits x.ctx.toNat (8 * off + hi) (8 * off + lo) v) }

/-- R233: fields of the context by their places. -/
def Sess.st (x : Sess) : Nat := Sess.f x 0 31 29
def Sess.kind (x : Sess) : Nat := Sess.f x 0 27 26
def Sess.tsOn (x : Sess) : Bool := Sess.f x 0 25 25 = 1
def Sess.pipe (x : Sess) : Nat := Sess.f x 0 22 20
def Sess.owner (x : Sess) : Nat := Sess.f x 0 15 0
def Sess.rxq (x : Sess) : Nat := Sess.f x 4 19 0
def Sess.txq (x : Sess) : Nat := Sess.f x 8 19 0
def Sess.exq (x : Sess) : Nat := Sess.f x 0xC 19 0
def Sess.una (x : Sess) : Nat := Sess.f x 0x14 31 0
def Sess.nxt (x : Sess) : Nat := Sess.f x 0x18 31 0
def Sess.rcvNxt (x : Sess) : Nat := Sess.f x 0x1C 31 0
def Sess.sndWnd (x : Sess) : Nat := Sess.f x 0x20 31 16 * 2 ^ Sess.f x 0x24 7 4
def Sess.mss (x : Sess) : Nat := max 1 (Sess.f x 0x20 15 0)
def Sess.rwndMax (x : Sess) : Nat := Sess.f x 0x24 31 8
def Sess.rcvScale (x : Sess) : Nat := Sess.f x 0x24 3 0
def Sess.cwnd (x : Sess) : Nat := Sess.f x 0x30 31 0
def Sess.ssthresh (x : Sess) : Nat := Sess.f x 0x34 31 0
def Sess.rto (x : Sess) : Nat := Sess.f x 0x38 31 0
/-- R223: framing is in force: FR_EN is set and FR_LOST is not. -/
def Sess.framing (x : Sess) : Bool := Sess.f x 0x40 31 30 = 2
def Sess.frSync (x : Sess) : Nat := Sess.f x 0x48 31 0
/-- R233: bytes of a field of a context. -/
def Sess.bytesAt (x : Sess) (off n : Nat) : List Byte := leBytes n (x.ctx.toNat / 2 ^ (8 * off))

/-- The engine's time: every timer of chapter 9 reads replica 28. -/
def State.trnTime (s : State) : Nat := s.islandTime 28

/-- An interval of the engine's time has passed. -/
def State.trnDue (s : State) (since len : Nat) : Bool := s.islandDue 28 since len

/-- R214: a session. -/
def State.sess (s : State) (n : Nat) : Sess := Map.at_ s.trn.sess n {}

/-- A session is changed. -/
def State.modSess (s : State) (n : Nat) (f : Sess → Sess) : State :=
  { s with trn := { s.trn with sess := Map.set s.trn.sess n (f (s.sess n)) {} } }

/-! R232: registers. -/
abbrev trnCtxBase : Nat := TRN + 0x010
abbrev trnIdxBase : Nat := TRN + 0x018
abbrev trnSeed : Nat := TRN + 0x020
abbrev trnCmd : Nat := TRN + 0x030
abbrev trnSession : Nat := TRN + 0x034
abbrev trnKey (w : Nat) : Nat := TRN + 0x040 + 4 * w
abbrev trnData (w : Nat) : Nat := TRN + 0x100 + 4 * w
abbrev statRxSegs : Nat := TRN + 0x300
abbrev statRxBytes : Nat := TRN + 0x308
abbrev statTxSegs : Nat := TRN + 0x310
abbrev statTxBytes : Nat := TRN + 0x318
abbrev statMsgs : Nat := TRN + 0x320
abbrev statRetx : Nat := TRN + 0x328
abbrev statCnpRx : Nat := TRN + 0x330
abbrev cntNoSession : Nat := TRN + 0x400
abbrev cntStateDrop : Nat := TRN + 0x404
abbrev cntExqFull : Nat := TRN + 0x408
abbrev cntRtoExhaust : Nat := TRN + 0x40C
abbrev cntOutOfWindow : Nat := TRN + 0x410
abbrev cntTrnPipeOff : Nat := TRN + 0x414
abbrev sessQuota (i : Nat) : Nat := SESSQ + 0x10 * i
abbrev cntQuotaDenied (i : Nat) : Nat := SESSQ + 0x10 * i + 0xC

/-- R214, R217: sessions and index entries in force. -/
def State.sessCap (s : State) : Nat := if s.mem.reduced then 65536 else 2097152
def State.idxCap (s : State) : Nat := if s.mem.reduced then 131072 else 4194304

/-- R214: both regions are enabled and neither is being zeroed. -/
def State.trnOn (s : State) : Bool :=
  s.powered 67 && s.powered 68 && (s.getReg trnCtxBase).getLsbD 31 && (s.getReg trnIdxBase).getLsbD 31 &&
    !s.trn.initCtx && !s.trn.initIdx

/-- R214, R217: EN of a region is cleared: its contents stay in HBM. -/
def State.leaveTrn (s : State) (region : TrnRegion) : State :=
  if s.mem.reduced then s
  else match region with
    | .ctx => s.spill (s.regBits trnCtxBase 13 0 * 2 ^ 20) 256 (s.trn.sess.map (fun (e : Nat × Sess) => (e.1, e.2.ctx.toNat)))
    | .idx => s.spill (s.regBits trnIdxBase 13 0 * 2 ^ 20) 64
        (s.trn.idx.map (fun (e : Nat × BitVec 320 × Nat) => (e.1, leNat (beBytes 40 e.2.1.toNat ++ leBytes 4 (2 ^ 31 + e.2.2)))))

/-- R214: a write of a region's base register. -/
def State.opTrnBase (s : State) (region : TrnRegion) (v : Word) : State :=
  match region with
  | .ctx => s.onCmd trnCtxBase false (fun s =>
    let s := if (s.getReg trnCtxBase).getLsbD 31 && !v.getLsbD 31 then s.leaveTrn .ctx else s
    if !(s.getReg trnCtxBase).getLsbD 31 && bits v.toNat 13 0 % 512 ≠ 0 then s else
      let (z, s) := s.baseWrite trnCtxBase v 512
      if z then { s with trn := { s.trn with sess := [], initCtx := true } } else s)
  | .idx => s.onCmd trnIdxBase false (fun s =>
    let s := if (s.getReg trnIdxBase).getLsbD 31 && !v.getLsbD 31 then s.leaveTrn .idx else s
    if !(s.getReg trnIdxBase).getLsbD 31 && bits v.toNat 13 0 % 256 ≠ 0 then s else
      let (z, s) := s.baseWrite trnIdxBase v 256
      if z then { s with trn := { s.trn with idx := [], initIdx := true } } else s)

/-- R214: a region has been zeroed. -/
def State.opTrnZeroed (s : State) (region : TrnRegion) : State :=
  match region with
  | .ctx => { s with trn := { s.trn with initCtx := false } }
  | .idx => { s with trn := { s.trn with initIdx := false } }

/-! R215, R327: states. -/

/-- A session's STATE. -/
def State.setSessSt (s : State) (n st : Nat) : State := s.modSess n (fun x => Sess.setF x 0 31 29 st)

/-- R327: a session whose context is poisoned is in ERROR, until software writes it again. -/
def State.healSess (s : State) (n : Nat) : State :=
  let st := (s.sess n).st
  if (st = 1 || st = 2) && s.tableBad trnCtxBase (256 * n) 256 then s.setSessSt n 3 else s

/-- R234: sessions an instance holds, QUARANTINE not counted. -/
def State.sessUsed (s : State) (i : Nat) : Nat :=
  (s.trn.sess.filter (fun e => decide (1 ≤ e.2.st ∧ e.2.st ≤ 3) && e.2.owner = i)).length

/-! R217, R218: the connection index. -/

/-- R217: an entry of the index; a poisoned one is not valid. -/
def State.idxEntry (s : State) (i : Nat) : Option (BitVec 320 × Nat) :=
  if s.tableBad trnIdxBase (64 * i) 64 then none else Map.get s.trn.idx i

/-- R217: the slots of a key's buckets a and b. -/
def State.idxSlots (s : State) (key : BitVec 320) : List Nat :=
  let k := beBytes 40 key.toNat
  let a := bucketA (s.getReg trnSeed) k s.idxCap
  let b := bucketB (s.getReg trnSeed) k s.idxCap
  let of_ := fun (x : Nat) => (List.range 4).map (fun j => x * 4 + j)
  if a = b then of_ a else of_ a ++ of_ b

/-- R217: the session whose valid entry holds a key. -/
def State.idxFind (s : State) (key : BitVec 320) : Option Nat :=
  (s.idxSlots key).findSome? (fun i => match s.idxEntry i with
    | some (k, n) => if k = key then some n else none
    | none => none)

/-- R218: a lookup of the index: the result's words. -/
def State.lookSess (s : State) (key : Nat) : Option Nat :=
  if !s.trnOn then none
  else (s.idxFind (BitVec.ofNat 320 key)).map (fun n =>
    let x := (s.healSess n).sess n
    (2 ^ 21 + n) + (x.kind * 2 ^ 16 + x.owner) * 2 ^ 32 + Sess.f x 0x10 10 0 * 2 ^ 64 + x.st * 2 ^ 96)

/-! R233: what a context may hold. -/

/-- R233: writable bits of a context's words; the rest are reserved or read-only. -/
def ctxMask (off : Nat) : Nat :=
  match off with
  | 0x00 => 0x0F70FFFF
  | 0x04 => 0xFFFFF
  | 0x08 => 0xFFFFF
  | 0x0C => 0xFFFFF
  | 0x10 => 0x7FF
  | 0x3C => 0
  | 0x40 => 0xB8FFFF00
  | 0x44 => 0xFFFFFF
  | 0x4C => 0
  | 0x50 => 0xC0FFFFFF
  | 0x64 => 0x1F03
  | 0x68 => 0
  | 0x6C => 0
  | 0x70 => 0
  | 0x74 => 0
  | 0x78 => 0
  | 0x7C => 0
  | 0x80 => 0x1FFFFFF
  | _ => 0xFFFFFFFF

/-- R233: bits that MODIFY writes in ACTIVE. -/
def ctxMarked (off : Nat) : Nat :=
  match off with
  | 0x10 => 0x7FF
  | 0x24 => 0xFFFFFF00
  | 0x40 => 0xB8FFFF00
  | 0x44 => 0xFFFFFF
  | 0x48 => 0xFFFFFFFF
  | _ => 0

/-- A context with the bits of a mask taken from another. -/
def ctxMerge (old new : BitVec 2048) (mask : Nat → Nat) : BitVec 2048 :=
  let m : BitVec 2048 := (List.range 64).foldl (fun a w => a ||| (BitVec.ofNat 2048 (mask (4 * w)) <<< (32 * w))) 0
  (old &&& ~~~m) ||| (new &&& m)

/-- R233: a queue belongs to an instance that exists. -/
def State.queueOf (s : State) (i q : Nat) : Bool :=
  let x := s.inst i
  x.st ≠ .free && decide (x.qbase ≤ q ∧ q < x.qbase + x.qcount)

/-- R233: a context that CREATE refuses. -/
def State.badCtx (s : State) (c : BitVec 2048) : Bool :=
  let x : Sess := { ctx := c }
  let lsize := Sess.f x 0x40 28 27
  decide (2 < x.kind) || decide (120 < Sess.f x 0x80 7 0) || lsize = 3 ||
    decide (Sess.f x 0x44 23 0 < Sess.f x 0x40 23 16 + 2 ^ lsize) ||
    (x.kind = 2 && decide (16 < Sess.f x 0x50 20 16)) ||
    !s.queueOf x.owner x.rxq || !s.queueOf x.owner x.txq || !s.queueOf x.owner x.exq

/-! R216: the operations, with the status codes of R232. -/

/-- R216: a number that is in the pool, at or after another. -/
def Sess.freeFrom (m : Map Sess) (cap : Nat) : Nat → Nat → Nat
  | 0, n => n
  | f + 1, n => if (Map.get m n).isNone then n else Sess.freeFrom m cap f ((n + 1) % cap)

/-- R216: CREATE: status, session and state. Which FREE session it is the spec leaves open. -/
def State.sessCreate (s : State) (c : BitVec 2048) (key : BitVec 320) : Nat × Nat × State :=
  let x : Sess := { ctx := c }
  let i := x.owner
  if !s.trnOn then (2, 0, s)
  else if s.badCtx c then (1, 0, s)
  else if s.regBits (sessQuota i) 21 0 ≤ s.sessUsed i then (3, 0, s.count (cntQuotaDenied i))
  else if s.sessCap ≤ s.trn.sess.length then (4, 0, s)
  else if (s.idxFind key).isSome then (6, 0, s)
  else match (s.idxSlots key).find? (fun k => (s.idxEntry k).isNone) with
    | none => (5, 0, s)
    | some k =>
      let n := Sess.freeFrom s.trn.sess s.sessCap s.trn.sess.length (s.freeNext % s.sessCap)
      let y : Sess := { ctx := ctxMerge 0 c ctxMask, key := key, edge := x.rcvNxt }
      let s := ((s.drawn.tableClean trnCtxBase (256 * n) 256).tableClean trnIdxBase (64 * k) 64)
      let t := s.trn
      (0, n, { s with trn := { t with sess := Map.put t.sess n (Sess.setF y 0 31 29 1), idx := Map.put t.idx k (key, n) } })

/-- R216: READ: the context, its event counters cleared when CLR is set. -/
def State.sessRead (s : State) (n : Nat) (clr : Bool) : Nat × BitVec 2048 × State :=
  if !s.trnOn then (2, 0, s)
  else if s.sessCap ≤ n then (1, 0, s)
  else
    let s := s.healSess n
    let c := (s.sess n).ctx
    let zero := fun (x : Sess) => Sess.setF (Sess.setF x 0x78 3 0 0) 0x68 127 0 0
    (0, c, if clr && (Map.get s.trn.sess n).isSome then s.modSess n zero else s)

/-! R223, R225: the part of a message that has arrived. -/

/-- How far b lies ahead of a, as a signed number of w bits. -/
def seqGap (w a b : Nat) : Int :=
  let d := (b + 2 ^ w - a % 2 ^ w) % 2 ^ w
  if d < 2 ^ (w - 1) then (d : Int) else (d : Int) - (2 ^ w : Nat)

/-- A 32-bit sequence number moved on. -/
def seqAdd (a n : Nat) : Nat := (a + n) % 2 ^ 32

/-- R225: the stamp of the item that placed the last of the first k bytes. -/
def tagBefore (none_ : StampTag) : List (Nat × StampTag) → Nat → StampTag
  | [], _ => none_
  | (n, t) :: l, k => if k ≤ n then t else tagBefore none_ l (k - n)

/-- The record of the items without the first k bytes. -/
def dropTags : List (Nat × StampTag) → Nat → List (Nat × StampTag)
  | [], _ => []
  | (n, t) :: l, k => if k < n then (n - k, t) :: l else dropTags l (k - n)

/-- The first k bytes of the part leave it. -/
def Sess.dropPart (x : Sess) (k : Nat) : Sess := { x with part := x.part.drop k, partTags := dropTags x.partTags k }

/-- An item's bytes join the part. -/
def Sess.addPart (x : Sess) (d : List Byte) (t : StampTag) : Sess :=
  { x with part := x.part ++ d, partTags := if d.isEmpty then x.partTags else x.partTags ++ [(d.length, t)] }

/-- R225: bytes go to RXQ. -/
def State.toRxq (s : State) (n : Nat) (d : List Byte) (t : StampTag) (flags : Nat) : State :=
  if d.isEmpty then s
  else s.deliver { queue := (s.sess n).rxq, data := d, stamp := some t.raw, detail := BitVec.ofNat 32 n
                   flags := BitVec.ofNat 16 (flags + (if t.inc.isSome then 0x1000 else 0)) }

/-- R225: the first k bytes of a message that will not be completed go to RXQ, with the stamp of the item that placed
the last of them. -/
def State.flushPart (s : State) (n k : Nat) : State :=
  let x := s.sess n
  (s.toRxq n (x.part.take k) (tagBefore {} x.partTags (min k x.part.length)) 0).modSess n (fun x => x.dropPart k)

/-- R223, R225: a MODIFY of a TCP session that has changed FR_SYNC or FR_EN, by the session as it was: bytes before the
new FR_SYNC, or every byte where framing has ended, go to RXQ. DESIGN CHOICE (log 140): a FR_SYNC before the part's first
byte leaves the message where it began. -/
def State.reframe (s : State) (n : Nat) (old : Sess) : State :=
  let x := s.sess n
  if x.kind ≠ 0 || old.part.isEmpty then s
  else if !x.framing then s.flushPart n x.part.length
  else
    let k := seqGap 32 old.frSync x.frSync
    if k < 0 then s.modSess n (fun x => Sess.setF x 0x48 31 0 old.frSync) else s.flushPart n k.toNat

/-- R216, R223: MODIFY. -/
def State.sessModify (s : State) (n : Nat) (c : BitVec 2048) : Nat × State :=
  if !s.trnOn then (2, s)
  else if s.sessCap ≤ n then (1, s)
  else
    let s := s.healSess n
    let x := s.sess n
    if x.st = 0 ∨ x.st = 4 then (7, s)
    else
      let y : Sess := { x with ctx := ctxMerge x.ctx c (if x.st = 1 then ctxMarked else ctxMask) }
      if s.badCtx y.ctx then (1, s)
      else
        let resumed := x.st ≠ 1 && bits c.toNat 31 29 = 1
        let y := if resumed then Sess.setF y 0 31 29 1 else y
        let sync := decide ((y.frSync + 2 ^ 32 - y.rcvNxt) % 2 ^ 32 < 2 ^ 31)
        let y := if Sess.f x 0x40 30 30 = 1 && sync then Sess.setF y 0x40 30 30 0 else y
        let y := if resumed then { y with retries := 0, dups := 0, resend := none, recover := none, high := none, edge := y.rcvNxt
                                          sendPart := if y.nxt = x.nxt then y.sendPart else [] } else y
        (0, ((s.modSess n (fun _ => y)).reframe n x).tableClean trnCtxBase (256 * n) 256)

/-- R216: DESTROY. -/
def State.sessDestroy (s : State) (n : Nat) : Nat × State :=
  if !s.trnOn then (2, s)
  else if s.sessCap ≤ n then (1, s)
  else
    let x := s.sess n
    if x.st = 0 ∨ x.st = 4 then (7, s)
    else
      let s := { s with trn := { s.trn with idx := s.trn.idx.filter (fun e => e.2.2 ≠ n) } }
      let s := x.sends.foldl (fun (s : State) e => s.finishEntry e.ref 9 id) s
      let y : Sess := { ctx := x.ctx, key := x.key, quarAt := s.trnTime }
      (0, s.modSess n (fun _ => Sess.setF y 0 31 29 4))

/-- R216: a session's quarantine ends. -/
def State.opQuarEnd (s : State) (n : Nat) : State :=
  let x := s.sess n
  if x.st = 4 && s.trnDue x.quarAt (usec 100) then s.modSess n (fun _ => {}) else s

/-! R232: TRN_CMD. -/

/-- R232: TRN_CMD_DATA and TRN_CMD_KEY. -/
def State.trnDataIn (s : State) : BitVec 2048 :=
  (List.range 64).foldl (fun v w => v ||| ((s.getReg (trnData w)).setWidth 2048 <<< (32 * w))) 0
def State.trnKeyIn (s : State) : BitVec 320 :=
  BitVec.ofNat 320 ((List.range 10).foldl (fun v w => v * 2 ^ 32 + (s.getReg (trnKey w)).toNat) 0)

/-- STATUS of the last session command. -/
def State.trnStatus (s : State) (n : Nat) : State := { s with trn := { s.trn with stat := n } }

/-- R216, R232: a command by its OP. -/
def State.trnRun (s : State) (op : Nat) (clr : Bool) : State :=
  let n := s.regBits trnSession 20 0
  if !s.trnOn then s.trnStatus 2
  else match op with
    | 1 =>
      let (st, n, s) := s.sessCreate s.trnDataIn s.trnKeyIn
      (if st = 0 then s.setReg trnSession (BitVec.ofNat 32 n) else s).trnStatus st
    | 2 =>
      let (st, c, s) := s.sessRead n clr
      (if st = 0 then (List.range 64).foldl (fun s w => s.setReg (trnData w) (c.extractLsb' (32 * w) 32)) s
       else s).trnStatus st
    | 3 =>
      let (st, s) := s.sessModify n s.trnDataIn
      s.trnStatus st
    | 4 =>
      let (st, s) := s.sessDestroy n
      s.trnStatus st
    | _ => s.trnStatus 1

/-- R232: a whole write of TRN_CMD; without an OP it is no command. -/
def State.opTrnCmd (s : State) (v : Word) : State :=
  s.onCmd trnCmd false (fun s =>
    let s := s.setReg trnCmd (v &&& 0x10F)
    if bits v.toNat 3 0 = 0 then s else s.trnRun (bits v.toNat 3 0) (v.getLsbD 8))

/-- R216: the command of one operation. -/
def State.opTrn (s : State) (op : Nat) (v : Word) : State := s.opTrnCmd (BitVec.ofNat 32 (putBits v.toNat 3 0 op))

/-- R232, R234: the read-only words. -/
def State.trnView (s : State) (o : Nat) : Option Nat :=
  if o = 0 then some ((if s.mem.reduced then 2 ^ 31 else 0) + (if s.trn.initCtx || s.trn.initIdx then 2 ^ 30 else 0))
  else if o = 0x30 then some ((s.getReg trnCmd).toNat + s.trn.stat * 2 ^ 24)
  else if o = 0x200 then some (s.sessCap - s.trn.sess.length)
  else none

/-- R234: USED of an instance. -/
def State.usedView (s : State) (i : Nat) : Nat :=
  let u := s.sessUsed i
  (if s.sat.contains (cntQuotaDenied i) then 2 ^ 31 else 0) + (if s.regBits (sessQuota i) 21 0 < u then 2 ^ 30 else 0) + u

/-- R231, R305: the sessions of an instance that is reset enter ERROR, and their unfinished send entries are discarded, and
counted as of the old generation. -/
def State.resetSessions (s : State) (i : Nat) : State :=
  s.trn.sess.foldl (fun s e =>
    if e.2.st ≠ 0 && e.2.owner = i then
      let live := e.2.st = 1 || e.2.st = 2
      let s := e.2.sends.foldl (fun s _ => s.staleGen (some (BitVec.ofNat 16 i))) s
      s.modSess e.1 (fun x => { (if live then Sess.setF x 0 31 29 3 else x) with
        sends := [], sendPart := [], rtoAt := none, ackAt := none })
    else s) s

end Sys2Proof.Machine
end

