-- ==== Sys2Proof/Machine/TrnTcp.lean ====
section
/-! DEFINITION. TCP as a session carries it: segments sent (R222), arriving segments (R219 to R221), framing (R223 to
R226) and PDU boundaries (R229). -/

namespace Sys2Proof.Machine

/-! Where headers stand in a frame. -/

/-- The offset of the byte behind the Ethernet header and its VLAN tags. -/
def l3Of (f : List Byte) : Nat → Nat → Nat
  | 0, o => o + 2
  | n + 1, o => if beAt f o 2 = 0x8100 ∨ beAt f o 2 = 0x88A8 then l3Of f n (o + 4) else o + 2

/-- The IPv6 header behind its extension headers: the next header's number and offset. -/
def ip6Next (f : List Byte) : Nat → Nat → Nat → Nat × Nat
  | 0, p, o => (p, o)
  | n + 1, p, o =>
    if p = 0 ∨ p = 43 ∨ p = 60 then ip6Next f n (beAt f o 1) (o + 8 * (beAt f (o + 1) 1 + 1)) else (p, o)

/-- The IP header's offset, the protocol above it, the offset of that protocol's header, and where the packet ends. -/
def ipOf (f : List Byte) : Nat × Nat × Nat × Nat :=
  let o := l3Of f 4 12
  if beAt f o 1 / 16 = 4 then (o, beAt f (o + 9) 1, o + 4 * (beAt f o 1 % 16), o + beAt f (o + 2) 2)
  else
    let (p, l) := ip6Next f 8 (beAt f (o + 6) 1) (o + 40)
    (o, p, l, o + 40 + beAt f (o + 4) 2)

/-- R219: what the engine reads of a segment. -/
structure Seg where
  tcp    : Bool
  off    : Nat
  seq    : Nat
  ack    : Nat
  flags  : Nat
  wnd    : Nat
  hlen   : Nat
  data   : List Byte
  tsval  : Option Nat := none
  sacks  : List (Nat × Nat) := []
  badOpt : Bool := false
  deriving DecidableEq, Repr

/-- The SACK blocks of an option. -/
def sackBlocks (b : List Byte) : Nat → Nat → List (Nat × Nat)
  | 0, _ => []
  | n + 1, o => (beAt b o 4, beAt b (o + 4) 4) :: sackBlocks b n (o + 8)

/-- R219 row 5: the options of a segment; the fuel covers their bytes. -/
def readOpts : Nat → List Byte → Seg → Seg
  | 0, _, g => g
  | _ + 1, [], g => g
  | f + 1, k :: t, g =>
    if k = 0 then g
    else if k = 1 then readOpts f t g
    else
      let n := (t.headD 0).toNat
      if n < 2 ∨ t.length + 1 < n then { g with badOpt := true }
      else
        let rest := t.drop (n - 1)
        if k = 8 && n = 10 then readOpts f rest { g with tsval := some (beAt t 1 4) }
        else if k = 5 then readOpts f rest { g with sacks := sackBlocks t ((n - 2) / 8) 1 }
        else { g with badOpt := true }

/-- A frame's segment. -/
def segOf (f : List Byte) : Seg :=
  let (_, p, l, e) := ipOf f
  let hlen := 4 * (beAt f (l + 12) 1 / 16)
  let g : Seg := { tcp := decide (p = 6 ∧ 20 ≤ hlen ∧ l + hlen ≤ e ∧ e ≤ f.length), off := l, seq := beAt f (l + 4) 4
                   ack := beAt f (l + 8) 4, flags := beAt f (l + 13) 1, wnd := beAt f (l + 14) 2, hlen := hlen
                   data := slice f (l + hlen) (e - (l + hlen)) }
  if g.tcp then readOpts hlen (slice f (l + 20) (hlen - 20)) g else g

/-- R219: the flags of a segment. -/
def Seg.fin (g : Seg) : Bool := bit g.flags 0
def Seg.syn (g : Seg) : Bool := bit g.flags 1
def Seg.rst (g : Seg) : Bool := bit g.flags 2
def Seg.isAck (g : Seg) : Bool := bit g.flags 4
def Seg.urg (g : Seg) : Bool := bit g.flags 5

/-! R222: what the engine sends. -/

/-- R222: bytes posted on a receive queue and not yet spoken for. -/
def State.postedSpace (s : State) (q : Nat) : Nat :=
  let x := s.queue q
  let posted := x.ents.foldl (fun n e => if e.st = .waiting then n + leAt e.slots 16 4 else n) 0
  let back := x.back.foldl (fun n d => n + d.data.length) 0
  let coming := s.qim.deliv.foldl (fun n d => if d.queue = q then n + d.data.length else n) 0
  posted - back - coming

/-- R222, R226: the session is a member of a stream. -/
def State.inStream (s : State) (n : Nat) : Bool :=
  s.sql.members.any (fun e => e.2.1.getLsbD 31 && decide (bits e.2.1.toNat 21 20 = 1) && decide (bits e.2.2.toNat 20 0 = n))

/-- R222: RCV.WND: what the engine may advertise, never behind the right edge that it has advertised. -/
def State.rcvWnd (s : State) (n : Nat) : Nat :=
  let x := s.sess n
  let now := if s.inStream n then x.rwndMax else min x.rwndMax (s.postedSpace x.rxq)
  max now (seqGap 32 x.rcvNxt x.edge).toNat

/-- R222: the frame image of a session. -/
def Sess.image (x : Sess) : List Byte := x.bytesAt 0x84 (Sess.f x 0x80 7 0)
def Sess.l3 (x : Sess) : Nat := Sess.f x 0x80 15 8
def Sess.l4 (x : Sess) : Nat := Sess.f x 0x80 23 16
def Sess.ip6 (x : Sess) : Bool := Sess.f x 0x80 24 24 = 1

/-- R222: the pseudo-header of a transport checksum. -/
def Sess.pseudo (x : Sess) (f : List Byte) (proto len : Nat) : List Byte :=
  if x.ip6 then slice f (x.l3 + 8) 32 ++ beBytes 4 len ++ [0, 0, 0, BitVec.ofNat 8 proto]
  else slice f (x.l3 + 12) 8 ++ [0, BitVec.ofNat 8 proto] ++ beBytes 2 len

/-- R222: the IP length and checksum are filled. -/
def Sess.fillIp (x : Sess) (f : List Byte) : List Byte :=
  if x.ip6 then splice f (x.l3 + 4) (beBytes 2 (f.length - x.l3 - 40))
  else
    let g := splice (splice f (x.l3 + 2) (beBytes 2 (f.length - x.l3))) (x.l3 + 10) [0, 0]
    splice g (x.l3 + 10) (beBytes 2 (inetSum (slice g x.l3 (4 * (beAt g x.l3 1 % 16)))))

/-- R222: a segment of the session. -/
def Sess.segment (x : Sess) (seq wnd flags tsval : Nat) (data : List Byte) : List Byte :=
  let o := x.l4
  let opts := if x.tsOn then [1, 1, 8, 10] ++ beBytes 4 tsval ++ beBytes 4 (Sess.f x 0x28 31 0) else []
  let f := slicePad x.image 0 (o + 20)
  let f := splice f (o + 4) (beBytes 4 seq ++ beBytes 4 x.rcvNxt ++
    [BitVec.ofNat 8 ((20 + opts.length) / 4 * 16), BitVec.ofNat 8 flags] ++ beBytes 2 wnd ++ [0, 0, 0, 0])
  let f := x.fillIp (f ++ opts ++ data)
  splice f (o + 16) (beBytes 2 (inetSum (x.pseudo f 6 (f.length - o) ++ f.drop o)))

/-- R141, R222: a frame goes to the session's ingress pipeline as a host frame; false where that is off. -/
def State.trnHand (s : State) (n : Nat) (f : List Byte) (t : StampTag) (bytes : Nat) : State :=
  let x := s.sess n
  if 4 ≤ x.pipe || !s.powered (49 + x.pipe) then s.count cntTrnPipeOff
  else
    let i : Item := { frame := f, orig := f, tag := t, src := 2 * 2 ^ 16 + x.owner, queueIn := x.txq,
                      srcEp := (s.queue x.txq).ep, holder := 34 }
    ((s.modPipe x.pipe (fun p => p.handHost i)).stat statTxSegs).statN statTxBytes bytes

/-- R222: the window field: the window in units of the session's scale, and enough units to reach the right edge that
has been advertised. -/
def State.wndField (s : State) (n : Nat) : Nat :=
  let x := s.sess n
  let unit := 2 ^ x.rcvScale
  min 65535 (max (s.rcvWnd n / unit) (((seqGap 32 x.rcvNxt x.edge).toNat + unit - 1) / unit))

/-- R222: a segment leaves, with the acknowledgement and the window of the moment; the time its timestamp option
tells the spec does not state. -/
def State.sendSeg (s : State) (n seq flags : Nat) (data : List Byte) (t : StampTag) : State :=
  let x := s.sess n
  let wnd := s.wndField n
  let f := x.segment seq wnd flags (s.freeNext % 2 ^ 32) data
  let edge := seqAdd x.rcvNxt (wnd * 2 ^ x.rcvScale)
  let s := s.drawn.modSess n (fun x => { x with
    ackAt := none, ackSegs := 0, edge := if seqGap 32 x.edge edge < 0 then x.edge else edge })
  s.trnHand n f t data.length

/-- R222: an ACK is sent. -/
def State.sendAck (s : State) (n : Nat) : State := s.sendSeg n (s.sess n).nxt 16 [] (s.sess n).stamp

/-! R221: a session leaves ACTIVE. -/

/-- R221, R297: an exception record. -/
def State.exception (s : State) (n reason : Nat) : State :=
  let x := s.sess n
  let rec_ := leBytes 4 n ++ [BitVec.ofNat 8 reason, 0, 0, 0] ++ leBytes 4 x.rcvNxt ++ leBytes 4 x.una ++ leBytes 4 x.nxt
  s.deliver { queue := x.exq, data := slicePad rec_ 0 32, stamp := none
              detail := BitVec.ofNat 32 (reason % 256 * 2 ^ 24 + n), flags := 0x8000 }

/-- R219, R220: a frame is delivered to the exception queue. -/
def State.toExq (s : State) (n reason : Nat) (i : Item) (f : List Byte) : State :=
  (s.retireItem i).deliver { queue := (s.sess n).exq, data := f, stamp := none, bufs := i.bufs, exq := true
                             detail := BitVec.ofNat 32 (reason * 2 ^ 24 + n), flags := 0 }

/-- R221: STATE becomes SOFTWARE or ERROR, and nothing is sent from then on. -/
def State.leaveActive (s : State) (n st : Nat) : State :=
  (s.flushPart n (s.sess n).part.length).modSess n (fun x => { (Sess.setF x 0 31 29 st) with
    ackAt := none, ackSegs := 0, ackNow := false, rtoAt := none, resend := none, timed := none })

/-- R219 rows 5 and 9, R221: the session is handed to software with the frame that made it so. -/
def State.handOver (s : State) (n reason : Nat) (i : Item) (f : List Byte) : State :=
  ((s.exception n reason).toExq n reason i f).leaveActive n 2

/-! R233: the event counters of a session. -/

/-- R36, R233: counter k of a session counts; it stops at FFFF_FFFFh and then sets SAT. -/
def Sess.count (x : Sess) (k : Nat) : Sess :=
  let v := Sess.f x (0x68 + 4 * k) 31 0
  if v = 0xFFFFFFFF then Sess.setF x 0x78 k k 1 else Sess.setF x (0x68 + 4 * k) 31 0 (v + 1)

/-- A session's own counter. -/
def State.sessCount (s : State) (n k : Nat) : State := s.modSess n (fun x => x.count k)

/-! R222: the send side. -/

/-- R222: a retransmission timeout's bounds. -/
def State.rtoBound (s : State) (us : Nat) : Nat :=
  min (s.regBits (TRN + 0x20C) 19 0 * 1000) (max (s.regBits (TRN + 0x208) 19 0) us)

/-- R222, RFC 6298: a round trip has been measured, µs. -/
def State.rttSample (s : State) (n r : Nat) : State :=
  let (sr, var) := match (s.sess n).srtt with
    | none => (r, r / 2)
    | some (a, v) => ((7 * a + r) / 8, (3 * v + (max a r - min a r)) / 4)
  let rto := s.rtoBound (sr + max 1 (4 * var))
  s.modSess n (fun x => Sess.setF { x with srtt := some (sr, var) } 0x38 31 0 rto)

/-- R222: a send entry is finished when every byte of it is acknowledged. -/
def State.finishSends (s : State) (n : Nat) : State :=
  let x := s.sess n
  let gone := fun (e : SendEnt) => decide (seqGap 32 (seqAdd e.seq e.data.length) x.una ≥ 0)
  let s := (x.sends.filter gone).foldl (fun (s : State) e => s.finishEntry e.ref 0 (fun y => { y with len := e.data.length })) s
  s.modSess n (fun x => { x with sends := x.sends.filter (fun e => !gone e) })

/-- R222: bytes of the send stream. -/
def Sess.sendBytes (x : Sess) (seq len : Nat) : List Byte :=
  match x.sends with
  | e :: _ => slice (x.sends.flatMap (fun e => e.data)) (seqGap 32 e.seq seq).toNat len
  | [] => []

/-- R222: where the send stream ends. -/
def Sess.sendEnd (x : Sess) : Nat :=
  match x.sends.getLast? with
  | some e => seqAdd e.seq e.data.length
  | none => x.nxt

/-- R222: the stamp of the doorbell that published the entry of a byte. -/
def Sess.sendTag (x : Sess) (seq : Nat) : StampTag :=
  match x.sends.find? (fun e => decide (seqGap 32 seq (seqAdd e.seq e.data.length) > 0)) with
  | some e => e.tag
  | none => x.stamp

/-- R222: a number that the peer has reported as received is passed over. -/
def Sess.skipSacked (x : Sess) (seq : Nat) : Nat :=
  x.sacked.foldl (fun a r => if decide (seqGap 32 r.1 a ≥ 0) && decide (seqGap 32 a r.2 > 0) then r.2 else a) seq

/-- R222: bytes from a number to the next range that the peer has reported. -/
def Sess.unsacked (x : Sess) (seq len : Nat) : Nat :=
  x.sacked.foldl (fun a r => if decide (seqGap 32 seq r.1 > 0) then min a (seqGap 32 seq r.1).toNat else a) len

/-- R222: one segment of bytes already sent goes out again, from a number that is not SACKed. -/
def State.resendAt (s : State) (n seq : Nat) : State :=
  let x := s.sess n
  let len := x.unsacked seq (min x.mss (seqGap 32 seq x.nxt).toNat)
  if len = 0 then s
  else
    let s := (s.modSess n (fun x => { x with timed := none, rtoAt := some s.trnTime })).stat statRetx
    s.sendSeg n seq 24 (x.sendBytes seq len) (x.sendTag seq)

/-- R222: the engine sends one segment: of bytes to be sent again, or new ones, while the windows allow. -/
def State.tcpSend (s : State) (n : Nat) : State :=
  let x := s.sess n
  let limit := min x.sndWnd x.cwnd
  let again := (x.resend.map x.skipSacked).filter (fun r => decide (seqGap 32 r x.nxt > 0))
  match again with
  | some r =>
    let len := x.unsacked r (min x.mss (seqGap 32 r x.nxt).toNat)
    if decide ((seqGap 32 x.una r).toNat < limit) then
      (s.modSess n (fun x => { x with resend := some (seqAdd r len) })).resendAt n r
    else s
  | none =>
    let s := s.modSess n (fun x => { x with resend := none })
    let flight := (seqGap 32 x.una x.nxt).toNat
    let rest := (seqGap 32 x.nxt x.sendEnd).toNat
    let len := min (min x.mss rest) (limit - flight)
    if len = 0 then s
    else
      let seq := x.nxt
      let next := seqAdd seq len
      let s := s.modSess n (fun x => Sess.setF { x with
        rtoAt := if x.rtoAt.isSome then x.rtoAt else some s.trnTime
        timed := if x.timed.isSome then x.timed else some (next, s.trnTime) } 0x18 31 0 next)
      s.sendSeg n seq (if next = x.sendEnd then 24 else 16) (x.sendBytes seq len) (x.sendTag seq)

/-- R222, RFC 5681, RFC 6582: an acknowledgement of new bytes, for CWND and the recovery. -/
def State.cwndAck (s : State) (n acked : Nat) : State :=
  let x := s.sess n
  match x.recover with
  | some r =>
    if decide (seqGap 32 r x.una ≥ 0) then
      let flight := (seqGap 32 x.una x.nxt).toNat
      s.modSess n (fun x => Sess.setF { x with recover := none, dups := 0 } 0x30 31 0 (min x.ssthresh (max flight x.mss + x.mss)))
    else
      let c := x.cwnd - acked + (if x.mss ≤ acked then x.mss else 0)
      (s.modSess n (fun x => Sess.setF x 0x30 31 0 (max x.mss c))).resendAt n (x.skipSacked x.una)
  | none =>
    let add := if x.cwnd < x.ssthresh then min acked x.mss else max 1 (x.mss * x.mss / max 1 x.cwnd)
    s.modSess n (fun x => Sess.setF { x with dups := 0 } 0x30 31 0 (min 0xFFFFFFFF (x.cwnd + add)))

/-- R222, RFC 6582: three dup ACKs start fast retransmission, where new bytes have been acknowledged since the last one
or the last timeout; each further one inflates CWND. -/
def State.dupAck (s : State) (n : Nat) : State :=
  let x := s.sess n
  let d := x.dups + 1
  let s := s.modSess n (fun x => { x with dups := d })
  if x.recover.isSome then s.modSess n (fun x => Sess.setF x 0x30 31 0 (min 0xFFFFFFFF (x.cwnd + x.mss)))
  else if d = 3 && x.high.all (fun h => decide (seqGap 32 h x.una > 0)) then
    let half := max ((seqGap 32 x.una x.nxt).toNat / 2) (2 * x.mss)
    (s.modSess n (fun x => Sess.setF (Sess.setF { x with recover := some x.nxt, high := some x.nxt } 0x34 31 0 half) 0x30 31 0
      (half + 3 * x.mss))).resendAt n (x.skipSacked x.una)
  else s

/-- R219 row 9, R222: the ACK field, the SACK blocks and the window of a segment. -/
def State.ackIn (s : State) (n : Nat) (g : Seg) : State :=
  let x := s.sess n
  if !g.isAck then s
  else
    let acked := seqGap 32 x.una g.ack
    let inside := fun (r : Nat × Nat) => decide (seqGap 32 x.una r.1 ≥ 0 ∧ seqGap 32 r.1 r.2 > 0 ∧ seqGap 32 r.2 x.nxt ≥ 0)
    let sacked := if Sess.f x 0 24 24 = 1 then x.sacked ++ g.sacks.filter inside else x.sacked
    let same := g.wnd = Sess.f x 0x20 31 16
    let s := s.modSess n (fun x => Sess.setF { x with sacked := sacked } 0x20 31 16 g.wnd)
    if acked > 0 then
      let sample := x.timed.filter (fun (p : Nat × Nat) => decide (seqGap 32 p.1 g.ack ≥ 0))
      let s := match sample with
        | some p => s.rttSample n ((s.trnTime - p.2) / 4000)
        | none => s
      let s := s.modSess n (fun x => Sess.setF { x with
        retries := 0, rtoAt := if g.ack = x.nxt then none else some s.trnTime
        high := x.high.filter (fun h => decide (seqGap 32 g.ack h ≥ 0))
        timed := if sample.isSome then none else x.timed
        sacked := x.sacked.filter (fun r => decide (seqGap 32 g.ack r.2 > 0))
        resend := x.resend.filter (fun r => decide (seqGap 32 g.ack r > 0)) } 0x14 31 0 g.ack)
      let s := match x.resend with
        | some r => if decide (seqGap 32 g.ack r ≤ 0) && g.ack ≠ x.nxt then
            s.modSess n (fun x => { x with resend := some g.ack }) else s
        | none => s
      (s.finishSends n).cwndAck n acked.toNat
    else if acked = 0 && g.data.isEmpty && !g.fin && same && x.una ≠ x.nxt then s.dupAck n
    else s

/-- R222: ERROR with reason 04h after the last retry. -/
def State.rtoExhausted (s : State) (n : Nat) : State :=
  let s := (s.count cntRtoExhaust).exception n 4
  s.leaveActive n 3

/-! R223 to R226: messages. -/

/-- R226: the source number of a session's messages: its member handle; for a session in no stream the spec states
none. -/
def State.sessSource (s : State) (n : Nat) (t : StampTag) : Nat × State :=
  match (s.membersAt (s.keyOf t)).find? (fun e => e.2.1.getLsbD 31 && decide (bits e.2.1.toNat 21 20 = 1) &&
      decide (bits e.2.2.toNat 20 0 = n)) with
  | some e => (2 ^ 16 + bits e.2.1.toNat 15 0, s)
  | none => (2 ^ 16 + s.freeNext % 2 ^ 16, s.drawn)

/-- R224 to R226: a completed message is presented, or recorded and placed on RXQ. -/
def State.message (s : State) (n : Nat) (d : List Byte) (t : StampTag) (mac : Option (Fin 16)) (stream lclass : Nat)
    (keep : Bool) (flags : Nat) (bufs : List Word) : State :=
  let s := s.stat statMsgs
  let (src, s) := s.sessSource n t
  let m : Msg := { stream := BitVec.ofNat 6 stream, src := BitVec.ofNat 18 src, tag := t, data := d, mac := mac
                   keep := keep, session := some n, bufs := bufs, flags := flags }
  if bit stream 6 then { s with sql := { s.sql with inbox := s.sql.inbox ++ [m] } }
  else
    let (ok, s) := if lclass = 0 then (true, s) else s.recordUnseq m lclass false
    let s := match mac with | some c => if keep then s else s.retireToken c.val t.raw.time | none => s
    if !ok || d.isEmpty then s.freeBufs 38 bufs
    else s.deliver { queue := (s.sess n).rxq, data := d, stamp := some t.raw, detail := BitVec.ofNat 32 n, bufs := bufs
                     flags := BitVec.ofNat 16 (flags + (if t.inc.isSome then 0x1000 else 0)) }

/-- R223: messages cut from a stream of bytes: those complete, and what is left; true when a length is in error. The
fuel covers the bytes. -/
def cutMessages (loff lsize hdr maxmsg : Nat) (little : Bool) : Nat → List Byte → List (List Byte) × List Byte × Bool
  | 0, b => ([], b, false)
  | f + 1, b =>
    if b.length < loff + lsize then ([], b, false)
    else
      let v := (if little then leAt b loff lsize else beAt b loff lsize) + hdr
      if v < loff + lsize ∨ maxmsg < v then ([], b, true)
      else if b.length < v then ([], b, false)
      else
        let (l, r, e) := cutMessages loff lsize hdr maxmsg little f (b.drop v)
        (b.take v :: l, r, e)

/-- R229: PDUs cut by PLEN; true when a length cannot hold its header. -/
def cutPdus : Nat → List Byte → List (List Byte) × List Byte × Bool
  | 0, b => ([], b, false)
  | f + 1, b =>
    if b.length < 8 then ([], b, false)
    else
      let v := leAt b 4 4
      if v < 8 ∨ v < leAt b 2 1 then ([], b, true)
      else if b.length < v then ([], b, false)
      else
        let (l, r, e) := cutPdus f (b.drop v)
        (b.take v :: l, r, e)

/-- R223: after a framing error the bytes are placed with no framing. -/
def State.framingError (s : State) (n : Nat) : State :=
  ((s.modSess n (fun x => Sess.setF x 0x40 30 30 1)).sessCount n 2).exception n 5

/-- Messages are handed on in byte order; the last one carries the token and the buffers. -/
def State.messages (n : Nat) (i : Item) : State → List (List Byte) → State
  | s, [] => s
  | s, d :: t =>
    let last := t.isEmpty
    State.messages n i (s.message n d i.tag i.token (i.fld fSTREAM) (i.fld fLCLASS) (!last) 0 (if last then i.bufs else [])) t

/-- R229: PDUs join the queue for their checks. -/
def State.queuePdus (s : State) (n seq : Nat) (i : Item) : List (List Byte) → State
  | [] => s
  | d :: t =>
    let p : Pdu := { session := n, seq := seq, data := d, tag := i.tag, mac := i.token, stream := i.fld fSTREAM
                     lclass := i.fld fLCLASS, final := t.isEmpty }
    State.queuePdus { s with trn := { s.trn with pdus := s.trn.pdus ++ [p] } } n (seqAdd seq d.length) i t

/-- R219 row 9, R220, R223 to R225, R229: bytes placed in order from a sequence number. -/
def State.placeBytes (s : State) (n seq : Nat) (d : List Byte) (i : Item) : State :=
  let x := s.sess n
  let finish := fun (s : State) => (s.retireItem i).freeBufs i.holder i.bufs
  if d.isEmpty then finish s
  else if x.kind = 2 then
    let (l, _, e) := cutPdus (x.part.length + d.length + 1) (x.part ++ d)
    let first := (seq + 2 ^ 32 - x.part.length % 2 ^ 32) % 2 ^ 32
    let used := (l.map List.length).sum
    let s := (s.modSess n (fun x => (x.addPart d i.tag).dropPart used)).queuePdus n first i l
    let s := if e then (s.exception n 5).leaveActive n 2 else s
    (if l.isEmpty then s.retireItem i else s).freeBufs i.holder i.bufs
  else if x.framing then
    let before := if seqGap 32 seq x.frSync > 0 && x.part.isEmpty then min d.length (seqGap 32 seq x.frSync).toNat else 0
    let s := s.toRxq n (d.take before) i.tag 0
    let b := x.part ++ d.drop before
    let (l, _, e) := cutMessages (Sess.f x 0x40 23 16) (2 ^ Sess.f x 0x40 28 27) (Sess.f x 0x40 15 8) (Sess.f x 0x44 23 0)
      (Sess.f x 0x40 29 29 = 1) (b.length + 1) b
    let used := (l.map List.length).sum
    let begins := if b.isEmpty then x.frSync else (seq + d.length + 2 ^ 32 - (b.length - used)) % 2 ^ 32
    let s := s.modSess n (fun x => Sess.setF ((x.addPart (d.drop before) i.tag).dropPart used) 0x48 31 0 begins)
    let s := State.messages n i s l
    let s := if e then (s.framingError n).flushPart n (b.length - used) else s
    if l.isEmpty then finish s else s
  else
    let s := s.retireItem i
    s.deliver { queue := x.rxq, data := d, stamp := some i.tag.raw, detail := BitVec.ofNat 32 n, bufs := i.bufs
                flags := if i.tag.inc.isSome then 0x1000 else 0 }

/-! R219: arriving segments. -/

/-- R219 rows 1 to 3: an item that its session's state takes care of. DEDUCED from R214 (log 141): while a region is not in
service every lookup misses, the one by number with it, and row 1 applies. -/
def State.sessGate (s : State) (n : Nat) (i : Item) : Option State :=
  if !s.trnOn then some ((s.count cntNoSession).dropItem i) else
  match (s.sess n).st with
  | 1 => none
  | 2 => some (s.toExq n 3 i i.frame)
  | 3 => some ((s.count cntStateDrop).dropItem i)
  | _ => some ((s.count cntNoSession).dropItem i)

/-- R219 rows 4, 6 and 7: an item outside the window is refused. -/
def State.outOfWindow (s : State) (n : Nat) (i : Item) : State :=
  ((s.sessCount n 0).count cntOutOfWindow).dropItem i

/-- R222: an ACK is owed for bytes received. -/
def State.owesAck (s : State) (n len : Nat) : State :=
  let x := s.sess n
  let segs := x.ackSegs + (if x.mss ≤ len then 1 else 0)
  if x.ackNow || decide (2 ≤ segs) then (s.modSess n (fun x => { x with ackNow := false })).sendAck n
  else s.modSess n (fun x => { x with ackSegs := segs, ackAt := if x.ackAt.isSome then x.ackAt else some s.trnTime })

/-- R219 row 9. -/
def State.tcpAccept (s : State) (n : Nat) (i : Item) (g : Seg) : State :=
  let s := s.ackIn n g
  let x := s.sess n
  let old := (seqGap 32 g.seq x.rcvNxt).toNat
  let d := g.data.drop old
  let seq := x.rcvNxt
  let s := (s.stat statRxSegs).statN statRxBytes d.length
  let s := s.modSess n (fun x =>
    let y := Sess.setF x 0x1C 31 0 (seqAdd seq d.length)
    match g.tsval with | some t => if x.tsOn then Sess.setF y 0x28 31 0 t else y | none => y)
  let s := s.placeBytes n seq d { i with bufs := if g.fin then [] else i.bufs }
  let s := if d.isEmpty || (s.sess n).st ≠ 1 then s else s.owesAck n d.length
  if g.fin then s.handOver n 1 { i with token := none } (i.frame.take (g.off + g.hlen)) else s

/-- R219: a segment of an ACTIVE session, by the first row that applies. -/
def State.tcpRows (s : State) (n : Nat) (i : Item) : State :=
  let x := s.sess n
  let g := segOf i.frame
  let wnd : Int := s.rcvWnd n
  let pos := seqGap 32 x.rcvNxt g.seq
  let data := !g.data.isEmpty
  let len : Int := g.data.length
  if g.tcp && g.rst && !(decide (0 ≤ pos) && decide (pos < wnd)) then s.outOfWindow n i
  else if !g.tcp || g.rst || g.syn || g.urg then s.handOver n 1 i i.frame
  else if g.badOpt then s.handOver n 2 i i.frame
  else if x.tsOn && (match g.tsval with | some t => decide (seqGap 32 (Sess.f x 0x28 31 0) t < 0) | none => false) then
    (s.outOfWindow n i).sendAck n
  else if (data && (decide (pos + len ≤ 0) || decide (wnd ≤ pos))) || (g.isAck && decide (seqGap 32 x.nxt g.ack > 0)) then
    (s.outOfWindow n i).sendAck n
  else if data && decide (0 < pos) then
    (((s.sessCount n 1).dropItem i).sendAck n).modSess n (fun x => { x with ackNow := true })
  else s.tcpAccept n i g

/-- R219: the engine's oldest item, for a session of the TCP or the NVMe/TCP kind. -/
def State.opTcpSegment (s : State) : State :=
  if !(s.powered 67 && s.powered 68) then s
  else match s.trn.input with
    | [] => s
    | i :: rest =>
      let n := i.fld fSESSION % 2 ^ 21
      let s := s.healSess n
      if (s.sess n).kind = 1 then s
      else
        let s := { s with trn := { s.trn with input := rest } }
        match s.sessGate n i, s.badBuf i.bufs i.frame.length with
        | some s, _ => s
        | none, some h => (s.poisonDrop h).dropItem i
        | none, none => s.tcpRows n i

/-- R222: TRN_ACK_DELAY has passed since the first byte not acknowledged. -/
def State.opAckDelay (s : State) (n : Nat) : State :=
  let x := s.sess n
  match x.ackAt with
  | some t => if x.st = 1 && s.trnOn && s.trnDue t (usec (s.regBits (TRN + 0x204) 9 0)) then s.sendAck n else s
  | none => s

/-- R222: a TCP session's retransmission timer has expired. -/
def State.tcpTimeout (s : State) (n : Nat) : State :=
  let x := s.sess n
  let half := max ((seqGap 32 x.una x.nxt).toNat / 2) (2 * x.mss)
  let s := s.modSess n (fun x =>
    let y := if x.retries = 0 then Sess.setF x 0x34 31 0 half else x
    let y := Sess.setF (Sess.setF y 0x30 31 0 x.mss) 0x38 31 0 (s.rtoBound (2 * x.rto))
    { y with retries := x.retries + 1, recover := none, high := some x.nxt, dups := 0, timed := none, rtoAt := some s.trnTime
             resend := some x.una })
  let len := min x.mss (seqGap 32 x.una x.nxt).toNat
  (s.modSess n (fun x => { x with resend := some (seqAdd x.una len) })).resendAt n x.una

end Sys2Proof.Machine
end

