-- ==== Sys2Proof/Machine/TrnRdma.lean ====
section
/-! DEFINITION. RoCEv2 reliable connections (R227, R228), NVMe/TCP PDUs (R229, R230), and the timers and sends of every
kind (R222). -/

namespace Sys2Proof.Machine

/-! R227: packets. -/

/-- The ICRC of RoCEv2: CRC-32 of the packet from its IP header, with the fields that change on the way, and the eight
bytes before it, as ones. -/
def icrcOf (f : List Byte) (l3 l4 bth end_ : Nat) : List Byte :=
  let v6 := decide (beAt f l3 1 / 16 = 6)
  let g := slice f 0 end_
  let g := if v6 then splice (splice g l3 [BitVec.ofNat 8 (beAt g l3 1 ||| 0x0F), 0xFF, 0xFF, 0xFF]) (l3 + 7) [0xFF]
    else splice (splice (splice g (l3 + 1) [0xFF]) (l3 + 8) [0xFF]) (l3 + 10) [0xFF, 0xFF]
  let g := splice (splice g (l4 + 6) [0xFF, 0xFF]) (bth + 4) [0xFF]
  leBytes 4 (crc32 (List.replicate 8 0xFF ++ g.drop l3)).toNat

/-- R227: what the engine reads of a packet. -/
structure Rpkt where
  op    : Nat
  psn   : Nat
  ackRq : Bool
  ce    : Bool
  ok    : Bool
  body  : List Byte
  deriving DecidableEq, Repr

/-- A frame's packet: its body is what follows the BTH, without padding and ICRC. -/
def rpktOf (f : List Byte) : Rpkt :=
  let (o, _, l, e) := ipOf f
  let b := l + 8
  let pad := beAt f (b + 1) 1 / 16 % 4
  { op := beAt f b 1, psn := beAt f (b + 9) 3, ackRq := bit (beAt f (b + 8) 1) 7
    ce := if beAt f o 1 / 16 = 4 then beAt f (o + 1) 1 % 4 = 3 else beAt f o 2 / 16 % 4 = 3
    ok := decide (b + 16 ≤ e ∧ e ≤ f.length) && decide (slice f (e - 4) 4 = icrcOf f o l b (e - 4))
    body := slice f (b + 12) (e - 4 - pad - (b + 12)) }

/-- R227: a packet of the session. -/
def Sess.packet (x : Sess) (op psn : Nat) (ack : Bool) (ext data : List Byte) : List Byte :=
  let b := x.l4 + 8
  let pad := (4 - data.length % 4) % 4
  let f := slicePad x.image 0 (b + 12) ++ ext ++ data ++ List.replicate pad 0
  let f := splice f b [BitVec.ofNat 8 op, BitVec.ofNat 8 (beAt f (b + 1) 1 / 64 * 64 + pad * 16)]
  let f := splice f (b + 5) (beBytes 3 (Sess.f x 0x50 23 0) ++ [if ack then 0x80 else 0] ++ beBytes 3 psn)
  let f := splice f (x.l4 + 4) (beBytes 2 (f.length + 4 - x.l4))
  let g := x.fillIp (f ++ [0, 0, 0, 0])
  let g := g.take f.length
  g ++ icrcOf g x.l3 x.l4 b g.length

/-- R222, R227: a packet goes out. -/
def State.sendPkt (s : State) (n op psn : Nat) (ack : Bool) (ext data : List Byte) (t : StampTag) : State :=
  s.trnHand n ((s.sess n).packet op psn ack ext data) t data.length

/-- R227: an ACK, or a NAK by its syndrome. -/
def State.sendAeth (s : State) (n psn syndrome : Nat) : State :=
  let x := s.sess n
  s.sendPkt n 0x11 psn false ([BitVec.ofNat 8 syndrome] ++ beBytes 3 x.msn) [] x.stamp

/-- R227, R228: a NAK that ends the session. The reason of its record is 07h for an opcode; for a remote access error
the spec states none. -/
def State.rdmaFail (s : State) (n psn syndrome reason : Nat) : State :=
  ((s.sendAeth n psn syndrome).exception n reason).leaveActive n 3

/-- R227: packets of this size carry a number of bytes. -/
def pkts (mtu len : Nat) : Nat := max 1 ((len + mtu - 1) / mtu)

/-- R228: an access lies in the remote window and is allowed. -/
def Sess.windowOk (x : Sess) (va rkey len : Nat) (write : Bool) : Bool :=
  let base := Sess.f x 0x58 63 0
  decide (rkey = Sess.f x 0x54 31 0) && decide (base ≤ va ∧ va + len ≤ base + Sess.f x 0x60 31 0) &&
    bit (Sess.f x 0x64 1 0) (if write then 0 else 1)

/-- R227: read responses from a PSN, in packets. -/
def State.readResponses (s : State) (n psn mtu total : Nat) : Nat → Nat → List Byte → State
  | 0, _, _ => s
  | f + 1, k, d =>
    if k = total then s
    else
      let op := if total = 1 then 0x10 else if k = 0 then 0xD else if k + 1 = total then 0xF else 0xE
      let x := s.sess n
      let aeth := if op = 0xE then [] else [0] ++ beBytes 3 x.msn
      State.readResponses (s.sendPkt n op ((psn + k) % 2 ^ 24) false aeth (d.take mtu) x.stamp) n psn mtu total f (k + 1) (d.drop mtu)

/-- R227: the expected PSN moves on. -/
def State.rdmaNext (s : State) (n k : Nat) : State :=
  s.modSess n (fun x => { (Sess.setF x 0x1C 31 0 ((x.rcvNxt + k) % 2 ^ 24)) with naked := false })

/-- R227: an executed packet is acknowledged when it asks for it. -/
def State.rdmaAck (s : State) (n : Nat) (p : Rpkt) : State := if p.ackRq then s.sendAeth n p.psn 0x1F else s

/-- R225, R226: SEND opcodes and their immediate data. -/
def isSend (op : Nat) : Bool := decide (op ≤ 5)
def isWrite (op : Nat) : Bool := decide (6 ≤ op ∧ op ≤ 0xB)
def isFirst (op : Nat) : Bool := op = 0 || op = 4 || op = 5 || op = 6 || op = 0xA || op = 0xB
def isLast (op : Nat) : Bool := decide (2 ≤ op ∧ op ≤ 5) || decide (8 ≤ op ∧ op ≤ 0xB)
def hasImm (op : Nat) : Bool := op = 3 || op = 5 || op = 9 || op = 0xB

/-- R222: a posted buffer that nothing has taken. -/
def State.posted (s : State) (q : Nat) : Bool :=
  let x := s.queue q
  let n := (x.ents.filter (fun e => e.st = .waiting)).length
  decide (x.back.length + (s.qim.deliv.filter (fun d => d.queue = q)).length < n)

/-- R227, R228: a SEND packet with the expected PSN. -/
def State.rdmaSend (s : State) (n : Nat) (i : Item) (p : Rpkt) : State :=
  let x := s.sess n
  let stream := i.fld fSTREAM
  if isFirst p.op && !bit stream 6 && !s.posted x.rxq then
    (s.sendAeth n p.psn (32 + Sess.f x 0x64 12 8)).dropItem i
  else
    let d := p.body.drop (if hasImm p.op then 4 else 0)
    let msg := x.part ++ d
    if isLast p.op then
      let s := s.modSess n (fun x => { x with part := [], partTags := [], msn := (x.msn + 1) % 2 ^ 24 })
      let s := (s.rdmaNext n 1).message n msg i.tag i.token stream (i.fld fLCLASS) false 0 i.bufs
      s.rdmaAck n p
    else
      let s := ((s.modSess n (fun x => x.addPart d i.tag)).rdmaNext n 1).rdmaAck n p
      (s.retireItem i).freeBufs i.holder i.bufs

/-- R227, R228: an RDMA WRITE packet with the expected PSN; none while its address waits for its translation. -/
def State.rdmaWrite (s : State) (n : Nat) (i : Item) (p : Rpkt) : Option State × State :=
  let x := s.sess n
  let first := isFirst p.op
  let va := if first then beAt p.body 0 8 else (x.write.map (fun (w : Nat × Nat) => w.1)).getD 0
  let left := if first then beAt p.body 12 4 else (x.write.map (fun (w : Nat × Nat) => w.2)).getD 0
  let d := p.body.drop ((if first then 16 else 0) + (if hasImm p.op then 4 else 0))
  let fail := fun (s : State) =>
    let r := s.freeNext % 256
    (s.drawn.rdmaFail n p.psn 0x62 r).dropItem i
  let go := fun (s : State) =>
    let w := if isLast p.op then none else some (va + d.length, left - d.length)
    let s := s.modSess n (fun x => { x with write := w, msn := if isLast p.op then (x.msn + 1) % 2 ^ 24 else x.msn })
    (((s.rdmaNext n 1).rdmaAck n p).retireItem i).freeBufs i.holder i.bufs
  if (first && !x.windowOk va (beAt p.body 8 4) left true) || decide (left < d.length) then (some (fail s), s)
  else if d.isEmpty then (some (go s), s)
  else match s.unitPut 6 (some (BitVec.ofNat 16 x.owner)) va d with
    | (some true, s) => (some (go s), s)
    | (some false, s) => (some (fail s), s)
    | (none, s) => (none, s)

/-- R227, R228: an RDMA READ request, expected or a duplicate, with the data that the window holds. -/
def State.rdmaRead (s : State) (n : Nat) (i : Item) (p : Rpkt) (dup : Bool) (data : ReadData) : Option State × State :=
  let x := s.sess n
  let va := beAt p.body 0 8
  let len := beAt p.body 12 4
  let total := pkts x.mss len
  let fail := fun (s : State) =>
    let r := s.freeNext % 256
    (s.drawn.rdmaFail n p.psn 0x62 r).dropItem i
  let go := fun (s : State) (d : List Byte) =>
    let s := if dup then s else (s.modSess n (fun x => { x with msn := (x.msn + 1) % 2 ^ 24 })).rdmaNext n total
    ((s.readResponses n p.psn x.mss total (total + 1) 0 (slicePad d 0 len)).retireItem i).freeBufs i.holder i.bufs
  if !x.windowOk va (beAt p.body 8 4) len false then (some (fail s), s)
  else if len = 0 then (some (go s []), s)
  else match s.unitRead (some (BitVec.ofNat 16 x.owner)) va len data with
    | (some (some d), s) => (some (go s d), s)
    | (some none, s) => (some (fail s), s)
    | (none, s) => (none, s)

/-! R227: the send side. -/

/-- R227: PSNs that a send entry takes. -/
def SendEnt.psns (e : SendEnt) (mtu len : Nat) : Nat := pkts mtu (if e.op = 1 then e.data.length else len)

/-- R291: LEN and ADDR of a send entry. -/
def State.sendSlots (s : State) (e : SendEnt) : List Byte :=
  match (s.queue e.ref.queue).ents.find? (fun x => x.no = e.ref.no) with
  | some x => x.slots
  | none => []
def State.sendLen (s : State) (e : SendEnt) : Nat := if e.op = 1 then e.data.length else leAt (s.sendSlots e) 16 4

/-- R227: the PSN behind a send entry's last. -/
def State.sendPast (s : State) (n : Nat) (e : SendEnt) : Nat :=
  (e.seq + SendEnt.psns e (s.sess n).mss (s.sendLen e)) % 2 ^ 24

/-- R227: entries whose every packet is acknowledged are finished; an RDMA READ ends with its last response. -/
def State.rdmaFinish (s : State) (n : Nat) : State :=
  let x := s.sess n
  let gone := fun (e : SendEnt) => decide (seqGap 24 (s.sendPast n e) x.una ≥ 0)
  let s' := (x.sends.filter gone).foldl (fun (t : State) e =>
    t.finishEntry e.ref 0 (fun y => { y with len := s.sendLen e })) s
  s'.modSess n (fun x => { x with sends := x.sends.filter (fun e => !gone e) })

/-- R227: the next response that the oldest unfinished RDMA READ waits for. -/
def State.readNeeds (s : State) (n : Nat) : Option Nat :=
  let x := s.sess n
  (x.sends.find? (fun e => e.op = 3 && decide (seqGap 24 x.una (s.sendPast n e) > 0))).map
    (fun e => if seqGap 24 e.seq x.una > 0 then x.una % 2 ^ 24 else e.seq)

/-- R227: packets before a PSN are acknowledged. -/
def State.rdmaMoved (s : State) (n past : Nat) : State :=
  let x := s.sess n
  if seqGap 24 x.una past > 0 && decide (seqGap 24 past x.nxt ≥ 0) then
    let sample := x.timed.filter (fun (t : Nat × Nat) => decide (seqGap 24 t.1 past ≥ 0))
    let s := match sample with
      | some t => s.rttSample n ((s.trnTime - t.2) / 4000)
      | none => s
    let s := s.modSess n (fun x => Sess.setF { x with
      retries := 0, rtoAt := if past = x.nxt then none else some s.trnTime, timed := if sample.isSome then none else x.timed
      resend := x.resend.filter (fun r => decide (seqGap 24 past r > 0)) } 0x14 31 0 past)
    s.rdmaFinish n
  else s

/-- R227: an acknowledgement up to a PSN: it reaches no further than a READ's responses have come, and one beyond them shows
that they are lost: the engine goes back to the first. -/
def State.rdmaAcked (s : State) (n psn : Nat) : State :=
  let past := (psn + 1) % 2 ^ 24
  match s.readNeeds n with
  | some r =>
    if decide (seqGap 24 r past > 0) && decide (seqGap 24 past (s.sess n).nxt ≥ 0) then
      (s.rdmaMoved n r).modSess n (fun x => { x with resend := some r })
    else s.rdmaMoved n past
  | none => s.rdmaMoved n past

/-- R227: the send entry in whose PSNs one lies. -/
def State.rdmaEntry (s : State) (n psn : Nat) : Option SendEnt :=
  (s.sess n).sends.find? (fun e => decide (seqGap 24 e.seq psn ≥ 0) && decide (seqGap 24 psn (s.sendPast n e) > 0))

/-- R227: the engine sends the packet of one PSN; how many PSNs it takes. -/
def State.rdmaSendAt (s : State) (n psn : Nat) : Nat × State :=
  let x := s.sess n
  match s.rdmaEntry n psn with
  | none => (0, s)
  | some e =>
    let k := (seqGap 24 e.seq psn).toNat
    let len := s.sendLen e
    let total := SendEnt.psns e x.mss len
    let b := s.sendSlots e
    let data := s.sendLen e - k * x.mss
    let reth := fun (at_ n : Nat) => beBytes 8 (e.remote.toNat + at_) ++ beBytes 4 e.rkey.toNat ++ beBytes 4 n
    if e.op = 3 then (total - k, s.sendPkt n 0xC psn true (reth (k * x.mss) data) [] e.tag)
    else
      let base := if e.op = 2 then 6 else 0
      let op := if total = 1 then base + 4 else if k = 0 then base else if k + 1 = total then base + 2 else base + 1
      let ext := if e.op = 2 && k = 0 then reth 0 (leAt b 16 4) else []
      (1, s.sendPkt n op psn (k + 1 = total) ext (slice e.data (k * x.mss) x.mss) e.tag)

/-- R222, R227: the engine sends one packet: from the PSN to which it has gone back, or the next. -/
def State.rdmaSendNext (s : State) (n : Nat) : State :=
  let x := s.sess n
  match x.resend.filter (fun r => decide (seqGap 24 r x.nxt > 0)) with
  | some r =>
    let (k, s) := s.rdmaSendAt n r
    let s := if k = 0 then s else s.stat statRetx
    s.modSess n (fun x => { x with resend := some ((r + max 1 k) % 2 ^ 24), rtoAt := some s.trnTime, timed := none })
  | none =>
    let (k, s) := s.rdmaSendAt n x.nxt
    if k = 0 then s.modSess n (fun x => { x with resend := none })
    else s.modSess n (fun x => Sess.setF { x with
      resend := none, rtoAt := if x.rtoAt.isSome then x.rtoAt else some s.trnTime
      timed := if x.timed.isSome then x.timed else some ((x.nxt + k) % 2 ^ 24, s.trnTime) } 0x18 31 0 ((x.nxt + k) % 2 ^ 24))

/-- R227: a read response: the one that is expected goes to the entry's buffer, a duplicate is dropped, and one ahead is
refused and counted in OOO; none while its address waits. -/
def State.rdmaResponse (s : State) (n : Nat) (i : Item) (p : Rpkt) : Option State × State :=
  let x := s.sess n
  let end_ := fun (s : State) => (s.retireItem i).freeBufs i.holder i.bufs
  match (s.rdmaEntry n p.psn).filter (fun e => e.op = 3) with
  | none => (some (end_ s), s)
  | some e =>
    let needs := (s.readNeeds n).getD p.psn
    if seqGap 24 needs p.psn > 0 then
      (some ((s.sessCount n 1).modSess n (fun x => { x with resend := some needs }) |>.dropItem i), s)
    else if seqGap 24 needs p.psn < 0 then (some (end_ s), s)
    else
      let k := (seqGap 24 e.seq p.psn).toNat
      let d := p.body.drop (if p.op = 0xE then 0 else 4)
      let d := d.take (s.sendLen e - k * x.mss)
      if d.isEmpty then (some (end_ (s.rdmaMoved n ((p.psn + 1) % 2 ^ 24))), s)
      else match s.unitPut 6 (some (BitVec.ofNat 16 x.owner)) (leAt (s.sendSlots e) 8 8 + k * x.mss) d with
        | (some true, s) => (some (end_ (s.rdmaMoved n ((p.psn + 1) % 2 ^ 24))), s)
        | (some false, s) =>
          let s := s.finishEntry e.ref 6 id
          (some (end_ ((s.modSess n (fun x => { x with sends := x.sends.filter (fun y => y.ref ≠ e.ref) })).rdmaMoved n ((p.psn + 1) % 2 ^ 24))), s)
        | (none, s) => (none, s)

/-- R227: an ACK or a NAK. -/
def State.rdmaAeth (s : State) (n : Nat) (i : Item) (p : Rpkt) : State :=
  let syn := beAt p.body 0 1
  let s := match syn / 32 with
    | 0 => s.rdmaAcked n p.psn
    | 1 => (s.rdmaAcked n ((p.psn + 2 ^ 24 - 1) % 2 ^ 24)).modSess n (fun x => { x with resend := some p.psn })
    | 3 => (s.rdmaAcked n ((p.psn + 2 ^ 24 - 1) % 2 ^ 24)).modSess n (fun x => { x with resend := some p.psn })
    | _ => s
  (s.retireItem i).freeBufs i.holder i.bufs

/-- R228: a packet with congestion experienced is answered with a CNP, at most one in 50 µs. -/
def State.cnp (s : State) (n : Nat) (p : Rpkt) : State :=
  let x := s.sess n
  let ready := match x.cnpAt with | some t => s.trnDue t (usec 50) | none => true
  if p.ce && ready then
    (s.modSess n (fun x => { x with cnpAt := some s.trnTime })).sendPkt n 0x81 0 false (List.replicate 16 0) [] x.stamp
  else s

/-- R228: a packet is executed, with the CNP that it asks for sent first; it sends none while it waits. -/
def State.withCnp (s : State) (n : Nat) (p : Rpkt) (run : State → Option State × State) : Option State × State :=
  match run s with
  | (none, w) => (none, w)
  | (some _, _) => run (s.cnp n p)

/-- R227: the RC opcodes that the engine supports. -/
def rcOp (op : Nat) : Bool := decide (op ≤ 0x11)

/-- R227, R228: a request of an ACTIVE session, by its PSN: what it does, or that it waits. -/
def State.rdmaRequest (s : State) (n : Nat) (i : Item) (p : Rpkt) (data : ReadData) : Option State × State :=
  let x := s.sess n
  let gap := seqGap 24 x.rcvNxt p.psn
  if gap < 0 then
    if p.op = 0xC then s.rdmaRead n i p true data
    else (some (((s.sendAeth n ((x.rcvNxt + 2 ^ 24 - 1) % 2 ^ 24) 0x1F).retireItem i).freeBufs i.holder i.bufs), s)
  else if 0 < gap then
    let s := if x.naked then s else (s.sendAeth n x.rcvNxt 0x60).modSess n (fun x => { x with naked := true })
    (some ((s.sessCount n 1).dropItem i), s)
  else if isSend p.op then (some (s.rdmaSend n i p), s)
  else if isWrite p.op then s.rdmaWrite n i p
  else s.rdmaRead n i p false data

/-- R227, R228: a packet of an ACTIVE session: what it does, or that it waits. -/
def State.rdmaPacket (s : State) (n : Nat) (i : Item) (data : ReadData) : Option State × State :=
  let p := rpktOf i.frame
  if !p.ok then (some ((s.sessCount n 3).dropItem i), s)
  else if p.op = 0x81 then (some (((s.stat statCnpRx).retireItem i).freeBufs i.holder i.bufs), s)
  else s.withCnp n p (fun s =>
    if !rcOp p.op then (some ((s.rdmaFail n p.psn 0x61 7).dropItem i), s)
    else if p.op = 0x11 then (some (s.rdmaAeth n i p), s)
    else if decide (0xD ≤ p.op) then s.rdmaResponse n i p
    else s.rdmaRequest n i p data)

/-- R227: the engine's oldest item, for a session of the RoCEv2 kind; it stays while an address waits. -/
def State.opRoce (s : State) (data : ReadData) : State :=
  if !(s.powered 67 && s.powered 68) then s
  else match s.trn.input with
    | [] => s
    | i :: rest =>
      let n := i.fld fSESSION % 2 ^ 21
      let s := s.healSess n
      if (s.sess n).kind ≠ 1 then s
      else
        let t := { s with trn := { s.trn with input := rest } }
        match t.sessGate n i, t.badBuf i.bufs i.frame.length with
        | some s, _ => s
        | none, some h => (t.poisonDrop h).dropItem i
        | none, none =>
          let count := fun (s : State) => (s.stat statRxSegs).statN statRxBytes (rpktOf i.frame).body.length
          match t.rdmaPacket n i data with
          | (some s, _) => if (rpktOf i.frame).ok then count s else s
          | (none, w) => { w with trn := { w.trn with input := i :: rest } }

/-! R229, R230: NVMe/TCP. -/

/-- R229: the header and data digests that a PDU carries. -/
def pduHdgst (x : Sess) (d : List Byte) : Bool := Sess.f x 0x50 31 31 = 1 && bit (leAt d 1 1) 0
def pduDdgst (x : Sess) (d : List Byte) : Bool := Sess.f x 0x50 30 30 = 1 && bit (leAt d 1 1) 1

/-- R229: the place of a PDU's data: its offset and its length, less a digest. -/
def pduData (x : Sess) (d : List Byte) : Nat × Nat :=
  let pdo := leAt d 3 1
  (pdo, d.length - pdo - (if pduDdgst x d then 4 else 0))

/-- R229: a PDU's digests are as they should be. -/
def hdgstOk (x : Sess) (d : List Byte) : Bool :=
  let h := leAt d 2 1
  !pduHdgst x d || decide (leAt d h 4 = (crc32c (d.take h)).toNat)
def ddgstOk (x : Sess) (d : List Byte) : Bool :=
  let (o, n) := pduData x d
  !pduDdgst x d || o = 0 || decide (leAt d (o + n) 4 = (crc32c (slice d o n)).toNat)

/-- R229: the digests of a PDU that the tenant driver has built. -/
def fillPdu (x : Sess) (d : List Byte) : List Byte :=
  let h := leAt d 2 1
  let d := if pduHdgst x d then splice d h (leBytes 4 (crc32c (d.take h)).toNat) else d
  let (o, n) := pduData x d
  if pduDdgst x d && o ≠ 0 then splice d (o + n) (leBytes 4 (crc32c (slice d o n)).toNat) else d

/-- R229: the bytes of a send stream from a PDU's first byte on, with their digests, and the bytes of the PDU that they
leave begun. A digest stands behind what it covers, so the bytes of a PDU that has only begun can have theirs. -/
def fillPdus (x : Sess) (b : List Byte) : List Byte × List Byte :=
  let (l, r, e) := cutPdus (b.length + 1) b
  let r := if e || decide (r.length < 8) then r else (fillPdu x (slicePad r 0 (leAt r 4 4))).take r.length
  ((l.map (fillPdu x)).flatten ++ r, r)

/-- R230: the tag of a data PDU: CCCID of a C2HData PDU, TTAG of an H2CData PDU. -/
def pduTag (d : List Byte) : Nat := if leAt d 0 1 = 7 then leAt d 8 2 else leAt d 10 2

/-- R230: why the placement entry has a data PDU delivered whole: its flag, or nothing. -/
def placeMiss (x : Sess) (d e : List Byte) : Option Nat :=
  if !bit (leAt e 2 1) 7 || leAt e 0 2 ≠ pduTag d then some 0x200
  else if leAt e 16 4 < leAt d 12 4 + (pduData x d).2 then some 0x100
  else none

/-- R187, R206, R209, R230: the XTS placement of data is refused, and counted. -/
def State.xtsRefused (s : State) (x : Sess) (sa datao len : Nat) : Option State :=
  let a := s.sa sa
  if s.lanes.isEmpty then some (s.count rwcNoLane)
  else if 2048 ≤ (s.rwc.input.filter (fun e => needsLane e.1 e.2)).length then some (s.count rwcInFull)
  else match s.saRefusal sa (fun a => a.kind = 8 && a.instance_ = x.owner) with
    | some c => some (s.count c)
    | none =>
      if datao % a.unit ≠ 0 || len % 16 ≠ 0 then
        let (l, s) := s.pickLane
        some (s.count (rwcLenReject (l.getD 0)))
      else none

/-- R220: the last PDU that an item completes retires the item's token. -/
def Pdu.retire (p : Pdu) (s : State) : State :=
  match p.mac with
  | some c => if p.final then s.retireToken c.val p.tag.raw.time else s
  | none => s

/-- R229, R226: a PDU is presented, or delivered to RXQ with flags. -/
def State.pduOut (s : State) (p : Pdu) (d : List Byte) (flags : Nat) (placed : Bool) : State :=
  if placed then
    p.retire ((s.stat statMsgs).toRxq p.session d p.tag flags)
  else s.message p.session d p.tag p.mac p.stream p.lclass (!p.final) flags []

/-- R230: a data PDU's bytes are placed at an address: none while it waits. -/
def State.placeAt (s : State) (p : Pdu) (addr fl : Nat) (body : List Byte) (xts : Bool) : Option State × State :=
  let who := some (BitVec.ofNat 16 (s.sess p.session).owner)
  let placed := fun (s : State) =>
    (if xts then s.statN rwcStatInline body.length else s).pduOut p (p.data.take (leAt p.data 2 1)) (fl + 0x80) true
  if body.isEmpty then (some (placed s), s)
  else match s.unitPut 6 who addr body with
    | (some true, s) => (some (placed s), s)
    | (some false, s) => (some (s.pduOut p p.data (fl + 0x100) false), s)
    | (none, s) => (none, s)

/-- R230: a data PDU with its placement entry: none while an address, or a lane under test, has to be waited for. -/
def State.placePdu (s : State) (p : Pdu) (entry : ReadData) (fl : Nat) : Option State × State :=
  let x := s.sess p.session
  let d := p.data
  let who := some (BitVec.ofNat 16 x.owner)
  match s.unitRead who (Sess.f x 0x54 63 0 + 32 * (pduTag d % 2 ^ Sess.f x 0x50 20 16)) 32 entry with
  | (none, s) => (none, s)
  | (some none, s) => (some (s.pduOut p d (fl + 0x100) false), s)
  | (some (some e), s) =>
    match placeMiss x d e with
    | some f => (some (s.pduOut p d (fl + f) false), s)
    | none =>
      let (o, n) := pduData x d
      let datao := leAt d 12 4
      let sa := leAt e 4 4 % 2 ^ 20
      if !bit (leAt e 2 1) 6 then s.placeAt p (leAt e 8 8 + datao) fl (slice d o n) false
      else match s.xtsRefused x sa datao n with
        | some t => (some (t.pduOut p d (fl + 0x100) false), s)
        | none =>
          if s.freeLanes.isEmpty then (none, s)
          else
            let a := s.sa sa
            s.placeAt p (leAt e 8 8 + datao) fl (a.xts true (leAt e 24 8 + datao / a.unit) (slice d o n)) true

/-- R229: the engine's oldest PDU: its digests, and its placement or delivery. -/
def State.opNvmePdu (s : State) (entry : ReadData) : State :=
  match s.trn.pdus with
  | [] => s
  | p :: rest =>
    let n := p.session
    let x := s.sess n
    let d := p.data
    let s' := { s with trn := { s.trn with pdus := rest } }
    if x.st = 3 ∨ x.st = 4 ∨ x.st = 0 then p.retire s'
    else if !hdgstOk x d then
      let s := { s with trn := { s.trn with pdus := rest.filter (fun q => q.session ≠ n) } }
      let s := (s.sessCount n 3).modSess n (fun x => Sess.setF { x with part := [], partTags := [] } 0x1C 31 0 p.seq)
      let s := (p :: rest.filter (fun q => q.session = n)).foldl (fun s q => q.retire s) s
      (s.exception n 6).leaveActive n 2
    else
      let bad := !ddgstOk x d
      let fl := if bad then 0x400 else 0
      let typ := leAt d 0 1
      let count := fun (s : State) => if bad then s.sessCount n 3 else s
      if typ = 6 ∨ typ = 7 then
        match s'.placePdu p entry fl with
        | (some t, _) => count t
        | (none, w) => { w with trn := s.trn }
      else count (s'.pduOut p d fl false)

/-! R222: sends and timeouts of every kind. -/

/-- R222, R291: a send entry joins its session, with the stamp of its doorbell. -/
def State.addSend (s : State) (n : Nat) (ref : EntryRef) (op : Nat) (data : List Byte) (remote : BitVec 64) (rkey : Word)
    (t : StampTag) : State :=
  let x := s.sess n
  let seq := match x.sends.getLast? with
    | some e => if x.kind = 1 then s.sendPast n e else seqAdd e.seq e.data.length
    | none => x.nxt
  let (sent, begun) := if x.kind = 2 then fillPdus x (x.sendPart ++ data) else (data, [])
  let e : SendEnt := { ref := ref, op := op, data := if x.kind = 2 then sent.drop x.sendPart.length else data, seq := seq
                       tag := t, remote := remote, rkey := rkey }
  s.modSess n (fun x => { x with sends := x.sends ++ [e], sendPart := begun, stamp := t })

/-- R222: the engine sends for a session. -/
def State.opSessSend (s : State) (n : Nat) : State :=
  let s := s.healSess n
  let x := s.sess n
  if !s.trnOn || x.st ≠ 1 then s
  else if x.kind = 1 then s.rdmaSendNext n else s.tcpSend n

/-- R222, R227: a session's retransmission timer has expired. -/
def State.opRto (s : State) (n : Nat) : State :=
  let x := s.sess n
  match x.rtoAt with
  | none => s
  | some t =>
    if x.st ≠ 1 || !s.trnOn || !s.trnDue t (usec (s.rtoBound x.rto)) then s
    else if s.regBits (TRN + 0x210) 4 0 ≤ x.retries + 1 then s.rtoExhausted n
    else if x.kind = 1 then
      s.modSess n (fun x => Sess.setF { x with retries := x.retries + 1, resend := some x.una, timed := none, rtoAt := some s.trnTime } 0x38 31 0
        (s.rtoBound (2 * x.rto)))
    else s.tcpTimeout n

end Sys2Proof.Machine
end

