-- ==== Sys2Proof/Machine/Lookup.lean ====
section
/-! DEFINITION. Lookups of the global tables for the pipelines (R147, R175, R176, R182, R194, R218). -/

namespace Sys2Proof.Machine

/-- R147: a table's answer to a key: 0 the endpoint table, 1 the pipeline's learning table, 2 the connection index,
3 the security associations. -/
def State.globalAnswer (s : State) (p target key : Nat) : Option Nat :=
  match target with
  | 0 => s.lookEp key
  | 1 => s.lookLrn (p % 4) key
  | 2 => s.lookSess key
  | _ => s.lookSa key

/-- R147, R182: the lookup that an item waits for is answered. -/
def State.opLookup (s : State) (p idx : Nat) : State :=
  let s := s.fwtSettle
  match s.wanted p idx with
  | some (target, key) => s.answerLookup p idx (s.globalAnswer p target key) false
  | none => s

end Sys2Proof.Machine
end

