-- ==== Sys2Proof/Machine/QimVec.lean ====
section
/-! DEFINITION. Instance vectors (R274), instance events and error words (R282, R312), instance pages (R262, R282) and
mediated requests (R283, R284). -/

namespace Sys2Proof.Machine

/-! R312: registers. -/
abbrev qimEvt : Nat := QIM + 0x004
abbrev qimAqCfg : Nat := QIM + 0x020
abbrev qimAcqCfg : Nat := QIM + 0x038
abbrev qimAqTail : Nat := QIM + 0x060
abbrev qimAcqHead : Nat := QIM + 0x06C
abbrev qimCqStall : Nat := QIM + 0x070
abbrev qimMedCfg : Nat := QIM + 0x088
abbrev statDoorbells : Nat := QIM + 0x100
abbrev statEntries : Nat := QIM + 0x108
abbrev statCompletions : Nat := QIM + 0x110
abbrev cntDbBad : Nat := QIM + 0x204
abbrev cntRxDrop : Nat := QIM + 0x208
abbrev cntVecBad : Nat := QIM + 0x20C
abbrev cntIevtOvf : Nat := QIM + 0x210
abbrev cntQimPipeOff : Nat := QIM + 0x214
abbrev hepIvCmd : Nat := HEP + 0x080
abbrev hepIvIndex : Nat := HEP + 0x084
abbrev hepIvData (w : Nat) : Nat := HEP + 0x0A0 + 8 * w

/-- R312: bits of QIM_EVT set. -/
def State.qimEvent (s : State) (b : Nat) : State := s.setEvt qimEvt 3 (BitVec.ofNat 32 (2 ^ b))

/-- R25: instances and queues in force. -/
def State.instCap (s : State) : Nat := if s.mem.reduced then 16384 else 65536
def State.queueCap (s : State) : Nat := if s.mem.reduced then 65536 else 1048576

/-! R274: instance vectors. -/

/-- R274: an instance vector's entry. -/
def State.iv (s : State) (n : Nat) : BitVec 128 := Map.at_ s.hep.iv n s.hep.ivDflt

/-- An instance vector is written; the one that stands after reset is not listed. -/
def State.setIv (s : State) (n : Nat) (e : BitVec 128) : State :=
  { s with hep := { s.hep with iv := Map.set s.hep.iv n e s.hep.ivDflt } }

/-- R274: nothing holds an entry back. -/
def State.ivOpen (s : State) (e : BitVec 128) : Bool :=
  e.getLsbD 127 && !e.getLsbD 126 && !e.getLsbD 124 && s.bmeOn && s.hep.msix

/-- R274: a vector's message goes out, or its PENDING sets. -/
def State.fireIv (s : State) (n : Nat) : State :=
  let e := s.iv n
  let t : BitVec 128 := 1 <<< 125
  if s.ivOpen e then
    (((s.emit (.msi (e.extractLsb' 0 64 &&& 0xFFFFFFFFFFFFFFFC) (e.extractLsb' 64 32))).stat intrSent).stat statTxTlp).setIv n (e &&& ~~~t)
  else s.setIv n (e ||| t)

/-- R274: every pending vector whose conditions are met is sent once. -/
def State.sweepIv (s : State) : State :=
  s.hep.iv.foldl (fun s e => if e.2.getLsbD 125 && s.ivOpen e.2 then s.fireIv e.1 else s) s

/-- R300: vector v of an instance fires, if its entry belongs to the instance. -/
def State.fireInst (s : State) (i v : Nat) : State :=
  let n := (s.inst i).vbase + v
  if ((s.iv n).extractLsb' 96 16).toNat = i then s.fireIv n else s.count cntVecBad

/-- R274: a vector fires for a cause raised under a generation. -/
def State.opIvFire (s : State) (n : Nat) (gen : Byte) : State :=
  match s.qim.inst.find? (fun e => decide (e.2.st ≠ .free ∧ e.2.vbase ≤ n ∧ n < e.2.vbase + e.2.vcount)) with
  | some (i, x) => if x.gen = gen then s.fireInst i (n - x.vbase) else s.staleGen (some (BitVec.ofNat 16 i))
  | none => s.count cntVecBad

/-- R274, R279: a whole write of HEP_IV_CMD by its OP. -/
def State.opIvCmd (s : State) (v : Word) : State :=
  s.onCmd hepIvCmd false (fun s =>
    let op := bits v.toNat 3 0
    let n := s.regBits hepIvIndex 17 0
    let status := fun (s : State) (k : Nat) => { s with hep := { s.hep with ivStat := k } }
    let s := s.setReg hepIvCmd (v &&& 0xF)
    match op with
    | 0 => s
    | 1 => status ((List.range 4).foldl (fun s w => s.setReg (hepIvData w) ((s.iv n).extractLsb' (32 * w) 32)) s) 0
    | 2 =>
      let d : BitVec 128 := (s.getReg (hepIvData 3)) ++ (s.getReg (hepIvData 2)) ++ (s.getReg (hepIvData 1)) ++ (s.getReg (hepIvData 0))
      let keep : BitVec 128 := 3 <<< 124
      let mask : BitVec 128 := (0xC000FFFF <<< 96) ||| 0xFFFFFFFFFFFFFFFFFFFFFFFC
      if s.instCap ≤ (d.extractLsb' 96 16).toNat then status s 1
      else
        let s := status (s.setIv n ((d &&& mask) ||| (s.iv n &&& keep))) 0
        if (s.iv n).getLsbD 125 && s.ivOpen (s.iv n) then s.fireIv n else s
    | _ => status s 1)

/-- R274: the command of one operation. -/
def State.opIv (s : State) (op : Nat) (v : Word) : State := s.opIvCmd (BitVec.ofNat 32 (putBits v.toNat 3 0 op))

/-! R312: instance events. -/

/-- R312: an instance event, for local queue q. -/
def State.instEvent (s : State) (cause i q : Nat) : State :=
  if s.qim.ievt.length < 256 then
    let e : InstEvt := { cause := cause, inst := BitVec.ofNat 16 i, queue := q }
    ({ s with qim := { s.qim with ievt := s.qim.ievt ++ [e] } }).qimEvent 1
  else s.count cntIevtOvf

/-- R312: QIM_IEVT_NEXT. -/
def State.opIevtNext (s : State) (v : Word) : State :=
  if v.getLsbD 0 then { s with qim := { s.qim with ievt := s.qim.ievt.drop 1 } } else s

/-- R290: a queue enters ERROR; an instance's raises event 2 and the event vector. -/
def State.queueError (s : State) (q : Nat) : State :=
  let x := s.queue q
  let s := s.modQueue q (fun x => { x with st := .error, fetched := [] })
  match x.owner with
  | some i => (s.instEvent 2 i.toNat x.local_).fireInst i.toNat 0
  | none => s

/-! R262, R282: instance pages. -/

/-- R282: the fields of INST_ERR count to FFh. -/
def bump (n : Nat) : Nat := min 255 (n + 1)
def State.errAccess (s : State) (i : Nat) : State := s.modInst i (fun x => { x with errAcc := bump x.errAcc })
def State.errRequest (s : State) (i : Nat) : State := s.modInst i (fun x => { x with errReq := bump x.errReq })

/-- R282: INST_ERR. -/
def Inst.err (x : Inst) : Nat := x.errAcc * 2 ^ 24 + x.errDb * 2 ^ 16 + x.errStale * 2 ^ 8 + x.errReq

/-- R280, Q_QUERY: codes of states. -/
def InstSt.code : InstSt → Nat
  | .free => 0 | .active => 1 | .resetting => 2 | .error => 3
def QSt.code : QSt → Nat
  | .none => 0 | .disabled => 1 | .enabled => 2 | .error => 3

/-- R282: a byte of an instance page. -/
def State.pageByte (s : State) (i o : Nat) : Byte :=
  let x := s.inst i
  let of_ := fun (v base : Nat) => BitVec.ofNat 8 (v / 2 ^ (8 * (o - base)))
  if 0x10 ≤ o ∧ o < 0x14 then of_ (x.gen.toNat * 2 ^ 24 + x.st.code) 0x10
  else if 0x14 ≤ o ∧ o < 0x18 then of_ x.err 0x14
  else if 0x20 ≤ o ∧ o < 0x24 then of_ ((if x.busy then 2 ^ 31 else 0) + x.status.toNat * 2 ^ 16 + x.seq.toNat) 0x20
  else if 0x40 ≤ o ∧ o < 0x70 then Map.at_ x.request (o - 0x40) 0
  else if 0x80 ≤ o ∧ o < 0xA0 then Map.at_ x.response (o - 0x80) 0
  else if 0x200 ≤ o ∧ o < 0x280 then
    BitVec.ofNat 8 ((List.range 8).foldl (fun w k =>
      let v := 8 * (o - 0x200) + k
      if v < x.vcount && (s.iv (x.vbase + v)).getLsbD 124 then w + 2 ^ k else w) 0)
  else 0

/-- R282, R35: a read of INST_ERR clears the fields it returns. -/
def State.clearErr (s : State) (i o n : Nat) : State :=
  let in_ := fun (b : Nat) => decide (o ≤ b ∧ b < o + n)
  if o < 0x18 ∧ 0x14 < o + n then
    s.modInst i (fun x => { x with
      errReq := if in_ 0x14 then 0 else x.errReq
      errStale := if in_ 0x15 then 0 else x.errStale
      errDb := if in_ 0x16 then 0 else x.errDb
      errAcc := if in_ 0x17 then 0 else x.errAcc })
  else s

/-- R262, R280: a read of a page. -/
def State.pageRead (s : State) (i o n : Nat) : State :=
  let x := s.inst i
  if x.st = .free then (s.count cntInstNopage).reply (.unsupported 2 (4096 * i + o))
  else if 4096 < o + n then (s.errAccess i).reply (.unsupported 2 (4096 * i + o))
  else (s.reply (.readData ((List.range n).map (fun k => s.pageByte i (o + k))))).clearErr i o n

/-- R262, R280: a write of a page: what an ACTIVE instance's page does with it; another's is an error. -/
def State.pageGate (s : State) (i : Nat) (f : State → State) : State :=
  match (s.inst i).st with
  | .free => s.count cntInstNopage
  | .active => f s
  | _ => s.errAccess i

/-- R274: the TMASK bits of a word are written. -/
def State.tmask (s : State) (i word : Nat) (v : Word) : State :=
  let x := s.inst i
  (List.range 32).foldl (fun s k =>
    let n := 32 * word + k
    if x.vcount ≤ n then s
    else
      let e := s.iv (x.vbase + n)
      let t : BitVec 128 := 1 <<< 124
      let e := if v.getLsbD k then e ||| t else e &&& ~~~t
      let s := s.setIv (x.vbase + n) e
      if e.getLsbD 125 && s.ivOpen e then s.fireIv (x.vbase + n) else s) s

/-- R274, R282: a tenant driver's write of a TMASK word. -/
def State.opTmask (s : State) (i word : Nat) (v : Word) : State := s.pageGate i (fun s => s.tmask i word v)

/-! R283, R284: mediation. -/

/-- R285: the phase expected of index n in a ring of 2^k slots. -/
def phaseOf (n : Word) (k : Nat) : Nat := if n.toNat / 2 ^ k % 2 = 0 then 1 else 0

/-- R283: a request completes. -/
def State.medEnd (s : State) (i : Nat) (status : Byte) : State :=
  s.modInst i (fun x => { x with busy := false, status := status })

/-- R283, R268: a request is sent: a mediation entry, unless the ring is full, not enabled or beyond reach. -/
def State.mediate (s : State) (i : Nat) : State :=
  let x := s.inst i
  if x.busy then s.errRequest i
  else
    let seq := x.seq + 1
    let s := s.modInst i (fun x => { x with busy := true, seq := seq })
    let cfg := s.getReg qimMedCfg
    let k := bits cfg.toNat 4 0
    let prod := s.qim.medProd
    let used := (prod - s.getReg (QIM + 0x090)).toNat
    if !cfg.getLsbD 31 || decide (2 ^ k < used + 4) || !s.bmeOn then s.medEnd i 0xFF
    else
      let req := (List.range 48).map (fun b => Map.at_ x.request b 0)
      let e := slicePad (req ++ leBytes 2 i ++ [x.gen, 0] ++ leBytes 2 seq.toNat) 0 63 ++ [BitVec.ofNat 8 (phaseOf prod k)]
      let a := (s.getReg64 (QIM + 0x080)).toNat + 16 * (prod.toNat % 2 ^ k)
      ({ s.putPf0 a e with qim := { s.qim with medProd := prod + 4 } }).qimEvent 2

/-- R282, R283: a tenant driver's write of REQ_GO. -/
def State.opReqGo (s : State) (i : Nat) (v : Word) : State :=
  s.pageGate i (fun s => if v = 1 then s.mediate i else s.errAccess i)

/-- R282: a write of REQUEST bytes. -/
def State.reqWrite (s : State) (i o : Nat) (d : List Byte) : State :=
  if (s.inst i).busy then s.errRequest i
  else s.modInst i (fun x => { x with
    request := d.zipIdx.foldl (fun (m : Map Byte) (b : Byte × Nat) => Map.set m (o - 0x40 + b.2) b.1 0) x.request })

end Sys2Proof.Machine
end

