-- ==== Sys2Proof/Machine/ThaChan.lean ====
section
/-! DEFINITION. Thread memory (R345, R346), channels (R358 to R360), supervisor events and faults (R361, R362), and
cluster resets (R366), as the thread array's instructions and other units use them. -/

namespace Sys2Proof.Machine

/-! R345, R346: what a thread reaches. -/

/-- R343: clocks of 1.5 GHz since a moment have reached a number. -/
def State.clocksPast (s : State) (since n : Nat) : Bool := decide (since ≤ s.clock ∧ 8 * n ≤ 3 * (s.clock - since))

/-- R346, R358: a range of local SRAM touches the ring of a channel of a cluster. -/
def State.touchesRing (s : State) (k a n : Nat) : Bool :=
  (s.cluster k).chans.any (fun (e : Nat × Channel) =>
    let r := localBase (8 * k + e.2.core) + 64 * e.2.ring
    decide (a < r + 64 * 2 ^ e.2.log2 ∧ r < a + n))

/-- R345: the internal address of a thread's local SRAM range. -/
def State.thLocal (t a n : Nat) : Option Nat :=
  if a + n ≤ 0x40000 then some (localBase (t / 16) + a)
  else if 0x1000000 ≤ a ∧ a + n ≤ 0x1000000 + 8 * 0x40000 then some (localBase (8 * (t / 128)) + (a - 0x1000000))
  else none

/-- R345, R349: the internal address of a range of the shared window within the span of the thread's service. -/
def State.thShared (s : State) (t a n : Nat) : Option Nat :=
  match s.slotOf (t / 128), s.shwin with
  | some slot, some b =>
    let o := a - 0x100000000
    let off := s.desc slot 0x20 4 * 2 ^ 20
    if 0x100000000 ≤ a ∧ off ≤ o ∧ o + n ≤ off + s.desc slot 0x24 4 * 2 ^ 20 ∧ o + n ≤ 2 ^ 31 then some (b + o) else none
  | _, _ => none

/-- R345, R346: the internal address of a range of memory that a thread may load or store. -/
def State.thMem (s : State) (t a n : Nat) : Option Nat :=
  match State.thLocal t a n with
  | some x => if s.touchesRing (t / 128) x n then none else some x
  | none => s.thShared t a n

/-! R354, R362: events. -/

/-- R354, R362: a thread's event bits: the supervisor's bit 28 stands while its FIFO holds an event. -/
def State.eventsOf (s : State) (t : Nat) : BitVec 29 :=
  let e := (s.thread t).events
  if t % 128 = 0 && !(s.cluster (t / 128)).sup.isEmpty then e ||| (1 <<< 28 : BitVec 29) else e

/-- R362: a supervisor event enters the FIFO, or is lost. -/
def State.supEvent (s : State) (k kind cause t : Nat) (a b : BitVec 64) : State :=
  if 32 ≤ (s.cluster k).sup.length then s.count (cluCnt k 4)
  else
    let e : SupEvt := { kind := kind, cause := cause, th := BitVec.ofNat 10 t, a := a, b := b
                        time := BitVec.ofNat 64 (s.repTime (30 + k)) }
    let s := s.modCluster k (fun c => { c with sup := c.sup ++ [e] })
    let m : BitVec 29 := 1 <<< 28
    (s.threadEvent (128 * k) m).modThread (128 * k) (fun x => { x with events := x.events &&& ~~~m })

/-! R358: channels. -/

/-- A channel of a cluster. -/
def State.channel (s : State) (k i : Nat) : Channel := Map.at_ (s.cluster k).chans i {}

/-- A channel is changed. -/
def State.modChannel (s : State) (k i : Nat) (f : Channel → Channel) : State :=
  s.modCluster k (fun c => { c with chans := Map.put c.chans i (f (Map.at_ c.chans i {})) })

/-- R358: the home cluster and the index of a channel number within a service; none where there is no such channel. -/
def State.findChan (s : State) (slot num : Nat) : Option (Nat × Nat) :=
  match s.sclusterOf slot (num / 256 % 8) with
  | some k => if (Map.get (s.cluster k).chans (num % 256)).isSome then some (k, num % 256) else none
  | none => none

/-- R358: the channel that a thread names, when its service cluster is in SCOPE. -/
def State.threadChan (s : State) (t num : Nat) : Option (Nat × Nat) :=
  match s.slotOf (t / 128) with
  | some slot =>
    match s.findChan slot num with
    | some (k, i) => if num < 2048 && (s.channel k i).scope.getLsbD (s.cluster (t / 128)).scluster then some (k, i) else none
    | none => none
  | none => none

/-- R358: slots in use. -/
def Channel.used (c : Channel) : Nat := c.msgs.foldl (fun n m => n + m.slots) 0

/-- R358: void messages at the head are skipped, and their slots are free. -/
def dropVoid : List ChMsg → List ChMsg
  | [] => []
  | m :: t => if m.st = .void then dropVoid t else m :: t

/-- R363: the head of a channel stands there since a moment. -/
def markHead (now : Nat) : List ChMsg → List ChMsg
  | [] => []
  | m :: t => { m with headAt := some (m.headAt.getD now) } :: t

/-- R358: the channel after its head has changed. -/
def Channel.tidy (c : Channel) (now : Nat) : Channel := { c with msgs := markHead now (dropVoid c.msgs) }

/-- R358: a message of a length takes its place: the slots up to the ring's end are filled with a void message first
when it does not fit there. None while it lacks room; the filling stands. -/
def Channel.reserve (c : Channel) (now len : Nat) (m : ChMsg) : Bool × Channel :=
  let n := 2 ^ c.log2
  let k := (8 + len + 63) / 64
  let fill := n - c.pos
  let c := if n < c.pos + k && decide (c.used + fill ≤ n) then
      let v : ChMsg := { st := .void, slots := fill, body := [], th := 0, handle := 0 }
      ({ c with pos := 0, msgs := c.msgs ++ [v] }).tidy now
    else c
  if n < c.pos + k ∨ n < c.used + k then (false, c)
  else (true, ({ c with pos := (c.pos + k) % n, msgs := c.msgs ++ [{ m with slots := k }] }).tidy now)

/-- R359: an opaque handle: which value it has the spec leaves open; the model's own count in its low half keeps one
from standing for another. -/
def State.newHandle (s : State) (k : Nat) : BitVec 64 × State :=
  let n := (s.cluster k).nextHandle
  let h := BitVec.ofNat 64 (s.freeNext % 2 ^ 31 * 2 ^ 32 + n % 2 ^ 32)
  (h, s.drawn.modCluster k (fun c => { c with nextHandle := c.nextHandle + 1 }))

/-- R359: a message is reserved for a thread: its handle, or none while the channel lacks room. -/
def State.chanReserve (s : State) (k i t len : Nat) : Option (BitVec 64) × State :=
  let (h, s') := s.newHandle k
  let m : ChMsg := { st := .reserved, slots := 0, body := List.replicate len 0, th := BitVec.ofNat 10 t, handle := h }
  let (ok, c) := (s.channel k i).reserve s.clock len m
  if ok then (some h, s'.modChannel k i (fun _ => c)) else (none, s.modChannel k i (fun _ => c))

/-- The thread that has waited longest of those that wait for a channel in one way. -/
def State.chanWaiter (s : State) (k i : Nat) (get : Bool) : Option Nat :=
  let here := fun (t num : Nat) => s.threadChan t num = some (k, i)
  let l := s.tha.threads.filter (fun (e : Nat × Thread) => e.2.st = .waiting && (match e.2.wait with
    | .chget _ ch _ => get && here e.1 ch.toNat
    | .chres _ ch _ => !get && here e.1 ch.toNat
    | _ => false))
  (l.foldl (fun (b : Option (Nat × Nat)) (e : Nat × Thread) => match b with
    | some x => if e.2.waitAt < x.2 then some (e.1, e.2.waitAt) else some x
    | none => some (e.1, e.2.waitAt)) none).map (fun (p : Nat × Nat) => p.1)

/-- R359: the head message leaves. -/
def State.chanTake (s : State) (k i : Nat) : State :=
  s.modChannel k i (fun c => ({ c with msgs := c.msgs.drop 1 }).tidy s.clock)

/-- R359: a body is copied to a thread's memory. -/
def State.thCopy (s : State) (t a : Nat) (b : List Byte) : State :=
  match s.thMem t a b.length with
  | some x => s.land x b
  | none => s

/-- R359, R361: a wait ends with nothing done, and the thread runs its instruction again, which then faults. -/
def State.retryWait (s : State) (t : Nat) : State :=
  (s.modThread t (fun x => { x with st := .running, wait := .none })).modCluster (t / 128) (fun c => { c with deadTold := false })

/-- R359: threads that wait for a channel go on while it lets them; the fuel covers them. One whose destination can no
longer be stored to faults with cause 6 as it runs CHGET again. -/
def State.chanServe : Nat → State → Nat → Nat → State
  | 0, s, _, _ => s
  | f + 1, s, k, i =>
    let head := (s.channel k i).msgs.head?
    match head.bind (fun (m : ChMsg) => if m.st = .committed then some m else none), s.chanWaiter k i true with
    | some m, some t =>
      match (s.thread t).wait with
      | .chget rd _ dst =>
        if (s.thMem t dst.toNat m.body.length).isNone then
          State.chanServe f (s.retryWait t) k i
        else
          let s := (s.chanTake k i).thCopy t dst.toNat m.body
          State.chanServe f (s.leaveWait t rd.val (BitVec.ofNat 64 m.body.length)) k i
      | _ => s
    | _, _ =>
      match s.chanWaiter k i false with
      | some t =>
        match (s.thread t).wait with
        | .chres rd _ len =>
          match s.chanReserve k i t len with
          | (some h, s) => State.chanServe f (s.leaveWait t rd.val h) k i
          | (none, s) => s
        | _ => s
      | none => s

/-- R358, R359: a channel has changed: its head is tidied and its waiters go on. -/
def State.chanSettle (s : State) (k i : Nat) : State :=
  State.chanServe 2048 (s.modChannel k i (fun c => c.tidy s.clock)) k i

/-- R354: threads that watch a channel learn that it has become non-empty. -/
def State.chanReady (s : State) (k i : Nat) : State :=
  match s.slotOf k with
  | some slot =>
    let num := 256 * (s.cluster k).scluster + i
    let watches := fun (e : Nat × Thread) => s.slotOf (e.1 / 128) = some slot &&
      e.2.chWatch.any (fun (w : Nat × Word) => w.2.getLsbD 31 && decide (bits w.2.toNat 10 0 = num))
    (s.tha.threads.filter watches).foldl (fun s (e : Nat × Thread) => s.threadEvent e.1 (1 <<< 27 : BitVec 29)) s
  | none => s

/-- R358, R359: a message becomes COMMITTED. -/
def State.chanCommit (s : State) (k i : Nat) (f : ChMsg → Bool) (tag : StampTag) : State :=
  let empty := !(s.channel k i).msgs.any (fun m => m.st = .committed)
  let s := s.modChannel k i (fun c => { c with msgs := c.msgs.map (fun m =>
    if f m then { m with st := .committed, tag := tag } else m) })
  (if empty then s.chanReady k i else s).chanSettle k i

/-- R360, R369: the frame-in channel that an enabled receive queue of PF0 is bound to. -/
def State.inboxOf (s : State) (q : Nat) : Option (Nat × Nat) :=
  (List.range 64).findSome? (fun b =>
    let r := s.getReg (inbox b)
    if r.getLsbD 31 && decide (bits r.toNat 19 0 = q) then
      match s.findChan (s.regBits (inboxSlot b) 2 0) (bits r.toNat 30 20) with
      | some (k, i) => if (s.channel k i).kind = 2 then some (k, i) else none
      | none => none
    else none)

/-- R360: the body of a frame-in message. -/
def inboxBody (d : Delivery) (st : Stamp) : List Byte :=
  let kind : Nat := if d.flags.getLsbD 15 then 3 else if d.plinth.isSome then 2 else 1
  leBytes 8 st.time.toNat ++ leBytes 2 st.bound.toNat ++ leBytes 1 kind ++ leBytes 1 (d.flags.toNat / 256) ++
  leBytes 4 d.detail.toNat ++ leBytes 4 d.data.length ++ leBytes 4 (d.queue % 2 ^ 20) ++ List.replicate 8 0 ++ d.data

/-- R360: an item is written to a frame-in channel: false while it lacks room. -/
def State.inboxPut (s : State) (k i : Nat) (d : Delivery) : Bool × State :=
  let t := s.stampTag .writer 0 0
  let body := inboxBody d (d.stamp.getD t.raw)
  let m : ChMsg := { st := .reserved, slots := 0, body := body, th := 0, handle := 0 }
  let (ok, c) := (s.channel k i).reserve s.clock body.length m
  let s := s.modChannel k i (fun _ => c)
  if !ok then (false, s)
  else
    let s := if d.stamp.isNone then s.countStamp t else s
    (true, s.chanCommit k i (fun m => m.st = .reserved && m.handle = 0) {})

/-! R353, R359, R362: the end of a thread. -/

/-- R359: a thread's reservations become VOID. -/
def State.voidOf (s : State) (t : Nat) : State :=
  (List.range 8).foldl (fun s k => (s.cluster k).chans.foldl (fun s (e : Nat × Channel) =>
    let mine := fun (m : ChMsg) => m.st = .reserved && m.th.toNat = t && m.handle ≠ 0
    if e.2.msgs.any mine then
      (s.modChannel k e.1 (fun c => { c with msgs := c.msgs.map (fun m => if mine m then { m with st := .void } else m) })
        ).chanSettle k e.1
    else s) s) s

/-- R353: a thread ends with an exit value: its joinable children are detached, and a parent that waits for it goes
on. -/
def State.endThread (s : State) (t : Nat) (v : BitVec 64) : State :=
  let s := (s.modThread t (fun x => { x with wait := .none })).voidOf t
  let x := s.thread t
  let child := fun (e : Nat × Thread) => e.2.joinable && e.2.parent.map (fun (p : BitVec 10) => p.toNat) = some t
  let s := (s.tha.threads.filter child).foldl (fun s (e : Nat × Thread) =>
    if e.2.st = .ended then s.modThread e.1 (fun _ => {})
    else s.modThread e.1 (fun y => { y with joinable := false, parent := none })) s
  let p := (x.parent.map (fun (p : BitVec 10) => p.toNat)).getD 1024
  if x.joinable && x.parent.isSome then
    match (s.thread p).st, (s.thread p).wait with
    | .waiting, .join rd c =>
      if c.toNat = t then (s.modThread t (fun _ => {})).leaveWait p rd.val v
      else s.modThread t (fun _ => { st := .ended, exit := v, joinable := true, parent := x.parent })
    | _, _ => s.modThread t (fun _ => { st := .ended, exit := v, joinable := true, parent := x.parent })
  else s.modThread t (fun _ => {})

/-! R366: cluster resets. -/

/-- R366: steps 1 and 2 of a cluster reset, which a stop also runs. -/
def State.clearCluster (s : State) (k : Nat) : State :=
  let mine := (s.tha.threads.filter (fun (e : Nat × Thread) => e.1 / 128 = k)).map (fun (e : Nat × Thread) => e.1)
  let s := mine.foldl (fun s t => s.modThread t (fun x => if x.st = .free then x else { x with st := .stopped, wait := .none })) s
  let s := mine.foldl (fun s t => s.voidOf t) s
  let s := s.dma.ch.foldl (fun s (e : Nat × Chan) =>
    if s.chOwner e.1 = 1 && s.chCluster e.1 = k && e.2.st ≠ .idle then s.killProg e.1 0x13 else s) s
  (s.cluster k).chans.foldl (fun s (e : Nat × Channel) =>
    let live := e.2.msgs.filter (fun m => m.st ≠ .void)
    let s := s.countN (cluCnt k 7) live.length
    let s := if e.2.kind = 3 then s.countN (cluCnt k 5) (live.filter (fun m => m.st = .committed)).length else s
    (s.modChannel k e.1 (fun c => { c with msgs := [], pos := 0 })).chanSettle k e.1) s

/-- R351: the result of a cluster reset in its service's objects. -/
def State.noteReset (s : State) (k cause : Nat) : State :=
  match s.slotOf k with
  | some slot => s.modService slot (fun v => { v with resets := v.resets + 1, cause := cause })
  | none => s

/-- R366: a cluster reset begins with a cause: 1 watchdog, 2 supervisor fault, 3 operator. -/
def State.startReset (s : State) (k cause : Nat) : State :=
  if (s.slotOf k).isNone || (s.cluster k).resetAt.isSome then s
  else (s.modCluster k (fun c => { c with resetAt := some s.clock, resetBy := cause })).clearCluster k

/-- R349: entry i of the channel or section entries of a service's descriptor. -/
def State.descEntry (s : State) (slot i : Nat) : List Byte := slicePad (s.service slot).image (0x40 + 16 * i) 16

/-- R350, R366: the sections of a service are written to a cluster, and the rest of its local SRAM is zero. -/
def State.loadCluster (s : State) (slot k : Nat) : State :=
  let lo := localBase (8 * k)
  let hi := lo + 8 * 0x40000
  let s := { s with mem := { s.mem with
    cells := s.mem.cells.filter (fun c => decide (c.1 < lo ∨ hi ≤ c.1))
    poison := s.mem.poison.filter (fun w => decide (w < lo ∨ hi ≤ w)) } }
  let n := s.desc slot 0x2C 2
  (List.range (s.desc slot 0x2E 2)).foldl (fun s j =>
    let e := s.descEntry slot (n + j)
    let d := slicePad (s.service slot).image (leAt e 12 4) (leAt e 8 4)
    (List.range 8).foldl (fun s c =>
      if bit (leAt e 0 1) c then s.writeBytes (lo + 0x40000 * c + leAt e 4 4) d else s) s) s

/-- R350: the supervisor thread of a cluster starts, and the pooled threads are FREE. -/
def State.startSup (s : State) (slot k : Nat) : State :=
  let s := { s with tha := { s.tha with threads := s.tha.threads.filter (fun (e : Nat × Thread) => e.1 / 128 ≠ k)
                                        dbg := s.tha.dbg.filter (fun t => t / 128 ≠ k) } }
  let x : Thread := { st := .running, pc := BitVec.ofNat 64 (s.desc slot 0x08 8) }
  let x := (x.setReg 10 (BitVec.ofNat 64 (s.cluster k).scluster)).setReg 11 (BitVec.ofNat 64 (s.desc slot 0x04 1 % 16))
  let s := s.modCluster k (fun c => { c with
    resetAt := none, wdtStop := none, sup := [], supPc := 0, waitSet := 0, waitInfo := [], deadTold := false, kickAt := s.clock })
  s.modThread (128 * k) (fun _ => x)

/-- R366: step 3 of a cluster reset, which a stop also runs: the sections are written again and the supervisor starts,
and what software sees of it. -/
def State.resetStep3 (s : State) (slot k cause : Nat) : State :=
  let s := ((s.loadCluster slot k).startSup slot k).noteReset k cause
  ((s.count (cluCnt k 3)).thaEvent (8 + k)).mainEvent 5 12 (s.repTime (30 + k)) [BitVec.ofNat 8 k]

/-- R366: step 3 of a cluster reset, 20 µs or more after step 1. -/
def State.opClusterReset (s : State) (k : Nat) : State :=
  match (s.cluster k).resetAt, s.slotOf k with
  | some since, some slot => if s.due since (usec 20) then s.resetStep3 slot k (s.cluster k).resetBy else s
  | _, _ => s

/-! R361: faults. -/

/-- R361: a thread faults: a pooled thread is STOPPED and its supervisor hears of it; the supervisor's own fault resets
its cluster. -/
def State.thFault (s : State) (t cause : Nat) (a : BitVec 64) : State :=
  let k := t / 128
  let s := s.count (cluCnt k 0)
  if t % 128 = 0 then s.startReset k 2
  else
    let pc := (s.thread t).pc
    (s.modThread t (fun x => { x with st := .stopped, faulted := true, wait := .none })).supEvent k 1 cause t pc a

end Sys2Proof.Machine
end

