-- ==== Sys2Proof/Machine/QimQueue.lean ====
section
/-! DEFINITION. Work queues (R285 to R304): fetching, entries, completions, receive placement and its backlog,
completion queues that fill, and doorbells (R292, R293). -/

namespace Sys2Proof.Machine

/-- R285: slots of a ring. -/
def Queue.size (x : Queue) : Nat := 2 ^ x.log2

/-- R285: slots of a completion queue that stand unread. -/
def Queue.used (x : Queue) : Nat := (x.prod - x.cons).toNat

/-- R303: free completion places: slot pairs and entries of the backlog, less those reserved. -/
def Queue.free (x : Queue) : Nat := (x.size - x.used) / 2 + 64 - x.cqBack.length - x.places

/-- R280, R306: the owner of a queue lets it work. -/
def State.ownerRuns (s : State) (x : Queue) : Bool :=
  match x.owner with
  | some i => (s.inst i.toNat).st = .active
  | none => true

/-- R287, R290, R268: a work queue may fetch and begin entries. -/
def State.mayFetch (s : State) (q : Nat) : Bool :=
  let x := s.queue q
  x.st = .enabled && decide (1 ≤ x.kind ∧ x.kind ≤ 6) && s.ownerRuns x && s.bmeOn && s.powered 3 && s.powered 4 &&
    (x.kind ≠ 3 || x.owner.isSome || (s.inboxOf q).isNone)

/-! Completions (R295 to R300). -/

/-- R295: a completion, with its PHASE still 0. -/
def completion (st : Stamp) (count : Nat) (utag : Word) (len local_ : Nat) (status : Byte) (kind : Nat) (detail : Word)
    (flags : BitVec 16) (gen : Byte) : List Byte :=
  leBytes 8 st.time.toNat ++ leBytes 2 st.bound.toNat ++ leBytes 2 count ++ leBytes 4 utag.toNat ++ leBytes 4 len ++
  leBytes 2 (local_ % 2 ^ 14) ++ [status, BitVec.ofNat 8 kind] ++ leBytes 4 detail.toNat ++ leBytes 2 flags.toNat ++ [gen, 0]

/-- R300: the vector of a completion queue fires. -/
def State.cqVector (s : State) (q : Nat) : State :=
  let x := s.queue q
  match x.vec, x.owner with
  | some v, some i => s.fireInst i.toNat v
  | some v, none => s.fireVector v
  | none, _ => s

/-- R300: what a completion write does with the interrupt. -/
def State.cqInterrupt (s : State) (q : Nat) : State :=
  let x := s.queue q
  match x.imode with
  | 1 => s.cqVector q
  | 2 => if x.armed then (s.modQueue q (fun x => { x with armed := false })).cqVector q else s
  | _ => s

/-- R101, R102: the oldest unit has been exported: its space returns, and records that waited for room are written. -/
def State.dropUnit (s : State) : State :=
  match s.sql.units with
  | u :: t =>
    let n := match u with
      | .block _ h r => h.length + 64 * r.length
      | .seal _ => 0
    { s with sql := { s.sql with units := t, area := s.sql.area - n } }.flush
  | [] => s

/-- R295, R297: a completion of an export queue whose entry has taken a unit. -/
def isUnit (c : List Byte) : Bool := leAt c 23 1 = 6 && leAt c 16 4 ≠ 0

/-- R102, R296, R299: a completion is written when its queue has a free slot pair; false when it has to wait. With that of a
unit the unit's space returns. -/
def State.cqWrite (s : State) (q : Nat) (c : List Byte) : Bool × State :=
  let x := s.queue q
  if x.size < x.used + 2 then (false, s)
  else
    let b := splice c 31 [BitVec.ofNat 8 (phaseOf x.prod x.log2)]
    match s.hostPut x.owner (x.ring.toNat + 16 * (x.prod.toNat % x.size)) b with
    | (none, s) => (false, s)
    | (some false, s) => (true, s.queueError q)
    | (some true, s) =>
      let s := ((s.modQueue q (fun x => { x with prod := x.prod + 2 })).stat statCompletions).cqInterrupt q
      (true, if isUnit c then s.dropUnit else s)

/-- R303: the backlog of a completion queue is written, in order; the fuel covers its length. -/
def State.cqFlush : Nat → State → Nat → State
  | 0, s, _ => s
  | f + 1, s, q =>
    match (s.queue q).cqBack with
    | [] => s
    | c :: t =>
      match s.cqWrite q c with
      | (true, s) =>
        let full := fun (x : Queue) => if t.isEmpty then none else x.fullAt
        State.cqFlush f (s.modQueue q (fun x => { x with cqBack := t, fullAt := full x })) q
      | (false, s) => s

/-- R303: the backlog of a completion queue is worked off as far as it can be. -/
def State.flushCq (s : State) (q : Nat) : State := State.cqFlush 65 s q

/-- R299, R303: a completion goes to its ring, or behind those that wait. -/
def State.cqPut (s : State) (q : Nat) (c : List Byte) : State :=
  let back := fun (s : State) => s.modQueue q (fun x => { x with
    cqBack := x.cqBack ++ [c], fullAt := some (x.fullAt.getD s.clock) })
  if (s.queue q).cqBack.isEmpty then
    match s.cqWrite q c with
    | (true, s) => s
    | (false, s) => back s
  else back s

/-! R298: covering. -/

/-- R298: the status with which an entry has finished. -/
def Entry.ended (e : Entry) : Option Byte :=
  match e.st with
  | .finished b => some b
  | _ => none

/-- R298: the length of the run that a completion is due for. -/
def dueRun : List Entry → Option Nat
  | [] => none
  | e :: t =>
    match e.ended with
    | none => none
    | some b => if e.cb || b ≠ 0 then some 1 else (dueRun t).map (· + 1)

/-- R303, R304: the entries at the front that have finished. -/
def doneRun : List Entry → Nat
  | [] => 0
  | e :: t => if e.ended.isSome then doneRun t + 1 else 0

/-- R297: the stamp that an entry's completion carries of itself: what its item gave, or the doorbell stamp of a message
entry. -/
def Entry.ownStamp (e : Entry) (kind : Nat) : Option Stamp := e.cstamp.or (if kind = 2 then some e.stamp.raw else none)

/-- R295, R297, R298: one completion covers the first k entries of a queue, with a status. -/
def State.cover (s : State) (q k : Nat) (status : Byte) : State :=
  let x := s.queue q
  let run := x.ents.take k
  match run.getLast? with
  | none => s
  | some e =>
    let t := s.stampTag .writer 0 0
    let (st, s) := match e.ownStamp x.kind with
      | some c => (c, s)
      | none => (t.raw, s.countStamp t)
    let c := completion st run.length e.utag e.len x.local_ status x.kind e.detail e.flags (s.queueGen q)
    let s := s.modQueue q (fun x => { x with ents := x.ents.drop k })
    let s := s.modQueue x.cq (fun x => { x with places := x.places - run.length })
    s.cqPut x.cq c

/-- R298: one completion that is due is written. -/
def State.coverDue (s : State) (q : Nat) : State :=
  let x := s.queue q
  match dueRun x.ents with
  | some k => s.cover q k (((x.ents[k - 1]?).bind Entry.ended).getD 0)
  | none => s

/-- R303: every due completion of a queue, and one with status OK for what else has finished. -/
def State.coverAll (s : State) (q : Nat) : State :=
  let s := (s.queue q).ents.foldl (fun s _ => s.coverDue q) s
  s.cover q (doneRun (s.queue q).ents) 0

/-- R303: the work queues bound to a completion queue. -/
def State.boundTo (s : State) (cq : Nat) : List Nat :=
  s.qim.queue.filterMap (fun (e : Nat × Queue) =>
    if decide (1 ≤ e.2.kind ∧ e.2.kind ≤ 6) && e.2.st ≠ .none && e.2.cq = cq then some e.1 else none)

/-- R303: an entry of a work queue finds a completion place; finished entries give theirs back first. -/
def State.place (s : State) (q : Nat) : Bool × State :=
  let cq := (s.queue q).cq
  if 0 < (s.queue cq).free then (true, s)
  else
    let s := (s.boundTo cq).foldl (fun s w => s.coverAll w) s
    (decide (0 < (s.queue cq).free), s)

/-! R287: fetching. -/

/-- R286: slots of an entry by its head. -/
def entryLen (h : List Byte) : Nat :=
  let n := (h.getD 0 0).toNat % 16
  if n = 0 then 16 else n

/-- R286: the slots that an entry at an index takes: at most to the ring's end. -/
def Queue.taken (x : Queue) (idx : Word) (h : List Byte) : Nat :=
  min (entryLen h) (x.size - idx.toNat % x.size)

/-- R287: fetched slots up to the first head whose phase is not the expected one; true when there is none. The fuel
covers the slots. -/
def Queue.goodSlots (x : Queue) : Nat → Word → List (List Byte) → List (List Byte) × Bool
  | 0, _, l => (l, true)
  | _ + 1, _, [] => ([], true)
  | f + 1, idx, h :: t =>
    if (h.getD 0 0).toNat / 128 ≠ phaseOf idx x.log2 then ([], false)
    else
      let n := x.taken idx h
      let r := Queue.goodSlots x f (idx + BitVec.ofNat 32 n) ((h :: t).drop n)
      ((h :: t).take n ++ r.1, r.2)

/-- Bytes cut into slots. -/
def slotsOf : Nat → List Byte → List (List Byte)
  | 0, _ => []
  | f + 1, b => if b.length < 16 then [] else b.take 16 :: slotsOf f (b.drop 16)

/-- R287: slots of a ring are read, in ascending order from the first not fetched; none where the read failed. -/
def State.opWorkFetch (s : State) (q : Nat) (slots : ReadData) : State :=
  let x := s.queue q
  if !s.mayFetch q || x.stopped then s
  else
    let at_ := x.head + BitVec.ofNat 32 x.fetched.length
    let room := min ((x.tail - x.head).toNat + 64 - x.fetched.length) (x.size - at_.toNat % x.size)
    let (place, s) := s.place q
    if !place then s
    else
      let n := match slots with
        | .ok b => (slotsOf room b).length
        | _ => min 1 room
      if n = 0 then s
      else match s.unitRead x.owner (x.ring.toNat + 16 * (at_.toNat % x.size)) (16 * n) slots with
        | (none, s) => s
        | (some none, s) => s.queueError q
        | (some (some b), s) =>
          let all := x.fetched ++ slotsOf room b
          let (good, ok) := x.goodSlots all.length x.head all
          s.modQueue q (fun x => { x with fetched := good, stopped := !ok })

/-! R294: the shadow word. -/

/-- R294: the shadow word is written with a head. -/
def State.putShadow (s : State) (q : Nat) (head : Word) : Option Bool × State :=
  let x := s.queue q
  s.hostPut x.owner x.shadow.toNat (leBytes 4 head.toNat ++ [s.queueGen q, 0, 0, 0])

/-- R304: the published head advances, and the doorbells it has passed are no longer kept. -/
def Queue.publish (x : Queue) (h : Word) : Queue :=
  { x with pub := h, bells := x.bells.filter (fun b => decide (0 < (b.1 - h).toInt)) }

/-- R287, R294: the device head passes an entry of n slots; false when the shadow word's translation has to be
waited for, and then nothing has happened. -/
def State.passHead (s : State) (q n : Nat) (shadowOk : Bool) : Bool × State :=
  let x := s.queue q
  let h := x.head + BitVec.ofNat 32 n
  let go := fun (s : State) => s.modQueue q (fun x => { x with head := h, fetched := x.fetched.drop n })
  if h = x.tail || decide (64 ≤ (h - x.pub).toNat) then
    match s.putShadow q h with
    | (none, s) => (false, s)
    | (some ok, s) =>
      if ok && shadowOk then (true, (go s).modQueue q (fun x => x.publish h)) else (true, (go s).queueError q)
  else (true, go s)

/-! R291: entries. -/

/-- R291: an opcode is defined for a kind. -/
def opDefined (kind op : Nat) : Bool :=
  if kind = 4 then decide (1 ≤ op ∧ op ≤ 3) else if kind = 1 ∨ kind = 2 then decide (1 ≤ op ∧ op ≤ 2) else op = 1

/-- R291: an entry carries its data within itself. -/
def isInline (kind op : Nat) : Bool := decide (kind ≤ 2) && op = 2

/-- R291: the length that an entry names. -/
def entryBytes (kind op : Nat) (b : List Byte) : Nat :=
  if isInline kind op then leAt b 8 2
  else if kind = 1 then bits (leAt b 16 4) 13 0
  else leAt b 16 4

/-- R291: the LEN that an opcode requires, and the range of its length. -/
def entryShape (kind op : Nat) (b : List Byte) : Nat × Nat × Nat :=
  match kind with
  | 1 => if op = 2 then ((16 + leAt b 8 2 + 15) / 16, 14, 240) else (2, 14, 9596)
  | 2 => if op = 2 then ((16 + leAt b 8 2 + 15) / 16, 1, 240) else (2, 1, 16384)
  | 3 => (2, 256, 16777216)
  | 4 => (if op = 1 then 2 else 3, 1, 16777215)
  | 5 => (4, 0, 2 ^ 32)
  | _ => (2, 0, 2 ^ 32)

/-- R286, R291: the session of a send queue. -/
def State.sessionOf (s : State) (q : Nat) : Option Nat :=
  (s.trn.sess.find? (fun (e : Nat × Sess) => decide (1 ≤ e.2.st ∧ e.2.st ≤ 3) && e.2.txq = q)).map (fun (e : Nat × Sess) => e.1)

/-- R286, R291: an entry is MALFORMED. -/
def State.malformed (s : State) (q : Nat) (b : List Byte) (crosses : Bool) : Bool :=
  let x := s.queue q
  let op := leAt b 1 1
  let (len, lo, hi) := entryShape x.kind op b
  let n := entryBytes x.kind op b
  crosses || !opDefined x.kind op || entryLen b ≠ len || decide (n < lo) || decide (hi < n) ||
    (x.kind = 3 && leAt b 8 8 % 64 ≠ 0) ||
    (x.kind = 4 && decide (2 ≤ op) && (match s.sessionOf q with | some k => (s.sess k).kind ≠ 1 | none => false))

/-- R287, R303: an entry begins: it holds its completion place. -/
def State.addEntry (s : State) (q : Nat) (b : List Byte) (t : StampTag) : State :=
  let x := s.queue q
  let e : Entry := { no := x.entNo, cb := (b.getD 0 0).getLsbD 6, op := b.getD 1 0, utag := BitVec.ofNat 32 (leAt b 4 4)
                     slots := b, stamp := t }
  let e := if x.kind = 3 ∨ x.kind = 6 then { e with cb := false } else e
  let s := s.modQueue q (fun x => { x with entNo := x.entNo + 1, ents := x.ents ++ [e] })
  (s.modQueue x.cq (fun c => { c with places := c.places + 1 })).stat statEntries

/-- R304: the stamp of the doorbell that published the entry at the device head. -/
def Queue.stampAt (x : Queue) : StampTag :=
  match x.bells.find? (fun b => decide (0 < (b.1 - x.head).toInt)) with
  | some b => b.2.1
  | none => {}

/-- R334, R335: the BPM's instance for the entries of a queue: PF0's queues belong to none. -/
def Queue.bufInst (x : Queue) : Nat :=
  match x.owner with
  | some i => i.toNat
  | none => 65536

/-- R334: an entry that has begun waits for its buffer. -/
def Entry.waits (e : Entry) (kind : Nat) : Bool := decide (kind ≤ 2) && e.st = .waiting

/-- R334: requester 34 waits for the instance of a queue, or an entry of it has yet to take up what it was granted. -/
def State.txWaits (s : State) (x : Queue) : Bool :=
  s.mem.waits.any (fun w => w.requester = 34 && w.inst = x.bufInst) ||
  s.mem.granted.any (fun g => g.1 = 34 && g.2.1 = x.bufInst)

/-- R334: a buffer of requester 34 for an entry: none where it has to be waited for. -/
def State.txBuffer (s : State) (x : Queue) (len : Nat) : Option Word × State :=
  match s.allocLen 34 x.bufInst false len none with
  | (.granted h, s) => (some h, s)
  | (_, s) => (none, s)

/-- R289, R291: what an entry that has begun sets going, with the data it brings. -/
def State.startEntry (s : State) (q : Nat) (b data : List Byte) (h : Option Word) (no : Nat) (t : StampTag) : State :=
  let x := s.queue q
  let op := leAt b 1 1
  let ref : EntryRef := { queue := q, no := no, gen := s.queueGen q }
  let bufs := h.toList
  let src : Nat := 2 * 2 ^ 16 + (match x.owner with | some i => i.toNat | none => 0)
  match x.kind with
  | 1 =>
    let prio := (if op = 2 then leAt b 10 1 else leAt b 20 1) % 8
    if !s.powered (49 + x.pipe) then
      ((s.freeBufs 34 bufs).count cntQimPipeOff).finishEntry ref 8 id
    else
      let i : Item := { frame := data, orig := data, tag := t, prio := prio, srcEp := x.ep, src := src, queueIn := q
                        bufs := bufs, holder := 34, entry := some ref }
      s.modPipe x.pipe (fun p => { p with host := p.host ++ [i] })
  | 2 =>
    let m : Msg := { stream := x.stream.getD 0, src := BitVec.ofNat 18 (2 * 2 ^ 16 + x.asInst.toNat), tag := t, data := data
                     entry := some ref, bufs := bufs }
    if s.sqlOn then { s with sql := { s.sql with inbox := s.sql.inbox ++ [m] } } else s.dropMsg m
  | 4 =>
    match s.sessionOf q with
    | some n => s.addSend n ref op data (BitVec.ofNat 64 (leAt b 24 8)) (BitVec.ofNat 32 (leAt b 32 4)) t
    | none => s.finishEntry ref 9 id
  | 5 => { s with rwc := { s.rwc with jobs := s.rwc.jobs ++ [{ queue := q, entry := ref, slots := b }] } }
  | _ => s.modQueue q (fun x => { x with ents := x.ents.map (fun e => if e.no = no then { e with st := .waiting } else e) })

/-- R289: an entry reads data from the owner's memory. -/
def readsData (kind op : Nat) : Bool :=
  (decide (kind ≤ 2) && op = 1) || (kind = 4 && decide (op ≤ 2))

/-- R286: the state of an entry that has begun. -/
def State.setEnt (s : State) (q no : Nat) (e : EntSt) : State :=
  s.modQueue q (fun x => { x with ents := x.ents.map (fun y => if y.no = no then { y with st := e } else y) })

/-- R289, R334: an entry that has begun goes on with its data and its buffer. -/
def State.goEntry (s : State) (q no : Nat) (b : List Byte) (t : StampTag) (data : Option (List Byte)) (h : Option Word) :
    State :=
  match data with
  | none => (s.freeBufs 34 h.toList).finishEntry { queue := q, no := no, gen := s.queueGen q } 6 id
  | some d => s.startEntry q b d h no t

/-- R291: the data of an entry, as the entry or the owner's memory gives it; none where the read failed. -/
def entryData (kind op : Nat) (b : List Byte) (got : Option (List Byte)) : Option (List Byte) :=
  let len := entryBytes kind op b
  if isInline kind op then some (slicePad b 16 len)
  else if readsData kind op then got.map (fun (p : List Byte) => slicePad p 0 len)
  else some (if kind = 4 then List.replicate len 0 else [])

/-- R276, R289: what an entry reads from its owner's memory: no answer while its translation has to be waited for, and none
where the read fails. -/
def State.entryRead (s : State) (x : Queue) (b : List Byte) (payload : ReadData) : Option (Option (List Byte)) × State :=
  let op := leAt b 1 1
  if readsData x.kind op then s.unitRead x.owner (leAt b 8 8) (entryBytes x.kind op b) payload else (some none, s)

/-- R334: an entry that has waited for its buffer takes it up and goes on. -/
def State.resumeEntry (s : State) (q : Nat) (e : Entry) (payload : ReadData) : State :=
  let x := s.queue q
  match s.takeGranted 34 x.bufInst with
  | none => s
  | some (h, s) =>
    match s.entryRead x e.slots payload with
    | (none, t) => { t with mem := { t.mem with granted := t.mem.granted ++ [(34, x.bufInst, h)] } }
    | (some got, s) =>
      ((s.fillBufs [h] (bufBytes (handlePool h % 4))).setEnt q e.no .running).goEntry q e.no e.slots e.stamp (entryData x.kind e.op.toNat e.slots got) (some h)

/-- R138: the QIM holds the frames of a transmit queue whose pipeline's internal intake is full. -/
def State.pipeHolds (s : State) (x : Queue) : Bool := x.kind = 1 && s.powered (49 + x.pipe) && (s.pipe x.pipe).internalFull

/-- R138, R286, R287, R291, R334: the entry at the device head begins; its payload as read, and whether its shadow write
ends well. Where the queue's last entry to begin waits for its buffer, that entry goes on instead. -/
def State.opEntryBegin (s : State) (q : Nat) (payload : ReadData) (shadowOk : Bool) : State :=
  let s := s.settleSends
  let x := s.queue q
  if s.pipeHolds x then s else
  match x.ents.find? (fun e => e.waits x.kind) with
  | some e => if s.bmeOn then s.resumeEntry q e payload else s
  | none =>
  match x.fetched with
  | [] => s
  | h :: _ =>
    let n := x.taken x.head h
    let b := (x.fetched.take n).flatten
    let op := leAt b 1 1
    let crosses := decide (n < entryLen h)
    if !s.mayFetch q || decide (x.fetched.length < n) || decide ((x.tail - x.head).toNat < n) then s
    else if op = 0 && !crosses then (s.passHead q n shadowOk).2
    else if decide (x.kind ≤ 2) && s.txWaits x then s
    else
      let (place, s) := s.place q
      if !place then s
      else
        let t := x.stampAt
        if s.malformed q b crosses then
          match s.passHead q n shadowOk with
          | (false, s) => s
          | (true, s) => (s.addEntry q b t).finishEntry { queue := q, no := x.entNo, gen := s.queueGen q } 0x0B id
        else
          match s.entryRead x b payload with
          | (none, s) => s
          | (some got, s) =>
            match s.passHead q n shadowOk with
            | (false, s) => s
            | (true, s) =>
              let s := s.addEntry q b t
              let data := entryData x.kind op b got
              if decide (2 < x.kind) then s.goEntry q x.entNo b t data none
              else match s.txBuffer x (entryBytes x.kind op b) with
                | (none, s) => s.setEnt q x.entNo .waiting
                | (some h, s) => s.goEntry q x.entNo b t data (some h)

/-! R301, R302: receive placement. -/

/-- R301: the posted buffers that hold a length, from the front: how many, and the pieces: address, length. -/
def takeBuffers : List Entry → Nat → Option (List (Nat × Nat × Nat))
  | [], _ => none
  | e :: t, n =>
    let m := min n (leAt e.slots 16 4)
    let p := (e.no, leAt e.slots 8 8, m)
    if n ≤ leAt e.slots 16 4 then some [p] else (takeBuffers t (n - m)).map (fun (r : List (Nat × Nat × Nat)) => p :: r)

/-- R289, R295: the transmit entry of a delivered frame ends, with the bytes that were placed. -/
def State.endSource (s : State) (d : Delivery) (status : Byte) : State :=
  match d.entry with
  | some r => s.finishEntry r status (fun e => { e with len := if status = 0 then d.data.length else 0 })
  | none => s

/-- R295, R301: entries take a placement: the last of them closes the run with its total and its fields. -/
def Queue.placed (x : Queue) (l : List (Nat × Nat × Nat)) (d : Delivery) (status : Byte) : Queue :=
  let last := (l.getLast?).map (fun (p : Nat × Nat × Nat) => p.1)
  let mark := fun (e : Entry) =>
    if !l.any (fun p => p.1 = e.no) then e
    else if some e.no = last then
      { e with st := .finished status, cb := true, len := if status = 0 then d.data.length else 0
               cstamp := d.stamp, detail := d.detail, flags := d.flags }
    else { e with st := .finished 0 }
  { x with ents := x.ents.map mark }

/-- The pieces of a placement leave. -/
def State.putPieces (s : State) (who : Option (BitVec 16)) : List (Nat × Nat × Nat) → List Byte → State
  | [], _ => s
  | (_, a, n) :: t, d => State.putPieces (s.unitPut 6 who a (d.take n)).2 who t (d.drop n)

/-- A delivery goes no further: its buffers return, and its transmit entry ends as DROPPED. -/
def State.loseItem (s : State) (d : Delivery) : State := (s.freeOwn d.bufs).endSource d 8

/-- R301: an item is placed: none when it cannot be now. -/
def State.placeItem (s : State) (d : Delivery) : Option State × State :=
  let x := s.queue d.queue
  match takeBuffers (x.ents.filter (fun e => e.st = .waiting)) d.data.length with
  | none => (none, s)
  | some l =>
    if !s.bmeOn then (none, s)
    else match s.badBuf d.bufs d.data.length with
    | some h => (some ((s.poisonDrop h).loseItem d), s)
    | none => match s.hostReady x.owner (l.map (fun (p : Nat × Nat × Nat) => (p.2.1, p.2.2))) with
      | (none, s) => (none, s)
      | (some false, s) =>
        (some (((s.modQueue d.queue (fun x => x.placed l d 6)).freeOwn d.bufs).endSource d 8), s)
      | (some true, s) =>
        let s := s.putPieces x.owner l d.data
        (some (((s.modQueue d.queue (fun x => x.placed l d 0)).freeOwn d.bufs).endSource d 0), s)

/-- R280, R302: a refused delivery is counted in its queue's RX_DROP and in QIM_RX_DROP. -/
def State.countRxDrop (s : State) (q : Nat) : State :=
  (s.modQueue q (fun x => { x with rxDrop := min 0xFFFFFFFF (x.rxDrop + 1) })).count cntRxDrop

/-- R92, R280: a delivery that its instance's or queue's state refuses: a plinth message is counted in SQL_UNDELIVERED
only. -/
def State.refuseState (s : State) (d : Delivery) : State :=
  match d.plinth with
  | some n => (s.loseItem d).count (streamReg n 0x4C)
  | none => (s.loseItem d).countRxDrop d.queue

/-- R18, R220, R302: a delivery that finds the backlog at its limit or quota; a frame for an exception queue is counted in
TRN_EXQ_FULL. -/
def State.refuseFull (s : State) (d : Delivery) : State :=
  if d.exq then (s.loseItem d).count cntExqFull else (s.loseItem d).countRxDrop d.queue

/-- R92: an item of a backlog goes with it: a plinth message is counted in SQL_UNDELIVERED. -/
def State.loseBacklogged (s : State) (d : Delivery) : State :=
  match d.plinth with
  | some n => (s.loseItem d).count (streamReg n 0x4C)
  | none => s.loseItem d

/-- R302: bytes of a backlogged item. -/
def Delivery.weight (d : Delivery) : Nat := d.data.length

/-- R302: backlog of a queue, and of an instance's queues together, bytes. -/
def State.backlog (s : State) (q : Nat) : Nat := (s.queue q).back.foldl (fun n d => n + d.weight) 0
def State.instBacklog (s : State) (i : Nat) : Nat :=
  s.qim.queue.foldl (fun n (e : Nat × Queue) =>
    if e.2.owner = some (BitVec.ofNat 16 i) then n + e.2.back.foldl (fun n d => n + d.weight) 0 else n) 0

/-- R281: OVER_QUOTA follows the occupancy and the quota. -/
def State.checkInst (s : State) (i : Nat) : State :=
  let n := s.instBacklog i
  s.modInst i (fun x => { x with overQ := overLatch x.overQ n (1024 * x.quota) })

/-- R281: OVER_QUOTA. -/
def State.overQuota (s : State) (i : Nat) : Bool := (s.inst i).overQ

/-- R302, R334: HBM buffers of requester 33 for an item, each of at most 64 KiB; none where the BPM refuses one, and those
that it gave return. -/
def State.backBuffers (s : State) (i : Nat) : Nat → Nat → Option (List Word) × State
  | 0, _ => (some [], s)
  | f + 1, n =>
    match s.allocLen 33 i true (min n 65536) none with
    | (.granted h, s) =>
      match State.backBuffers s i f (n - 65536) with
      | (some l, s) => (some (h :: l), s)
      | (none, s) => (none, s.freeOwn [h])
    | (_, s) => (none, s)

/-- R268, R302, R92: an item that cannot be placed at once joins the backlog, or is refused. -/
def State.toBacklog (s : State) (d : Delivery) : State :=
  let x := s.queue d.queue
  let w := d.weight
  let have_ := s.backlog d.queue
  let limit := if s.mem.reduced then min x.bklLim x.bklSram else x.bklLim
  let quota := match x.owner with
    | some i => s.overQuota i.toNat || decide (1024 * (s.inst i.toNat).quota < s.instBacklog i.toNat + w)
    | none => false
  let join := fun (s : State) (d : Delivery) => s.modQueue d.queue (fun x => { x with back := x.back ++ [d] })
  if d.plinth.isSome && !s.bmeOn then s.refuseState d
  else if decide (1024 * limit < have_ + w) || quota then s.refuseFull d
  else if decide (1024 * x.bklSram < have_ + w) then
    match s.backBuffers x.bufInst ((w + 65535) / 65536) w with
    | (some l, s) => join (s.freeOwn d.bufs) { d with bufs := l }
    | (none, s) => s.loseItem d
  else join s d

/-- R360, R366, R369: an item for a frame-in channel: refused when it is too long, and none when it finds no room, or
while the channel's cluster is in reset. -/
def State.toInbox (s : State) (k i : Nat) (d : Delivery) : Option State × State :=
  if (s.channel k i).maxMsg < d.data.length + 32 then
    let s := s.modQueue d.queue (fun x => { x with rxDrop := min 0xFFFFFFFF (x.rxDrop + 1) })
    (some (((s.count cntInboxLong).freeOwn d.bufs).endSource d 8), s)
  else if (s.cluster k).resetAt.isSome then (none, s)
  else match s.badBuf d.bufs d.data.length with
  | some h => (some ((s.poisonDrop h).loseItem d), s)
  | none => match s.inboxPut k i d with
    | (true, s) => (some ((s.freeOwn d.bufs).endSource d 0), s)
    | (false, s) => (none, s)

/-- R301, R360: an item is placed in its queue's buffers, or in the channel the queue is bound to. -/
def State.putItem (s : State) (d : Delivery) : Option State × State :=
  match (if (s.queue d.queue).owner.isNone then s.inboxOf d.queue else none) with
  | some (k, i) => s.toInbox k i d
  | none => s.placeItem d

/-- R301, R302: the next item for a receive queue is placed, backlogged or refused. -/
def State.opPlacement (s : State) : State :=
  match s.qim.deliv with
  | [] => s
  | d :: t =>
    let s := { s with qim := { s.qim with deliv := t } }
    let x := s.queue d.queue
    if (d.gen.map (fun (g : Byte) => decide (g ≠ s.queueGen d.queue))).getD false then
      ((s.freeOwn d.bufs).endSource d 8).staleGen x.owner
    else if x.kind ≠ 3 || x.st ≠ .enabled || !s.ownerRuns x then s.refuseState d
    else if x.back.isEmpty then
      match s.putItem d with
      | (some s, _) => s
      | (none, s) => s.toBacklog d
    else s.toBacklog d

/-- R302: the oldest item of a queue's backlog is placed. -/
def State.opBacklog (s : State) (q : Nat) : State :=
  let x := s.queue q
  match x.back with
  | [] => s
  | d :: t =>
    if x.st ≠ .enabled || !s.ownerRuns x then s
    else match s.putItem d with
      | (some s, _) =>
        let s := s.modQueue q (fun x => { x with back := t })
        match x.owner with
        | some i => s.checkInst i.toNat
        | none => s
      | (none, s) => s

/-! R303: a completion queue that stays full. -/

/-- R303: a completion queue has been full for QIM_CQ_STALL. -/
def State.opCqStall (s : State) (q : Nat) : State :=
  let x := s.queue q
  match x.fullAt with
  | some t =>
    if x.kind = 7 && s.due t (msec (s.regBits qimCqStall 15 0)) then
      match x.owner with
      | some i =>
        if (s.inst i.toNat).st = .active then
          (s.modInst i.toNat (fun y => { y with st := .error })).instEvent 1 i.toNat x.local_
        else s
      | none => s.qimEvent 0
    else s
  | none => s

/-! R31, R292, R293: doorbells. -/

/-- R281, R311: the global queue of a local queue of a page: none at or beyond the count. -/
def State.globalOf (s : State) (page : DbPage) (q : Nat) : Option Nat :=
  match page with
  | .inst i => if q < (s.inst i.toNat).qcount then some ((s.inst i.toNat).qbase + q) else none
  | .pf0 => if q < s.regBits (QIM + 0x048) 14 0 then some (s.regBits (QIM + 0x040) 19 0 + q) else none

/-- R293: a refused doorbell. -/
def State.badBell (s : State) (page : DbPage) : State :=
  let s := s.count cntDbBad
  match page with
  | .inst i => s.modInst i.toNat (fun x => { x with errDb := bump x.errDb })
  | .pf0 => s

/-- R55, R293: a work doorbell is accepted: it is stamped, and fetching goes on. -/
def State.workBell (s : State) (q : Nat) (idx : Word) : State :=
  let t := s.stampTag .doorbell s.lRx 16
  let s := s.countStamp t
  s.modQueue q (fun x => { x with tail := idx, stopped := false, bells := x.bells ++ [(idx, t, s.clock)] })

/-- R300, R303: a consumer doorbell is accepted: its slots return, the backlog goes first, and the interrupt is armed. -/
def State.consBell (s : State) (q : Nat) (idx : Word) (arm : Bool) : State :=
  let s := (s.modQueue q (fun x => { x with cons := idx })).flushCq q
  let x := s.queue q
  if !arm || x.imode ≠ 2 then s
  else if x.prod ≠ x.cons then (s.modQueue q (fun x => { x with armed := false })).cqVector q
  else s.modQueue q (fun x => { x with armed := true })

/-- R292, R293: a doorbell on a page that accepts it. -/
def State.ring (s : State) (page : DbPage) (v : BitVec 64) : State :=
  let idx : Word := v.extractLsb' 0 32
  match s.globalOf page (bits v.toNat 61 48) with
  | none => s.badBell page
  | some q =>
    let x := s.queue q
    if x.st = .none || ((x.kind = 7) != v.getLsbD 62) then s.badBell page
    else if v.getLsbD 62 then
      if (x.prod - x.cons).toNat < (idx - x.cons).toNat then s.badBell page
      else (s.consBell q idx (v.getLsbD 63)).stat statDoorbells
    else if (idx - x.tail).toInt < 0 ∨ x.size < (idx - x.head).toNat then s.badBell page
    else (s.workBell q idx).stat statDoorbells

/-- R31: the staging slot of a page. -/
def stagingOf : DbPage → Nat
  | .inst i => i.toNat
  | .pf0 => 65536

/-- R31, R262, R311: a write that breaks R31. -/
def State.badWrite (s : State) (page : DbPage) : State :=
  match page with
  | .inst i => s.errAccess i.toNat
  | .pf0 => s.count cntDbBad

/-- R262, R280, R311: what a page that accepts writes does with one. -/
def State.onPage (s : State) (page : DbPage) (f : State → State) : State :=
  match page with
  | .inst i => s.pageGate i.toNat f
  | .pf0 => s.onCmd (QIM + 0x078) false f

/-- R31: the low half of a doorbell is held; a second one discards the first and is an error. -/
def State.opStage (s : State) (page : DbPage) (v : Word) : State :=
  s.onPage page (fun s =>
    if (Map.get s.staging (stagingOf page)).isSome then
      { s with staging := Map.del s.staging (stagingOf page) }.badWrite page
    else { s with staging := Map.put s.staging (stagingOf page) v })

/-- R31, R292: a doorbell is written: whole, or its upper half after a staged lower half. -/
def State.opDoorbell (s : State) (page : DbPage) (v : DbValue) : State :=
  s.onPage page (fun s =>
    match v with
    | .whole v => s.ring page v
    | .upper h =>
      match Map.get s.staging (stagingOf page) with
      | some l => { s with staging := Map.del s.staging (stagingOf page) }.ring page (h ++ l)
      | none => s.badWrite page)

end Sys2Proof.Machine
end

