-- ==== Sys2Proof/Machine/QimAdmin.lean ====
section
/-! DEFINITION. The global admin queue (R307 to R310), instances (R281), their reset (R305), queues as the manager makes
them (R289, R290, R304), and ledger export (R101). -/

namespace Sys2Proof.Machine

/-! R307: the admin rings. -/

/-- R307: an admin completion is written, and vector 0 fires. -/
def State.acqWrite (s : State) (c : List Byte) : Bool × State :=
  let cfg := s.getReg qimAcqCfg
  let k := bits cfg.toNat 4 0
  let t := s.qim.acqTail
  if !cfg.getLsbD 31 || decide (2 ^ k < (t - s.getReg qimAcqHead).toNat + 2) || !s.bmeOn then (false, s)
  else
    let b := splice c 31 [BitVec.ofNat 8 (phaseOf t k)]
    let base := (s.getReg (QIM + 0x030) ++ s.getReg (QIM + 0x028)).toNat
    let s := s.putPf0 (base + 16 * (t.toNat % 2 ^ k)) b
    (true, (({ s with qim := { s.qim with acqTail := t + 2 } }).stat statCompletions).fireVector 0)

/-- R303, R307: admin completions that wait are written, in order; the fuel covers them. -/
def State.acqFlushN : Nat → State → State
  | 0, s => s
  | f + 1, s =>
    match s.qim.acqBack with
    | [] => s
    | c :: t =>
      match s.acqWrite c with
      | (true, s) => State.acqFlushN f { s with qim := { s.qim with acqBack := t } }
      | (false, s) => s

/-- Admin completions that wait are written while there is room. -/
def State.acqFlush (s : State) : State := State.acqFlushN 65 s

/-- R307: an admin command ends with a status and its DETAIL. -/
def State.adminDone (s : State) (utag : Word) (status detail : Nat) : State :=
  let t := s.stampTag .writer 0 0
  let s := s.countStamp t
  let c := completion t.raw 1 utag 0 0 (BitVec.ofNat 8 status) 0 (BitVec.ofNat 32 detail) 0 0
  ({ s with qim := { s.qim with acqBack := s.qim.acqBack ++ [c], aqBusy := false } }).acqFlush

/-- R285: a ring register pair. -/
def State.aqBase (s : State) : Nat := (s.getReg (QIM + 0x018) ++ s.getReg (QIM + 0x010)).toNat

/-- R307: the admin queue may take its next entry. -/
def State.aqReady (s : State) : Bool :=
  (s.getReg qimAqCfg).getLsbD 31 && s.bmeOn && s.powered 3 && !s.qim.aqBusy && decide (s.qim.acqBack.length < 64) &&
    decide (4 ≤ (s.getReg qimAqTail - s.qim.aqHead).toNat)

/-- R308: fields of an admin entry. -/
def entTag (e : List Byte) : Word := BitVec.ofNat 32 (leAt e 4 4)
def entInst (e : List Byte) : Nat := leAt e 8 2
def entLocal (e : List Byte) : Nat := leAt e 10 2
def entPf0 (e : List Byte) : Bool := bit (leAt e 2 2) 15
def entClr (e : List Byte) : Bool := bit (leAt e 2 2) 0

/-- R307: the admin entry at the head is taken: its status and DETAIL, unless the command waits, and then none. An
entry whose phase is not the expected one is not taken. -/
def State.admin (s : State) (e : List Byte) (f : State → Option (Nat × Nat) × State) : State :=
  let h := s.qim.aqHead
  if !s.aqReady || decide ((e.getD 0 0).toNat / 128 ≠ phaseOf h (s.regBits qimAqCfg 4 0)) then s
  else match s.unitRead none (s.aqBase + 16 * (h.toNat % 2 ^ s.regBits qimAqCfg 4 0)) 64 (.ok e) with
    | (some (some _), s) =>
      let s := { s with qim := { s.qim with aqHead := h + 4, aqBusy := true } }.stat statEntries
      if (e.getD 0 0).toNat % 16 ≠ 4 then s.adminDone (entTag e) 0x0B 0
      else match f s with
        | (some (st, d), s) => s.adminDone (entTag e) st d
        | (none, s) => s
    | (_, s) => s

/-- R307: index errors of QIM_AQ_TAIL. -/
def State.opAqTail (s : State) (v : Word) : State :=
  let size := 2 ^ s.regBits qimAqCfg 4 0
  if (v - s.getReg qimAqTail).toInt < 0 ∨ size < (v - s.qim.aqHead).toNat then s.qimEvent 0
  else s.setReg qimAqTail v

/-- R307: QIM_ACQ_HEAD: index errors as R293 has them; slots return, and completions that wait are written. -/
def State.opAcqHead (s : State) (v : Word) : State :=
  let h := s.getReg qimAcqHead
  if (s.qim.acqTail - h).toNat < (v - h).toNat then s.qimEvent 0 else (s.setReg qimAcqHead v).acqFlush

/-! R281, R308: instances. -/

/-- R308, R309: NOP; an undefined OPCODE is BADOP. -/
def adminOpcodes : List Nat :=
  [0x00, 0x10, 0x11, 0x12, 0x13, 0x14, 0x20, 0x21, 0x22, 0x23, 0x24, 0x30, 0x31, 0x32, 0x33, 0x40]

/-- Admin command 00h. -/
def State.opNop (s : State) (e : List Byte) : State :=
  s.admin e (fun s => (some (if adminOpcodes.contains (leAt e 1 1) then 0 else 0x80, 0), s))

/-- R308: the fields that INST_CREATE and INST_MODIFY give. -/
def instOf (e : List Byte) (x : Inst) : Inst :=
  let p := leAt e 36 4
  { x with
    qbase := leAt e 12 4, qcount := leAt e 24 2, vbase := leAt e 28 4, vcount := leAt e 32 2
    pasid := BitVec.ofNat 20 p, pasidV := bit p 31, ats := bit p 30, quota := leAt e 40 4 }

/-- R281: a field is out of its range. -/
def Inst.badArg (x : Inst) : Bool :=
  decide (2 ^ 20 ≤ x.qbase) || x.qcount = 0 || decide (16384 < x.qcount) || decide (2 ^ 18 ≤ x.vbase) || x.vcount = 0 ||
    decide (1024 < x.vcount) || decide (2 ^ 18 < x.vbase + x.vcount) || decide (16777215 < x.quota)

/-- Ranges of numbers share one; an empty range shares none. -/
def overlaps (a n b m : Nat) : Bool := decide (0 < n ∧ 0 < m ∧ a < b + m ∧ b < a + n)

/-- R281: the ranges of an instance overlap another's, or PF0's. -/
def State.instOverlaps (s : State) (i : Nat) (x : Inst) : Bool :=
  overlaps x.qbase x.qcount (s.regBits (QIM + 0x040) 19 0) (s.regBits (QIM + 0x048) 14 0) ||
    s.qim.inst.any (fun (o : Nat × Inst) => decide (o.1 ≠ i) && o.2.st ≠ .free &&
      (overlaps x.qbase x.qcount o.2.qbase o.2.qcount || overlaps x.vbase x.vcount o.2.vbase o.2.vcount))

/-- R281, R308, R309: INST_CREATE. -/
def State.opInstCreate (s : State) (e : List Byte) : State :=
  s.admin e (fun s =>
    let i := entInst e
    let old := s.inst i
    let x := instOf e { st := .active, gen := old.gen, made := slice e 8 36 }
    if old.st ≠ .free then (some (0x84, i), s)
    else if x.badArg then (some (0x81, i), s)
    else if min s.instCap (s.regBits (QIM + 0x050) 16 0) ≤ i ∨ s.queueCap < x.qbase + x.qcount then (some (0x86, i), s)
    else if s.instOverlaps i x then (some (0x85, i), s)
    else (some (0, i), s.modInst i (fun _ => x)))

/-- R281: every queue of an instance is DISABLED or not created. -/
def State.allDisabled (s : State) (i : Nat) : Bool :=
  s.qim.queue.all (fun (e : Nat × Queue) => decide (e.2.owner ≠ some (BitVec.ofNat 16 i)) || e.2.st = .disabled || e.2.st = .none)

/-- R281: the queues of an instance keep their local numbers when QBASE moves. -/
def State.moveQueues (s : State) (i old new : Nat) : State :=
  let mine := s.qim.queue.filter (fun (e : Nat × Queue) => e.2.owner = some (BitVec.ofNat 16 i))
  let rest := s.qim.queue.filter (fun (e : Nat × Queue) => e.2.owner ≠ some (BitVec.ofNat 16 i))
  let put := fun (m : Map Queue) (e : Nat × Queue) =>
    Map.put m (new + e.2.local_) { e.2 with cq := if e.2.kind = 7 then e.2.cq else new + (e.2.cq - old) }
  { s with qim := { s.qim with queue := mine.foldl put rest } }

/-- R281, R308: INST_MODIFY. -/
def State.opInstModify (s : State) (e : List Byte) : State :=
  s.admin e (fun s =>
    let i := entInst e
    let old := s.inst i
    let x := instOf e old
    let other := x.qbase ≠ old.qbase || x.qcount ≠ old.qcount || x.vbase ≠ old.vbase || x.vcount ≠ old.vcount ||
      x.pasid ≠ old.pasid || x.pasidV ≠ old.pasidV
    let lost := s.qim.queue.any (fun (q : Nat × Queue) =>
      decide (q.2.owner = some (BitVec.ofNat 16 i)) && decide (x.qcount ≤ q.2.local_))
    if old.st = .free then (some (0x83, i), s)
    else if x.badArg || lost then (some (0x81, i), s)
    else if s.queueCap < x.qbase + x.qcount then (some (0x86, i), s)
    else if other && !s.allDisabled i then (some (0x82, i), s)
    else if s.instOverlaps i x then (some (0x85, i), s)
    else (some (0, i), ((s.modInst i (fun _ => x)).moveQueues i old.qbase x.qbase).checkInst i))

/-! R305: instance reset. -/

/-- R305, R311: step 2 for a work queue, and for a completion queue's backlog. -/
def State.resetQueue (s : State) (q : Nat) : State :=
  let x := s.queue q
  if x.kind = 7 then s.modQueue q (fun x => { x with cqBack := [], fullAt := none })
  else if x.kind = 0 || x.st = .none then s
  else
    let s := x.back.foldl State.loseBacklogged s
    let s := s.modQueue x.cq (fun c => { c with places := c.places - x.ents.length })
    s.modQueue q (fun x => { x with
      st := .disabled, head := x.pub, tail := x.pub, fetched := [], stopped := false, ents := [], bells := []
      back := [], disabling := none })

/-- R305, R334: a buffer granted to an entry of an old generation returns, and the entry is counted as discarded. -/
def State.dropGrants (s : State) : State :=
  let wanted := fun (i : Nat) => s.qim.queue.any (fun (e : Nat × Queue) =>
    e.2.bufInst = i && e.2.ents.any (fun y => y.waits e.2.kind))
  let gone := s.mem.granted.filter (fun g => g.1 = 34 && !wanted g.2.1)
  gone.foldl (fun s g =>
    let s := { s with mem := { s.mem with granted := s.mem.granted.erase g } }
    (s.opFree 34 g.2.2).staleGen (if g.2.1 < 65536 then some (BitVec.ofNat 16 g.2.1) else none)) s

/-- R305: steps 1 and 2. -/
def State.resetInst (s : State) (i : Nat) (toFree : Bool) (waiter : Option (Word × Word)) : State :=
  let s := s.modInst i (fun x => { x with
    st := .resetting, gen := x.gen + 1, resetAt := some (s.clock, toFree), waiter := waiter
    status := 0xFE, busy := false })
  let s := s.abortFor (BitVec.ofNat 16 i)
  let x := s.inst i
  let mine := s.qim.queue.filter (fun (e : Nat × Queue) => e.2.owner = some (BitVec.ofNat 16 i))
  let s := mine.foldl (fun (s : State) (e : Nat × Queue) => s.resetQueue e.1) s
  let s := s.resetSessions i
  let s := s.dropGrants.checkInst i
  let clear := fun (s : State) (v : Nat) =>
    let t : BitVec 128 := 1 <<< 125
    s.setIv (x.vbase + v) (s.iv (x.vbase + v) &&& ~~~t)
  (List.range x.vcount).foldl clear s

/-- R305: step 4. -/
def State.endReset (s : State) (i : Nat) : State :=
  let x := s.inst i
  match x.resetAt with
  | some (_, true) =>
    let s := s.modInst i (fun x => { gen := x.gen })
    match x.waiter with
    | some (tag, _) => s.adminDone tag 0 i
    | none => s
  | some (_, false) =>
    let s := s.modInst i (fun x => { x with st := .active, resetAt := none, waiter := none })
    match x.waiter with
    | some (tag, _) => ((s.fireInst i 0).instEvent 3 i 0).adminDone tag 0 i
    | none => s
  | none => s

/-- R305: the reset of an instance has reached every unit. -/
def State.opResetDone (s : State) (i : Nat) : State :=
  match (s.inst i).resetAt with
  | some (t, _) => if s.due t (usec 2) then s.endReset i else s
  | none => s

/-- R305, R308: INST_RESET. -/
def State.opInstReset (s : State) (e : List Byte) : State :=
  s.admin e (fun s =>
    let i := entInst e
    match (s.inst i).st with
    | .free => (some (0x83, i), s)
    | .resetting => (some (0x82, i), s)
    | _ => (none, s.resetInst i false (some (entTag e, 0))))

/-- R281, R305, R308: INST_DESTROY. -/
def State.opInstDestroy (s : State) (e : List Byte) : State :=
  s.admin e (fun s =>
    let i := entInst e
    let has := s.qim.queue.any (fun (q : Nat × Queue) => decide (q.2.owner = some (BitVec.ofNat 16 i)) && q.2.st ≠ .none)
    match (s.inst i).st with
    | .free => (some (0x83, i), s)
    | .resetting => (some (0x82, i), s)
    | _ => if has || decide (0 < s.sessUsed i) then (some (0x82, i), s) else (none, s.resetInst i true (some (entTag e, 0))))

/-- R308: a query writes 64 bytes to BUF: its status. -/
def State.answer (s : State) (e b : List Byte) : Nat × State :=
  match s.unitPut 6 none (leAt e 16 8) b with
  | (some true, s) => (0, s)
  | (_, s) => (6, s)

/-- KiB of a number of bytes, begun KiB counted. -/
def kib (n : Nat) : Nat := (n + 1023) / 1024

/-- R308: INST_QUERY. -/
def State.opInstQuery (s : State) (e : List Byte) : State :=
  s.admin e (fun s =>
    let i := entInst e
    let x := s.inst i
    if x.st = .free then (some (0x83, i), s)
    else
      let b := List.replicate 8 0 ++ slicePad x.made 0 36 ++ [BitVec.ofNat 8 x.st.code, x.gen, if s.overQuota i then 1 else 0, 0] ++
        leBytes 4 x.err ++ leBytes 4 (kib (s.instBacklog i))
      let (st, s) := s.answer e (slicePad b 0 64)
      (some (st, i), if entClr e && st = 0 then s.modInst i (fun x => { x with
        errAcc := 0, errDb := 0, errStale := 0, errReq := 0 }) else s))

/-! R289, R290, R304, R308: queues. -/

/-- R308, R311: the owner of an admin queue command, its queue base and count; none for an instance that is FREE. -/
def State.ownerOf (s : State) (e : List Byte) : Option (Option (BitVec 16) × Nat × Nat) :=
  if entPf0 e then some (none, s.regBits (QIM + 0x040) 19 0, s.regBits (QIM + 0x048) 14 0)
  else
    let x := s.inst (entInst e)
    if x.st = .free then none else some (some (BitVec.ofNat 16 (entInst e)), x.qbase, x.qcount)

/-- R308: the queue that Q_CREATE describes. -/
def queueOfEntry (e : List Byte) (owner : Option (BitVec 16)) (base : Nat) : Queue :=
  let b := leAt e 34 1
  let v := leAt e 40 2
  { kind := leAt e 12 1, st := .disabled, owner := owner, local_ := entLocal e, log2 := leAt e 13 1
    ring := BitVec.ofNat 64 (leAt e 16 8), shadow := BitVec.ofNat 64 (leAt e 24 8), cq := base + leAt e 32 2
    prio := bits b 6 4, pipe := bits b 1 0
    stream := if bit (leAt e 35 1) 6 then some (BitVec.ofNat 6 (leAt e 35 1)) else none
    ep := leAt e 36 4 % 2 ^ 20
    asInst := match owner with | some i => i | none => BitVec.ofNat 16 (leAt e 36 2)
    vec := if bit v 15 then some (v % 2 ^ 11) else none
    imode := leAt e 42 1, bklLim := leAt e 44 4, bklSram := leAt e 48 4 }

/-- R285, R308: what Q_CREATE rejects as BADARG. -/
def State.badQueue (s : State) (x : Queue) (count cq : Nat) : Bool :=
  let align := min 4096 (16 * 2 ^ x.log2)
  let vectorBad := match x.vec, x.owner with
    | some v, some i => decide ((s.inst i.toNat).vcount ≤ v)
    | some v, none => x.kind = 7 && decide (v < 16)
    | none, _ => false
  decide (x.kind < 1 ∨ 7 < x.kind) || decide (count ≤ x.local_) || decide (x.log2 < 4 ∨ 20 < x.log2) ||
    x.ring.toNat % align ≠ 0 || (x.kind ≠ 7 && x.shadow.toNat % 8 ≠ 0) || (x.kind = 6 && x.owner.isSome) ||
    ((x.kind = 2) != x.stream.isSome) || vectorBad || decide (2 < x.imode) ||
    (x.kind ≠ 7 && (decide (count ≤ cq) || ((s.queue x.cq).st ≠ .none && (s.queue x.cq).kind ≠ 7)))

/-! R23: what the device offers. -/

/-- R23: any service: the field-side controller, the always-on domain, the main fabric and BPM, the host endpoint, the
admin queue's QIM, the DMA engine and SRAM bank 0. -/
def State.offersAny (s : State) : Bool := s.field.up && s.gloveH.peerUp && [0, 1, 2, 3, 5, 9, 90, 95].all (fun d => s.powered d)

/-- R20, R23: network service by pipeline p: one MAC bound to it with its lanes, both its pipelines, FWT and TMG. -/
def State.offersNet (s : State) (p : Nat) : Bool :=
  s.offersAny && [49 + p, 53 + p, 91, 69, 70].all (fun d => s.powered d) &&
    (List.range 16).any (fun m => s.macThere m && s.macPipe m = p && s.powered (33 + m) &&
      (s.lanesOf m).all (fun n => s.powered (17 + n)))

/-- R23: stamping: one time core. -/
def State.offersStamp (s : State) : Bool := (List.range 4).any (fun p => s.offersNet p) && (s.powered 79 || s.powered 80)

/-- R23: sequencing and the ledger: SQL, one hash engine, and the fabric segment to them. -/
def State.offersLedger (s : State) : Bool := s.offersStamp && s.sqlOn && !s.engines.isEmpty && s.powered 93

/-- R23, R310: the function that a queue kind needs is offered. -/
def State.offered (s : State) (x : Queue) : Bool :=
  match x.kind with
  | 1 => s.offersNet x.pipe
  | 2 => s.offersLedger
  | 5 => s.offersAny && s.powered 92 && !s.lanes.isEmpty
  | 6 => s.offersAny && s.sqlOn
  | _ => s.offersAny

/-- R310: a function that is not offered is refused, and the operator hears of it. -/
def State.unavailable (s : State) : State := s.mainEvent 1 2 (s.repTime 1) []

/-- R7, R25, R308: Q_CREATE. -/
def State.opQCreate (s : State) (e : List Byte) : State :=
  s.admin e (fun s =>
    match s.ownerOf e with
    | none => (some (0x83, 0), s)
    | some (owner, base, count) =>
      let x := queueOfEntry e owner base
      let g := base + x.local_
      if s.badQueue x count (leAt e 32 2) || (x.kind = 1 && decide (2 ^ 20 ≤ leAt e 36 4)) then (some (0x81, g), s)
      else if s.queueCap ≤ g then (some (0x86, g), s)
      else if (s.queue g).st ≠ .none then (some (0x84, g), s)
      else if x.kind ≠ 7 && (s.queue x.cq).st = .none then (some (0x83, g), s)
      else if !s.ownerRuns x then (some (0x82, g), s)
      else if !s.offered x then (some (0x87, g), s.unavailable)
      else (some (0, g), s.modQueue g (fun _ => x)))

/-- R308: the queue an admin command names: none with the status that refuses it. -/
def State.named (s : State) (e : List Byte) (f : Nat → State → Option (Nat × Nat) × State) : State :=
  s.admin e (fun s =>
    match s.ownerOf e with
    | none => (some (0x83, 0), s)
    | some (_, base, count) =>
      let g := base + entLocal e
      if count ≤ entLocal e then (some (0x81, g), s)
      else if (s.queue g).st = .none then (some (0x83, g), s)
      else f g s)

/-- R290, R304: Q_ENABLE. -/
def State.opQEnable (s : State) (e : List Byte) : State :=
  s.named e (fun g s =>
    if (s.queue g).st = .disabled then (some (0, g), s.modQueue g (fun x => { x with st := .enabled, stopped := false }))
    else (some (0x82, g), s))

/-- R290, R304: a queue whose Q_DISABLE waits: what is due is covered, then what is left, then the shadow word is written.
Where that write fails the queue enters ERROR; DESIGN CHOICE (log 92): the admin completion then carries ADDRESS. -/
def State.tryDisable (s : State) (q : Nat) : State :=
  match (s.queue q).disabling with
  | none => s
  | some (tag, _) =>
    let s := (s.queue q).ents.foldl (fun s _ => s.coverDue q) s
    let x := s.queue q
    if x.ents.any (fun e => e.ended.isNone) then s
    else
      let s := s.cover q x.ents.length 0x0A
      match s.putShadow q x.head with
      | (none, s) => s
      | (some true, s) =>
        let s := s.modQueue q (fun x => { (x.publish x.head) with st := .disabled, disabling := none })
        s.adminDone tag 0 q
      | (some false, s) => ((s.modQueue q (fun x => { x with disabling := none })).queueError q).adminDone tag 6 q

/-- R304: Q_DISABLE. An entry that waits for the device to give it content, a POST or a BUFFER, ends without effect. -/
def State.opQDisable (s : State) (e : List Byte) : State :=
  s.named e (fun g s =>
    let s := s.settleSends
    let x := s.queue g
    let busy := x.kind = 4 && (match s.sessionOf g with | some n => decide ((s.sess n).st = 1) | none => false)
    if x.st = .disabled || busy then (some (0x82, g), s)
    else if x.kind = 7 then (some (0, g), s.modQueue g (fun x => { x with st := .disabled }))
    else
      let stop := fun (e : Entry) => if (x.kind = 3 || x.kind = 6) && e.st = .waiting then { e with st := .finished 0, len := 0 } else e
      let s := s.modQueue g (fun x => { x with fetched := [], ents := x.ents.map stop, disabling := some (entTag e, 0)
                                               st := .disabled })
      (none, s.tryDisable g))

/-- R281, R290, R308: Q_DESTROY. -/
def State.opQDestroy (s : State) (e : List Byte) : State :=
  s.named e (fun g s =>
    let x := s.queue g
    if x.st ≠ .disabled || (x.kind = 7 && !(s.boundTo g).isEmpty) then (some (0x82, g), s)
    else
      let s := (x.back.foldl State.loseBacklogged s).modQueue g (fun _ => {})
      (some (0, g), match x.owner with
        | some i => s.checkInst i.toNat
        | none => s))

/-- R308: Q_QUERY. -/
def State.opQQuery (s : State) (e : List Byte) : State :=
  s.admin e (fun s =>
    match s.ownerOf e with
    | none => (some (0x83, 0), s)
    | some (_, base, count) =>
      let g := base + entLocal e
      if count ≤ entLocal e then (some (0x81, g), s)
      else
        let x := s.queue g
        let c := if x.kind = 7 || x.st = .none then x else s.queue x.cq
        let fl : Nat := (if c.cqBack.isEmpty then 0 else 1) + (if c.armed then 2 else 0)
        let b := leBytes 1 x.kind ++ leBytes 1 x.st.code ++ leBytes 2 fl ++ leBytes 4 x.head.toNat ++ leBytes 4 x.tail.toNat ++
          leBytes 4 x.pub.toNat ++ leBytes 4 c.prod.toNat ++ leBytes 4 c.cons.toNat ++ leBytes 4 (kib (s.backlog g)) ++
          leBytes 4 x.rxDrop
        let (st, s) := s.answer e (slicePad b 0 64)
        (some (st, g), if entClr e && st = 0 && x.st ≠ .none then s.modQueue g (fun x => { x with rxDrop := 0 }) else s))

/-! R216, R308: sessions by the admin queue. -/

/-- R23, R310: the transport engine, and the fabric segment to it, have power. -/
def State.trnPowered (s : State) : Bool := s.powered 67 && s.powered 68 && s.powered 92

/-- R308, R310: a session command of an instance, for which the device must offer a function. -/
def State.sessAdmin (s : State) (e : List Byte) (offered : State → Bool) (f : State → Nat × Nat × State) : State :=
  s.admin e (fun s =>
    let n := leAt e 12 4
    if (s.inst (entInst e)).st = .free then (some (0x83, n), s)
    else if !offered s then (some (0x87, n), s.unavailable)
    else
      let (st, d, s) := f s
      (some (st, d), s))

/-- R308: a session of another instance is refused. -/
def State.otherSess (s : State) (e : List Byte) : Bool :=
  let x := s.sess (leAt e 12 4)
  x.st ≠ 0 && x.owner ≠ entInst e

/-- R308: SESS_CREATE, with the context and key as read from BUF. -/
def State.opSessCreate (s : State) (e : List Byte) (buf : ReadData) : State :=
  s.sessAdmin e (fun s => s.offersAny && s.trnPowered) (fun s =>
    match s.unitRead none (leAt e 16 8) 296 buf with
    | (some (some b), s) =>
      let c : BitVec 2048 := BitVec.ofNat 2048 (leNat (slicePad b 0 256))
      let x : Sess := { ctx := c }
      if x.owner ≠ entInst e then (0x81, 0, s)
      else
        let (st, n, s) := s.sessCreate c (BitVec.ofNat 320 (beNat (slicePad b 256 40)))
        (0xC0 + st, n, s)
    | (_, s) => (6, 0, s))

/-- R308: SESS_READ. -/
def State.opSessRead (s : State) (e : List Byte) : State :=
  s.sessAdmin e State.trnPowered (fun s =>
    let n := leAt e 12 4
    if s.otherSess e then (0x81, n, s)
    else
      let (st, c, s) := s.sessRead n (entClr e)
      if st ≠ 0 then (0xC0 + st, n, s)
      else
        match s.unitPut 6 none (leAt e 16 8) (leBytes 256 c.toNat) with
        | (some true, s) => (0xC0, n, s)
        | (_, s) => (6, n, s))

/-- R308: SESS_MODIFY. -/
def State.opSessModify (s : State) (e : List Byte) (buf : ReadData) : State :=
  s.sessAdmin e State.trnPowered (fun s =>
    let n := leAt e 12 4
    match s.unitRead none (leAt e 16 8) 296 buf with
    | (some (some b), s) =>
      let c : BitVec 2048 := BitVec.ofNat 2048 (leNat (slicePad b 0 256))
      let x : Sess := { ctx := c }
      if s.otherSess e || x.owner ≠ entInst e then (0x81, n, s)
      else
        let (st, s) := s.sessModify n c
        (0xC0 + st, n, s)
    | (_, s) => (6, n, s))

/-- R308: SESS_DESTROY. -/
def State.opSessDestroy (s : State) (e : List Byte) : State :=
  s.sessAdmin e State.trnPowered (fun s =>
    let n := leAt e 12 4
    if s.otherSess e then (0x81, n, s)
    else
      let (st, s) := s.sessDestroy n
      (0xC0 + st, n, s))

/-- R284, R305, R308: MED_RESPOND; one of an old generation is counted as stale. -/
def State.opMedRespond (s : State) (e : List Byte) : State :=
  s.admin e (fun s =>
    let i := entInst e
    let x := s.inst i
    if x.st = .free then (some (0x83, i), s)
    else if x.gen.toNat ≠ leAt e 13 1 then (some (0x82, i), s.staleGen (some (BitVec.ofNat 16 i)))
    else if !x.busy then (some (0x82, i), s)
    else
      let r := (slicePad e 16 32).zipIdx.foldl (fun (m : Map Byte) (b : Byte × Nat) => Map.set m b.2 b.1 0) []
      let s := (s.medEnd i (e.getD 12 0)).modInst i (fun x => { x with response := r })
      (some (0, i), s.fireInst i 0))

/-! Completions by their command, and ledger export. -/

/-- R298, R303, R304: a completion queue's backlog is written, or a work queue's due completion, and a Q_DISABLE that
waits may end. -/
def State.opCompletion (s : State) (q : Nat) : State :=
  if (s.queue q).kind = 7 then s.flushCq q else (s.settleSends.coverDue q).tryDisable q

/-- R101: bytes of a unit. -/
def ExpUnit.bytes : ExpUnit → List Byte
  | .block _ h r => h ++ r.flatten
  | .seal d => d

/-- R101: the least buffer for a unit. -/
def ExpUnit.needs (recLimit : Nat) : ExpUnit → Nat
  | .block _ h r => max (128 + 64 * recLimit) (h.length + 64 * r.length)
  | .seal d => max 3940 d.length

/-- R297: the unit kind of an export completion. -/
def ExpUnit.kind : ExpUnit → Nat
  | .block .. => 1
  | .seal _ => 2

/-- R327, R329: a unit's records or header hold a word that cannot be read. Where a unit lies in the ledger area the spec
leaves open: a poisoned word of the area hits it or not by a free value (log 144). -/
def State.unitBad (s : State) (u : ExpUnit) : Bool :=
  match u with
  | .seal _ => false
  | .block .. =>
    let (lo, hi) := if s.mem.reduced then (0x001003800000, 0x001004000000) else (s.ledgerBase, 2 ^ 34)
    (s.mem.hbmFail && !s.mem.reduced) || (s.mem.poison.any (fun w => decide (lo ≤ w ∧ w < hi)) && s.freeNext % 2 = 1)

/-- R329: with HBM failed the read counts as uncorrectable. -/
def State.noteUnit (s : State) (u : ExpUnit) : State :=
  match u with
  | .seal _ => s
  | .block .. => if s.mem.hbmFail && !s.mem.reduced then (s.count cntEccUe).memEvent 1 else s

/-- R101: units written to export buffers whose completions have not been written. -/
def State.unitsOut (s : State) : Nat :=
  s.qim.queue.foldl (fun n (e : Nat × Queue) => n + (e.2.cqBack.filter isUnit).length +
    (if e.2.kind = 6 then (e.2.ents.filter (fun y => y.ended.isSome && decide (0 < y.len))).length else 0)) 0

/-- R101: the oldest unit that has not been written goes to the next buffer of the export queue. R327: one that could
not be read is exported as read, with ADDRESS. -/
def State.opExport (s : State) : State :=
  let q := s.regBits sqlExpq 19 0
  let x := s.queue q
  match x.ents.find? (fun e => e.st = .waiting), s.sql.units[s.unitsOut]? with
  | some e, some u =>
    if !(s.getReg sqlExpq).getLsbD 31 || x.kind ≠ 6 || !s.bmeOn || !s.sqlOn then s
    else
      let d := u.bytes
      let fin := fun (s : State) (st : Byte) (len : Nat) => s.modQueue q (fun x => { x with ents := x.ents.map (fun y =>
        if y.no = e.no then { y with st := .finished st, cb := true, len := len
                                     detail := BitVec.ofNat 32 (u.kind * 2 ^ 24) } else y) })
      if leAt e.slots 16 4 < u.needs s.sql.recLimit then fin s 7 0
      else match s.unitPut 1 none (leAt e.slots 8 8) d with
        | (some true, s) => if s.unitBad u then fin (s.noteUnit u).drawn 6 d.length else fin s 0 d.length
        | (some false, s) => fin s 6 0
        | (none, s) => s
  | _, _ => s

end Sys2Proof.Machine
end

