-- ==== Sys2Proof/Machine/Hep.lean ====
section
/-! DEFINITION. The host endpoint (chapter 11): peer windows (R263, R264), completions and timeouts (R267), Bus Master
Enable (R268), function-level reset and the link (R257, R258, R269), MSI-X (R273), ATS (R276, R277), configuration
writes (R261), and the read-only words of the HEP and the QIM (R279, R312). -/

namespace Sys2Proof.Machine

/-- HEP_WIN_CMD. -/
abbrev hepWinCmd : Nat := HEP + 0x020

/-- R29, R261, R269: the function answers BAR accesses. -/
def State.barOpen (s : State) : Bool := s.hep.mse && !s.hep.d3 && s.hep.flrAt.isNone && s.hep.up && !s.hep.crs

/-- R261, R270: an access that the function refuses: a read is answered, a write is dropped, and both are logged. -/
def State.barRefuse (s : State) (bar off : Nat) : State := (s.reply (.unsupported bar off)).aerLog .unsupported
def State.refuseTlp (s : State) (bar off : Nat) (write : Bool) : State :=
  if write then s.aerLog .refusedWrite else s.barRefuse bar off

/-- R279, R338: a memory request has been received, with the bytes that it writes. -/
def State.rxTlp (s : State) (write : Bool) (n : Nat) : State := if write then s.rxPosted n else s.rxRequest

/-- R270: what a bad ECRC makes of a TLP, where the endpoint checks it, and poison of a write. -/
def State.ecrcDrops (s : State) (t : TlpState) : Bool := t = .badEcrc && s.ecrcOn

/-- R257, R270: what reaches the endpoint in place of a request that it supports. -/
def State.oddTlp (s : State) (k : OddTlp) (bar off : Nat) : State :=
  match k with
  | .ioRequest | .atomicOp | .lockedRead => s.rxRequest.barRefuse bar off
  | .message => (s.rxPosted 0).aerLog .refusedWrite
  | .malformed => s.aerLog .malformed
  | .receiverOverflow => s.aerLog .overflow
  | .flowControl => s.aerLog .flowControl
  | .dataLink => s.aerLog .dataLink
  | .internal => s.aerLog .internal
  | .receiverError => s.aerLog .receiver
  | .badTlp => s.aerLog .badTlp
  | .badDllp => s.aerLog .badDllp
  | .replayTimeout => s.aerLog .replayTimeout
  | .replayRollover => s.aerLog .replayRollover

/-! R263, R264: peer windows. -/

/-- R264: the staged entry of a window. -/
def State.stagedWin (s : State) (w : Nat) : Word × BitVec 48 :=
  (s.getReg (HEP + 0x10000 + 0x20 * w),
   BitVec.ofNat 48 (s.regNat (HEP + 0x10010 + 0x20 * w) * 2 ^ 32 + s.regNat (HEP + 0x10008 + 0x20 * w)))

/-- R264: an enabled entry that a commit refuses. -/
def badWin (e : Word × BitVec 48) : Bool :=
  let k := bits e.1.toNat 20 16
  e.1.getLsbD 31 && (decide (k < 12 ∨ 28 < k) || e.2.toNat % 2 ^ k ≠ 0)

/-- R264: BUSY of HEP_WIN_CMD. -/
def State.winBusy (s : State) : Bool := decide (s.clock < s.hep.winTill)

/-- R264: a whole write of HEP_WIN_CMD: the staged entries are in force from the commit point on, and BUSY reads 1 for a
free time of at most 1 µs (DESIGN CHOICE, log 164). -/
def State.opWinCommit (s : State) (v : Word) : State :=
  s.onCmd hepWinCmd s.winBusy (fun s =>
    if !v.getLsbD 0 then s
    else
      let l := (List.range 256).map (fun w => (w, s.stagedWin w))
      if l.any (fun e => badWin e.2) then { s with hep := { s.hep with winStat := 3 } }
      else
        let m := l.foldl (fun (m : Map (Word × BitVec 48)) (e : Nat × (Word × BitVec 48)) => Map.set m e.1 e.2 (0, 0)) []
        { s.drawn with hep := { s.hep with winStat := 0, win := m, winTill := s.clock + s.freeNext % (usec 1 + 1) } })

/-- R263: a request hits a closed window. -/
def closedWin (e : Word × BitVec 48) (rid : BitVec 16) (o n : Nat) (write : Bool) : Bool :=
  let c := e.1
  !c.getLsbD 31 || decide (2 ^ bits c.toNat 20 16 < o + n) || (!write && !c.getLsbD 30) || (write && !c.getLsbD 29) ||
    (c.getLsbD 28 && decide (bits c.toNat 15 0 ≠ rid.toNat))

/-- R263, R270: a memory request to BAR4 that the function takes; how its target answers, or how its TLP stands. -/
def State.peerAccess (s : State) (rid : BitVec 16) (off n : Nat) (data : Option (List Byte)) (answer : TargetAnswer) : State :=
  let write := data.isSome
  let e := Map.at_ s.hep.win (off / 2 ^ 28) (0, 0)
  let o := off % 2 ^ 28
  let a := e.2.toNat + o
  let abort := fun (s : State) => if write then s.aerLog .completerAbort else (s.aerLog .completerAbort).reply (.completerAbort off)
  if answer = .badEcrc && s.ecrcOn then s.aerLog .ecrc
  else if !s.barOpen then s.refuseTlp 4 off write
  else if closedWin e rid o n write then ((s.count cntWinClosed).hepEvent 3).refuseTlp 4 off write
  else if answer = .poisoned && write then s.aerLog .poisoned
  else if answer = .late || s.accessBad a n then abort s
  else match data with
    | some d => s.land a d
    | none => if s.readBad a n then abort (s.noteBad a n) else s.reply (.readData (s.readBytes a n))

/-- R263: a request to BAR4. -/
def State.opPeer (s : State) (rid : BitVec 16) (off : Nat) (acc : PageAccess) (answer : TargetAnswer) : State :=
  match acc with
  | .read n => s.rxRequest.peerAccess rid off n none answer
  | .write d => (s.rxPosted d.length).peerAccess rid off d.length (some d) answer
  | .odd k => s.oddTlp k 4 off

/-! R267: completions and timeouts. -/

/-- R267: the unit that made a read hears of its end. -/
def State.readEnded (s : State) (u : TagUse) (data : Option (List Byte)) : State :=
  match u with
  | .dma c run no n _ who => s.burstReturn c run no n who (data.map (fun (d : List Byte) => slicePad d 0 n))
  | .flush c run _ => if (s.chan c).run = run then s.opFlushReturn c data.isSome else s

/-- R266, R267, R269, R270: a completion with a tag. One with a bad ECRC is dropped, and its read times out. -/
def State.opCpl (s : State) (tag : Nat) (data : CplData) : State :=
  let len := match data with
    | .ok d => d.length
    | _ => 0
  let s := s.rxCpl 0 len
  if data = .badEcrc && s.ecrcOn then s.aerLog .ecrc
  else match Map.get s.hep.tags tag with
    | some u =>
      let s := s.dropTag tag
      (match data with
        | .ok d => s.readEnded u (some d)
        | .error => s.readEnded u none
        | .poisoned => (s.aerLog .poisoned).readEnded u none
        | .badEcrc => s.readEnded u (some [])).retryFlush
    | none =>
      if s.hep.quar.contains tag then s.count cntStaleCpl
      else (s.count cntUnexpCpl).aerLog .unexpected

/-- R267: a read's completion timeout expires. -/
def State.opCplTimeout (s : State) (tag : Nat) : State :=
  match Map.get s.hep.tags tag with
  | some u => ((s.dropTag tag).readEnded u none).timedOut.retryFlush
  | none => s

/-! R268: Bus Master Enable. -/

/-- R268: entries of a work queue that had begun, and whose transfer would have led to a completion entry. -/
def discards (x : Queue) : Nat :=
  match x.kind with
  | 1 => x.ents.length
  | 2 => x.ents.length
  | 4 => x.ents.length
  | 5 => x.ents.length
  | 3 => (x.ents.filter (fun e => e.cb && e.ended.isSome)).length
  | _ => 0

/-- R268: what a work queue has fetched and begun is discarded; it goes on from its published head. -/
def State.discardWork (s : State) (q : Nat) : State :=
  let x := s.queue q
  if decide (1 ≤ x.kind ∧ x.kind ≤ 6) && x.st ≠ .none then
    let s := s.countN cntBmeDiscard (discards x)
    let s := s.modQueue x.cq (fun c => { c with places := c.places - x.ents.length })
    s.modQueue q (fun x => { x with head := x.pub, fetched := [], ents := [], stopped := false })
  else s

/-- R268, R261: the endpoint may issue no request from now on. -/
def State.loseMaster (s : State) : State :=
  let s := s.qim.queue.foldl (fun s (e : Nat × Queue) => s.discardWork e.1) s
  ({ s with rwc := { s.rwc with jobs := [] } }.endWaits (fun _ => true)).haltChans

/-- R261, R269, R434: a configuration request reaches PF0: it is answered with Request Retry Status before the function is
ready and while a function-level reset runs. -/
def State.onCfg (s : State) (f : State → State) : State :=
  if !s.hep.up then s
  else if s.hep.crs || s.hep.flrAt.isSome then s.rxRequest.reply .cfgRetry
  else (f s.rxRequest).stat statTxTlp

/-- R268: Bus Master Enable is cleared. -/
def State.opBmeClear (s : State) : State :=
  let on := s.bmeOn
  let s := { s with hep := { s.hep with bme := false } }
  if on then s.loseMaster else s

/-- R268, R274, R303: the endpoint may issue requests again: what waited only for that goes out. -/
def State.gainMaster (s : State) : State :=
  if !s.bmeOn then s
  else
    let s := s.qim.queue.foldl (fun s (e : Nat × Queue) => if e.2.kind = 7 then s.flushCq e.1 else s) s
    s.acqFlush.sweepIv

/-- R268: Bus Master Enable is set. -/
def State.opBmeSet (s : State) : State := { s with hep := { s.hep with bme := true } }.gainMaster

/-- R261: entry to D3hot. -/
def State.opD3 (s : State) : State :=
  let on := s.bmeOn
  let s := { s with hep := { s.hep with d3 := true } }
  if on then s.loseMaster else s

/-! R269: function-level reset. -/

/-- A bit of a stored register is cleared. -/
def State.clearBit (s : State) (a b : Nat) : State := s.setReg a (s.getReg a &&& ~~~(BitVec.ofNat 32 (2 ^ b)))

/-- R42, R92, R135, R254, R263, R311, R368: what function-level reset clears in registers and FIFOs. -/
def State.flrClears (s : State) : State :=
  let s := s.flrRegs
  let s := { s with arms := [], latches := [], nowLatch := none, staging := [] }
  let s := [qimAqCfg, qimAcqCfg, qimMedCfg, sqlExpq, TMG + 0x048].foldl (fun s a => s.clearBit a 31) s
  let s := (List.range 32).foldl (fun s w => s.clearBit (hwinCtrl w) 31) s
  let s := (List.range 256).foldl (fun s w => s.clearBit (HEP + 0x10000 + 0x20 * w) 31) s
  let s := (List.range 2048).foldl (fun s v => s.setReg (msixEntry v + 12) (s.getReg (msixEntry v + 12) ||| 1)) s
  let s := (List.range 16).foldl (fun s m => s.modMac m (fun c => { c with txts := [] })) s
  let live := fun (v : Nat) => !(v = 1 && (s.getReg (GLB + 0x10) = 0)) && !(v = 3 && s.getReg qimEvt = 0)
  { s with hep := { s.hep with raised := s.hep.raised.filter live } }

/-- R269: the endpoint's own part of step 2. -/
def State.flrEndpoint (s : State) : State :=
  let h := s.hep
  let off := fun (e : Nat × (Word × BitVec 48)) => (e.1, (e.2.1 &&& 0x7FFFFFFF, e.2.2))
  let m : BitVec 128 := 1 <<< 126
  let p : BitVec 128 := 1 <<< 125
  let calm := fun (e : BitVec 128) => (e ||| m) &&& ~~~p
  let d := calm h.ivDflt
  let iv := (h.iv.map (fun (e : Nat × BitVec 128) => (e.1, calm e.2))).filter (fun (e : Nat × BitVec 128) => e.2 ≠ d)
  { s with hep := { h with
    winStat := 0, winTill := 0, ivStat := 0
    tags := [], quar := h.quar ++ h.tags.map (fun (e : Nat × TagUse) => e.1)
    quarAt := h.quarAt ++ [(s.clock, usec s.ctoUs, h.tags.map (fun (e : Nat × TagUse) => e.1))], epoch := h.epoch + 1, cache := [], atsWait := [], denied := []
    win := h.win.map off, pend := [], doe := none, doeBuf := [], doeChain := none, doePart := [], doeIn := [], doeOut := [], doeErr := false
    spdm := 0, iv := iv, ivDflt := d } }.checkInval

/-- R269, R311: steps 1 and 2, as every reset of PF0 makes them. -/
def State.flrActs (s : State) : State :=
  let on := s.bmeOn
  let s := { s with hep := { s.hep with flrAt := some s.clock } }
  let s := if on then s.loseMaster else s
  let free := fun (x : Inst) => match x.resetAt with
    | some (_, b) => b
    | none => false
  let s := s.qim.inst.foldl (fun s (e : Nat × Inst) => if e.2.st = .free then s else s.resetInst e.1 (free e.2) none) s
  let s := s.qim.queue.foldl (fun s (e : Nat × Queue) =>
    if e.2.owner.isNone && decide (1 ≤ e.2.kind ∧ e.2.kind ≤ 6) then s.resetQueue e.1 else s) s
  { s with qim := { s.qim with aqBusy := false } }.flrEndpoint.flrClears

/-- R259, R269: what a reset keeps of configuration space: the registers that the standard makes sticky, AER's and Link
Control 2. -/
def cfgSticky (o : Nat) : Bool := (decide (0x100 ≤ o) && decide (o < 0x148)) || o = 0x0A0

/-- R269: configuration space takes its reset values; what the standard makes sticky stays. -/
def State.cfgReset (s : State) : State :=
  { s with hep := { s.hep with
    mse := false, bme := false, d3 := false, msix := false, fmask := false, intxDis := false, pasid := false
    ats := false, cto := 0, cfg := s.hep.cfg.filter (fun e => cfgSticky e.1) } }

/-- R431, R433: the sticky registers are reset too. -/
def State.cfgFresh (s : State) : State :=
  { s with hep := { s.hep with aer := [], aerCor := 0, aerUnc := 0, aerFirst := none, aerHdr := [], cfg := [] } }

/-- R269: Initiate Function Level Reset. -/
def State.opFlr (s : State) : State := if s.hep.up then s.flrActs else s

/-- R269: step 3. -/
def State.opFlrDone (s : State) : State :=
  if s.hep.flrAt.isNone then s
  else
    let s := { s.cfgReset with hep := { s.cfgReset.hep with flrAt := none } }
    let s := s.qim.inst.foldl (fun s (e : Nat × Inst) => s.endReset e.1) s
    (s.idleManagers).hepEvent 2

/-- R269: step 5: the tags of the resets whose timeout has passed are free. -/
def State.opQuarTags (s : State) : State :=
  let stays := s.hep.quarAt.filter (fun (e : Nat × Nat × List Nat) => !s.due e.1 e.2.1)
  { s with hep := { s.hep with quar := stays.flatMap (fun (e : Nat × Nat × List Nat) => e.2.2), quarAt := stays } }.retryFlush

/-! R257, R258, R431: the link and PERST_N. -/

/-- R257: widths, rates and Flit mode that the link supports. -/
def linkOk (width : BitVec 5) (rate : BitVec 4) (flit : Bool) : Bool :=
  (width = 8 || width = 16) && decide (1 ≤ rate.toNat ∧ rate.toNat ≤ 6) && (rate ≠ 6 || flit)

/-- R257, R258: the link trains. -/
def State.opLinkTrained (s : State) (width : BitVec 5) (rate : BitVec 4) (flit sris : Bool) : State :=
  if !s.hep.up && linkOk width rate flit && s.powered 1 && s.powered 2 then
    { s with hep := { s.hep with up := true, width := width, rate := rate, flit := flit, sris := sris } }
  else s

/-- R258: a change that keeps DL_Up. -/
def State.opRateChange (s : State) (width : BitVec 5) (rate : BitVec 4) (flit : Bool) : State :=
  if s.hep.up && linkOk width rate flit then
    { s with hep := { s.hep with width := width, rate := rate, flit := flit } }.hepEvent 1
  else s

/-- R258, R433: the link leaves DL_Up. -/
def State.linkGone (s : State) : State :=
  let s := s.flrActs.cfgReset
  { s with hep := { s.hep with up := false, width := 0, rate := 0, flit := false } }.hepEvent 0

/-- R258: the link leaves DL_Up; a hot reset resets PF0 in the same way and the link trains again. -/
def State.opPcieDown (s : State) (hot : Bool) : State :=
  if !s.hep.up then s else if hot then s.flrActs.cfgReset else s.linkGone

/-- R431: PERST_N low: a fundamental reset of PF0, error log included. -/
def State.opPerst (s : State) : State :=
  (if s.hep.up then s.linkGone else s.flrActs.cfgReset).cfgFresh

/-! R273: PF0 vectors. -/

/-- R273: a pending vector is sent once its conditions are met. -/
def State.opMsixPending (s : State) (v : Nat) : State :=
  if s.hep.pend.contains v && s.msixOpen v then
    { s with hep := { s.hep with pend := s.hep.pend.erase v } }.fireVector v
  else s

/-! R276, R277: ATS. -/

/-- R277: a page lies in the range of an invalidation. -/
def Inval.covers (i : Inval) (pasid : Option (BitVec 20)) (page : Nat) : Bool :=
  (match i.scope with
    | .untagged => pasid.isNone
    | .pasid p => pasid = some p
    | .global => true) && decide (i.page ≤ page ∧ page < i.page + i.pages)

/-- R276, R277: the PASID and the page of a cache key. -/
def keyPasid (k : Nat) : Option (BitVec 20) := if k / 2 ^ 52 < 2 ^ 20 then some (BitVec.ofNat 20 (k / 2 ^ 52)) else none

/-- R276: the cache takes a translation; which entry it gives up when it is full the spec leaves open. -/
def State.cachePut (s : State) (k page : Nat) : State :=
  let c := s.hep.cache
  if c.length < 65536 then { s with hep := { s.hep with cache := Map.put c k page } }
  else { s.drawn with hep := { s.hep with cache := Map.put (c.eraseIdx (s.freeNext % c.length)) k page } }

/-- R276: a Translation Completion; a flush read that waited for it goes out. -/
def State.opAtsResult (s : State) (pasid : Option (BitVec 20)) (page : Nat) (result : Option Nat) : State :=
  if !s.hep.atsWait.any (fun w => w.pasid = pasid && w.page = page) then s
  else
    let s := s.rxCpl 0 8
    let s := { s with hep := { s.hep with
      atsWait := s.hep.atsWait.filter (fun w => !(w.pasid = pasid && w.page = page)) } }
    let k := atsKey pasid page
    if !s.hep.ats then s
    else (match result with
      | none => { s with hep := { s.hep with denied := s.hep.denied ++ [k] } }
      | some p => if s.hep.inval.any (fun i => i.covers pasid page) then s else s.cachePut k p).retryFlush

/-- R277: an Invalidate Request: DESIGN CHOICE (log 165): a 33rd while 32 are outstanding, which the standard's partner does
not send, is dropped. -/
def State.opAtsInval (s : State) (scope : AtsScope) (page pages : Nat) (itag : BitVec 5) : State :=
  let s := (s.rxPosted 8).stat statAtsInv
  if 32 ≤ s.hep.inval.length then s
  else
    let i : Inval := { itag := itag, scope := scope, page := page, pages := pages, reads := [] }
    let hit := fun (k : Nat) => i.covers (keyPasid k) (k % 2 ^ 52)
    let uses := fun (e : Nat × TagUse) => match e.2 with
      | .dma _ _ _ _ keys _ => keys.any hit
      | .flush _ _ keys => keys.any hit
    let held := s.dma.ch.flatMap (fun (e : Nat × Chan) =>
      (e.2.queue.filter (fun b => b.pages.any hit)).map (fun b => (e.1, e.2.run, b.no)))
    let i := { i with reads := (s.hep.tags.filter uses).map (fun (e : Nat × TagUse) => e.1), bursts := held }
    { s with hep := { s.hep with
      cache := s.hep.cache.filter (fun (e : Nat × Nat) => !hit e.1), inval := s.hep.inval ++ [i] } }.checkInval

/-! R1, R259: configuration space. -/

/-- R259, R270, R278: what a doubleword of configuration space shows beside what is stored there: fields that State holds
under their own names, and those that follow the device. -/
def State.cfgShown (s : State) (o : Nat) : Nat :=
  let h := s.hep
  let b := fun (x : Bool) (n : Nat) => if x then 2 ^ n else 0
  match o with
  | 0x004 => b h.mse 1 + b h.bme 2 + b h.intxDis 10 + b s.intxCause 19
  | 0x044 => if h.d3 then 3 else 0
  | 0x050 => b h.fmask 30 + b h.msix 31
  | 0x078 => b (!h.tags.isEmpty) 21
  | 0x080 => h.rate.toNat * 2 ^ 16 + h.width.toNat * 2 ^ 20
  | 0x098 => h.cto.toNat
  | 0x104 => h.aerUnc.toNat
  | 0x110 => h.aerCor.toNat
  | 0x118 => h.aerFirst.getD 0
  | 0x11C => (h.aerHdr.getD 0 0).toNat
  | 0x120 => (h.aerHdr.getD 1 0).toNat
  | 0x124 => (h.aerHdr.getD 2 0).toNat
  | 0x128 => (h.aerHdr.getD 3 0).toNat
  | 0x14C => b h.pasid 16
  | 0x154 => b h.ats 31
  | 0x16C => b h.doe.isSome 0 + b h.doeErr 2 + b (!h.doeOut.isEmpty) 31
  | 0x174 => (h.doeOut.getD 0 0).toNat
  | 0x224 => Config.serial.toNat % 2 ^ 32
  | 0x228 => Config.serial.toNat / 2 ^ 32
  | _ => 0

/-- R259: a doubleword of configuration space. -/
def State.cfgDword (s : State) (o : Nat) : Word := s.cfgWord o ||| BitVec.ofNat 32 (s.cfgShown o)

/-! R261, R267, R272, R273, R275, R276: fields that configuration writes change. -/

/-- R268: Bus Master Enable is written. -/
def State.setBme (s : State) (on : Bool) : State :=
  if on = s.hep.bme then s else if on then s.opBmeSet else s.opBmeClear

/-- R272, R273: MSI-X Enable and Function Mask are written. -/
def State.setMsix (s : State) (on mask : Bool) : State := { s with hep := { s.hep with msix := on, fmask := mask } }.sweepIv

/-- R276: ATS Enable is written. -/
def State.setAts (s : State) (on : Bool) : State :=
  { s with hep := { s.hep with ats := on, cache := if on then s.hep.cache else [], denied := if on then s.hep.denied else [] } }

/-- R261: the power state is written: D0 or D3hot; a value that names no state of PF0 changes nothing. -/
def State.setPower (s : State) (code : Nat) : State :=
  if code = 3 && !s.hep.d3 then s.opD3
  else if code = 0 && s.hep.d3 then { s with hep := { s.hep with d3 := false } }.gainMaster
  else s

/-- R270: status bits of AER are cleared; with the first error's bit the header log is free again. -/
def State.clearAer (s : State) (v : Word) : State :=
  let u := s.hep.aerUnc &&& ~~~v
  let gone := match s.hep.aerFirst with
    | some k => !u.getLsbD k
    | none => false
  { s with hep := { s.hep with
    aerUnc := u, aerFirst := if gone then none else s.hep.aerFirst, aerHdr := if gone then [] else s.hep.aerHdr } }

/-! R279, R312: read-only words. -/

/-- R279: the read-only words of the HEP. -/
def State.hepView (s : State) (o : Nat) : Option Nat :=
  let h := s.hep
  let b := fun (x : Bool) (n : Nat) => if x then 2 ^ n else 0
  if o = 0 then some (b h.up 31 + b h.flit 30 + b h.sris 29 + h.width.toNat * 2 ^ 16 + h.rate.toNat)
  else if o = 0x10 then some ((4096 - s.tagsOut) * 2 ^ 16 + s.tagsOut)
  else if o = 0x14 then some h.quar.length
  else if o = 0x18 then some s.ctoUs
  else if o = 0x1C then some h.epoch.toNat
  else if o = 0x20 then some (h.winStat * 2 ^ 24 + b s.winBusy 31)
  else if o = 0x30 then some (b h.ats 31 + h.cache.length)
  else if o = 0x80 then some (s.regBits hepIvCmd 3 0 + h.ivStat * 2 ^ 24)
  else if 0x20000 ≤ o ∧ o < 0x22000 then
    let e := Map.at_ h.win ((o - 0x20000) / 0x20) (0, 0)
    match o % 0x20 with
    | 0 => some e.1.toNat
    | 8 => some (e.2.toNat % 2 ^ 32)
    | 16 => some (e.2.toNat / 2 ^ 32)
    | _ => none
  else if 0x90000 ≤ o ∧ o < 0x90100 then
    some ((List.range 32).foldl (fun w k => if h.pend.contains (8 * (o - 0x90000) + k) then w + 2 ^ k else w) 0)
  else none

/-- R312: the read-only words of the QIM. -/
def State.qimView (s : State) (o : Nat) : Option Nat :=
  let active := (s.qim.inst.filter (fun (e : Nat × Inst) => e.2.st ≠ .free)).length
  let aq := (s.getReg qimAqCfg).getLsbD 31
  if o = 0 then some ((if s.mem.reduced then 2 ^ 31 else 0) + (if aq then 2 ^ 30 else 0) + active)
  else if o = 0x64 then some s.qim.aqHead.toNat
  else if o = 0x68 then some s.qim.acqTail.toNat
  else if o = 0x8C then some s.qim.medProd.toNat
  else if o = 0xA0 then
    match s.qim.ievt with
    | e :: _ => some (2 ^ 31 + e.cause * 2 ^ 24 + e.inst.toNat)
    | [] => some 0
  else if o = 0xA4 then
    match s.qim.ievt with
    | e :: _ => some e.queue
    | [] => some 0
  else none

end Sys2Proof.Machine
end

