-- ==== Sys2Proof/Machine/Ecc.lean ====
section
/-! DEFINITION. P-384 as its standards define it (FIPS 186-5, SP 800-186, SEC 1): the curve, ECDSA (R104, R399, R402) and
ECDH (R414). PRESUMED: the spec names the algorithms (log 68). -/

namespace Sys2Proof.Machine

/-- The field prime, the order, the coefficient b and the base point. -/
def ecP : Nat := 2 ^ 384 - 2 ^ 128 - 2 ^ 96 + 2 ^ 32 - 1
def ecN : Nat :=
  0xFFFFFFFFFFFFFFFFFFFFFFFFFFFFFFFFFFFFFFFFFFFFFFFFC7634D81F4372DDF581A0DB248B0A77AECEC196ACCC52973
def ecB : Nat :=
  0xB3312FA7E23EE7E4988E056BE3F82D19181D9C6EFE8141120314088F5013875AC656398D8A2ED19D2A85C8EDD3EC2AEF
def ecGx : Nat :=
  0xAA87CA22BE8B05378EB1C71EF320AD746E1D3B628BA79B9859F741E082542A385502F25DBF55296C3A545E3872760AB7
def ecGy : Nat :=
  0x3617DE4A96262C6F5D9E98BF9292DC29F8F41DBD289A147CE9DA3113B5F0B8C00A60B1CE1D7E819D7A431D7C90EA0E5F

/-- A power modulo m; the fuel covers the bits of the exponent. -/
def powMod : Nat → Nat → Nat → Nat → Nat → Nat
  | 0, _, _, _, r => r
  | f + 1, m, b, e, r => powMod f m (b * b % m) (e / 2) (if e % 2 = 1 then r * b % m else r)

/-- The inverse modulo a prime of 384 bits. -/
def invMod (m a : Nat) : Nat := powMod 384 m (a % m) (m - 2) 1

/-- A point; none is the point at infinity. -/
abbrev EcPoint := Option (Nat × Nat)

/-- The chord's or tangent's third point. -/
def ecLine (l x1 y1 x2 : Nat) : EcPoint :=
  let x := (l * l + 2 * ecP - x1 - x2) % ecP
  some (x, (l * (x1 + ecP - x) + ecP - y1) % ecP)

/-- The sum of two points. -/
def ecAdd (a b : EcPoint) : EcPoint :=
  match a, b with
  | none, q => q
  | p, none => p
  | some (x1, y1), some (x2, y2) =>
    if x1 = x2 then
      if (y1 + y2) % ecP = 0 then none
      else ecLine ((3 * x1 * x1 + ecP - 3) * invMod ecP (2 * y1) % ecP) x1 y1 x2
    else ecLine ((y2 + ecP - y1) * invMod ecP (x2 + ecP - x1) % ecP) x1 y1 x2

/-- A multiple of a point, by the bits of the factor; the fuel covers them. -/
def ecTimes : Nat → Nat → EcPoint → EcPoint → EcPoint
  | 0, _, _, r => r
  | f + 1, k, p, r => ecTimes f (k / 2) (ecAdd p p) (if k % 2 = 1 then ecAdd r p else r)

/-- k times a point. -/
def ecMul (k : Nat) (p : EcPoint) : EcPoint := ecTimes 384 k p none

/-- SEC 1: a point uncompressed, 97 bytes. -/
def ecBytes (p : EcPoint) : List Byte :=
  match p with
  | some (x, y) => [4] ++ beBytes 48 x ++ beBytes 48 y
  | none => List.replicate 97 0

/-- SEC 1: the point that 97 bytes spell, when it lies on the curve. -/
def ecPoint (b : List Byte) : EcPoint :=
  let x := beAt b 1 48
  let y := beAt b 49 48
  if b.length = 97 ∧ beAt b 0 1 = 4 ∧ x < ecP ∧ y < ecP ∧ y * y % ecP = (x * x * x + 3 * (ecP - x) + ecB) % ecP then
    some (x, y)
  else none

/-- R407: bytes are a valid public key. -/
def validPoint (b : List Byte) : Bool := (ecPoint b).isSome

/-- A secret key from a number that the device draws: 1 to the order less 1. -/
def ecPrivate (n : Nat) : Nat := n % (ecN - 1) + 1

/-- The public key of a secret one, SEC 1 uncompressed. -/
def ecPublic (d : Nat) : List Byte := ecBytes (ecMul d (some (ecGx, ecGy)))

/-- R400: FIPS 186-5, A.2.2: the candidate is the seed of 48 bytes; one that fails the test is followed by another, which
the spec does not give. -/
def keygen (seed : List Byte) : Nat :=
  let c := beNat seed
  if c ≤ ecN - 2 then c + 1 else ecPrivate (Config.keygenNext seed)

/-- ECDSA: the signature of a digest of 48 bytes, r and s, with a nonce that the device draws. -/
def ecdsaSign (d : Nat) (digest : List Byte) (draw : Nat) : List Byte :=
  let k := ecPrivate draw
  let r := (match ecMul k (some (ecGx, ecGy)) with
    | some (x, _) => x
    | none => 0) % ecN
  beBytes 48 r ++ beBytes 48 (invMod ecN k * (beNat digest + r * d) % ecN)

/-- ECDSA: a signature of a digest of 48 bytes verifies under a public key. -/
def ecdsaVerify (pub digest sig : List Byte) : Bool :=
  let r := beAt sig 0 48
  let s := beAt sig 48 48
  match ecPoint pub with
  | none => false
  | some q =>
    if sig.length ≠ 96 || r = 0 || s = 0 || decide (ecN ≤ r) || decide (ecN ≤ s) then false
    else
      let w := invMod ecN s
      match ecAdd (ecMul (beNat digest * w % ecN) (some (ecGx, ecGy))) (ecMul (r * w % ecN) (some q)) with
      | some (x, _) => decide (x % ecN = r)
      | none => false

/-- R414: the x-coordinate of the ECDH result of a secret and a public key. -/
def ecdhX (d : Nat) (pub : List Byte) : List Byte :=
  match ecMul d (ecPoint pub) with
  | some (x, _) => beBytes 48 x
  | none => List.replicate 48 0

end Sys2Proof.Machine
end

