-- ==== Sys2Proof/Machine/Lms.lean ====
section
/-! DEFINITION. LMS and HSS as RFC 8554 defines them over SHA-256 (R104, R106, R401, R402): verification, and the device's
own signatures with trees of height 20 and LM-OTS of width 8. PRESUMED: the spec names the algorithms (log 68); the
secrets of the trees are free. -/

namespace Sys2Proof.Machine

/-! LM-OTS. -/

/-- RFC 8554: the width, the number of chains and the checksum's shift of an LM-OTS type; none is not one of R401. -/
def otsParams (typ : Nat) : Option (Nat × Nat × Nat) :=
  if typ = 3 then some (4, 67, 4) else if typ = 4 then some (8, 34, 0) else none

/-- RFC 8554: the height of an LMS type; none is not one of R401. -/
def lmsHeight (typ : Nat) : Option Nat :=
  if typ = 6 then some 10 else if typ = 7 then some 15 else if typ = 8 then some 20 else none

/-- RFC 8554 3.1.3: the i-th digit of w bits (4 or 8) of a string. -/
def otsDigit (b : List Byte) (i w : Nat) : Nat :=
  if w = 8 then (b.getD i 0).toNat else (b.getD (i / 2) 0).toNat / (if i % 2 = 0 then 16 else 1) % 16

/-- RFC 8554 4.4: a digest with its checksum. -/
def otsSummed (q : List Byte) (w ls : Nat) : List Byte :=
  let sum := (List.range (256 / w)).foldl (fun n i => n + (2 ^ w - 1 - otsDigit q i w)) 0
  q ++ beBytes 2 (sum * 2 ^ ls)

/-- RFC 8554 4.3: a chain of a value goes on from digit j for n steps. -/
def otsChain (id : List Byte) (q i : Nat) : Nat → Nat → List Byte → List Byte
  | 0, _, v => v
  | n + 1, j, v => otsChain id q i n (j + 1) (sha256 (id ++ beBytes 4 q ++ beBytes 2 i ++ beBytes 1 j ++ v))

/-- RFC 8554 4.5: the digest that the chains sign. -/
def otsDigest (id : List Byte) (q : Nat) (c m : List Byte) : List Byte :=
  sha256 (id ++ beBytes 4 q ++ beBytes 2 0x8181 ++ c ++ m)

/-- RFC 8554 4.3: the public key of the ends of the chains. -/
def otsPublic (id : List Byte) (q : Nat) (ends : List (List Byte)) : List Byte :=
  sha256 (id ++ beBytes 4 q ++ beBytes 2 0x8080 ++ ends.flatten)

/-- RFC 8554 4.6: the public key that a signature's chains end in. -/
def otsCandidate (id : List Byte) (q : Nat) (w p ls : Nat) (c y m : List Byte) : List Byte :=
  let d := otsSummed (otsDigest id q c m) w ls
  otsPublic id q ((List.range p).map (fun i =>
    let a := otsDigit d i w
    otsChain id q i (2 ^ w - 1 - a) a (slicePad y (32 * i) 32)))

/-! LMS. -/

/-- RFC 8554 5.3: the hash of a leaf and of an inner node. -/
def lmsLeaf (id : List Byte) (r : Nat) (k : List Byte) : List Byte := sha256 (id ++ beBytes 4 r ++ beBytes 2 0x8282 ++ k)
def lmsInner (id : List Byte) (r : Nat) (a b : List Byte) : List Byte :=
  sha256 (id ++ beBytes 4 r ++ beBytes 2 0x8383 ++ a ++ b)

/-- RFC 8554 5.4.2: the root that a path of n nodes leads to. -/
def lmsClimb (id : List Byte) (path : List Byte) : Nat → Nat → Nat → List Byte → List Byte
  | 0, _, _, v => v
  | n + 1, i, r, v =>
    let p := slicePad path (32 * i) 32
    lmsClimb id path n (i + 1) (r / 2) (if r % 2 = 1 then lmsInner id (r / 2) p v else lmsInner id (r / 2) v p)

/-- RFC 8554 5.4: the length of an LMS signature of types. -/
def lmsSigLen (p h : Nat) : Nat := 12 + 32 + 32 * p + 32 * h

/-- RFC 8554 5.4.2: a signature at the start of a string verifies under a public key of 56 bytes: what follows it. -/
def lmsVerify (pub m s : List Byte) : Option (List Byte) :=
  match lmsHeight (beAt pub 0 4), otsParams (beAt pub 4 4) with
  | some h, some (w, p, ls) =>
    let id := slicePad pub 8 16
    let q := beAt s 0 4
    let n := lmsSigLen p h
    let k := otsCandidate id q w p ls (slicePad s 8 32) (slicePad s 40 (32 * p)) m
    if pub.length = 56 ∧ n ≤ s.length ∧ beAt s 4 4 = beAt pub 4 4 ∧ beAt s (40 + 32 * p) 4 = beAt pub 0 4 ∧ q < 2 ^ h ∧
        lmsClimb id (slicePad s (44 + 32 * p) (32 * h)) h 0 (2 ^ h + q) (lmsLeaf id (2 ^ h + q) k) = slicePad pub 24 32 then
      some (s.drop n)
    else none
  | _, _ => none

/-- RFC 8554 6.3, R401: an HSS signature of one or two levels verifies under a public key of 60 bytes. -/
def hssVerify (pub m s : List Byte) : Bool :=
  let levels := beAt pub 0 4
  let top := pub.drop 4
  if pub.length ≠ 60 || s.length < 4 || beAt s 0 4 + 1 ≠ levels then false
  else if levels = 1 then lmsVerify top m (s.drop 4) = some []
  else if levels = 2 then
    match lmsHeight (beAt top 0 4), otsParams (beAt top 4 4) with
    | some h, some (_, p, _) =>
      let lower := slicePad s (4 + lmsSigLen p h) 56
      match lmsVerify top lower (s.drop 4) with
      | some rest => lmsVerify lower m (rest.drop 56) = some []
      | none => false
    | _, _ => false
  else false

/-! The device's own trees: height 20, width 8. -/

/-- The identifier and the secret of a tree of a key: tree 0 is the upper one, tree n + 1 the n-th lower one. -/
def treeId (key tree : Nat) : List Byte := slicePad (Config.hssSecret key tree) 0 16
def treeSeed (key tree : Nat) : List Byte := slicePad (Config.hssSecret key tree) 16 32

/-- RFC 8554, appendix A: the start of a chain. -/
def chainStart (key tree q i : Nat) : List Byte :=
  sha256 (treeId key tree ++ beBytes 4 q ++ beBytes 2 i ++ [0xFF] ++ treeSeed key tree)

/-- The hash of a leaf of a tree. -/
def treeLeaf (key tree q : Nat) : List Byte :=
  let id := treeId key tree
  lmsLeaf id (2 ^ 20 + q) (otsPublic id q ((List.range 34).map (fun i => otsChain id q i 255 0 (chainStart key tree q i))))

/-- The node of a number, n levels above the leaves. -/
def treeNode (key tree : Nat) : Nat → Nat → List Byte
  | 0, r => treeLeaf key tree (r - 2 ^ 20)
  | n + 1, r => lmsInner (treeId key tree) r (treeNode key tree n (2 * r)) (treeNode key tree n (2 * r + 1))

/-- The public key of a tree. -/
def treePublic (key tree : Nat) : List Byte :=
  beBytes 4 8 ++ beBytes 4 4 ++ treeId key tree ++ treeNode key tree 20 1

/-- RFC 8554 5.4.1: a tree's signature with a leaf, over a randomizer. -/
def treeSign (key tree q : Nat) (m : List Byte) : List Byte :=
  let id := treeId key tree
  let c := slicePad (Config.hssRandom key tree q) 0 32
  let d := otsSummed (otsDigest id q c m) 8 0
  beBytes 4 q ++ beBytes 4 4 ++ c ++
    ((List.range 34).map (fun i => otsChain id q i (otsDigit d i 8) 0 (chainStart key tree q i))).flatten ++
    beBytes 4 8 ++
    ((List.range 20).map (fun i =>
      let r := (2 ^ 20 + q) / 2 ^ i
      treeNode key tree i (if r % 2 = 0 then r + 1 else r - 1))).flatten

/-- R104: the public key of two levels. -/
def hssPublic (key : Nat) : List Byte := beBytes 4 2 ++ treePublic key 0

/-- R104, R106: the HSS signature with the leaf of a number, 0 to 2^40 - 1. -/
def hssSign (key leaf : Nat) (m : List Byte) : List Byte :=
  let t := leaf / 2 ^ 20
  let pub := treePublic key (t + 1)
  beBytes 4 1 ++ treeSign key 0 t pub ++ pub ++ treeSign key (t + 1) (leaf % 2 ^ 20) m

end Sys2Proof.Machine
end

