-- ==== Sys2Proof/Machine/Keys.lean ====
section
/-! DEFINITION. Signed images (R401 to R403), the keys derived at start (R399, R400), measurements (R410) and what the
lifecycle and the lock admit (R398, R415). -/

namespace Sys2Proof.Machine

/-- The bytes of an ASCII label. -/
def ascii (t : String) : List Byte := t.toList.map (fun c => BitVec.ofNat 8 c.toNat)

/-! R401: the fields of an image's header. -/
def imgFormat (f : List Byte) : Nat := beAt f 0 4
def imgTarget (f : List Byte) : Nat := beAt f 4 1
def imgSigner (f : List Byte) : Nat := beAt f 5 1
def imgArb (f : List Byte) : Nat := beAt f 6 2
def imgSvn (f : List Byte) : Nat := beAt f 8 4
def imgVersion (f : List Byte) : Nat := beAt f 12 4
def imgBodyLen (f : List Byte) : Nat := beAt f 16 4
def imgHssLen (f : List Byte) : Nat := beAt f 20 4
def imgHeader (f : List Byte) : List Byte := slicePad f 0 128
def imgBody (f : List Byte) : List Byte := slice f 128 (imgBodyLen f)
def imgEcdsa (f : List Byte) : List Byte := slice f (128 + imgBodyLen f) 96
def imgHss (f : List Byte) : List Byte := slice f (224 + imgBodyLen f) (imgHssLen f)

/-- R401: the length that an image's fields give it. -/
def imgLength (f : List Byte) : Nat := 224 + imgBodyLen f + imgHssLen f

/-- R402: the anti-rollback counter of a number. -/
def State.counterOf (s : State) (i : Nat) : Nat := Map.at_ s.field.arb i 0

/-- R399: the owner's image keys, ECDSA and HSS, as the owner package gives them. -/
def State.ownerKeys (s : State) : List Byte × List Byte := (slicePad s.field.owner 101 97, slicePad s.field.owner 198 60)

/-- R402: both signatures of an image, its KEYID and its body's digest hold under a signer's keys. -/
def imgSigned (f ecdsa hss : List Byte) : Bool :=
  slice f 80 16 = (sha256 ecdsa).take 16 && slice f 32 48 = sha384 (imgBody f) &&
  ecdsaVerify ecdsa (sha384 (imgHeader f)) (imgEcdsa f) &&
  hssVerify hss (imgHeader f) (imgHss f)

/-- R402: the result of checking an image for a transfer target: 0 accepted, 3 form, 1 signer or signature, 2 rollback. -/
def State.imageResult (s : State) (f : List Byte) (target : Nat) : Nat :=
  let kind := if target < 2 then target else 0x10
  let owner := kind = 0x10
  let keys := if owner then s.ownerKeys else (Config.someoxEcdsa, Config.someoxHss)
  if imgFormat f ≠ 0x43494D01 || imgTarget f ≠ kind || decide (1 < imgSigner f) || decide (63 < imgArb f) ||
      decide (255 < imgSvn f) || imgLength f ≠ f.length then 3
  else if (if owner then imgSigner f ≠ 1 || decide (imgArb f < 8) || s.field.life ≠ 2
      else imgSigner f ≠ 0 || imgArb f ≠ target) then 1
  else if !imgSigned f keys.1 keys.2 then 1
  else if imgSvn f < s.counterOf (imgArb f) then 2
  else 0

/-- R403: a counter rises, and never falls, to the security version of an image. -/
def State.raiseCounter (s : State) (f : List Byte) : State :=
  let i := imgArb f
  let v := max (s.counterOf i) (imgSvn f)
  { s with field := { s.field with arb := Map.set s.field.arb i v 0 } }

/-- R370: a firmware bank: 0 and 1 field A and B, 2 and 3 main die A and B. -/
def State.bank (s : State) (n : Nat) : List Byte := Map.at_ s.field.banks n []

/-- The banks that run. -/
def State.fieldImage (s : State) : List Byte := if s.field.recovery then [] else s.bank (if s.field.runField then 1 else 0)
def State.mainImage (s : State) : List Byte := s.bank (if s.field.runMain then 3 else 2)

/-! R400: derivations. -/

/-- R400: the CDI of the running field firmware and the lifecycle state. -/
def State.cdi (s : State) : List Byte :=
  hmac384 Config.uds (ascii "IKW-CDI" ++ sha384 Config.romVersion ++
    sha384 (imgHeader s.fieldImage) ++ [BitVec.ofNat 8 s.field.life])

/-- R400: the secret DeviceID key, and the Alias key of the firmware and the lifecycle state that the ROM finds. -/
def deviceId : Nat := keygen (hmac384 Config.uds (ascii "IKW-DEVICEID"))
def State.aliasKey (s : State) : Nat := keygen (hmac384 s.cdi (ascii "IKW-ALIAS"))

/-- R400: the storage key. -/
def storageKey : List Byte := (hmac384 Config.uds (ascii "IKW-STORE")).take 32

/-- R399: a signature by the Alias key over the digest of a message, r and s of 48 bytes each. -/
def State.aliasSign (s : State) (m : List Byte) : List Byte × State :=
  (ecdsaSign s.field.akey (sha384 m) s.freeNext, s.drawn)

/-- R409: the SPDM chain of a slot. -/
def State.spdmChain (s : State) (slot : Nat) : List Byte :=
  let mine := Config.certificate (ecPublic deviceId) (ecPublic s.field.akey ++ sha384 (imgHeader s.fieldImage))
  if s.field.life = 3 then []
  else if slot = 0 then Config.chainHead ++ mine
  else if s.field.ownerChain.isEmpty then []
  else s.field.ownerChain ++ mine

/-- R409: the seal key certificate. -/
def State.sealCert (s : State) : List Byte :=
  if s.field.sealKeys then
    Config.certificate (ecPublic deviceId) (s.field.sealPub ++ sha256 s.field.sealHss ++ beBytes 8 Config.serial.toNat)
  else []

/-! R398, R415: the lifecycle and the lock. -/

/-- R415: the door byte; every door reads open in MANUFACTURE. -/
def State.doors (s : State) : Nat := if s.field.life = 0 then 15 else s.objNat 0x2F40 1

/-- R398: a level can be opened. -/
def State.levelOpens (s : State) (l : Nat) : Bool :=
  match s.field.life, l with
  | _, 0 => true
  | 0, 3 => true
  | 1, 1 => true
  | 1, 3 => true
  | 2, 1 => bit s.doors 0
  | 2, 2 => true
  | 2, 3 => bit s.doors 1
  | 3, 3 => true
  | _, _ => false

/-- R413: the operator key in force: the initial password's until another is written. -/
def State.opKey (s : State) : List Byte := if s.field.kop.isEmpty then Config.initialKop else s.field.kop
def State.opSalt (s : State) : List Byte := if s.field.kop.isEmpty then slicePad Config.initialSalt 0 16 else s.field.salt
def State.opIter (s : State) : Nat := if s.field.kop.isEmpty then Config.initialIter else s.field.iter

/-! R410: measurement blocks. -/

/-- R410: the digest of a measurement block, and the raw bytes of block 11. -/
def State.measurement (s : State) (i : Nat) : List Byte :=
  let zero := List.replicate 48 (0 : Byte)
  if i = 1 then sha384 (imgHeader s.fieldImage)
  else if i = 2 then (if s.field.mainSt = 0 || s.pwr.hdr.isEmpty then zero else sha384 s.pwr.hdr)
  else if 3 ≤ i ∧ i ≤ 10 then
    let v := Map.at_ s.field.services (i - 3) {}
    if v.state = 0 then zero else v.digest
  else if i = 11 then
    [BitVec.ofNat 8 s.field.life, BitVec.ofNat 8 s.doors] ++
      (List.range 64).map (fun n => BitVec.ofNat 8 (s.counterOf n))
  else if s.field.sealKeys then sha384 (s.field.sealPub ++ s.field.sealHss)
  else zero

/-- R412: bytes 0 to 639 of a quote over a nonce. -/
def State.quoteBody (s : State) (nonce : List Byte) : List Byte :=
  let m := fun i => slicePad (s.measurement i) 0 48
  beBytes 4 0x43515401 ++ slicePad nonce 0 32 ++ beBytes 8 Config.serial.toNat ++
    [BitVec.ofNat 8 s.field.life, BitVec.ofNat 8 s.doors, 0, 0] ++
    ((List.range 10).map (fun i => m (i + 1))).flatten ++ m 12 ++
    (List.range 64).map (fun n => BitVec.ofNat 8 (s.counterOf n))

end Sys2Proof.Machine
end

