-- ==== Sys2Proof/Machine/Bus.lean ====
section
/-! DEFINITION. The Usnan bus as the node takes and sends its frames (R374 to R385): sessions, logins, the gauntlet,
the hat line, and the acknowledgement of event notices. -/

namespace Sys2Proof.Machine

/-- R385: the TAG of a frame. -/
def busTag (ks header payload : List Byte) : List Byte := (hmac256 ks (header ++ payload)).take 16

/-- R385: the session of an identifier. -/
def State.busSession (s : State) (sid : Word) : Option Session := s.field.sessions.find? (fun x => decide (x.sid = sid))

/-- R385: a session is changed. -/
def State.modSession (s : State) (sid : Word) (f : Session → Session) : State :=
  { s with field := { s.field with sessions := s.field.sessions.map (fun x => if x.sid = sid then f x else x) } }

/-- R374, R375, R379, R385: the node sends a frame, within a session when it has an identifier; ok says whether it leaves
within the attempt limit. An unassigned node sends none. -/
def State.busSend (s : State) (typ : Nat) (dst : Byte) (tid : BitVec 16) (sid : Word) (payload : List Byte)
    (ok : Bool := true) : State :=
  let a := s.field.node
  if a = 0 then s
  else if sid = 0 then s.busOut ok dst (busHeader typ dst a tid payload.length 0 0 ++ payload)
  else
    match s.busSession sid with
    | none => s
    | some x =>
      let c := BitVec.ofNat 32 (x.tx + 1)
      let h := busHeader typ dst a tid payload.length sid c
      (s.modSession sid (fun y => { y with tx := if ok then y.tx + 1 else y.tx })).busOut ok dst
        (h ++ payload ++ busTag x.ks h payload)

/-- R383: an ABORT answer. -/
def State.busAbort (s : State) (h : BusHdr) (idx sub code : Nat) : State :=
  s.busSend 0x06 h.src h.tid h.session (beBytes 2 idx ++ beBytes 1 sub ++ [0] ++ beBytes 2 code) h.sent

/-- R385: sessions that have accepted no frame for the idle limit have ended. -/
def State.dropIdle (s : State) : State :=
  { s with field := { s.field with
    sessions := s.field.sessions.filter (fun x => !s.due x.at_ (secs (s.objNat 0x1010 4))) } }

/-- R375, R378, R379, R385: a frame reaches the node. It is taken with the level of its session, or discarded. -/
def State.busTake (s : State) (typ : Nat) (h : BusHdr) (payload : List Byte) : Option Nat × State :=
  if !s.field.up || (h.dst ≠ 255 && (s.field.node = 0 || h.dst ≠ s.field.node)) then (none, s)
  else if s.field.node ≠ 0 && h.src = s.field.node then (none, s.fieldCount 6)
  else
    let s := { s.dropIdle with field := { s.dropIdle.field with rxFrames := s.field.rxFrames + 1 } }
    if 1468 < payload.length then (none, s)
    else if h.session = 0 then (some 0, s)
    else
      let hdr := busHeader typ h.dst h.src h.tid payload.length h.session h.counter
      match s.busSession h.session with
      | none => (none, s.fieldCount 4)
      | some x =>
        if h.tag = busTag x.ks hdr payload && decide (x.rx < h.counter.toNat) then
          (some x.lvl, s.modSession h.session (fun y => { y with rx := h.counter.toNat, at_ := s.clock }))
        else (none, s.fieldCount 4)

/-- R380: a request to the node: a broadcast one is not answered. -/
def State.busRequest (s : State) (typ : Nat) (h : BusHdr) (payload : List Byte) (f : Nat → State → State) : State :=
  match s.busTake typ h payload with
  | (some l, t) => if h.dst = 255 then t else f l t
  | (none, t) => t

/-- R385: a session ends. -/
def State.endSession (s : State) (sid : Word) : State :=
  { s with field := { s.field with sessions := s.field.sessions.filter (fun x => x.sid ≠ sid) } }

/-! R384, R413, R414: logins. -/

/-- R384: K_L of a login. -/
def State.loginKey (s : State) (l : Login) : List Byte :=
  if l.lvl = 1 then s.opKey
  else
    let g := if l.lvl = 2 then slicePad s.field.owner 4 97 else Config.someoxGauntlet
    hmac256 (ecdhX l.key g)
      (ascii "USNAN-GAUNTLET" ++ beBytes 4 l.sid.toNat ++ l.nc ++ l.nd ++ [BitVec.ofNat 8 l.lvl])

/-- R384: a proof of a login, by its label and the nodes of the frame that carries it. -/
def loginProofOf (kl : List Byte) (label : String) (l : Login) (dst src : Byte) : List Byte :=
  hmac256 kl (ascii label ++ beBytes 4 l.sid.toNat ++ l.nc ++ l.nd ++ [dst, src, BitVec.ofNat 8 l.lvl])

/-- A session identifier that is not zero and not in use. -/
def State.newSid (s : State) : Word :=
  let used := s.field.sessions.map (fun x => x.sid.toNat) ++ s.field.logins.map (fun x => x.sid.toNat)
  let start := s.freeNext
  match firstBelow 16 (fun i => let v := (start + i) % 2 ^ 32; v ≠ 0 && !used.contains v) with
  | some i => BitVec.ofNat 32 ((start + i) % 2 ^ 32)
  | none => 1

/-- R384: less than 60 s have passed since a level's fifth wrong proof. -/
def State.lockedOut (s : State) (lvl : Nat) : Bool :=
  match Map.get s.field.lockout lvl with
  | some t => !s.due t (secs 60)
  | none => false

/-- R384, R385, R414: LOGIN_REQ. -/
def State.opLoginReq (s : State) (h : BusHdr) (p : List Byte) : State :=
  s.busRequest 0x10 h p (fun _ s =>
    let lvl := beAt p 0 1
    if s.field.recovery then s.busAbort h 0 0 9
    else if p.length ≠ 17 then s.busAbort h 0 0 5
    else if lvl = 0 || decide (3 < lvl) then s.busAbort h 0 0 6
    else if 4 ≤ s.field.sessions.length then s.busAbort h 0 0 8
    else if s.lockedOut lvl || !s.levelOpens lvl then s.busAbort h 0 0 9
    else
      let sid := s.newSid
      let s := s.drawn
      let nd := s.freeBytes 16
      let s := s.drawn
      let key := ecPrivate s.freeNext
      let s := if lvl = 1 then s else s.drawn
      let l : Login :=
        { sid := sid, lvl := lvl, nc := slice p 1 16, nd := nd, node := h.src, key := key, at_ := s.clock }
      let s := { s with field := { s.field with logins := s.field.logins ++ [l] } }
      let base := [BitVec.ofNat 8 lvl] ++ nd ++ beBytes 4 sid.toNat
      if lvl = 1 then s.busSend 0x11 h.src h.tid 0 base h.sent
      else
        let qe := ecPublic key
        let m := ascii "USNAN-CHAL" ++ beBytes 4 sid.toNat ++ l.nc ++ nd ++ qe ++ beBytes 8 Config.serial.toNat ++
          [BitVec.ofNat 8 lvl]
        let (sig, s) := s.aliasSign m
        s.busSend 0x11 h.src h.tid 0 (base ++ qe ++ sig) h.sent)

/-- A login is over, and its ephemeral key is erased. -/
def State.dropLogin (s : State) (sid : Word) : State :=
  { s with field := { s.field with logins := s.field.logins.filter (fun x => x.sid ≠ sid) } }

/-- R384: LOGIN_PROOF. -/
def State.opLoginProof (s : State) (h : BusHdr) (p : List Byte) : State :=
  s.busRequest 0x12 h p (fun _ s =>
    let sid := BitVec.ofNat 32 (beAt p 0 4)
    match s.field.logins.find? (fun x => decide (x.sid = sid) && !s.due x.at_ (secs 1)) with
    | none => s.busAbort h 0 0 0xB
    | some l =>
      let kl := s.loginKey l
      let s := s.dropLogin sid
      let w := Map.at_ s.field.wrong l.lvl 0
      if p.length = 36 && l.node = h.src && slice p 4 32 = loginProofOf kl "USNAN-LOGIN" l h.dst h.src then
        if 4 ≤ s.field.sessions.length then s.busAbort h 0 0 8
        else
          let ks := hmac256 kl (ascii "USNAN-SESSION" ++ beBytes 4 sid.toNat ++ l.nc ++ l.nd)
          let x : Session := { sid := sid, lvl := l.lvl, ks := ks, rx := 0, tx := 0, node := h.src, at_ := s.clock }
          let s := { s with field := { s.field with
            sessions := s.field.sessions ++ [x], wrong := Map.del s.field.wrong l.lvl } }
          s.busSend 0x13 h.src h.tid 0 (loginProofOf kl "USNAN-ACCEPT" l h.src s.field.node) h.sent
      else
        let s := { s with field := { s.field with wrong := Map.put s.field.wrong l.lvl (w + 1) } }
        let s := if w + 1 < 5 then s
          else { s with field := { s.field with
            lockout := Map.put s.field.lockout l.lvl s.clock, wrong := Map.del s.field.wrong l.lvl } }
        (s.fieldCount 5).busAbort h 0 0 0xB)

/-- R384, R414: a login step has not been answered within 1 s. -/
def State.opLoginTimeout (s : State) (sid : Word) : State :=
  if s.field.logins.any (fun x => decide (x.sid = sid) && s.due x.at_ (secs 1)) then s.dropLogin sid else s

/-- R384: 60 s have passed since the fifth wrong proof. -/
def State.opLockoutEnd (s : State) (lvl : Nat) : State :=
  match Map.get s.field.lockout lvl with
  | some t => if s.due t (secs 60) then { s with field := { s.field with lockout := Map.del s.field.lockout lvl } } else s
  | none => s

/-- R385: a session has accepted no frame for the idle limit. -/
def State.opSessionIdle (s : State) (sid : Word) : State :=
  if s.field.sessions.any (fun x => decide (x.sid = sid) && s.due x.at_ (secs (s.objNat 0x1010 4))) then s.endSession sid
  else s

/-! R376 to R378: the hat line. -/

/-- R376: 1010h.02. -/
def State.hatState (s : State) : Nat :=
  if s.field.node ≠ 0 then (if s.field.hatOut then 3 else 2) else if s.field.hatHeld then 1 else 0

/-- R377: the node gives up its address, its sessions and the hat. -/
def State.opHatReset (s : State) : State :=
  if !s.field.up then s
  else { s with field := { s.field with
    node := 0, hatOut := false, hatHeld := false, hatSince := s.clock, sessions := [], logins := [], asked := [], later := []
    rxFrames := s.field.rxFrames + 1 } }

/-- R376: HAT_IN has been high for 1 ms since HAT_RESET. -/
def State.opHatHeld (s : State) : State :=
  if s.field.up && s.field.node = 0 && s.due s.field.hatSince (msec 1) then
    { s with field := { s.field with hatIn := true, hatHeld := true } }
  else s

/-- R376: HAT_IN falls. -/
def State.opHatLow (s : State) : State :=
  { s with field := { s.field with hatIn := false, hatHeld := false, hatSince := s.clock } }

/-- R377: HAT_ASSIGN; ackSent says whether its HAT_ACK leaves within the attempt limit. R7: an address that is no node's
is refused and counted; DESIGN CHOICE (log 172): with the address conflicts. -/
def State.opHatAssign (s : State) (h : BusHdr) (p : List Byte) (ackSent : Bool) : State :=
  let a := beAt p 0 1
  if !s.field.up || h.dst ≠ 255 then s
  else if s.field.node ≠ 0 && h.src = s.field.node then s.fieldCount 6
  else
    let s := { s with field := { s.field with rxFrames := s.field.rxFrames + 1 } }
    if !s.field.hatHeld || p.length ≠ 5 || h.session ≠ 0 then s
    else if a = 0 || a = 255 then s.fieldCount 6
    else if ackSent then
      let s := { s with field := { s.field with node := BitVec.ofNat 8 a, hatOut := true, hatHeld := false } }
      s.busSend 0x32 h.src h.tid 0
        (slice p 1 4 ++ beBytes 8 Config.serial.toNat ++ s.objBytes 0x1000 2 ++ s.objBytes 0x1000 3)
    else s.fieldCount 0x10

/-- R375, R378, R379: a frame of another EtherType, of another version, or from the node's own address. -/
def State.opForeign (s : State) (ethertype : BitVec 16) (version src : Byte) : State :=
  if !s.field.up then s
  else
    let s := { s with field := { s.field with rxFrames := s.field.rxFrames + 1 } }
    if ethertype ≠ 0x88B5 then s.fieldCount 0x11
    else if version ≠ 1 then s
    else if s.field.node ≠ 0 && src = s.field.node then s.fieldCount 6
    else s

/-! R388: event notices on the bus. -/

/-- R388: EVENT_ACK. -/
def State.opEventAck (s : State) (h : BusHdr) (p : List Byte) : State :=
  match s.busTake 0x21 h p with
  | (some _, t) =>
    { t with field := { t.field with waiting := t.field.waiting.filter (fun n => !(decide (n.seq.toNat = beAt p 0 4) && p.length = 4)) } }
  | (none, t) => t

/-- R388: notices without an acknowledgement for 1 s are sent again. -/
def State.opEventResend (s : State) : State :=
  let dst := s.objNat 0x1010 3
  if !s.field.up || s.field.recovery || dst = 0 || s.field.node = 0 then s
  else
    let late := fun (n : Notice) => s.due n.sentAt (secs 1)
    let l := s.field.waiting.filter late
    let s := l.foldl (fun (s : State) n =>
      s.busEvent (BitVec.ofNat 8 dst) (eventPayload n.seq.toNat n.code n.unit n.time.toNat n.detail)) s
    { s with field := { s.field with
      waiting := s.field.waiting.map (fun n => if s.due n.sentAt (secs 1) then { n with sentAt := s.clock } else n) } }

end Sys2Proof.Machine
end

