-- ==== Sys2Proof/Machine/Tha.lean ====
section
/-! DEFINITION. The Ardar instructions (R352 to R360), the device's side of channels (R360, R363, R364), the
supervisor's page (R362, R365), services (R350, R351), and the read-only words of the THA (R369). -/

namespace Sys2Proof.Machine

/-! R352: instruction words. -/

/-- R352: an R-type word. -/
def rType (f7 rs2 rs1 f3 rd op : Nat) : Word :=
  BitVec.ofNat 32 (f7 * 2 ^ 25 + rs2 * 2 ^ 20 + rs1 * 2 ^ 15 + f3 * 2 ^ 12 + rd * 2 ^ 7 + op)

/-- R344: a thread executes. -/
def State.thRuns (s : State) (t : Nat) : Bool := (s.thread t).st = .running && s.powered (71 + t / 128)

/-- An instruction retires with a result. -/
def State.retire (s : State) (t rd : Nat) (v : BitVec 64) : State :=
  s.modThread t (fun x => { x.setReg rd v with pc := x.pc + 4, past := false })

/-- A register's value. -/
def State.xreg (s : State) (t n : Nat) : BitVec 64 := (s.thread t).reg n

/-! R353: FORK, JOIN, YIELD. -/

/-- R353: a thread of a cluster that FORK takes: on the core with the fewest RUNNING threads. -/
def State.forkPlace (s : State) (k : Nat) : Option Nat :=
  let base := 128 * k
  let free := fun (t : Nat) => t ≠ base && (s.thread t).st = .free
  let running := fun (c : Nat) => ((List.range 16).filter (fun i => (s.thread (base + 16 * c + i)).st = .running)).length
  let cores := (List.range 8).filter (fun c => (List.range 16).any (fun i => free (base + 16 * c + i)))
  let best := cores.foldl (fun (b : Option Nat) c => match b with
    | some x => if running c < running x then some c else some x
    | none => some c) none
  best.bind (fun c => ((List.range 16).map (fun i => base + 16 * c + i)).find? free)

/-- R353: FORK. -/
def State.opFork (s : State) (t rd rs1 rs2 : Nat) (detached : Bool) : State :=
  if !s.thRuns t then s
  else match s.forkPlace (t / 128), s.slotOf (t / 128) with
    | some c, some slot =>
      let sp := 0x40000 - s.desc slot 0x10 4 * (c % 16)
      let x : Thread := { st := .running, pc := s.xreg t rs1, joinable := !detached
                          parent := if detached then none else some (BitVec.ofNat 10 t) }
      let x := ((x.setReg 10 (s.xreg t rs2)).setReg 11 (BitVec.ofNat 64 t)).setReg 2 (BitVec.ofNat 64 sp)
      (s.modThread c (fun _ => x)).retire t rd (BitVec.ofNat 64 c)
    | _, _ => s.retire t rd (-1)

/-- A wait begins. -/
def State.beginWait (s : State) (t : Nat) (w : ThWait) : State :=
  s.modThread t (fun x => { x with st := .waiting, wait := w, waitAt := s.clock, past := false })

/-- R353: JOIN. -/
def State.opJoin (s : State) (t : Nat) (rd : Fin 32) (rs1 : Nat) : State :=
  if !s.thRuns t then s
  else
    let c := (s.xreg t rs1).toNat
    let x := s.thread c
    if 1024 ≤ c || !x.joinable || x.parent.map (fun (p : BitVec 10) => p.toNat) ≠ some t then s.retire t rd.val (-2)
    else if x.st = .ended then (s.modThread c (fun _ => {})).retire t rd.val x.exit
    else s.beginWait t (.join rd (BitVec.ofNat 10 c))

/-- R353: YIELD. -/
def State.opYield (s : State) (t : Nat) : State := if s.thRuns t then s.retire t 0 0 else s

/-- R353: YIELD.E. -/
def State.opYieldE (s : State) (t rs1 : Nat) (w : Word := rType 1 0 rs1 4 0 0x0B) : State :=
  if !s.thRuns t then s
  else if t % 128 = 0 then s.thFault t 1 (w.setWidth 64)
  else s.endThread t (s.xreg t rs1)

/-! R354: TWAIT, TSEND. -/

/-- R354: TWAIT. -/
def State.opTwait (s : State) (t : Nat) (rd : Fin 32) (rs1 rs2 : Nat) : State :=
  if !s.thRuns t then s
  else
    let mask := s.xreg t rs1
    let deadline := s.xreg t rs2
    let got := (s.eventsOf t).setWidth 64 &&& mask
    if got ≠ 0 then (s.modThread t (fun x => { x with events := x.events &&& ~~~(got.setWidth 29) })).retire t rd.val got
    else if deadline ≠ 0 && decide (deadline.toNat ≤ s.repTime (30 + t / 128)) then s.retire t rd.val 0
    else s.beginWait t (.twait rd mask deadline)

/-- R354: a TWAIT's deadline is reached. -/
def State.opTwaitDeadline (s : State) (t : Nat) : State :=
  match (s.thread t).st, (s.thread t).wait with
  | .waiting, .twait rd _ d =>
    if d ≠ 0 ∧ d.toNat ≤ s.repTime (30 + t / 128) then s.leaveWait t rd.val 0 else s
  | _, _ => s

/-- R354: TSEND. -/
def State.opTsend (s : State) (t rd rs1 rs2 : Nat) : State :=
  if !s.thRuns t then s
  else
    let c := (s.xreg t rs1).toNat
    let st := (s.thread c).st
    if c / 128 ≠ t / 128 ∨ st = .free ∨ st = .ended then s.retire t rd (-1)
    else (s.threadEvent c ((s.xreg t rs2).setWidth 24 |>.setWidth 29)).retire t rd 0

/-! R359: channel instructions. -/

/-- R359: CHRES. -/
def State.opChres (s : State) (t : Nat) (rd : Fin 32) (rs1 rs2 : Nat) (nowait : Bool) : State :=
  if !s.thRuns t then s
  else
    let num := (s.xreg t rs1).toNat
    let len := (s.xreg t rs2).toNat
    let w := rType (if nowait then 1 else 0) rs2 rs1 0 rd.val 0x2B
    match s.threadChan t num with
    | none => s.thFault t 8 (w.setWidth 64)
    | some (k, i) =>
      if len < 1 ∨ (s.channel k i).maxMsg < len then s.thFault t 8 (w.setWidth 64)
      else match s.chanReserve k i t len with
        | (some h, s) => s.retire t rd.val h
        | (none, s) => if nowait then s.retire t rd.val (-1) else s.beginWait t (.chres rd (BitVec.ofNat 11 num) len)

/-- R359: the reservation that a handle of a thread names: home cluster, channel and message. -/
def State.findHandle (s : State) (t : Nat) (h : BitVec 64) : Option (Nat × Nat × ChMsg) :=
  (List.range 8).findSome? (fun k => (s.cluster k).chans.findSome? (fun (e : Nat × Channel) =>
    (e.2.msgs.find? (fun m => m.st = .reserved && m.handle = h && m.th.toNat = t && h ≠ 0)).map
      (fun (m : ChMsg) => (k, e.1, m))))

/-- R359: CHPUT. -/
def State.opChput (s : State) (t rd rs1 rs2 n : Nat) : State :=
  if !s.thRuns t then s
  else
    let w := (rType n rs2 rs1 1 rd 0x2B).setWidth 64
    let len := 8 * (n + 1)
    let src := s.xreg t rs2
    match s.findHandle t (s.xreg t rs1) with
    | none => s.thFault t 8 w
    | some (k, i, m) =>
      if m.body.length < m.cursor + len then s.thFault t 8 w
      else match s.thMem t src.toNat len with
        | none => s.thFault t 5 src
        | some a =>
          if s.readBad a len then (s.noteBad a len).thFault t 10 src
          else
            let b := splice m.body m.cursor (s.readBytes a len)
            let s := s.modChannel k i (fun c => { c with msgs := c.msgs.map (fun x =>
              if x.handle = m.handle && x.st = .reserved then { x with body := b, cursor := x.cursor + len } else x) })
            s.retire t rd (BitVec.ofNat 64 (m.body.length - (m.cursor + len)))

/-- R358, R359: CHCOMMIT; a device kind's message is stamped at its retirement. -/
def State.opChcommit (s : State) (t rd rs1 : Nat) (w : Word := rType 0 0 rs1 2 rd 0x2B) : State :=
  if !s.thRuns t then s
  else match s.findHandle t (s.xreg t rs1) with
    | none => s.thFault t 8 (w.setWidth 64)
    | some (k, i, m) =>
      let dev := (s.channel k i).kind ≠ 0
      let g := s.stampTag (.thread (t / 128)) 0 17
      let s := if dev then s.countStamp g else s
      (s.retire t rd 0).chanCommit k i (fun x => x.handle = m.handle && x.st = .reserved) (if dev then g else {})

/-- R359: CHGET. -/
def State.opChget (s : State) (t : Nat) (rd : Fin 32) (rs1 rs2 : Nat) (nowait : Bool) : State :=
  if !s.thRuns t then s
  else
    let num := (s.xreg t rs1).toNat
    let dst := s.xreg t rs2
    let w := (rType (if nowait then 1 else 0) rs2 rs1 3 rd.val 0x2B).setWidth 64
    match s.threadChan t num with
    | none => s.thFault t 8 w
    | some (k, i) =>
      let c := s.channel k i
      if c.kind = 1 ∨ c.kind = 3 then s.thFault t 8 w
      else
        let head := c.msgs.head?.bind (fun (m : ChMsg) => if m.st = .committed then some m else none)
        match head with
        | some m =>
          if (s.thMem t dst.toNat m.body.length).isNone then s.thFault t 6 dst
          else
            let s := ((s.chanTake k i).thCopy t dst.toNat m.body).retire t rd.val (BitVec.ofNat 64 m.body.length)
            s.chanSettle k i
        | none =>
          if nowait then s.retire t rd.val (-1)
          else if (s.thMem t dst.toNat c.maxMsg).isNone then s.thFault t 6 dst
          else s.beginWait t (.chget rd (BitVec.ofNat 11 num) dst)

/-! R355 to R357: LKUP, DMAGO, STAMP. -/

/-- R355: the length of a key, by its target. -/
def lkupLen (target : Nat) : Nat := if target = 1 then 8 else if target = 2 then 40 else 4

/-- R355: LKUP. -/
def State.opLkup (s : State) (t rd rs1 rs2 target table : Nat) (answered : Bool) : State :=
  let s := s.fwtSettle
  if !s.thRuns t then s
  else
    let key := s.xreg t rs1
    let res := s.xreg t rs2
    let mask := match s.slotOf (t / 128) with
      | some slot => s.desc slot 0x16 1
      | none => 0
    if !bit mask target then s.thFault t 9 ((rType (table * 16 + target) rs2 rs1 0 rd 0x5B).setWidth 64)
    else match s.thMem t key.toNat (lkupLen target), s.thMem t res.toNat 32 with
      | none, _ => s.thFault t 5 key
      | _, none => s.thFault t 6 res
      | some a, some r =>
        if s.readBad a (lkupLen target) then (s.noteBad a (lkupLen target)).thFault t 10 key
        else if !answered then s.retire t rd (-1)
        else
          let b := s.readBytes a (lkupLen target)
          let k := if target = 2 then beNat b else if target = 1 then leNat b else leNat b % 2 ^ 20
          match s.globalAnswer table target k with
          | some v => (s.land r (leBytes 32 v)).retire t rd 1
          | none => (s.land r (leBytes 32 0)).retire t rd 0

/-- R356: DMAGO. -/
def State.opDmago (s : State) (t rd rs1 rs2 : Nat) : State :=
  if !s.thRuns t then s
  else
    let c := (s.xreg t rs1).toNat
    let p := s.xreg t rs2
    if c < 512 || decide (4096 ≤ c) || s.chOwner c ≠ 1 || s.chCluster c ≠ t / 128 then s.retire t rd 2
    else if (s.chan c).st ≠ .idle then s.retire t rd 1
    else match State.thLocal t p.toNat 32 with
      | none => s.thFault t 5 p
      | some a => (s.startProg c false (BitVec.ofNat 64 a) (some (BitVec.ofNat 10 t)) .error).retire t rd 0

/-- R357: a stamp record. -/
def stampRecord (g : StampTag) : List Byte :=
  let i := g.inc.getD { time := 0, bound := 0 }
  let fl : Nat := (if g.inc.isSome then 1 else 0) + (match g.core with | .A => 0 | .B => 2)
  leBytes 8 g.raw.time.toNat ++ leBytes 2 g.raw.bound.toNat ++ leBytes 1 fl ++ List.replicate 5 0 ++
  leBytes 8 i.time.toNat ++ leBytes 2 i.bound.toNat ++ List.replicate 6 0

/-- R357: STAMP. -/
def State.opStamp (s : State) (t rd rs1 : Nat) : State :=
  if !s.thRuns t then s
  else
    let g := s.stampTag (.thread (t / 128)) 0 17
    let a := s.xreg t rs1
    if rs1 = 0 then (s.countStamp g).retire t rd g.raw.time
    else match s.thMem t a.toNat 32 with
      | none => s.thFault t 6 a
      | some x => ((s.countStamp g).land x (stampRecord g)).retire t rd g.raw.time

/-! R360, R363, R364: the device's side. -/

/-- R358: the identifier of a channel's source thread. -/
def sourceOf (k : Nat) (c : Channel) : Nat := 128 * k + c.source.toNat

/-- R360: a committed frame-out message is read and its frame handed on. -/
def State.opFrameOut (s : State) (k i : Nat) : State :=
  let c := s.channel k i
  match c.msgs.head? with
  | some m =>
    if c.kind ≠ 1 || m.st ≠ .committed then s
    else
      let len := leAt m.body 2 2
      let p := leAt m.body 0 1 % 4
      if m.body.length < 16 ∨ len < 14 ∨ 9596 < len ∨ m.body.length < 16 + len ∨ s.powered (49 + p) = false then
        ((s.chanTake k i).count (cluCnt k 6)).chanSettle k i
      else if (s.pipe p).internalFull then s
      else
        let got := match s.takeGranted 35 k with
          | some (h, s) => if handlePool h = (sizeFor len).getD 0 then (AllocRes.granted h, s.fillBufs [h] len)
              else (s.opFree 35 h).allocLen 35 k false len none
          | none => if s.mem.waits.any (fun w => w.requester = 35 && w.inst = k) then (AllocRes.waits, s)
              else s.allocLen 35 k false len none
        match got with
        | (.granted h, s) =>
          let f := slice m.body 16 len
          let it : Item := { frame := f, orig := f, tag := m.tag, prio := leAt m.body 1 1 % 8
                             src := 3 * 2 ^ 16 + sourceOf k c, bufs := [h], holder := 35 }
          ((s.chanTake k i).modPipe p (fun x => { x with thread := x.thread ++ [it] })).chanSettle k i
        | (_, s) => s
  | none => s

/-- R360, R78: the plinth port of a cluster presents the head message of one of its channels. -/
def State.opPortPresent (s : State) (k i : Nat) : State :=
  let c := s.channel k i
  match c.msgs.head? with
  | some m =>
    if c.kind ≠ 3 || m.st ≠ .committed then s
    else
      let msg : Msg := { stream := BitVec.ofNat 6 (leAt m.body 0 1), src := BitVec.ofNat 18 (3 * 2 ^ 16 + sourceOf k c)
                         tag := m.tag, data := m.body.drop 8 }
      ((s.chanTake k i).chanSettle k i).present msg
  | none => s

/-- R78: a message that a stage has handed over reaches the plinth. -/
def State.opPresent (s : State) (f : PresentFrom) : State :=
  match f with
  | .port k i => s.opPortPresent k.val i.toNat
  | .inbox =>
    match s.sql.inbox with
    | m :: t => { s with sql := { s.sql with inbox := t } }.present m
    | [] => s

/-- R363: a RESERVED head has been held for 65,536 clocks. -/
def State.opChanHeld (s : State) (k i : Nat) : State :=
  match (s.channel k i).msgs with
  | m :: r =>
    let t := m.headAt.getD s.clock
    if m.st = .reserved && !m.told && s.clocksPast t 65536 then
      let s := s.modChannel k i (fun c => { c with msgs := { m with told := true } :: r })
      (s.count (cluCnt k 1)).supEvent k 2 0 m.th.toNat (BitVec.ofNat 64 (256 * (s.cluster k).scluster + i))
        (BitVec.ofNat 64 (3 * (s.clock - t) / 8))
    else s
  | [] => s

/-- R364: a channel reaches beyond a cluster: a device kind, or a SCOPE with other service clusters. -/
def State.chanBeyond (s : State) (t num : Nat) : Bool :=
  match (s.slotOf (t / 128)).bind (fun (slot : Nat) => s.findChan slot num) with
  | some (k, i) =>
    let c := s.channel k i
    c.kind ≠ 0 || decide (c.scope.toNat ≠ 2 ^ (s.cluster (t / 128)).scluster)
  | none => false

/-- R364: a waiting thread has an external event source armed. -/
def State.armed (s : State) (t : Nat) : Bool :=
  let x := s.thread t
  match x.wait with
  | .twait _ mask d =>
    d ≠ 0 ||
    ((mask.getLsbD 24 || mask.getLsbD 25) && s.dma.ch.any (fun (e : Nat × Chan) =>
      e.2.st ≠ .idle && e.2.thread.map (fun (p : BitVec 10) => p.toNat) = some t)) ||
    (mask.getLsbD 26 && x.mbxWatch ≠ 0) ||
    (mask.getLsbD 27 && x.chWatch.any (fun (w : Nat × Word) => w.2.getLsbD 31 && s.chanBeyond t (bits w.2.toNat 10 0)))
  | .chres _ ch _ => s.chanBeyond t ch.toNat
  | .chget _ ch _ => s.chanBeyond t ch.toNat
  | _ => false

/-- R362: SUP_WAITINFO of a thread. -/
def waitInfo (x : Thread) : Nat :=
  if x.st = .ended then 5 * 2 ^ 28
  else if x.st ≠ .waiting then 0
  else match x.wait with
    | .none => 0
    | .twait .. => 1 * 2 ^ 28
    | .join _ c => 2 * 2 ^ 28 + c.toNat
    | .chres _ ch _ => 3 * 2 ^ 28 + ch.toNat * 2 ^ 16
    | .chget _ ch _ => 4 * 2 ^ 28 + ch.toNat * 2 ^ 16

/-- R364: a cluster's pooled threads all wait, with nothing outside to wake them. -/
def State.opDeadlock (s : State) (k : Nat) : State :=
  let pooled := (List.range 127).map (fun i => 128 * k + 1 + i)
  let live := pooled.filter (fun t => (s.thread t).st ≠ .free && (s.thread t).st ≠ .ended)
  let stuck := live.all (fun t => (s.thread t).st = .waiting && s.clocksPast (s.thread t).waitAt 4096 && !s.armed t)
  if live.isEmpty || !stuck || (s.cluster k).deadTold then s
  else
    let set := live.foldl (fun n t => n + 2 ^ (t % 128)) 0
    let info := (List.range 128).foldl (fun (m : Map Word) i =>
      Map.set m i (BitVec.ofNat 32 (waitInfo (s.thread (128 * k + i)))) 0) []
    let s := s.modCluster k (fun c => { c with waitSet := BitVec.ofNat 128 set, waitInfo := info, deadTold := true })
    ((s.count (cluCnt k 2)).thaEvent k).supEvent k 3 0 0 0 0

/-! R362, R365: the supervisor's commands. -/

/-- R362: the pooled thread of a cluster that SUP_CMD names. -/
def supTarget (k : Nat) (v : Word) : Option Nat :=
  let t := bits v.toNat 9 0
  if t / 128 = k ∧ t % 128 ≠ 0 then some t else none

/-- R362: KILL. -/
def State.opKill (s : State) (k : Nat) (v : Word) : State :=
  match supTarget k v with
  | some t =>
    match (s.thread t).st with
    | .free => s
    | .ended => s
    | .waiting => (s.endThread t (-1)).modCluster k (fun c => { c with deadTold := false })
    | _ => s.endThread t (-1)
  | none => s

/-- R362: RESUME. -/
def State.opResume (s : State) (k : Nat) (v : Word) : State :=
  match supTarget k v with
  | some t =>
    if (s.thread t).st = .stopped ∧ (s.thread t).faulted = true then
      s.modThread t (fun x => { x with st := .running, faulted := false, pc := (s.cluster k).supPc })
    else s
  | none => s

/-- R362: a write of SUP_CMD. -/
def State.opSupCmd (s : State) (k : Nat) (v : Word) : State :=
  match bits v.toNat 31 28 with
  | 1 => s.opKill k v
  | 2 => s.opResume k v
  | _ => s

/-- R362: SUP_EVT_NEXT. -/
def State.opSupNext (s : State) (k : Nat) (v : Word) : State :=
  if v.getLsbD 0 then s.modCluster k (fun c => { c with sup := c.sup.drop 1 }) else s

/-- R365: SUP_KICK. -/
def State.opKick (s : State) (k : Nat) : State :=
  s.modCluster k (fun c => { c with kickAt := s.clock, wdtStop := c.wdtStop.map (fun _ => s.clock) })

/-- R365, R394: the watchdog of a cluster goes on. -/
def State.goWdt (s : State) (k : Nat) : State :=
  s.modCluster k (fun c => { c with wdtStop := none, kickAt := c.kickAt + (s.clock - c.wdtStop.getD s.clock) })

/-- R365: clock units that a cluster's watchdog has counted. -/
def State.wdtRun (s : State) (k : Nat) : Nat := (s.cluster k).wdtStop.getD s.clock - (s.cluster k).kickAt

/-- R365: a cluster's watchdog expires. -/
def State.opWatchdog (s : State) (k : Nat) : State :=
  match s.slotOf k with
  | some slot =>
    if s.field.up && (s.cluster k).wdtStop.isNone && decide (msec (s.desc slot 0x28 4) ≤ s.wdtRun k) then s.startReset k 1
    else s
  | none => s

/-! R350, R351: services. -/

/-- R349: a channel entry of a service's descriptor. -/
def chanOf (e : List Byte) : Channel :=
  { kind := leAt e 2 1, log2 := leAt e 3 1 / 16, core := leAt e 3 1 % 8, ring := leAt e 4 2, maxMsg := leAt e 6 2
    scope := BitVec.ofNat 8 (leAt e 8 1), source := BitVec.ofNat 7 (leAt e 10 2) }

/-- R349: the channel entries of a service: number and channel. -/
def State.descChans (s : State) (slot : Nat) : List (Nat × Channel) :=
  (List.range (s.desc slot 0x2C 2)).map (fun i => (leAt (s.descEntry slot i) 0 2 % 2048, chanOf (s.descEntry slot i)))

/-- R349: the section entries: cores, offset, length, file offset. -/
def State.descSects (s : State) (slot : Nat) : List (Nat × Nat × Nat × Nat) :=
  (List.range (s.desc slot 0x2E 2)).map (fun j =>
    let e := s.descEntry slot (s.desc slot 0x2C 2 + j)
    (leAt e 0 1, leAt e 4 4, leAt e 8 4, leAt e 12 4))

/-- R349: where a ring lies in its core's local SRAM. -/
def Channel.span (c : Channel) : Nat × Nat := (64 * c.ring, 64 * 2 ^ c.log2)

/-- R350: a section or a ring lies outside 256 KiB, two rings overlap, or a ring overlaps a section. -/
def State.badLayout (s : State) (slot : Nat) : Bool :=
  let ch := s.descChans slot
  let se := s.descSects slot
  ch.any (fun c => decide (0x40000 < c.2.span.1 + c.2.span.2)) ||
  se.any (fun e => decide (0x40000 < e.2.1 + e.2.2.1)) ||
  ch.any (fun c => se.any (fun e => bit e.1 c.2.core && overlaps c.2.span.1 c.2.span.2 e.2.1 e.2.2.1)) ||
  (List.range ch.length).any (fun i => (List.range i).any (fun j =>
    match ch[i]?, ch[j]? with
    | some a, some b => a.1 / 256 = b.1 / 256 && a.2.core = b.2.core && overlaps a.2.span.1 a.2.span.2 b.2.span.1 b.2.span.2
    | _, _ => false))

/-- R349, R350: a field of the descriptor is out of range. -/
def State.badDesc (s : State) (slot : Nat) : Bool :=
  let d := s.desc slot
  let n := d 0x04 4 % 16
  let first := d 0x1C 2
  let cnt := d 0x1E 2
  d 0x00 4 ≠ 0x53564301 || n = 0 || decide (8 < n) || d 0x10 4 % 16 ≠ 0 || decide (d 0x10 4 < 512 ∨ 16384 < d 0x10 4) ||
    (cnt ≠ 0 && decide (first < 512 ∨ 1024 < first + cnt)) || decide (d 0x28 4 < 1 ∨ 60000 < d 0x28 4) ||
    decide (2048 < d 0x2C 2) || decide (d 0x2E 2 < 1 ∨ 256 < d 0x2E 2) ||
    (s.descChans slot).any (fun c => decide (3 < c.2.kind) || decide (c.2.log2 < 4 ∨ 11 < c.2.log2) || c.2.maxMsg = 0 ||
      decide (16384 < c.2.maxMsg) || decide (64 * 2 ^ c.2.log2 < c.2.maxMsg + 8) || decide (n ≤ c.1 / 256)) ||
    (s.descSects slot).any (fun e => decide ((s.service slot).image.length < e.2.2.2 + e.2.2.1))

/-- R350, R426: the clusters that a start may take: of no service, and powered or with R426's conditions for it. -/
def State.freeClusters (s : State) : List Nat :=
  (List.range 8).filter (fun k => (s.powered (71 + k) || (s.powered 92 && bit (s.objNat 0x2010 1) (71 + k))) &&
    (s.cluster k).slot.isNone)

/-- R350, R351: the result code of a start. -/
def State.startResult (s : State) (slot : Nat) : Nat :=
  let d := s.desc slot
  let n := d 0x04 4 % 16
  if (s.service slot).state = 0 then 5
  else if s.freeClusters.length < n then 1
  else if (d 0x24 4 ≠ 0 && s.shwin.isNone) || decide (2048 < d 0x20 4 + d 0x24 4) then 2
  else if s.badLayout slot then 3
  else if s.badDesc slot then 4
  else 0

/-- R350: a service starts on its clusters, or its result says why not. -/
def State.startService (s : State) (slot : Nat) : State :=
  let r := s.startResult slot
  if r ≠ 0 then s.modService slot (fun v => { v with result := r })
  else
    let n := s.desc slot 0x04 4 % 16
    let ks := s.freeClusters.take n
    let mask := ks.foldl (fun m k => m + 2 ^ k) 0
    let s := ks.foldl (fun s k => s.powerBit (71 + k)) s
    let s := ks.zipIdx.foldl (fun (s : State) (e : Nat × Nat) =>
      let mine := (s.descChans slot).filter (fun c => c.1 / 256 = e.2)
      let ch := mine.foldl (fun (m : Map Channel) (c : Nat × Channel) => Map.put m (c.1 % 256) c.2) []
      s.modCluster e.1 (fun _ => { slot := some (Fin.ofNat 8 slot), scluster := e.2, chans := ch })) s
    let s := ks.foldl (fun s k => (s.loadCluster slot k).startSup slot k) s
    s.modService slot (fun v => { v with state := 2, clusters := BitVec.ofNat 8 mask, result := 0, resets := 0, cause := 0 })

/-- The clusters of a service. -/
def State.clustersOf (s : State) (slot : Nat) : List Nat := (List.range 8).filter (fun k => s.slotOf k = some slot)

/-- R350: a write of 01h to the command of a slot: abort code and state. -/
def State.opStart (s : State) (slot : Nat) : Nat × State :=
  if (s.service slot).state = 2 then (9, s) else (0, s.startService slot)

/-- R350: a stop: every thread ends, steps 2 and 3 of R366 run, as the operator's (log 99), and the clusters are
released. -/
def State.stopService (s : State) (slot : Nat) : State :=
  let ks := s.clustersOf slot
  let s := ks.foldl (fun s k => (s.clearCluster k).resetStep3 slot k 3) s
  let s := { s with tha := { s.tha with
    threads := s.tha.threads.filter (fun (e : Nat × Thread) => !ks.contains (e.1 / 128))
    dbg := s.tha.dbg.filter (fun t => !ks.contains (t / 128)) } }
  let s := ks.foldl (fun s k => s.modCluster k (fun _ => {})) s
  s.modService slot (fun v => { v with state := 3, clusters := 0 })

/-- R350: a write of 02h. -/
def State.opStop (s : State) (slot : Nat) : Nat × State :=
  if (s.service slot).state ≠ 2 then (9, s) else (0, s.stopService slot)

/-- R351: a write of 03h. -/
def State.opRestart (s : State) (slot : Nat) : Nat × State :=
  if (s.service slot).state ≠ 2 then (9, s)
  else (0, (s.clustersOf slot).foldl (fun s k => s.startReset k 3) s)

/-! R369: read-only words. -/

/-- R338, R369: threads of a cluster in the terms of its book: free, running, waiting, stopped. -/
def State.threadBook (s : State) (k : Nat) : Nat × Nat × Nat × Nat :=
  let n := fun (p : ThSt → Bool) => ((List.range 127).filter (fun i => p (s.thread (128 * k + 1 + i)).st)).length
  (n (· = .free), n (· = .running), n (fun x => x = .waiting || x = .ended), n (· = .stopped))

/-- R369: WDT_LEFT. -/
def State.wdtLeft (s : State) (k : Nat) : Nat :=
  match s.slotOf k with
  | some slot => min 0xFFFF (s.desc slot 0x28 4 - s.wdtRun k / 4000000)
  | none => 0

/-- R369: the read-only words of the THA. -/
def State.thaView (s : State) (o : Nat) : Option Nat :=
  if o = 0 then
    some ((if s.mem.reduced then 2 ^ 31 else 0) + (List.range 8).foldl (fun w k =>
      w + (if (s.slotOf k).isSome then 2 ^ (8 + k) else 0) + (if s.powered (71 + k) then 2 ^ k else 0)) 0)
  else if 0x100 ≤ o ∧ o < 0x180 then
    let k := (o - 0x100) / 16
    let c := s.cluster k
    if o % 16 = 0 then
      some ((if c.slot.isSome then 2 ^ 31 else 0) + (if c.resetAt.isSome then 2 ^ 30 else 0) +
        (if (s.thread (128 * k)).st = .stopped then 2 ^ 29 else 0) + ((s.slotOf k).getD 0) * 2 ^ 24 +
        (if c.slot.isSome then c.scluster else 0) * 2 ^ 16 + s.wdtLeft k)
    else if o % 16 = 8 then
      let (f, r, w, st) := s.threadBook k
      some (f * 2 ^ 24 + r * 2 ^ 16 + w * 2 ^ 8 + st)
    else none
  else if o = 0x1000 then some (s.regBits (THA + 0x1000) 3 0 + s.tha.dbgStat * 2 ^ 24)
  else none

end Sys2Proof.Machine
end

