-- ==== Sys2Proof/Machine/Objects.lean ====
section
/-! DEFINITION. The object dictionary as it reads (R10, R11, R76, R110, R213, R351, R373, R382, R383, R386, R417,
R428). -/

namespace Sys2Proof.Machine

/-! R106: the leaves that are reserved. -/

/-- R106: the start of the block behind those reserved: the higher valid value of the two sectors. -/
def Field.leafRes (f : Field) : Nat :=
  max ((f.leafSec0.map Prod.fst).getD 0) ((f.leafSec1.map Prod.fst).getD 0)

/-- R106: the start of the following block is written, to the sector that was not written last. -/
def Field.reserve (f : Field) (v : Nat) : Field :=
  let c0 := (f.leafSec0.map Prod.snd).getD 0
  let c1 := (f.leafSec1.map Prod.snd).getD 0
  if c1 < c0 then { f with leafSec1 := some (v, c0 + 1) } else { f with leafSec0 := some (v, c1 + 1) }

/-- R382: the payload of an OBJ_WRITE of a whole value. -/
def wholeWrite (idx sub : Nat) (v : List Byte) : List Byte :=
  beBytes 2 idx ++ beBytes 1 sub ++ [0] ++ beBytes 4 0 ++ beBytes 4 v.length ++ v

/-- R386: whether an index holds an object. -/
def objKnown (idx : Nat) : Bool := (objTop idx).isSome

/-- R76: A000h as the latest time-quality report gives it; none before the first report. -/
def State.timeObject (s : State) (sub : Nat) : Option Nat :=
  let r := s.field.report
  if r.isEmpty then none
  else match sub with
    | 1 => some (beAt r 0 1)
    | 2 => some (beAt r 1 1)
    | 3 => some (beAt r 2 1)
    | 4 => some (beAt r 36 8)
    | 5 => some (if beAt r 0 1 = 0 then beAt r 4 4 else beAt r 8 4)
    | 6 => some (beAt r 16 4)
    | 7 => some (beAt r 32 4)
    | 8 => some (beAt r 20 8)
    | 9 => some (beAt r 28 4)
    | _ => none

/-- R386: a count of events of the field side. -/
def State.fieldCounter (s : State) (sub : Nat) : Nat := Map.at_ s.field.counts sub 0

/-- R423, R428: F020h. -/
def State.telemetry (s : State) (sub : Nat) : Option Nat :=
  match sub with
  | 1 => some (BitVec.ofInt 32 s.field.tempMain).toNat
  | 2 => some (BitVec.ofInt 32 s.field.tempHbm).toNat
  | 3 => some (BitVec.ofInt 32 s.field.tempField).toNat
  | 4 => some s.field.volt
  | 5 => some (if s.pwr.avsThere then s.field.current.toNat else 0)
  | 8 => some s.field.trips
  | 9 => some (if s.pwr.avsThere then 1 else 0)
  | _ => none

/-- R390 to R392: the mailbox slot that an object names: the table it stands in (0 host-to-field, 1 field-to-host,
2 thread to-field, 3 thread from-field), the channel and the sub-index as the host channels number it. -/
def mboxObject (idx sub : Nat) : Option (Nat × Nat × Nat) :=
  if 0x3000 ≤ idx ∧ idx < 0x3040 then some (0, idx - 0x3000, sub)
  else if 0x3100 ≤ idx ∧ idx < 0x3140 then some (1, idx - 0x3100, sub)
  else if 0x3200 ≤ idx ∧ idx < 0x3210 then (if sub ≤ 4 then some (2, idx - 0x3200, sub) else some (3, idx - 0x3200, sub - 4))
  else none

/-- The mailbox slot of a table and a channel. -/
def State.mbox (s : State) (k c : Nat) : Mbox :=
  let f := s.field
  Map.at_ (match k with | 0 => f.h2f | 1 => f.f2h | 2 => f.thaTo | _ => f.thaFrom) c {}

/-- A mailbox slot is changed. -/
def State.modMbox (s : State) (k c : Nat) (g : Mbox → Mbox) : State :=
  let f := s.field
  let v := g (s.mbox k c)
  match k with
  | 0 => { s with field := { f with h2f := Map.set f.h2f c v {} } }
  | 1 => { s with field := { f with f2h := Map.set f.f2h c v {} } }
  | 2 => { s with field := { f with thaTo := Map.set f.thaTo c v {} } }
  | _ => { s with field := { f with thaFrom := Map.set f.thaFrom c v {} } }

/-- R390 to R392: what a mailbox object reads. -/
def State.mboxValue (s : State) (k c sub : Nat) : List Byte :=
  let m := s.mbox k c
  if k = 0 ∨ k = 2 then
    match sub with
    | 1 => beBytes 1 m.state
    | 2 => if m.state = 1 then m.shown else []
    | 3 => if m.state = 1 then beBytes 4 m.who.toNat else beBytes 4 0
    | _ => []
  else
    match sub with
    | 1 => beBytes 1 m.state
    | 3 => if m.state = 3 then beBytes 2 m.code.toNat else beBytes 2 0
    | _ => []

/-- R351: a service object. -/
def State.serviceObject (s : State) (slot sub : Nat) : Option (List Byte) :=
  let v := s.service slot
  match sub with
  | 1 => some (beBytes 1 v.state)
  | 4 => some v.digest
  | 5 => some [v.clusters]
  | 6 => some (beBytes 1 v.result)
  | 7 => some (beBytes 4 v.resets)
  | 8 => some (beBytes 1 v.cause)
  | _ => none

/-- R388, R386: F010h.01, the last 64 notices, 16 bytes each: SEQ, CODE, UNIT, zero and the device time. -/
def State.eventLog (s : State) : List Byte :=
  (s.field.log.map (fun n => (eventPayload n.seq.toNat n.code n.unit n.time.toNat []).take 16)).flatten

/-- The values that the device computes; none where the stored value stands. -/
def State.objComputed (s : State) (idx sub : Nat) : Option (List Byte) :=
  let f := s.field
  let n := fun (w v : Nat) => some (beBytes w v)
  match mboxObject idx sub with
  | some (k, c, x) => some (s.mboxValue k c x)
  | none =>
    if 0x2100 ≤ idx ∧ idx < 0x2108 then s.serviceObject (idx - 0x2100) sub
    else if 0x2F10 = idx then n 1 (s.counterOf (sub - 1))
    else if 0xA070 = idx then n 4 (s.repStat (sub - 1))
    else if 0xA000 = idx then
      (s.timeObject sub).map (fun v => beBytes (if sub ≤ 3 then 1 else if sub = 4 ∨ sub = 8 then 8 else 4) v)
    else if 0xF020 = idx then
      (s.telemetry sub).map (fun v => beBytes (if sub = 4 then 2 else if sub = 9 then 1 else 4) v)
    else match idx, sub with
      | 0x1000, 4 => n 8 Config.serial.toNat
      | 0x1000, 5 => n 4 (imgVersion s.fieldImage)
      | 0x1000, 6 => n 4 (imgVersion s.pwr.hdr)
      | 0x1010, 1 => n 1 f.node.toNat
      | 0x1010, 2 => n 1 s.hatState
      | 0x1010, 5 => n 1 f.sessions.length
      | 0x2000, 1 => n 1 f.mainSt
      | 0x2010, 2 => n 12 s.pwr.domains.toNat
      | 0x2F00, 1 => n 1 f.imgState
      | 0x2F00, 2 => n 1 f.imgResult
      | 0xF000, 1 => n 4 f.restarts
      | 0xF000, 2 => n 1 f.cause
      | 0xF000, 3 => n 8 f.rxFrames
      | 0xF000, x => n 4 (s.fieldCounter x)
      | 0xF010, 1 => some s.eventLog
      | 0x2080, 2 => n 1 s.rwc.fenced.toNat
      | 0x2080, 3 => n 4 s.rwc.fails
      | 0xA100, 1 => n 4 s.sql.run.toNat
      | 0xA100, 2 => n 8 s.sql.recCount.toNat
      | 0xA100, 3 => n 8 (s.sql.blockLast.getD 0).toNat
      | 0xA100, 4 => n 8 (s.sql.sealLast.getD 0).toNat
      | 0xA100, 5 => n 8 (f.sealEnd.getD 0).toNat
      | 0xA100, 6 => some (slicePad s.sql.chain 0 32)
      | 0xA130, 1 => some f.sealPub
      | 0xA130, 2 => some f.sealHss
      | 0xA130, 3 => n 8 (f.leaf - f.forfeited)
      | 0xA130, 4 => n 8 f.leafRes
      | 0xA130, 5 => n 8 f.forfeited
      | 0xA131, 1 => some s.sealCert
      | 0x2F20, 1 => n 1 f.life
      | 0x2F20, 3 => n 1 f.enrolStat
      | 0x2F31, 2 => some s.opSalt
      | 0x2F31, 3 => n 4 s.opIter
      | 0x2F32, 1 => some (s.spdmChain 0)
      | 0x2F32, 2 => some (s.spdmChain 1)
      | 0x2F40, 1 => n 1 s.doors
      | 0x2F50, 2 => some f.quote
      | _, _ => none

/-- R11, R386: what an object reads. -/
def State.objValue (s : State) (idx sub : Nat) : List Byte := (s.objComputed idx sub).getD (s.objBytes idx sub)

/-- R373, R383: the unit on the main die that holds or serves an object is powered and the main die is RUNNING. -/
def State.unitThere (s : State) (idx : Nat) (r : ObjRow) : Bool :=
  !r.main || (s.running && s.powered 95 && s.gloveH.peerUp &&
    (if 0xA020 ≤ idx ∧ idx ≤ 0xA070 then s.powered 79 || s.powered 80
     else if idx = 0xA100 then s.powered 81 || s.powered 82
     else if idx = 0x2080 then s.powered 57 || s.powered 58
     else true))

/-- R383: a read of an object at a level: its abort code, or its type code and value. -/
def State.readObject (s : State) (lvl idx sub : Nat) : Nat × Nat × List Byte :=
  if !objKnown idx || (s.field.recovery && idx ≠ 0x1000) then (1, 0, [])
  else if sub = 0 then (0, 1, beBytes 1 ((objTop idx).getD 0))
  else match findObj idx sub with
    | none => (2, 0, [])
    | some r =>
      if lvl < r.rl then (3, 0, [])
      else if r.acc = .wo then (4, 0, [])
      else if !s.unitThere idx r then (7, 0, [])
      else (0, r.typ.code, s.objValue idx sub)

/-- R383: a whole value lies outside its object's range. -/
def outOfRange (r : ObjRow) (v : Option (List Byte)) : Bool :=
  match r.typ, v with
  | .str _ _, _ => false
  | .dom _ _, _ => false
  | _, none => false
  | _, some b => decide (beNat b < r.lo ∨ r.hi < beNat b)

/-- R383 checks 1 to 7 of a write of a whole value at a level: the abort code, 0 where all pass. DEDUCED (log 173): a
read-only object and a sub-index 00h too ask for the level of a write first. -/
def State.writeCheck (s : State) (lvl idx sub len : Nat) (v : Option (List Byte)) : Nat :=
  if !objKnown idx || s.field.recovery then 1
  else if sub = 0 then (if lvl < 1 then 3 else 4)
  else match findObj idx sub with
    | none => 2
    | some r =>
      if lvl < r.wl then 3
      else if r.acc = .ro then 4
      else if len < r.typ.len.1 || r.typ.len.2 < len then 5
      else if outOfRange r v then 6
      else if !s.unitThere idx r then 7
      else 0

end Sys2Proof.Machine
end

