-- ==== Sys2Proof/Machine/Glove.lean ====
section
/-! DEFINITION. The glove (R371 to R373), the mailboxes (R389 to R393), event notices (R388), time-quality reports (R73)
and seals (R103 to R106) as they cross it. -/

namespace Sys2Proof.Machine

/-- The other side of the glove. -/
def otherSide : Side → Side
  | .host => .field
  | .field => .host

/-- R397: bits of GLV_EVT set. -/
def State.glvEvent (s : State) (b : Nat) : State := s.setEvt glvEvt 15 (BitVec.ofNat 32 (2 ^ b))

/-- R372: the types that a side receives, with the least and the greatest payload. -/
def gloveTypes : Side → List (Nat × Nat × Nat)
  | .host => [(0x01, 8, 1036), (0x02, 8, 1036), (0x10, 12, 268), (0x11, 8, 8), (0x21, 4, 3944), (0x30, 16, 80),
      (0x40, 16, 16), (0x50, 16, 4112)]
  | .field => [(0x01, 8, 1036), (0x02, 8, 1036), (0x10, 12, 268), (0x11, 8, 8), (0x20, 96, 96), (0x30, 16, 80),
      (0x41, 8, 8), (0x51, 8, 8), (0x60, 64, 64)]

/-- R372: a message that a side may receive: its type, its sender and its length are those of the table. -/
def gloveGood (d : Side) (m : GloveMsg) : Bool :=
  (gloveTypes d).any (fun r => decide (m.typ.toNat = r.1 ∧ r.2.1 ≤ m.payload.length ∧ m.payload.length ≤ r.2.2)) &&
  (m.typ ≠ 0x21 || m.payload.length = 4 || m.payload.length = 3944)

/-- R371: a side of the glove runs. -/
def State.sideRuns (s : State) : Side → Bool
  | .host => s.powered 95
  | .field => s.field.up && !s.field.recovery

/-- R371: a side has taken a message of this SEQ already; 0 it is the next one, 1 it has, 2 it lies beyond the next. -/
def seqOrder (last : Option (BitVec 16)) (q : BitVec 16) : Nat :=
  match last with
  | none => 0
  | some l =>
    let d := (q - l).toNat
    if d = 1 then 0 else if d = 0 || decide (0x8000 ≤ d) then 1 else 2

/-- R371: a sender's message is acknowledged. -/
def State.gloveAcked (s : State) (d : Side) (q : BitVec 16) : State :=
  let g := s.glove d
  let s := s.setGlove d { g with sent := g.sent.filter (fun m => m.seq ≠ q), fails := 0, err := false, retryAt := s.clock }
  { s with gloveH := { s.gloveH with err := false } }

/-- R371, R372: a message reaches a side. The main die takes no notices: one that reaches it is acknowledged and has no
effect (log 147). -/
def State.opGloveReceive (s : State) (d : Side) (m : GloveMsg) (crc : Word) : State :=
  if !s.sideRuns d then s
  else
    let s := s.setGlove d { s.glove d with heardAt := s.clock }
    let o := seqOrder (s.glove d).last m.seq
    if crc ≠ gloveCrc m || o = 2 then s
    else
      let s := (s.emit (.gloveAck d m.seq)).gloveAcked (otherSide d) m.seq
      if o = 1 then s
      else
        let g := s.glove d
        if gloveGood d m then
          s.setGlove d { g with last := some m.seq, inbox := if d = .host && m.typ = 0x30 then g.inbox else g.inbox ++ [m] }
        else
          let s := s.setGlove d { g with last := some m.seq }
          match d with
          | .host => (s.count glvBadMsg).glvEvent 2
          | .field => s.fieldCount 8

/-- R371: messages without an acknowledgement are sent again; the sixteenth failure resets the link first. -/
def State.opRetransmit (s : State) (d : Side) : State :=
  let g := s.glove d
  let again := fun (s : State) => g.sent.foldl (fun s m => s.gloveOut d m) s
  if !s.sideRuns d || g.sent.isEmpty || !s.due g.retryAt (usec 20) then s
  else if g.fails + 1 < 16 then again (s.setGlove d { g with fails := g.fails + 1, retryAt := s.clock })
  else
    let s := again (s.setGlove d { g with fails := 0, retryAt := s.clock })
    let s := { s with gloveH := { s.gloveH with err := true } }
    if s.powered 95 then s.count glvLinkReset else s

/-- The first message of a side's inbox, when it has a type, and the state without it. -/
def State.takeMsg (s : State) (d : Side) (typ : Nat) : Option (List Byte × State) :=
  let g := s.glove d
  match g.inbox with
  | m :: t => if m.typ.toNat = typ && s.sideRuns d then some (m.payload, s.setGlove d { g with inbox := t }) else none
  | [] => none

/-! R389 to R393: mailboxes. -/

/-- R372: the payload of an MBX message: table, channel, sender, length, body. -/
def mbxPayload (k c : Nat) (m : Mbox) : List Byte :=
  [BitVec.ofNat 8 k, BitVec.ofNat 8 c, 0, 0] ++ beBytes 4 m.sender.toNat ++ beBytes 4 m.body.length ++ m.body

/-- R372: the payload of an MBX_ACK: table, channel, code. -/
def mbxAckPayload (k c : Nat) (code : BitVec 16) : List Byte :=
  [BitVec.ofNat 8 k, BitVec.ofNat 8 c] ++ beBytes 2 code.toNat ++ [0, 0, 0, 0]

/-! R397: GLV registers of the mailboxes. -/
abbrev mbxOwner (c : Nat) : Nat := GLV + 0x200 + 8 * c
abbrev h2fData (c w : Nat) : Nat := GLV + 0x10000 + 0x200 * c + 4 * w
abbrev h2fSend (c : Nat) : Nat := GLV + 0x10100 + 0x200 * c
abbrev f2hAckReg (c : Nat) : Nat := GLV + 0x20108 + 0x200 * c

/-- R389: a requester owns a host-to-field channel, which is enabled. -/
def State.ownsMbx (s : State) (req : Requester) (c : Nat) : Bool :=
  let o := s.getReg (mbxOwner c)
  o.getLsbD 31 && (match req with
    | .pcie id _ => !o.getLsbD 30 && o.extractLsb' 0 16 = id
    | .thread t => o.getLsbD 30 && o.extractLsb' 0 10 = t)

/-- R389: the stamped identity of a sender. -/
def senderOf : Requester → Word
  | .pcie id _ => id.setWidth 32
  | .thread t => 0x80000000 ||| t.setWidth 32

/-- R390, R393: a message is posted: it crosses at once, or is held while the field side is down. -/
def State.postMbx (s : State) (k c : Nat) (sender : Word) (body : List Byte) : State :=
  let held := !s.gloveH.peerUp
  let st := s.mbox k c
  let m : Mbox := { st with full := true, done := false, held := held, body := body, sender := sender }
  let s := s.modMbox k c (fun _ => m)
  if held then s else s.gloveSend .host 0x10 (mbxPayload k c m)

/-- R390, R392: the thread-array half of a channel: a body word, 8 bytes of which stand in the thread's address space. -/
def thaData (t : Nat) : Nat := 0x04000000 + 0x1000 * t

/-- R389: a thread belongs to the service that owns a thread-array channel. -/
def State.ownsThaMbx (s : State) (th t : Nat) : Bool := s.slotOf (th / 128) = some (s.mainNat 0x2200 (t + 1))

/-- R390: a whole write of SEND; the body stands in the channel's DATA words. -/
def State.opMbxSend (s : State) (req : Requester) (ch : MbxChan) (v : Word) : State :=
  let len := bits v.toNat 8 0
  match ch with
  | .host c =>
    if !s.powered 95 then s.accErr errOff (h2fSend c)
    else if !s.ownsMbx req c then s.count glvMbxDeny
    else if (s.mbox 0 c).full then s.accErr errBusy (h2fSend c)
    else if len = 0 || decide (256 < len) then s
    else
      let body := ((List.range 64).map (fun w => leBytes 4 (s.regNat (h2fData c w)))).flatten.take len
      s.postMbx 0 c (senderOf req) body
  | .thread t =>
    match req with
    | .pcie _ _ => s
    | .thread th =>
      if !s.powered 95 || !s.ownsThaMbx th.toNat t || (s.mbox 2 t).full || len = 0 || decide (256 < len) then s
      else
        let slot := (s.slotOf (th.toNat / 128)).getD 0
        s.postMbx 2 t (senderOf req ||| BitVec.ofNat 32 (slot * 2 ^ 10))
          (slicePad (s.mbox 2 t).data 0 len)

/-- R392: event bit 26 in each thread that watches a channel. -/
def State.mbxArrival (s : State) (t : Nat) : State :=
  (s.tha.threads.filter (fun (e : Nat × Thread) => e.2.mbxWatch.getLsbD t && e.2.st ≠ .free)).foldl
    (fun (s : State) (e : Nat × Thread) =>
      if s.ownsThaMbx e.1 t then s.threadEvent e.1 (BitVec.ofNat 29 (2 ^ 26)) else s) s

/-- R390 to R392: an MBX message delivers its body. -/
def State.opMbx (s : State) (d : Side) : State :=
  match s.takeMsg d 0x10 with
  | none => s
  | some (p, s) =>
    let k := beAt p 0 1
    let c := beAt p 1 1
    let n := beAt p 8 4
    let body := slice p 12 n
    let sender := BitVec.ofNat 32 (beAt p 4 4)
    let there := if k ≤ 1 then decide (c < 64) else k ≤ 3 && decide (c < 16)
    if !there || n = 0 || decide (256 < n) || body.length ≠ n then s
    else match d with
      | .field =>
        if k = 0 ∨ k = 2 then
          s.modMbox k c (fun m => { m with state := 1, shown := body, who := sender, old := false })
        else s
      | .host =>
        if k = 1 ∨ k = 3 then
          let s := s.modMbox k c (fun m => { m with full := true, shown := body, who := sender })
          if k = 3 then s.mbxArrival c else s
        else s

/-- R390, R391: an MBX_ACK returns a channel's code. -/
def State.opMbxAck (s : State) (d : Side) : State :=
  match s.takeMsg d 0x11 with
  | none => s
  | some (p, s) =>
    let k := beAt p 0 1
    let c := beAt p 1 1
    let code := BitVec.ofNat 16 (beAt p 2 2)
    let m := s.mbox k c
    if (if k ≤ 1 then decide (64 ≤ c) else decide (3 < k) || decide (16 ≤ c)) then s
    else match d with
      | .host =>
        if (k = 0 ∨ k = 2) ∧ m.full then s.modMbox k c (fun m => { m with full := false, done := true, held := false, code := code })
        else s
      | .field =>
        if (k = 1 ∨ k = 3) ∧ m.state = 2 then s.modMbox k c (fun m => { m with state := 3, code := code })
        else s

/-- R390: the operator writes a return code; its abort code. -/
def State.opMbxReturn (s : State) (lvl k c : Nat) (code : BitVec 16) : Nat × State :=
  let m := s.mbox k c
  if lvl < 1 then (3, s)
  else if m.state ≠ 1 then (9, s)
  else
    let s := s.modMbox k c (fun m => { m with state := 0, old := false })
    (0, if m.old then s else s.gloveSend .field 0x11 (mbxAckPayload k c code))

/-- R391: the operator writes a body; it crosses at once, or is held while the main die is not RUNNING. -/
def State.opF2hBody (s : State) (lvl : Nat) (node : Byte) (k c : Nat) (body : List Byte) : Nat × State :=
  let m := s.mbox k c
  if lvl < 1 then (3, s)
  else if body.isEmpty || decide (256 < body.length) then (5, s)
  else if m.state ≠ 0 && m.state ≠ 3 then (9, s)
  else
    let go := s.running && s.gloveF.peerUp
    let x : Mbox := { m with
      state := if go then 2 else 1, body := body
      sender := BitVec.ofNat 32 (lvl * 256 + node.toNat) }
    let s := s.modMbox k c (fun _ => x)
    (0, if go then s.gloveSend .field 0x10 (mbxPayload k c x) else s)

/-- R391, R392: the manager or a thread writes ACK. -/
def State.opF2hAck (s : State) (req : Requester) (ch : MbxChan) (code : Word) : State :=
  let answer := fun (s : State) (k c : Nat) =>
    let s := s.modMbox k c (fun m => { m with
      full := false, held := !s.gloveH.peerUp, code := if s.gloveH.peerUp then m.code else code.setWidth 16 })
    if s.gloveH.peerUp then s.gloveSend .host 0x11 (mbxAckPayload k c (code.setWidth 16)) else s
  match ch with
  | .host c =>
    if !s.powered 95 then s.accErr errOff (f2hAckReg c)
    else if !(s.mbox 1 c).full then s.accErr errBusy (f2hAckReg c)
    else answer s 1 c
  | .thread t =>
    match req with
    | .pcie _ _ => s
    | .thread th => if s.ownsThaMbx th.toNat t && (s.mbox 3 t).full then answer s 3 t else s

/-- R393: held messages and acknowledgements of the host side, in channel order. -/
def State.sendHeld (s : State) : State :=
  let one := fun (k : Nat) (s : State) (c : Nat) =>
    let m := s.mbox k c
    if !m.held then s
    else
      let s := s.modMbox k c (fun m => { m with held := false })
      if k = 0 ∨ k = 2 then s.gloveSend .host 0x10 (mbxPayload k c m)
      else s.gloveSend .host 0x11 (mbxAckPayload k c m.code)
  let s := (List.range 64).foldl (one 0) s
  let s := (List.range 64).foldl (one 1) s
  let s := (List.range 16).foldl (one 2) s
  (List.range 16).foldl (one 3) s

/-- R391, R393: field-to-host messages held on the field side cross once the main die is RUNNING. -/
def State.deliverHeld (s : State) : State :=
  let one := fun (k : Nat) (s : State) (c : Nat) =>
    let m := s.mbox k c
    if m.state = 1 then (s.modMbox k c (fun m => { m with state := 2 })).gloveSend .field 0x10 (mbxPayload k c m) else s
  let s := (List.range 64).foldl (one 1) s
  (List.range 16).foldl (one 3) s

/-- R393: the main die resets: its slots empty; messages shown are from its previous run, and a delivered message that
is not acknowledged returns to held. -/
def State.mbxMainReset (s : State) : State :=
  let host := fun (m : Mbox) => { m with full := false, done := false, held := false, code := 0, data := [], old := decide (m.state = 1) }
  let from_ := fun (m : Mbox) => { m with full := false, held := false, shown := [], state := if m.state = 2 then 1 else m.state }
  let f := s.field
  { s with field := { f with
    h2f := f.h2f.map (fun e => (e.1, host e.2)), thaTo := f.thaTo.map (fun e => (e.1, host e.2))
    f2h := f.f2h.map (fun e => (e.1, from_ e.2)), thaFrom := f.thaFrom.map (fun e => (e.1, from_ e.2)) } }

/-- R393: the field side restarts: a held field-to-host message is lost, and what it showed is shown again when the
host side sends it again. -/
def State.mbxFieldRestart (s : State) : State :=
  let to_ := fun (m : Mbox) => { m with state := 0, old := false }
  let from_ := fun (m : Mbox) => if m.state = 1 then { m with state := 0 } else m
  let f := s.field
  { s with field := { f with
    h2f := f.h2f.map (fun e => (e.1, to_ e.2)), thaTo := f.thaTo.map (fun e => (e.1, to_ e.2))
    f2h := f.f2h.map (fun e => (e.1, from_ e.2)), thaFrom := f.thaFrom.map (fun e => (e.1, from_ e.2)) } }

/-! R278: the answer that a lost exchange gets. -/

/-- R278: an SPDM ERROR of a code. -/
def spdmError (code data : Nat) : List Byte := [0x12, 0x7F, BitVec.ofNat 8 code, BitVec.ofNat 8 data]

/-- R278: an exchange that waits for the field side ends with ERROR Busy. -/
def State.spdmBusy (s : State) : State :=
  match s.hep.doe with
  | none => s
  | some _ => { s with hep := { s.hep with doe := none, doeBuf := [], doeChain := none, doePart := [] } }.doeAnswer (spdmError 3 0)

/-! R373: object requests across the glove. -/

/-- R372, R382: an answer to an object request; byte 3 is FFh in an abort. -/
def abortBytes (p : List Byte) (code : Nat) : List Byte := slicePad p 0 3 ++ [0xFF] ++ beBytes 2 code ++ [0, 0]

/-- R373: every bus request that waits for the main die is answered with abort code 7: the main die or the link to it
is gone. -/
def State.dropAsked (s : State) : State :=
  s.field.asked.foldl (fun (s : State) q => s.busAbort q.hdr (beAt q.data 0 2) (beAt q.data 2 1) 7)
    { s with field := { s.field with asked := [] } }

/-! R371, R394: the link goes down and comes up. -/

/-- R371, R393, R394: a side that has received nothing for 5 ms declares the other side down. -/
def State.opPeerDown (s : State) (d : Side) : State :=
  let g := s.glove d
  if !s.sideRuns d || !g.peerUp || !s.due g.heardAt (msec 5) then s
  else match d with
    | .field => { s with gloveF := { g with peerUp := false, lost := true } }.dropAsked
    | .host =>
      let evs := (g.sent.filter (fun m => m.typ = 0x30)).map (fun m => m.payload)
      let acks := g.sent.filter (fun m => m.typ = 0x11)
      let s := acks.foldl (fun (s : State) (m : GloveMsg) =>
        s.modMbox (beAt m.payload 0 1) (beAt m.payload 1 1) (fun x =>
          { x with held := true, code := BitVec.ofNat 16 (beAt m.payload 2 2) })) s
      let s := { s with gloveH := { g with
        peerUp := false, lost := true, sent := [], evq := (g.evq ++ evs).take 64 } }
      let s := s.countN glvEvtLost ((g.evq ++ evs).length - 64)
      let hold := fun (m : Mbox) => { m with held := m.held || m.full }
      let f := s.field
      let s := { s with field := { f with
        h2f := f.h2f.map (fun (e : Nat × Mbox) => (e.1, hold e.2))
        thaTo := f.thaTo.map (fun (e : Nat × Mbox) => (e.1, hold e.2)) } }
      let s := (List.range 8).foldl (fun s k => if (s.cluster k).slot.isSome then s.holdWdt k else s) s
      (s.pendOutstanding.spdmBusy).glvEvent 0

/-- R394: the supervisors' watchdogs restart their full period. -/
def State.freshWdt (s : State) : State :=
  (List.range 8).foldl (fun s k =>
    if (s.cluster k).slot.isSome then
      s.modCluster k (fun c => { c with
        kickAt := s.clock, wdtStop := if s.tha.dbg.contains (128 * k) then some s.clock else none })
    else s) s

/-- R394 steps 4 and 6: the link comes up. R371: the field side's stream goes on where it stood, unless the field side
has restarted; the host side's begins anew with what R393 has it send again. -/
def State.opLinkUpGlove (s : State) : State :=
  if !s.sideRuns .field || !s.sideRuns .host || s.gloveH.peerUp then s
  else
    let h := s.gloveH
    let s := { s with
      gloveH := { h with
        peerUp := true, heardAt := s.clock, last := if s.field.restartAt.isSome then none else h.last
        err := false, lost := false, fails := 0
        restarts := if h.lost then min 0xFFFF (h.restarts + 1) else h.restarts }
      gloveF := { s.gloveF with peerUp := true, heardAt := s.clock, last := none, lost := false, fails := 0 } }
    let s := s.sendSeal
    let s := s.gloveSend .host 0x60 s.tqrBytes
    let s := { s with tim := { s.tim with tqrAt := some s.clock, tqrDue := false } }
    let s := s.sendHeld
    let evs := s.gloveH.evq
    let s := { s with gloveH := { s.gloveH with evq := [] } }
    let s := evs.foldl (fun s p => s.gloveSend .host 0x30 p) s
    let s := (s.freshWdt).glvEvent 1
    let s := if s.running then s.deliverHeld else s
    if s.field.restartAt.isSome then
      { s with field := { s.field with restarts := s.field.restarts + 1, restartAt := none } }.fieldEvent 9 15 0 []
    else s

/-! R388, R73, R372: notices, reports and results. -/

/-- R388: a notice of the other side reaches the field side. -/
def State.opEventMsg (s : State) : State :=
  match s.takeMsg .field 0x30 with
  | none => s
  | some (p, s) => s.fieldEvent (beAt p 4 2) (beAt p 6 1) (beAt p 8 8) (p.drop 16)

/-- R73, R69, R388: a time-quality report refreshes A000h; a change of the active core, a core state, the takeovers
or the violations raises event 0006h. -/
def State.opTqrMsg (s : State) : State :=
  match s.takeMsg .field 0x60 with
  | none => s
  | some (p, s) =>
    let old := s.field.report
    let s := { s with field := { s.field with report := p } }
    if !old.isEmpty && (slicePad old 0 3 ≠ slicePad p 0 3 || slicePad old 16 4 ≠ slicePad p 16 4 ||
        slicePad old 32 4 ≠ slicePad p 32 4) then
      s.fieldEvent 6 13 (beAt p 36 8) []
    else s

/-- R372: the result of a power command. -/
def State.opPowerRsp (s : State) : State :=
  match s.takeMsg .field 0x41 with
  | none => s
  | some (p, s) => { s with field := { s.field with powerRes := beAt p 0 2 } }

/-! R104 to R106: the field side makes a seal. -/

/-- R104: the seal body of a request. -/
def State.sealBody (s : State) (r : List Byte) (no : Nat) : List Byte :=
  let f := s.field
  let q := f.report
  beBytes 4 0x434C5301 ++ beBytes 4 f.runNo.toNat ++ beBytes 8 no ++ slicePad r 80 8 ++ slicePad r 88 8 ++
    slicePad r 32 8 ++ slicePad r 0 32 ++ slicePad r 40 40 ++
    slicePad q 0 3 ++ [0] ++ slicePad q 4 8 ++ slicePad q 12 4 ++ slicePad q 16 4 ++ slicePad q 20 8 ++
    slicePad q 28 4 ++ slicePad q 36 8 ++ List.replicate 24 0 ++
    slicePad f.sealHash 0 32 ++ slicePad (sha256 f.sealPub) 0 16 ++ slicePad f.sealHss 12 16

/-- R106: no seal is returned, and the failure is recorded. -/
def State.sealFails (s : State) : State := (s.gloveSend .field 0x21 (beBytes 4 1)).fieldEvent 7 15 0 []

/-- R106: the next leaf is taken; before the first of a block the start of the following block is written. -/
def State.takeLeaf (s : State) : State :=
  let f := s.field
  let f := if f.leaf = f.leafRes then f.reserve (f.leaf + 4096) else f
  { s with field := { f with leaf := f.leaf + 1 } }

/-- R104 to R106: a seal request is answered with a seal, or with a failure: no leaf remains, or a signature fails. A
leaf taken for a signature that fails counts as used (log 142). -/
def State.opSealReq (s : State) (signed : Bool) : State :=
  match s.takeMsg .field 0x20 with
  | none => s
  | some (r, s) =>
    let f := s.field
    if !f.sealKeys || f.life ≠ 2 || decide (2 ^ 40 ≤ f.leaf) then
      s.sealFails
    else if !signed then s.takeLeaf.sealFails
    else
      let no := match f.sealNo with
        | some n => if f.sealRun = f.runNo then n.toNat + 1 else 0
        | none => 0
      let b := s.sealBody r no
      let sig := ecdsaSign f.sealKey (sha384 b) s.freeNext
      let hss := hssSign f.sealTree f.leaf b
      let s := s.takeLeaf.drawn
      let s := { s with field := { s.field with
        sealRun := f.runNo, sealNo := some (BitVec.ofNat 64 no)
        sealEnd := some (BitVec.ofNat 64 (beAt r 88 8)), sealHead := slicePad r 0 32, sealHash := sha256 b } }
      s.gloveSend .field 0x21 (beBytes 4 0 ++ b ++ sig ++ hss)

/-! R397: read-only words. -/

/-- R397: the read-only words of the GLV block. -/
def State.glvView (s : State) (o : Nat) : Option Nat :=
  let b := fun (x : Bool) (n : Nat) => if x then 2 ^ n else 0
  let fulls := fun (k lo : Nat) => (List.range 32).foldl (fun w c => w + b (s.mbox k (lo + c)).full c) 0
  if o = 0 then some (b s.gloveH.peerUp 31 + b s.gloveH.err 30 + s.gloveH.restarts)
  else if o = 0x10 then some (fulls 0 0)
  else if o = 0x14 then some (fulls 0 32)
  else if o = 0x18 then some (fulls 1 0)
  else if o = 0x1C then some (fulls 1 32)
  else if 0x10000 ≤ o ∧ o < 0x18000 then
    let m := s.mbox 0 ((o - 0x10000) / 0x200)
    match (o - 0x10000) % 0x200 with
    | 0x108 => some (b m.full 31 + b m.done 30 + b m.held 29 + (if m.done then m.code.toNat else 0))
    | _ => none
  else if 0x20000 ≤ o ∧ o < 0x28000 then
    let m := s.mbox 1 ((o - 0x20000) / 0x200)
    let q := (o - 0x20000) % 0x200
    if q < 0x100 then some (leAt (slicePad m.shown 0 256) q 4)
    else if q = 0x100 then some (b m.full 31 + m.shown.length * 2 ^ 16 + bits m.who.toNat 15 0)
    else none
  else none

end Sys2Proof.Machine
end

