-- ==== Sys2Proof/Machine/Images.lean ====
section
/-! DEFINITION. Image transfers (R387, R402, R405, R406), service starts with their check (R350, R402), confirmation
points (R403), and the field side's restart, cold start and boot (R394, R404, R405, R431). -/

namespace Sys2Proof.Machine

/-- R387: an IMG_RSP with a result. -/
def State.imgAnswer (s : State) (h : BusHdr) (r : Nat) : State := s.busSend 0x43 h.src h.tid h.session (beBytes 1 r) h.sent

/-- R387: a transfer ends with a result, which 2F00h.02 shows. -/
def State.imgEnd (s : State) (h : BusHdr) (r : Nat) : State :=
  { s with field := { s.field with transfer := none, imgState := 0, imgResult := r } }.imgAnswer h r

/-- R387, R406: who may load images: level 1, or anyone under the recovery loader, for field firmware. -/
def State.mayLoad (s : State) (lvl : Nat) : Bool := s.field.recovery || decide (1 ≤ lvl)

/-- R370: the greatest length of an image for a target, as the regions leave it. -/
def State.imageRoom (s : State) (target : Nat) : Nat :=
  if target = 0 then 0x80000
  else if target = 1 then 0x100000
  else
    let others := s.field.services.foldl (fun n (e : Nat × Service) =>
      if e.1 = target - 0x10 then n else n + e.2.file.length) 0
    min 0x200000 (0x400000 - others)

/-- R387: IMG_OPEN: target and length. -/
def State.imgOpen (s : State) (l : Nat) (h : BusHdr) (p : List Byte) : State :=
  let target := beAt p 0 1
  let len := beAt p 1 4
  if !s.mayLoad l then s.busAbort h 0 0 3
  else if p.length ≠ 5 then s.busAbort h 0 0 5
  else if !(target ≤ 1 || (0x10 ≤ target && target ≤ 0x17)) || (s.field.recovery && target ≠ 0) then s.busAbort h 0 0 6
  else if s.field.transfer.isSome then s.busAbort h 0 0 8
  else if 0x10 ≤ target && (s.service (target - 0x10)).state = 2 then s.imgEnd h 4
  else if s.imageRoom target < len then s.imgEnd h 3
  else
    { s with field := { s.field with
      transfer := some { target := BitVec.ofNat 8 target, length := len, data := [] }, imgState := 1 } }.imgAnswer h 0

/-- R387: IMG_DATA: an offset and at most 1,024 bytes, in order. -/
def State.imgData (s : State) (l : Nat) (h : BusHdr) (p : List Byte) : State :=
  if !s.mayLoad l then s.busAbort h 0 0 3
  else match s.field.transfer with
    | none => s.imgAnswer h 5
    | some t =>
      let d := p.drop 4
      if p.length < 4 || decide (1024 < d.length) || beAt p 0 4 ≠ t.data.length || decide (t.length < t.data.length + d.length) then
        s.imgEnd h 5
      else
        { s with field := { s.field with transfer := some { t with data := t.data ++ d } } }.imgAnswer h 0

/-- R405: an accepted firmware image goes into the bank that is not running, which becomes preferred. -/
def State.storeFirmware (s : State) (main : Bool) (f : List Byte) : State :=
  let b := if main then !s.field.runMain else !s.field.recovery && !s.field.runField
  let n := (if main then 2 else 0) + (if b then 1 else 0)
  let s := { s with field := { s.field with banks := Map.set s.field.banks n f [] } }
  if main then { s with field := { s.field with prefMain := b } }
  else { s with field := { s.field with prefField := b, tries := 0 } }

/-- R387, R351: an accepted service image enters its slot. -/
def State.storeService (s : State) (slot : Nat) (f : List Byte) : State :=
  s.modService slot (fun v => { v with state := 1, image := imgBody f, file := f, digest := sha384 f })

/-! R404 to R406: the field side starts. -/

/-- R370, R404: the RWP objects as a field start reads them from flash. -/
def Field.readObjs (f : Field) : Map (List Byte) :=
  f.copies.foldl (fun (m : Map (List Byte)) (e : Nat × Copies) =>
    match e.2.newest with
    | some v => Map.set m e.1 v (objDefault (e.1 / 256) (e.1 % 256))
    | none => m) f.objs

/-- R400, R404: the ROM derives the Alias and storage keys, unless the device is DECOMMISSIONED or no firmware passes. -/
def State.derive (s : State) : State :=
  let none_ := s.field.life = 3 ∨ s.field.recovery = true
  { s with field := { s.field with akey := if none_ then 0 else s.aliasKey, kst := if none_ then [] else storageKey } }

/-- R404, R405, R406: the ROM picks the bank it boots, preferred first; none starts the recovery loader. -/
def State.startField (s : State) : State :=
  let f := s.field
  let ok := fun (b : Bool) => s.imageResult (s.bank (if b then 1 else 0)) 0 = 0
  let pick := if ok f.prefField then some f.prefField else if ok (!f.prefField) then some (!f.prefField) else none
  let same := pick = some f.runField
  State.derive { s with
    gloveF := {}
    field := { f with
      objs := f.readObjs
      up := true, recovery := pick.isNone, startAt := s.clock, prefField := pick.getD f.prefField
      runField := pick.getD f.runField, confirmed := f.confirmed && same
      leaf := f.leafRes, forfeited := f.forfeited + (f.leafRes - f.leaf) } }

/-- R394, R393: what the field side loses when it stops. -/
def State.stopField (s : State) (cause : Nat) : State :=
  let f := s.field
  let n := if f.confirmed || f.recovery then 0 else f.tries + 1
  let s := { s with
    gloveF := {}, gloveH := { s.gloveH with heardAt := s.clock }
    field := { f with
      up := false, recovery := false, restartAt := some s.clock, cause := cause, sessions := [], logins := [], asked := [], later := [], akey := 0, kst := []
      wrong := [], lockout := [], waiting := [], transfer := none, imgState := 0, quote := [], spdmSig := []
      enrolling := false, endAt := none, enrolStat := if f.enrolling then 0 else f.enrolStat
      ownerPkg := [], pkgKop := []
      tries := if n < 3 then n else 0, prefField := if n < 3 then f.prefField else !f.runField } }
  s.mbxFieldRestart

/-- R394: causes 1 to 3. -/
def State.opFieldRestart (s : State) (c : RestartCause) : State :=
  if !s.field.up then s
  else match c with
    | .lockstep => (s.fieldCount 9).stopField 1
    | .watchdog => s.stopField 2
    | .command => s.stopField 3

/-- R394, R431, R378: FLD_RST_N low, or loss of VF33: the node address is lost too. -/
def State.opColdStart (s : State) (vf33Lost : Bool) : State :=
  let s := s.stopField (if vf33Lost then 5 else 4)
  let s := { s with field := { s.field with node := 0, hatOut := false, hatHeld := false, hatSince := s.clock } }
  if vf33Lost then
    { s with field := { s.field with restarts := 0, counts := [], rxFrames := 0, trips := 0 } }
  else s

/-! R404 steps 5 and 6: main-die firmware crosses the glove. -/

/-- R372: an IMAGE payload: kind (0 the public keys, 1 the image, 2 + slot a service's), offset and whole length, then
bytes. -/
def imagePayload (kind off total : Nat) (d : List Byte) : List Byte :=
  beBytes 4 kind ++ beBytes 4 off ++ beBytes 4 total ++ beBytes 4 0 ++ d

/-- R404: the image in messages of at most 4,096 bytes. -/
def State.sendChunks (kind : Nat) : Nat → State → List Byte → Nat → Nat → State
  | 0, s, _, _, _ => s
  | n + 1, s, d, off, total =>
    if d.isEmpty then s
    else State.sendChunks kind n (s.gloveSend .field 0x50 (imagePayload kind off total (d.take 4096))) (d.drop 4096)
      (off + 4096) total

/-- R404: main-die reset is released and the keys and the image are sent. -/
def State.sendMain (s : State) : State :=
  let img := s.mainImage
  let s := { s with field := { s.field with bootAt := some s.clock, mainSt := 1 } }
  let s := { s with pwr := { s.pwr with fw := false, imgKeys := [], imgBuf := [], step := 0 } }
  let s := s.gloveSend .field 0x50 (imagePayload 0 0 157 (slicePad Config.someoxEcdsa 0 97 ++ slicePad Config.someoxHss 0 60))
  State.sendChunks 1 (img.length / 4096 + 1) s img 0 img.length

/-- R405: main-die firmware is taken from the other bank, once for each bring-up; a second failure leaves it off. -/
def State.fallBackMain (s : State) : State :=
  let t := { s with field := { s.field with fellBack := true, runMain := !s.field.runMain } }
  if s.field.fellBack || t.imageResult t.mainImage 1 ≠ 0 then
    { s with field := { s.field with mainSt := 0, bootAt := none } }
  else t.sendMain

/-- R404 step 5: the preferred bank is checked and its image sent. -/
def State.beginMain (s : State) : State :=
  let s := { s with field := { s.field with fellBack := false, runMain := s.field.prefMain, mainSt := 1, offCmd := false } }
  if s.imageResult s.mainImage 1 = 0 then s.sendMain else s.fallBackMain

/-- R404: the field side starts; main-die power may be waiting for it. -/
def State.bootField (s : State) : State :=
  let s := s.startField
  if s.pwr.por && !s.pwr.tripped && !s.field.recovery && s.field.mainSt = 0 && !s.field.offCmd && s.field.life ≠ 3 then
    s.beginMain
  else s

/-- R404: the field side boots. -/
def State.opFieldBoot (s : State) : State := if s.field.up then s else s.bootField

/-- R387, R402, R405, R406: IMG_CLOSE. -/
def State.imgClose (s : State) (l : Nat) (h : BusHdr) (flashOk : Bool) : State :=
  if !s.mayLoad l then s.busAbort h 0 0 3
  else match s.field.transfer with
    | none => s.imgAnswer h 5
    | some t =>
      let target := t.target.toNat
      let r := if t.data.length ≠ t.length then 3 else s.imageResult t.data target
      if r ≠ 0 then s.imgEnd h r
      else if 0x10 ≤ target && (s.service (target - 0x10)).state = 2 then s.imgEnd h 4
      else if !flashOk then s.imgEnd h 6
      else if target = 0 then
        let s := (s.storeFirmware false t.data).imgEnd h 0
        if s.field.recovery then s.bootField else s
      else if target = 1 then (s.storeFirmware true t.data).imgEnd h 0
      else (s.storeService (target - 0x10) t.data).imgEnd h 0

/-- R404 step 6: the main-die ROM checks the keys against its fused digests, then both signatures. -/
def State.romAccepts (s : State) (f : List Byte) : Bool :=
  let k := s.pwr.imgKeys
  sha384 (slicePad k 0 97) = sha384 (slicePad Config.someoxEcdsa 0 97) &&
  sha384 (slicePad k 97 60) = sha384 (slicePad Config.someoxHss 0 60) &&
  imgFormat f = 0x43494D01 && imgTarget f = 1 && imgLength f = f.length && imgSigned f (slicePad k 0 97) (slicePad k 97 60)

/-- R404: an IMAGE message reaches the main die: its chunk is accepted (0) or refused (1). R387: a service's is of a
start that the field side runs (log 110). -/
def State.opImage (s : State) : State :=
  match s.takeMsg .host 0x50 with
  | none => s
  | some (p, s) =>
    let kind := beAt p 0 4
    let off := beAt p 4 4
    let total := beAt p 8 4
    let d := p.drop 16
    let say := fun (s : State) (r : Nat) => s.gloveSend .host 0x51 (beBytes 2 r ++ [0, 0] ++ beBytes 4 off)
    let buf := s.pwr.imgBuf
    if 1 < kind then say s (if kind < 10 && s.pwr.fw && decide (off + d.length ≤ total) then 0 else 1)
    else if s.pwr.fw then say s 1
    else if kind = 0 then say { s with pwr := { s.pwr with imgKeys := d, imgBuf := [] } } 0
    else if off ≠ buf.length || decide (total < off + d.length) || decide (0x100000 < total) then
      say { s with pwr := { s.pwr with imgBuf := [] } } 1
    else
      let f := buf ++ d
      if f.length < total then say { s with pwr := { s.pwr with imgBuf := f } } 0
      else if s.romAccepts f then
        say { s with pwr := { s.pwr with imgBuf := [], fw := true, hdr := imgHeader f, step := 0 } } 0
      else say { s with pwr := { s.pwr with imgBuf := [] } } 1

/-- R404, R405: the main die's answer; a refusal falls back to the other bank. -/
def State.opImageRsp (s : State) : State :=
  match s.takeMsg .field 0x51 with
  | none => s
  | some (p, s) => if beAt p 0 2 ≠ 0 && s.field.mainSt = 1 then s.fallBackMain else s

/-! R350, R402, R403: services and confirmation points. -/

/-- R387: a service's image crosses the glove as it starts. -/
def State.sendService (s : State) (slot : Nat) : State :=
  let f := (s.service slot).file
  State.sendChunks (2 + slot) (f.length / 4096 + 1) s f 0 f.length

/-- R350, R387, R402: a start checks the slot's image again and sends it. -/
def State.startChecked (s : State) (slot : Nat) : Nat × State :=
  let v := s.service slot
  let r := if v.state = 0 then 0 else s.imageResult v.file (0x10 + slot)
  if v.state = 2 then (9, s)
  else if r ≠ 0 then
    (0, { s with field := { s.field with imgResult := r } }.modService slot (fun v => { v with result := 5 }))
  else
    let (code, t) := s.opStart slot
    (code, if (t.service slot).state = 2 then t.sendService slot else t)

/-- R351: a write of (2100h + s).02: abort code and state. -/
def State.serviceCmd (s : State) (lvl slot v : Nat) : Nat × State :=
  if lvl < 1 then (3, s)
  else if !s.running then (7, s)
  else if v = 1 then s.startChecked slot
  else if v = 2 then s.opStop slot
  else s.opRestart slot

/-- R403: an image has reached its confirmation point. -/
def State.opConfirm (s : State) (w : ConfirmKind) : State :=
  match w with
  | .field =>
    if s.field.up && !s.field.recovery && s.due s.field.startAt (secs 60) then
      let s := s.raiseCounter s.fieldImage
      { s with field := { s.field with confirmed := true, tries := 0 } }
    else s
  | .main => if s.running then s.raiseCounter s.mainImage else s
  | .service slot => if (s.service slot).state = 2 then s.raiseCounter (s.service slot).file else s

end Sys2Proof.Machine
end

