-- ==== Sys2Proof/Machine/Power.lean ====
section
/-! DEFINITION. Power domains (R395, R425 to R427), resets (R431 to R433), bring-up (R434, R440), the main-die watchdog
(R396), supplies (R422 to R424), telemetry and the thermal trip (R428 to R430), flash wear levelling (R436, R437). -/

namespace Sys2Proof.Machine

/-! R426: which domains are powered. -/

/-- R426: the domains that are powered whenever the main die is out of power-on reset. -/
def fixedDomains : List Nat := [0, 87, 88, 89, 90, 95]

/-- R111: the MACs that use a lane or a MAC domain of a group in its mode. -/
def State.macsOf (s : State) (d : Nat) : List Nat :=
  if d < 33 then
    let n := d - 17
    let w := modeLanes (s.modeOf (n / 8))
    if w = 0 then [] else [8 * (n / 8) + n % 8 / w]
  else [d - 33]

/-- R111: the lane domains of a MAC. -/
def State.laneDoms (s : State) (m : Nat) : List Nat := (s.lanesOf m).map (17 + ·)

/-- R425: the parents of a domain. -/
def State.parents (s : State) (d : Nat) : List Nat :=
  if d = 0 then []
  else if d = 6 ∨ d = 7 then [8]
  else if 33 ≤ d ∧ d ≤ 48 then s.laneDoms (d - 33)
  else if (57 ≤ d ∧ d ≤ 68) ∨ (71 ≤ d ∧ d ≤ 78) then [92]
  else if d = 79 ∨ d = 80 ∨ d = 90 ∨ d = 94 ∨ d = 95 then [0]
  else if d = 81 ∨ d = 82 then [93]
  else if 83 ≤ d ∧ d ≤ 86 then [81]
  else [90]

/-- Parents before children. -/
def domainOrder : List Nat :=
  [0, 90, 95, 94, 79, 80, 92, 93, 8, 6, 7] ++ (List.range 5).map (· + 1) ++ (List.range 8).map (· + 9) ++
    (List.range 16).map (· + 17) ++ (List.range 16).map (· + 33) ++ (List.range 8).map (· + 49) ++
    (List.range 12).map (· + 57) ++ [69, 70] ++ (List.range 8).map (· + 71) ++ [81, 82, 83, 84, 85, 86, 87, 88, 89, 91]

/-- R426: the domains powered under a request; HBM's three as given. -/
def State.target (s : State) (req : BitVec 96) (hbm : Bool) : BitVec 96 :=
  domainOrder.foldl (fun (m : BitVec 96) d =>
    let on :=
      if fixedDomains.contains d then true
      else if d = 94 then s.pwr.jtagUp
      else if 6 ≤ d ∧ d ≤ 8 then hbm
      else if !req.getLsbD d then false
      else if 17 ≤ d ∧ d ≤ 32 then modeLanes (s.modeOf ((d - 17) / 8)) ≠ 0
      else if 33 ≤ d ∧ d ≤ 48 then s.macThere (d - 33)
      else true
    if on && (s.parents d).all (fun p => m.getLsbD p) then m ||| BitVec.ofNat 96 (2 ^ d) else m) 0

/-- R425: bytes of a memory from one address to another are zeroed. -/
def State.zeroMem (s : State) (lo hi : Nat) : State :=
  { s with mem := { s.mem with
    cells := s.mem.cells.filter (fun c => decide (c.1 < lo ∨ hi ≤ c.1))
    poison := s.mem.poison.filter (fun w => decide (w < lo ∨ hi ≤ w)) } }

/-- R425: both domains of a unit are off. -/
def State.bothOff (s : State) (a b : Nat) : Bool := !s.powered a && !s.powered b

/-- R44, R53: a replica whose island loses power is at its value at power-on reset, but for the core it takes its time
from, which is the active one. -/
def State.dropRep (s : State) (r : Nat) : State := (s.leaveWindow r).setRep r { active := s.tim.active }

/-- R45: a core without power; its TREF pin is outside it, and the parity is the active core's, which both keep (R83). -/
def State.offCore (s : State) (c : CoreId) : TimeCore :=
  { st := .off, trefIn := (s.core c).trefIn, parity := (s.core c).parity }

/-- R45, R67, R70, R73: a time core loses its power; the term of an active one is unknown then. -/
def State.coreOff (s : State) (c : CoreId) : State :=
  if (s.core c).st = .off then s.setCore c (s.offCore c)
  else
    let s := if c = s.tim.active then (s.unslave c.other).faultTakeover else s.standbyLost
    (s.setCore c (s.offCore c)).tqrChange

/-- R82, R83, R425: the SQL without its state: its timescale is still the active core's, at that core's step parity. -/
def State.freshSql (s : State) : Sql := { scale := s.tim.active, parity := (s.core s.tim.active).parity }

/-- R425: a domain is powered off and loses its state. -/
def State.powerOff (s : State) (d : Nat) : State :=
  if !s.powered d then s
  else
    let s := if 33 ≤ d ∧ d ≤ 48 ∧ (s.mac (d - 33)).link then s.opLinkDown (d - 33) none else s
    let s := s.loseRegs d
    let s := { s with pwr := { s.pwr with domains := s.pwr.domains &&& ~~~(BitVec.ofNat 96 (2 ^ d)) } }
    if 9 ≤ d ∧ d ≤ 16 then
      s.zeroMem (0x001000000000 + 0x800000 * (d - 9)) (0x001000000000 + 0x800000 * (d - 8))
    else if 6 ≤ d ∧ d ≤ 8 then
      let s := s.zeroMem 0 (2 ^ 34)
      { s with mem := { s.mem with trained := false, hbmFail := false } }
    else if d = 1 ∨ d = 2 then if s.bothOff 1 2 then { s with hep := {} }.dropRep 0 else s
    else if d = 3 ∨ d = 4 then if s.bothOff 3 4 then { s with qim := {} }.dropRep 1 else s
    else if d = 5 then { s with dma := {} }.dropRep 2
    else if 17 ≤ d ∧ d ≤ 32 then { s with prt := { s.prt with lanes := Map.del s.prt.lanes (d - 17) } }
    else if 33 ≤ d ∧ d ≤ 48 then
      let s := s.macLost (d - 33)
      { s with prt := { s.prt with macs := Map.del s.prt.macs (d - 33) } }.dropRep (3 + (d - 33))
    else if 49 ≤ d ∧ d ≤ 56 then { s with pcl := Map.del s.pcl (d - 49) }.dropRep (19 + (d - 49))
    else if d = 57 ∨ d = 58 then
      if s.bothOff 57 58 then s.rwcLost else s
    else if 59 ≤ d ∧ d ≤ 66 then { s with rwc := { s.rwc with tested := Map.del s.rwc.tested (d - 59) } }
    else if d = 67 ∨ d = 68 then if s.bothOff 67 68 then { s with trn := {} }.dropRep 28 else s
    else if d = 69 ∨ d = 70 then if s.bothOff 69 70 then { s with tmg := {} }.dropRep 29 else s
    else if 71 ≤ d ∧ d ≤ 78 then
      let k := d - 71
      let s := { s with tha := { s.tha with
        threads := s.tha.threads.filter (fun (e : Nat × Thread) => decide (e.1 / 128 ≠ k))
        dbg := s.tha.dbg.filter (fun t => decide (t / 128 ≠ k)), clusters := Map.del s.tha.clusters k } }
      (s.zeroMem (localBase (8 * k)) (localBase (8 * k + 8))).dropRep (30 + k)
    else if d = 79 then s.coreOff .A
    else if d = 80 then s.coreOff .B
    else if d = 81 ∨ d = 82 then if s.bothOff 81 82 then { s with sql := s.freshSql }.dropRep 38 else s
    else if 83 ≤ d ∧ d ≤ 86 then { s with sql := { s.sql with engq := Map.del s.sql.engq (d - 83) } }
    else if d = 91 then { s with fwt := {} }.dropRep 39
    else s

/-- R45, R75, R440: a powered core that has not been started stands at its registers' power-on values: FREERUN, with no
stroke sent. -/
def State.idleCore (s : State) (c : CoreId) : TimeCore := { s.offCore c with st := .freerun }

/-- R425, R439: a domain is powered; a time core waits to be started. R83: the SQL takes the step parity as it stands. -/
def State.powerOn (s : State) (d : Nat) : State :=
  if s.powered d then s
  else
    let tmgOff := s.bothOff 69 70
    let s := s.powerBit d
    if (d = 69 ∨ d = 70) ∧ tmgOff then { s with tmg := { s.tmg with refillAt := s.clock } }
    else if d = 79 then s.setCore .A (s.idleCore .A)
    else if d = 80 then s.setCore .B (s.idleCore .B)
    else if (d = 81 ∨ d = 82) ∧ s.sqlOn then
      { s with sql := { s.sql with parity := (s.core s.tim.active).parity, steps := [] } }
    else s

/-- R426: the domains of a set are the powered ones: children go off first, parents on first. -/
def State.switchDomains (s : State) (t : BitVec 96) : State :=
  let s := domainOrder.reverse.foldl (fun s d => if t.getLsbD d then s else s.powerOff d) s
  domainOrder.foldl (fun s d => if t.getLsbD d then s.powerOn d else s) s

/-! R427: what may be removed while RUNNING. -/

/-- R427: nothing waits in a leaf of the traffic manager. -/
def State.tmgEmpty (s : State) : Bool := s.tmg.leaf.all (fun e => e.2.frames.isEmpty) && s.tmg.input.isEmpty

/-- R427: the condition of a domain, with the domains that stay. -/
def State.mayRemove (s : State) (stay : BitVec 96) (d : Nat) : Bool :=
  let en := fun (a : Nat) => (s.getReg a).getLsbD 31
  if d = 4 then
    s.qim.inst.all (fun (e : Nat × Inst) => e.2.st = .free) && s.qim.queue.all (fun (e : Nat × Queue) => e.2.st = .none || e.2.owner.isSome)
  else if 10 ≤ d ∧ d ≤ 16 then
    let b := d - 9
    !(List.range 4).any (fun p => s.poolEn p && (let (lo, hi) := s.poolSpan p (s.poolCount p)
      decide (lo < (b + 1) * 8388608 ∧ b * 8388608 < hi))) && !(s.mem.reduced && decide (5 ≤ b))
  else if 17 ≤ d ∧ d ≤ 48 then (s.macsOf d).all (fun m => !s.macEn m)
  else if 49 ≤ d ∧ d ≤ 56 then
    let p := d - 49
    let x := s.pipe p
    !en (pipeCfg p) && x.flight.isEmpty && !x.busy &&
      (List.range 16).all (fun m => !(s.macThere m && s.macPipe m = p % 4 && s.macEn m))
  else if d = 57 ∨ d = 58 then !en (RWC + 0x010) && !en (RWC + 0x018)
  else if 59 ≤ d ∧ d ≤ 66 then true
  else if d = 67 ∨ d = 68 then s.trn.sess.isEmpty
  else if d = 69 ∨ d = 70 then s.tmgEmpty && (List.range 16).all (fun m => !s.macEn m)
  else if 71 ≤ d ∧ d ≤ 78 then (s.cluster (d - 71)).slot.isNone
  else if d = 79 then s.tim.active ≠ .A && s.tim.tko.isNone
  else if d = 80 then s.tim.active ≠ .B && s.tim.tko.isNone
  else if d = 81 ∨ d = 82 then
    s.sql.streams.all (fun (e : Nat × StreamSt) => !e.2.en) && !s.objBool 0xA110 5 && s.sql.area = 0 &&
      s.sql.unsealed = 0 && s.sql.sentSeal.isNone
  else if 83 ≤ d ∧ d ≤ 86 then
    s.engLoad (d - 83) = 0 && (!stay.getLsbD 81 || (List.range 4).any (fun e => e ≠ d - 83 && stay.getLsbD (83 + e)))
  else if d = 91 then !en fwtEpBase && (List.range 4).all (fun t => !en (fwtLrnBase t))
  else if d = 92 then
    (List.range 12).all (fun i => !stay.getLsbD (57 + i)) && (List.range 8).all (fun i => !stay.getLsbD (71 + i))
  else if d = 93 then (List.range 6).all (fun i => !stay.getLsbD (81 + i))
  else false

/-- R395, R426, R427: a write of 2010h.01 of 96 bits: abort code and state; while the main die is RUNNING a POWER message
applies it. -/
def State.opDomains (s : State) (lvl : Nat) (v : BitVec 96) : Nat × State :=
  let keep := fun (s : State) => s.setObj 0x2010 1 (beBytes 12 v.toNat)
  if lvl < 1 then (3, s)
  else if !s.running then (0, keep s)
  else
    let hbm := s.powered 8
    let old := BitVec.ofNat 96 (s.objNat 0x2010 1)
    let stay := s.target v hbm
    let asked := domainOrder.filter (fun d => old.getLsbD d && !v.getLsbD d && s.powered d &&
      !fixedDomains.contains d && !(6 ≤ d && d ≤ 8) && d ≠ 94)
    let lost := domainOrder.filter (fun d => s.powered d && !stay.getLsbD d)
    if (asked ++ lost).any (fun d => !s.mayRemove stay d) then (9, s)
    else (0, (keep s).gloveSend .field 0x40 (powerPayload 0 v.toNat))

/-- R113, R426: a group's switch has finished: its domains stand as the mode has them. -/
def State.opGroupDone (s : State) (g : Nat) : State :=
  if !s.grpBusy g then s
  else
    let t := s.target (BitVec.ofNat 96 (s.objNat 0x2010 1)) (s.powered 8)
    let mine := domainOrder.filter (fun d => (17 + 8 * g ≤ d ∧ d < 25 + 8 * g) ∨ (33 + 8 * g ≤ d ∧ d < 41 + 8 * g))
    let s := mine.reverse.foldl (fun s d => if t.getLsbD d then s else s.powerOff d) s
    let s := mine.foldl (fun s d => if t.getLsbD d then s.powerOn d else s) s
    (s.setGrpBusy g false).mainEvent 0xA 6 0 [BitVec.ofNat 8 g]

/-! R431 to R433: resets of the main die. -/

/-- R433: power-on reset or main-die reset clears the main die; its supplies and what the field die holds stay. -/
def State.mainReset (s : State) : State :=
  let s := s.mbxMainReset.dropAsked
  let p := s.pwr
  let sv := s.field.services.map (fun (e : Nat × Service) =>
    (e.1, if e.2.state = 2 then { e.2 with state := 3, clusters := 0 } else e.2))
  { s with
    regs := [], sat := [], arms := [], latches := [], nowLatch := none, staging := [], guardStyle := 0, guardLock := 0
    tim := { coreA := { trefIn := s.tim.coreA.trefIn }, coreB := { trefIn := s.tim.coreB.trefIn } }
    sql := {}, prt := {}, pcl := [], fwt := {}, rwc := {}, trn := {}, tmg := {}, hep := {}, qim := {}
    dma := {}, mem := {}, tha := {}, bound := [], gloveH := {}
    gloveF := { s.gloveF with 
      sent := [], inbox := s.gloveF.inbox.filter (fun m => m.typ = 0x30), peerUp := false, last := none, heardAt := s.clock }
    pwr := { p with
      domains := (if p.por then fixedDomains.foldl (fun (m : BitVec 96) d => m ||| BitVec.ofNat 96 (2 ^ d)) 0 else 0)
      step := 0, fw := false, imgKeys := [], imgBuf := [], hdr := [], jtagUp := false, tap := 15, tapIr := 2, tapShift := 0
      setpoint := 850, avsThere := false }
    field := { s.field with services := sv, debugOpen := false, jtagOpen := false, bootAt := none, endAt := none, mainSt := 0 } }

/-- R430, R432: the main die is off: only PD00 and PD95 are powered. -/
def State.mainOff (s : State) : State :=
  let s := s.mainReset
  { s with pwr := { s.pwr with domains := BitVec.ofNat 96 (1 + 2 ^ 95) } }

/-- R431: a main-die reset, after which its firmware is booted again. -/
def State.resetMain (s : State) : State :=
  let s := s.mainReset
  if s.field.up && !s.field.recovery then s.beginMain else s

/-- R432: an orderly end proceeds. -/
def State.runEnded (s : State) (down : Bool) : State :=
  if down then { s.mainOff with field := { s.mainOff.field with offCmd := true } } else s.resetMain

/-- R432: the run ends in an orderly way: the block closes with REASON 5 and a seal is asked for. -/
def State.endRun (s : State) (down : Bool) : State :=
  if s.running && s.sqlOn && s.sql.open_ then
    let close := s.repTime 38
    let s := (s.closeBlock 5 close).askSeal (BitVec.ofNat 64 close)
    { s with sql := { s.sql with runEnd := some (s.clock, down), open_ := false } }
  else s.runEnded down

/-- R404, R430: a write of 01h to 2000h.02. -/
def State.opMainUp (s : State) (lvl : Nat) : Nat × State :=
  if lvl < 1 || (s.field.life = 3 && decide (lvl < 3)) then (3, s)
  else if s.pwr.tripped then (9, s)
  else if !s.pwr.por then (7, s)
  else if s.field.mainSt ≠ 0 then (9, s)
  else (0, (s.switchDomains (fixedDomains.foldl (fun (m : BitVec 96) d => m ||| BitVec.ofNat 96 (2 ^ d)) 0)).beginMain)

/-- R383, R395: an ordered reset or power-down of the main die has not finished. -/
def State.ending (s : State) : Bool := (s.field.endAt.or s.sql.runEnd).isSome

/-- R395, R432: a write of 02h (reset) or 03h (power-down) to 2000h.02: a POWER message asks the main die for it. -/
def State.opMainEnd (s : State) (lvl : Nat) (down : Bool) : Nat × State :=
  if lvl < 1 then (3, s)
  else if s.pwr.tripped || s.field.mainSt = 0 then (9, s)
  else if s.ending then (8, s)
  else (0, { s with field := { s.field with endAt := some (s.clock, down) } }.gloveSend .field 0x40
    (powerPayload (if down then 2 else 1) 0))

/-- R432: 100 ms have passed since the command, without the seal: a main die that answers nothing is reset too. -/
def State.opRunEndTimeout (s : State) : State :=
  match s.field.endAt.or s.sql.runEnd with
  | some (t, down) => if s.due t (msec 100) then s.runEnded down else s
  | none => s

/-- R103, R432: a seal or a failure returns; the run end's seal lets an orderly end proceed. -/
def State.opSealRsp (s : State) : State :=
  match s.takeMsg .host 0x21 with
  | none => s
  | some (p, s) =>
    let s := s.opSealReturn p
    match s.sql.runEnd with
    | some (_, down) =>
      if beAt p 0 4 = 0 && s.sql.sentSeal.isNone && s.sql.pendSeal.isNone then s.runEnded down else s
    | none => s

/-- R372, R395, R432: a POWER message: domains, which are those its mask gives under R426, a reset or a power-down, which
first end the run. -/
def State.opPower (s : State) : State :=
  match s.takeMsg .host 0x40 with
  | none => s
  | some (p, s) =>
    let say := fun (s : State) (r : Nat) => s.gloveSend .host 0x41 (beBytes 2 r ++ List.replicate 6 0)
    match beAt p 0 1 with
    | 0 => say (s.switchDomains (s.target (BitVec.ofNat 96 (beAt p 4 12)) (s.powered 8))) 0
    | 1 => (say s 0).endRun false
    | 2 => (say s 0).endRun true
    | _ => say s 1

/-- R396: the host side of the glove has been silent for the watchdog period. R398: in DECOMMISSIONED a main die that it
resets stays off. -/
def State.opMainWatchdog (s : State) : State :=
  if s.field.up && s.running && s.due s.gloveF.heardAt (msec (s.objNat 0x2000 4)) then
    let s := { s with field := { s.field with mainSt := 4 } }.fieldEvent 8 15 0 []
    if s.objNat 0x2000 5 = 1 then (if s.field.life = 3 then s.mainReset else s.resetMain) else s
  else s

/-- R405: main-die firmware has not reached RUNNING within 2 s. -/
def State.opMainTimeout (s : State) : State :=
  match s.field.bootAt with
  | some t =>
    if s.field.mainSt = 1 && s.due t (secs 2) then
      let back := s.field.fellBack
      let s := s.mainReset
      { s with field := { s.field with fellBack := back, mainSt := 1 } }.fallBackMain
    else s
  | none => s

/-! R434, R440: bring-up. -/

/-- R39: the guard styles that 2040h sets. -/
def State.styles (s : State) : BitVec 16 :=
  (List.range 16).foldl (fun (m : BitVec 16) g => if s.objNat 0x2040 (g + 1) = 1 then m ||| BitVec.ofNat 16 (2 ^ g) else m) 0

/-- R110: a class of the class map goes into SQL_CLASS. -/
def State.writeClass (s : State) (c v : Nat) : State :=
  if s.powered 81 || s.powered 82 then s.setReg (sqlClass c) (BitVec.ofNat 32 (v * 2 ^ 24)) else s

/-- R373, R415, R434: the main die takes the bound objects and the doors from the field side. -/
def State.takeObjs (s : State) (jtag : Bool) : State :=
  { s with
    bound := s.field.objs.filter (fun e => objTold (e.1 / 256))
    field := { s.field with debugOpen := bit s.doors 2, jtagOpen := jtag && bit s.doors 3 } }

/-- R434 step 4, R440. -/
def State.bringUp4 (s : State) : State :=
  let s := { s with guardStyle := s.styles }
  let s := if s.powered 79 || s.powered 80 then
      let s := (List.range 18).foldl (fun s n => s.setReg (timPcorrStg n) (BitVec.ofNat 32 (s.objNat 0xA050 (n + 1)))) s
      let m : Map (BitVec 16) := (List.range 18).foldl (fun m n => Map.set m n (BitVec.ofNat 16 (s.objNat 0xA050 (n + 1))) 0) []
      let s := { s with tim := { s.tim with pcorr := m, pcorrAt := 0, pcorrPrev := m } }
      (s.setReg timSpenPort (BitVec.ofNat 32 (s.objNat 0xA050 0x14))).setReg timSpenHost (BitVec.ofNat 32 (s.objNat 0xA050 0x15))
    else s
  let s := (List.range 15).foldl (fun s c => s.writeClass (c + 1) (s.objNat 0xA120 (c + 1))) s
  s.takeObjs true

/-- R434 step 5, R46: a time core starts in FREERUN at the last sealed END plus one unit. -/
def State.startCore (s : State) (c : CoreId) : State :=
  let n := match s.field.sealEnd with
    | some e => e.toNat + 1
    | none => 0
  if s.powered c.dom then (s.setCore c (s.freshCore c (256 * n))).checkTref c else s.setCore c (s.offCore c)

/-- R434 step 6, R99, R100: the run number advances and block 0 opens. -/
def State.startRun (s : State) : State :=
  let s := { s with field := { s.field with runNo := s.field.runNo + 1 } }
  if !s.sqlOn then s
  else
    let s := { s with sql := { s.sql with run := s.field.runNo, chain := s.field.sealHead, epochMs := s.mainNat 0xA110 3 } }
    let s := s.openBlock 0 0
    { s with sql := { s.sql with lastEnd := s.sql.block.opened, lastEpoch := s.sql.block.opened } }

/-- R434 step 2, R24: HBM is trained, or the device enters reduced-capacity mode. -/
def State.bringUp2 (s : State) (ok : Bool) : State :=
  let req := BitVec.ofNat 96 (s.objNat 0x2010 1)
  if !s.objBool 0x2000 3 && ok && req.getLsbD 6 && req.getLsbD 7 && req.getLsbD 8 then
    let s := ((s.powerOn 8).powerOn 6).powerOn 7
    { s with mem := { s.mem with trained := true } }
  else
    { s with mem := { s.mem with reduced := true } }.setReg (QIM + 0x050) 16384

/-- R426, R434 step 3: the domains are powered, but for those that fail their own test: where some do, a free set. -/
def State.bringUp3 (s : State) (ok : Bool) : State :=
  let s := { s with pwr := { s.pwr with jtagUp := bit s.doors 3 } }
  let req := BitVec.ofNat 96 (s.objNat 0x2010 1)
  if ok then s.switchDomains (s.target req (s.powered 8))
  else (s.drawn).switchDomains (s.target (req &&& BitVec.ofNat 96 s.freeNext) (s.powered 8))

/-- R434: a step of bring-up, in its order. ok: in step 1 the regulator answers on AVSBus (R423), in step 2 the HBM
passes its training and test, in step 3 every domain passes its own. -/
def State.opBringUp (s : State) (step : Nat) (ok : Bool) : State :=
  if !s.pwr.fw || s.field.mainSt ≠ 1 || s.pwr.step + 1 ≠ step then s
  else
    let s := { s with pwr := { s.pwr with step := step } }
    match step with
    | 1 => { s with pwr := { s.pwr with avsThere := ok, setpoint := 850 } }
    | 2 => s.bringUp2 ok
    | 3 => s.bringUp3 ok
    | 4 => s.bringUp4
    | 5 => (s.startCore .A).startCore .B
    | 6 => s.startRun
    | 7 => (List.range 8).foldl (fun s n =>
        if s.objBool (0x2100 + n) 3 && s.field.life = 2 then (s.startChecked n).2 else s) s
    | 8 =>
      let s := { s with hep := { s.hep with crs := false }, field := { s.field with mainSt := 2, bootAt := none } }
      (s.takeObjs s.field.jtagOpen).deliverHeld
    | _ => s

/-! R422 to R424, R430: supplies and the thermal trip. -/

/-- R424, R404: the rails have been within tolerance for 10 ms. -/
def State.opPowerOn (s : State) : State :=
  if s.pwr.por then s
  else
    let s := { s with pwr := { s.pwr with por := true, tripped := false } }.mainReset
    let s := { s with field := { s.field with offCmd := false } }
    if s.field.up && !s.field.recovery && s.field.life ≠ 3 then s.beginMain else s

/-- R424, R429: a rail leaves its tolerance. -/
def State.opSupply (s : State) (rail : Nat) : State :=
  if !s.pwr.por then s
  else
    let s := { s with pwr := { s.pwr with por := false } }.mainReset
    let s := { s with field := { s.field with mainSt := 3 } }
    if s.field.up then s.fieldEvent 0xD 15 0 [BitVec.ofNat 8 rail] else s

/-- R430, R429: a sensor reads 125 °C or more. -/
def State.opTrip (s : State) (sensor : Nat) (tenths : Int) : State :=
  if !s.pwr.por || s.pwr.tripped || decide (tenths < 1250) then s
  else
    let s := s.mainOff
    let s := { s with pwr := { s.pwr with tripped := true }, field := { s.field with trips := s.field.trips + 1 } }
    if s.field.up then s.fieldEvent 0xC 15 0 [BitVec.ofNat 8 sensor] else s

/-- R429: a reading's warning: whether it is sent now, and whether it stands after. -/
def warnOf (was : Bool) (warm t : Int) : Bool × Bool :=
  let hot := decide (warm ≤ t)
  (hot && !was, hot || (was && decide (warm - 50 < t)))

/-- R428, R429: a telemetry period has passed. -/
def State.opTelemetry (s : State) (mainT hbmT fieldT : Int) (current : Word) : State :=
  if !s.field.up || s.field.recovery || !s.due s.field.sampleAt (msec (s.objNat 0xF020 6)) then s
  else
    let warm : Int := 10 * (s.objNat 0xF020 7 : Int)
    let m := warnOf s.field.warned warm mainT
    let h := warnOf s.field.warnedHbm warm hbmT
    let s := { s with field := { s.field with
      tempMain := mainT, tempHbm := hbmT, tempField := fieldT, sampleAt := s.clock, volt := s.pwr.setpoint
      current := if s.pwr.avsThere then current else 0, warned := m.2, warnedHbm := h.2 } }
    let s := if m.1 then s.fieldEvent 0xB 15 0 [] else s
    if h.1 then s.fieldEvent 0xB 15 0 [] else s

/-- R423: for a hottest sensor reading the setpoint moves towards the fused curve's, by at most 10 mV, at most once in a
millisecond, between 650 and 850 mV. -/
def State.opAvs (s : State) (tenths : Int) : State :=
  if !s.pwr.por || !s.pwr.avsThere || !s.due s.pwr.stepAt (msec 1) then s
  else
    let t := max 650 (min 850 (Config.vddCurve tenths))
    let v := s.pwr.setpoint
    let n := if v ≤ t then min t (v + 10) else max t (v - 10)
    { s with pwr := { s.pwr with setpoint := n, stepAt := s.clock } }

/-- R437: a sector whose rotation count has passed is moved, unless a write that goes before it is under way. -/
def State.opWear (s : State) (sector : Nat) (busy : Bool) : State :=
  if !s.field.up || busy then s
  else { s with field := { s.field with rotated := Map.upd s.field.rotated sector 0 (· + 1) } }

end Sys2Proof.Machine
end

