-- ==== Sys2Proof/Machine/Spdm.lean ====
section
/-! DEFINITION. The messages of the SPDM responder (R278, R410) in the layouts of DSP0274 1.2. PRESUMED: the spec names the
standard; what it leaves open of a message is free (log 118). -/

namespace Sys2Proof.Machine

/-- R278: what a request asks: 1 version, 2 capabilities, 3 algorithms, 4 digests, 5 certificate, 6 challenge,
7 measurements, 8 respond-if-ready, 0 unsupported. -/
def spdmKind (r : List Byte) : Nat :=
  match beAt r 1 1 with
  | 0x84 => 1
  | 0xE1 => 2
  | 0xE3 => 3
  | 0x81 => 4
  | 0x82 => 5
  | 0x83 => 6
  | 0xE0 => 7
  | 0xFF => 8
  | _ => 0

/-- The header of a response. -/
def spdmHead (code p1 p2 : Nat) : List Byte := [0x12, BitVec.ofNat 8 code, BitVec.ofNat 8 p1, BitVec.ofNat 8 p2]

/-- R278: VERSION: 1.2 alone. -/
def spdmVersion : List Byte := [0x10, 4, 0, 0, 0, 1] ++ leBytes 2 0x1200

/-- R278: CAPABILITIES: CERT_CAP, CHAL_CAP and MEAS_CAP with signature; messages of at most 1,024 DW less their DOE
header. -/
def spdmCapabilities : List Byte :=
  spdmHead 0x61 0 0 ++ [0, BitVec.ofNat 8 Config.spdmCtExponent, 0, 0] ++ leBytes 4 0x16 ++ leBytes 4 4088 ++ leBytes 4 4088

/-- R278: ALGORITHMS: of what the request offers, P-384, SHA-384 and the DMTF measurement specification. -/
def spdmAlgorithms (r : List Byte) : List Byte :=
  let pick := fun (v n : Nat) => if bit v n then 2 ^ n else 0
  let m := pick (leAt r 6 1) 0
  spdmHead 0x63 0 0 ++ leBytes 2 36 ++ leBytes 2 m ++ leBytes 4 (4 * m) ++ leBytes 4 (pick (leAt r 8 4) 7) ++
    leBytes 4 (pick (leAt r 12 4) 1) ++ List.replicate 16 0

/-- The length of the DER value at the start of a string. -/
def derLength (b : List Byte) : Nat :=
  let n := beAt b 1 1
  if n < 128 then 2 + n else 2 + (n - 128) + beAt b 2 (n - 128)

/-- DSP0274: a certificate chain with its length and the hash of its root. -/
def spdmChainBytes (c : List Byte) : List Byte :=
  leBytes 2 (52 + c.length) ++ [0, 0] ++ sha384 (c.take (derLength c)) ++ c

/-- R278, R409: DIGESTS of the slots whose chain is there. -/
def spdmDigests (c0 c1 : List Byte) : List Byte :=
  let there := [c0, c1].filter (fun c => !c.isEmpty)
  spdmHead 1 0 ((if c0.isEmpty then 0 else 1) + (if c1.isEmpty then 0 else 2)) ++
    (there.map (fun c => sha384 (spdmChainBytes c))).flatten

/-- R278, R409: CERTIFICATE: a portion of a slot's chain; none for an offset beyond it. -/
def spdmCertificate (r c : List Byte) : Option (List Byte) :=
  let all := spdmChainBytes c
  let off := leAt r 4 2
  let part := slice all off (min (leAt r 6 2) 4080)
  if c.isEmpty || decide (all.length ≤ off) then none
  else some (spdmHead 2 (beAt r 2 1 % 16) 0 ++ leBytes 2 part.length ++ leBytes 2 (all.length - off - part.length) ++ part)

/-- R410: a measurement block in the DMTF format: 11 is a raw bit stream, the others are digests. -/
def measBlock (i : Nat) (v : List Byte) : List Byte :=
  [BitVec.ofNat 8 i, 1] ++ leBytes 2 (3 + v.length) ++ [if i = 11 then 0x82 else if i = 12 then 3 else 1] ++
    leBytes 2 v.length ++ v

/-- R410: the twelve blocks. -/
def State.measBlocks (s : State) : List (List Byte) := (List.range 12).map (fun i => measBlock (i + 1) (s.measurement (i + 1)))

/-- R278: CHALLENGE_AUTH without its signature; none for a summary that the standard does not know. -/
def State.challengeAuth (s : State) (r c nonce : List Byte) : Option (List Byte) :=
  let kind := beAt r 3 1
  let mask : Nat := 1 + (if (s.spdmChain 1).isEmpty then 0 else 2)
  if r.length < 36 || c.isEmpty || (kind ≠ 0 && kind ≠ 1 && kind ≠ 255) then none
  else some (spdmHead 3 (beAt r 2 1 % 16) mask ++ sha384 (spdmChainBytes c) ++ nonce ++
    (if kind = 0 then [] else sha384 s.measBlocks.flatten) ++ leBytes 2 0)

/-- R278: a GET_MEASUREMENTS request asks for a signature. -/
def measSigned (r : List Byte) : Bool := bit (beAt r 2 1) 0

/-- R278, R410: MEASUREMENTS without its signature: the number of blocks (0), all (FFh) or one of them; none for an index
without a block. -/
def State.measAnswer (s : State) (r nonce : List Byte) : Option (List Byte) :=
  let op := beAt r 3 1
  let l := if op = 0 then [] else if op = 255 then s.measBlocks else (s.measBlocks.drop (op - 1)).take 1
  let rec_ := l.flatten
  if (op ≠ 0 && l.isEmpty) || (measSigned r && r.length < 37) then none
  else some (spdmHead 0x60 (if op = 0 then 12 else 0) (if measSigned r then beAt r 36 1 % 16 else 0) ++
    leBytes 1 l.length ++ leBytes 3 rec_.length ++ rec_ ++ nonce ++ leBytes 2 0)

end Sys2Proof.Machine
end

