-- ==== Sys2Proof/Machine/Security.lean ====
section
/-! DEFINITION. Ownership (R407, R408), the operator key (R413), the lock and the doors (R415), quotes (R412), SPDM (R278,
R410, R411) and the TAP (R416). -/

namespace Sys2Proof.Machine

/-- R413: a key unwrapped under a session and the COUNTER of the frame that completes the value. -/
def State.unwrap (s : State) (sid counter : Word) (w : List Byte) : List Byte :=
  let ks := match s.busSession sid with
    | some x => x.ks
    | none => []
  (List.zipWith (fun (a b : Byte) => a ^^^ b) (slicePad w 0 32) (hmac256 ks (ascii "USNAN-WRAP" ++ beBytes 4 counter.toNat)))

/-- R407, R417: a write of 2F30h.01, the owner package. -/
def State.opOwnerPkg (s : State) (lvl : Nat) (sid counter : Word) (p : List Byte) : Nat × State :=
  if lvl < 1 then (3, s)
  else if p.length ≠ 310 then (5, s)
  else if s.field.enrolling then (8, s)
  else (0, { s with field := { s.field with ownerPkg := p, pkgKop := s.unwrap sid counter (slice p 278 32) } })

/-- R407: what the owner package must satisfy. -/
def badPackage (p : List Byte) : Bool :=
  p.length ≠ 310 || beAt p 0 4 ≠ 0x4F574E01 || !validPoint (slice p 4 97) || !validPoint (slice p 101 97) ||
    decide (beAt p 274 4 < 10000)

/-- R407, R408: lifecycle command 01h. -/
def State.opEnrol (s : State) (lvl : Nat) : Nat × State :=
  if lvl < 1 then (3, s)
  else if s.field.transfer.isSome || s.field.enrolling then (8, s)
  else if s.field.life ≠ 1 || s.field.mainSt ≠ 0 || badPackage s.field.ownerPkg then (9, s)
  else (0, { s with field := { s.field with enrolling := true, enrolStat := 1 } })

/-- R407: the last write of enrolment: the device is OWNED. -/
def State.opEnrolled (s : State) : State :=
  if !s.field.up || !s.field.enrolling then s
  else
    let p := s.field.ownerPkg
    let key := ecPrivate s.freeNext
    let s := s.drawn
    let tree := s.freeNext
    let s := s.drawn
    { s with field := { s.field with
      enrolling := false, enrolStat := 2, life := 2, owner := p, ownerPkg := [], pkgKop := []
      kop := s.field.pkgKop, salt := slice p 258 16, iter := beAt p 274 4
      sealKeys := true, sealKey := key, sealTree := tree, sealPub := ecPublic key, sealHss := hssPublic tree
      leaf := 0, leafSec0 := none, leafSec1 := none, forfeited := 0 } }

/-- R408: what release and decommission erase. -/
def State.eraseOwner (s : State) : State :=
  { s with field := { s.field with
    owner := [], ownerPkg := [], pkgKop := [], ownerChain := [], sealKeys := false, sealKey := 0, sealTree := 0, sealPub := [], sealHss := []
    leaf := 0, leafSec0 := none, leafSec1 := none, forfeited := 0, services := [], sealEnd := none, sealHead := [], sealHash := [], sealNo := none
    sealRun := 0, kop := [], salt := [], iter := 0, enrolStat := 0 } }

/-- R408: lifecycle command 02h. -/
def State.opReleaseOwner (s : State) (lvl : Nat) : Nat × State :=
  if lvl < 2 then (3, s)
  else if s.field.transfer.isSome then (8, s)
  else if s.field.life ≠ 2 || s.field.mainSt ≠ 0 then (9, s)
  else (0, { s.eraseOwner with field := { s.eraseOwner.field with life := 1 } })

/-- R408: lifecycle command 03h. -/
def State.opDecommission (s : State) (lvl : Nat) : Nat × State :=
  if lvl < (if s.field.life = 2 then 2 else 3) then (3, s)
  else if s.field.transfer.isSome || s.field.enrolling then (8, s)
  else if s.field.life = 3 || s.field.mainSt ≠ 0 then (9, s)
  else (0, { s.eraseOwner with field := { s.eraseOwner.field with
    life := 3, akey := 0, kst := [], kop := List.replicate 32 0, salt := List.replicate 16 0 } })

/-- R373, R415: the doors are sent to a main die that runs. -/
def State.tellDoors (s : State) (v : Byte) : State :=
  if s.running then s.gloveSend .field 0x01 (wholeWrite 0x2F40 1 [v]) else s

/-- R398: lifecycle command 04h. The doors no longer read open as in MANUFACTURE (R415). -/
def State.opProvision (s : State) (lvl : Nat) : Nat × State :=
  if lvl < 3 then (3, s)
  else if s.field.transfer.isSome then (8, s)
  else if s.field.life ≠ 0 then (9, s)
  else (0, { s with field := { s.field with life := 1 } }.tellDoors (BitVec.ofNat 8 (s.objNat 0x2F40 1)))

/-- R417: a write of 2F20h.02. -/
def State.lifeCmd (s : State) (lvl v : Nat) : Nat × State :=
  match v with
  | 1 => s.opEnrol lvl
  | 2 => s.opReleaseOwner lvl
  | 3 => s.opDecommission lvl
  | 4 => s.opProvision lvl
  | _ => (6, s)

/-- R413: a write of 2F31h.01: SALT, ITER and the wrapped key. -/
def State.opPassword (s : State) (lvl : Nat) (sid counter : Word) (v : List Byte) : Nat × State :=
  if lvl < 1 then (3, s)
  else if v.length ≠ 52 then (5, s)
  else (0, { s with field := { s.field with
    kop := s.unwrap sid counter (slice v 20 32), salt := slice v 0 16, iter := beAt v 16 4 } })

/-- R409: a write of 2F32h.03. -/
def State.opOwnerChain (s : State) (lvl : Nat) (c : List Byte) : Nat × State :=
  if lvl < 2 then (3, s)
  else if 4096 < c.length then (5, s)
  else (0, { s with field := { s.field with ownerChain := c } })

/-! R415: the lock. -/

/-- R415: the level that opening and closing a door need. -/
def doorLevel (door : Nat) (opening : Bool) : Nat :=
  match door, opening with
  | 0, _ => 2
  | 1, true => 2
  | 3, true => 2
  | _, _ => 1

/-- R415, R367: the DEBUG door closes: breakpoints are cleared, and every thread stopped by the debugger runs. -/
def State.closeDebug (s : State) : State :=
  let th := s.tha.threads.map (fun (e : Nat × Thread) =>
    if s.tha.dbg.contains e.1 && e.2.st = .stopped && !e.2.faulted then (e.1, { e.2 with st := .running, past := true }) else (e.1, { e.2 with stepping := false }))
  let cl := s.tha.clusters.map (fun (e : Nat × Cluster) => (e.1, { e.2 with breaks := [] }))
  let sups := (List.range 8).filter (fun k => s.tha.dbg.contains (128 * k))
  let s := { s with tha := { s.tha with threads := th, clusters := cl, dbg := [] }, field := { s.field with debugOpen := false } }
  if s.gloveH.peerUp then sups.foldl (fun s k => s.goWdt k) s else s

/-- R416: the JTAG door closes: the TAP is forced to Test-Logic-Reset. -/
def State.closeJtag (s : State) : State :=
  { s with field := { s.field with jtagOpen := false }, pwr := { s.pwr with tap := 15, tapIr := 2, tapShift := 0 } }

/-- R415: the doors as they reach the main die: DEBUG opens and closes, JTAG closes; it opens at bring-up. -/
def State.doorsChanged (s : State) (v : Nat) : State :=
  let s := if bit v 2 then { s with field := { s.field with debugOpen := true } } else s.closeDebug
  if bit v 3 || !s.field.jtagOpen then s else s.closeJtag

/-- R415: a write of 2F40h.01 by a session of a level at a node. -/
def State.opLock (s : State) (lvl : Nat) (node v : Byte) : Nat × State :=
  let old := s.doors
  let new := v.toNat
  let changed := (List.range 4).filter (fun d => bit old d ≠ bit new d)
  if changed.any (fun d => lvl < doorLevel d (bit new d)) then (3, s)
  else if 16 ≤ new then (6, s)
  else if s.field.life = 0 then (9, s)
  else if changed.isEmpty then (0, s)
  else
    let shut := fun (d : Nat) => bit old d && !bit new d
    let s := s.setObj 0x2F40 1 [v]
    let gone := fun (x : Session) => s.field.life = 2 && ((shut 0 && x.lvl = 1) || (shut 1 && x.lvl = 3))
    let s := { s with field := { s.field with sessions := s.field.sessions.filter (fun x => !gone x) } }
    let s := s.tellDoors v
    let code := s.freeNext % 65536
    (0, (s.drawn).fieldEvent code 15 0 [BitVec.ofNat 8 lvl, node])

/-! R412, R411: quotes and SPDM signatures. -/

/-- R412: a write of 2F50h.01. -/
def State.opNonce (s : State) (n : List Byte) : Nat × State :=
  if n.length ≠ 32 then (5, s)
  else if s.field.life = 3 then (9, s)
  else
    let b := s.quoteBody n
    let (sig, s) := s.aliasSign b
    (0, { s with field := { s.field with quote := b ++ sig } })

/-- R411: the SPDM 1.2 combined signing context: the prefix four times, zeros and the operation's context string. -/
def spdmContext (op : Nat) : List Byte :=
  let prefix_ := ascii "dmtf-spdm-v1.2.*"
  let ctx := if op = 1 then ascii "responder-challenge_auth signing" else ascii "responder-measurements signing"
  prefix_ ++ prefix_ ++ prefix_ ++ prefix_ ++ List.replicate (36 - ctx.length) 0 ++ ctx

/-- R411: a host-side write of 2F60h.01: the operation and the transcript hash. -/
def State.opAttest (v : List Byte) (s : State) : Nat × State :=
  let op := beAt v 0 1
  if v.length ≠ 49 then (5, s)
  else if op ≠ 1 && op ≠ 2 then (6, s)
  else if s.field.life = 3 then (9, s)
  else
    let (sig, s) := s.aliasSign (spdmContext op ++ v.drop 1)
    (0, { s with field := { s.field with spdmSig := sig } })

/-- R411: SPDM_SIGN_REQUEST: from the host's side of the glove, or from the bus, where the object does not exist. -/
def State.opSpdmSign (s : State) (fromHost : Bool) (v : List Byte) : Nat × State :=
  if fromHost then State.opAttest v s else (1, s)

/-! R278, R411: the responder. -/

/-- R278: an exchange ends with an SPDM ERROR. -/
def State.spdmRefuse (s : State) (code data : Nat) : State :=
  { s with hep := { s.hep with doe := none, doeBuf := [], doeChain := none, doePart := [] } }.doeAnswer (spdmError code data)

/-- R278: an answer to a request leaves, and both join the transcript: the part that every signature covers (version,
capabilities, algorithms), the part of CHALLENGE_AUTH (digests, certificates) or that of MEASUREMENTS. -/
def State.spdmSay (s : State) (r ans : List Byte) : State :=
  let e := r ++ ans
  let h := { s.hep with doe := none, doeBuf := [], doeChain := none, doePart := [] }
  let h := match spdmKind r with
    | 1 => { h with spdm := 1, spdmLog := e, spdmB := [], spdmL := [] }
    | 2 => { h with spdm := max h.spdm 2, spdmLog := h.spdmLog ++ e }
    | 3 => { h with spdm := max h.spdm 3, spdmLog := h.spdmLog ++ e }
    | 6 => { h with spdmB := [], spdmL := [] }
    | 7 => { h with spdmB := [], spdmL := if measSigned r then [] else h.spdmL ++ e }
    | _ => { h with spdmB := h.spdmB ++ e, spdmL := [] }
  { s with hep := h }.doeAnswer ans

/-- R411: an object request of the responder crosses the glove: a read from an offset, or a write. -/
def State.spdmAsk (s : State) (idx sub off : Nat) (v : Option (List Byte)) : State :=
  match v with
  | none => s.gloveSend .host 0x01 (beBytes 2 idx ++ beBytes 1 sub ++ [0] ++ beBytes 4 off)
  | some b => s.gloveSend .host 0x01 (wholeWrite idx sub b)

/-- R411: the field side is asked to sign the transcript up to an answer without its signature. -/
def State.spdmSign (s : State) (r part : List Byte) : State :=
  let h := s.hep
  let log := h.spdmLog ++ (if spdmKind r = 6 then h.spdmB else h.spdmL) ++ r ++ part
  { s with hep := { h with doePart := part } }.spdmAsk 0x2F60 1 0 (some (beBytes 1 (spdmKind r - 5) ++ sha384 log))

/-- R278: the answer of a request that the main die answers alone; none where it has none. -/
def State.spdmAlone (s : State) (r : List Byte) : Option (List Byte) :=
  match spdmKind r with
  | 1 => some spdmVersion
  | 2 => some spdmCapabilities
  | 3 => some (spdmAlgorithms r)
  | 7 => if measSigned r then none else s.measAnswer r (s.freeBytes 32)
  | _ => none

/-- R278: a CMA-SPDM request. The main die answers version, capabilities, algorithms and unsigned measurements; every
other answer waits for the field side. -/
def State.opSpdm (s : State) (r : List Byte) : State :=
  let k := spdmKind r
  let now := s.hep.spdm
  let slot := beAt r 2 1 % 16
  if !s.hep.up || s.hep.crs || s.hep.flrAt.isSome || 4088 < r.length then s
  else if s.hep.doe.isSome then s.doeAnswer (spdmError 3 0)
  else if k = 1 then s.spdmSay r spdmVersion
  else if k = 0 then s.spdmRefuse 7 (beAt r 1 1)
  else if now = 0 then s.spdmRefuse 4 0
  else if beAt r 0 1 ≠ 0x12 then s.spdmRefuse 0x41 0
  else if k ≠ 2 && k ≠ 3 && decide (now < 3) then s.spdmRefuse 4 0
  else if k = 8 then s.spdmRefuse 4 0
  else if (k = 6 ∨ k = 7) ∧ s.field.life = 3 then s.spdmRefuse 7 (beAt r 1 1)
  else match s.spdmAlone r with
    | some ans => (if k = 7 then s.drawn else s).spdmSay r ans
    | none =>
      if k = 7 && !measSigned r then s.spdmRefuse 1 0
      else if !s.gloveH.peerUp then s.spdmRefuse 3 0
      else
        let s := { s with hep := { s.hep with doe := some r } }
        if k = 7 then
          match s.measAnswer r (s.freeBytes 32) with
          | some part => s.drawn.spdmSign r part
          | none => s.spdmRefuse 1 0
        else if k = 4 then s.spdmAsk 0x2F32 1 0 none
        else if 1 < slot then s.spdmRefuse 1 0
        else s.spdmAsk 0x2F32 (slot + 1) 0 none

/-- R278, R409: a chain has crossed whole. -/
def State.spdmChainRead (s : State) (r c : List Byte) : State :=
  let s := { s with hep := { s.hep with doeBuf := [] } }
  let say := fun (o : Option (List Byte)) => match o with
    | some ans => s.spdmSay r ans
    | none => s.spdmRefuse 1 0
  match spdmKind r with
  | 4 =>
    match s.hep.doeChain with
    | none => { s with hep := { s.hep with doeChain := some c } }.spdmAsk 0x2F32 2 0 none
    | some c0 => s.spdmSay r (spdmDigests c0 c)
  | 5 => say (spdmCertificate r c)
  | _ =>
    match s.challengeAuth r c (s.freeBytes 32) with
    | some part => s.drawn.spdmSign r part
    | none => s.spdmRefuse 1 0

/-- R278, R411: an object answer lets the responder go on with a request. -/
def State.spdmGo (s : State) (r p : List Byte) : State :=
  let sub := beAt p 2 1
  if beAt p 3 1 = 0xFF then s.spdmRefuse 5 0
  else if beAt p 0 2 = 0x2F60 then
    if sub = 1 then s.spdmAsk 0x2F60 2 0 none else s.spdmSay r (s.hep.doePart ++ p.drop 12)
  else
    let b := s.hep.doeBuf ++ p.drop 12
    if beAt p 8 4 ≤ b.length then s.spdmChainRead r b
    else { s with hep := { s.hep with doeBuf := b } }.spdmAsk 0x2F32 sub b.length none

/-! R416: the TAP. States: 0 Run-Test/Idle, 1 Select-DR, 2 Capture-DR, 3 Shift-DR, 4 Exit1-DR, 5 Pause-DR, 6 Exit2-DR,
7 Update-DR, 8 Select-IR, 9 Capture-IR, 10 Shift-IR, 11 Exit1-IR, 12 Pause-IR, 13 Exit2-IR, 14 Update-IR,
15 Test-Logic-Reset. -/

/-- IEEE 1149.1: the next state of the controller. -/
def tapNext (st : Nat) (tms : Bool) : Nat :=
  match st, tms with
  | 15, true => 15
  | 15, false => 0
  | 0, true => 1
  | 0, false => 0
  | 1, true => 8
  | 1, false => 2
  | 2, true => 4
  | 2, false => 3
  | 3, true => 4
  | 3, false => 3
  | 4, true => 7
  | 4, false => 5
  | 5, true => 6
  | 5, false => 5
  | 6, true => 7
  | 6, false => 3
  | 7, true => 1
  | 7, false => 0
  | 8, true => 15
  | 8, false => 9
  | 9, true => 11
  | 9, false => 10
  | 10, true => 11
  | 10, false => 10
  | 11, true => 14
  | 11, false => 12
  | 12, true => 13
  | 12, false => 12
  | 13, true => 14
  | 13, false => 10
  | _, true => 1
  | _, false => 0

/-- R416: the instruction in force: while the door is closed every private one acts as BYPASS. -/
def State.tapInstr (s : State) : Nat := if s.pwr.tapIr ≤ 2 || s.field.jtagOpen then s.pwr.tapIr else 0

/-- R416: a cycle of TCK: the state acts, TDO shows, and the controller moves. -/
def State.opTap (s : State) (trstN tms tdi : Bool) : State :=
  if !s.powered 0 then s
  else if !trstN then { s with pwr := { s.pwr with tap := 15, tapIr := 2, tapShift := 0 } }
  else
    let p := s.pwr
    let ins := s.tapInstr
    let hi : Nat := if tdi then 1 else 0
    let v := p.tapShift.toNat
    let nxt := tapNext p.tap tms
    let (s, shift, ir) : State × Nat × Nat :=
      if p.tap = 2 then (s, (if ins = 2 then 0xB16003A5 else 0), p.tapIr)
      else if p.tap = 3 then
        if ins = 2 then (s.emit (.tdo (bit v 0)), v / 2 + hi * 2 ^ 31, p.tapIr)
        else if ins = 0 then (s.emit (.tdo (bit v 0)), hi, p.tapIr)
        else ((s.drawn).emit (.tdo (bit s.freeNext 0)), hi, p.tapIr)
      else if p.tap = 9 then (s, 1, p.tapIr)
      else if p.tap = 10 then (s.emit (.tdo (bit v 0)), v / 2 + hi * 2 ^ 31, p.tapIr)
      else if p.tap = 14 then (s, v, Config.tapDecode v)
      else (s, v, p.tapIr)
    let ir := if nxt = 15 then 2 else ir
    { s with pwr := { s.pwr with tap := nxt, tapIr := ir, tapShift := BitVec.ofNat 32 shift } }

end Sys2Proof.Machine
end

