-- ==== Sys2Proof/Machine/ObjWrite.lean ====
section
/-! DEFINITION. Writes of objects (R10, R11, R76, R110, R382, R383, R386): what a write of each object does beyond its
stored value, OBJ_READ and OBJ_WRITE of the bus with its chunks, and the object requests that cross the glove (R373). -/

namespace Sys2Proof.Machine

/-- R48, R76: a written reference configuration applies at once. -/
def State.refsChanged (s : State) (c : CoreId) : State :=
  match (s.core c).st with
  | .freerun | .acquiring | .locked | .holdover => s.reselect c
  | _ => s

/-- R66, R76: a written standby mode applies at once: a SLAVED core that becomes independent disciplines itself; a core
that becomes slaved enters SLAVED at the active core's next stroke with a known term. -/
def State.modeChanged (s : State) (c : CoreId) : State :=
  if (s.core c).st = .slaved && s.indep c then s.leaveSlaved c else s

/-- R76: a main die's time core takes a written configuration. -/
def State.configChanged (s : State) (c : CoreId) (sub : Nat) : State :=
  if sub ≤ 2 then s.refsChanged c else if sub = 9 then s.modeChanged c else s

/-- R76: the primary and the secondary reference would be equal and not zero. -/
def State.refsClash (s : State) (idx sub v : Nat) : Bool :=
  (sub = 1 || sub = 2) && v ≠ 0 && decide (s.objNat idx (3 - sub) = v)

/-- R75, R373: a time core's domain is powered on a main die that runs. -/
def State.timThere (s : State) : Bool := s.running && (s.powered 79 || s.powered 80)

/-- R76: a write of A020h: the label of the next edge of a core's PPS input. -/
def State.labelWrite (s : State) (lvl : Nat) (c : CoreId) (l : BitVec 64) : Nat × State :=
  if lvl < 1 then (3, s)
  else if !s.running || !s.powered c.dom then (7, s)
  else (0, s.opLabel c l)

/-- R67, R76: a write of A030h.04. -/
def State.activeWrite (s : State) (lvl v : Nat) : Nat × State :=
  if lvl < 1 then (3, s)
  else if v ≠ 1 && v ≠ 2 then (6, s)
  else if !s.timThere then (7, s)
  else s.opMakeActive v

/-- R61, R76: a write of A050h.13. -/
def State.activationWrite (s : State) (lvl : Nat) (t : BitVec 64) : Nat × State :=
  if lvl < 1 then (3, s)
  else if !s.timThere then (7, s)
  else s.opPcorrObject t

/-- R213: a write of 2080h.01; pass says which lanes' tests succeed. -/
def State.unfenceWrite (s : State) (lvl : Nat) (v pass : Byte) : Nat × State :=
  if lvl < 1 then (3, s)
  else if !s.running || !s.powered 95 || !s.gloveH.peerUp || !(s.powered 57 || s.powered 58) then (7, s)
  else (0, s.opUnfence v pass)

/-- R386, R394: a write of 2000h.06. -/
def State.restartWrite (s : State) (lvl : Nat) : Nat × State :=
  if lvl < 1 then (3, s) else (0, s.opFieldRestart .command)

/-! R373: the binding table. -/

/-- R373: an object that the binding table ties to the main die. -/
def objBound (idx sub : Nat) : Bool :=
  match findObj idx sub with
  | some r => r.main || objTold idx
  | none => false

/-- R373: the host side writes a bound object; lanes' tests of R213 succeed as the free value says. -/
def State.boundWrite (s : State) (idx sub : Nat) (v : List Byte) : Nat × State :=
  let n := beNat v
  match idx, sub with
  | 0x2080, 1 => (s.drawn).unfenceWrite 3 (BitVec.ofNat 8 n) (BitVec.ofNat 8 s.freeNext)
  | 0xA020, 1 => s.labelWrite 3 .A (BitVec.ofNat 64 n)
  | 0xA020, 2 => s.labelWrite 3 .B (BitVec.ofNat 64 n)
  | 0xA030, 4 => s.activeWrite 3 n
  | 0xA050, 0x13 => s.activationWrite 3 (BitVec.ofNat 64 n)
  | 0xA050, x =>
    if !(s.powered 79 || s.powered 80) then (7, s)
    else (0, s.setReg (if x = 0x14 then timSpenPort else if x = 0x15 then timSpenHost else timPcorrStg (x - 1)) (BitVec.ofNat 32 n))
  | 0xA120, x => (0, s.writeClass x n)
  | 0x2F40, _ => (0, (s.setMain idx sub v).doorsChanged n)
  | 0xA010, _ => (0, (s.setMain idx sub v).configChanged .A sub)
  | 0xA011, _ => (0, (s.setMain idx sub v).configChanged .B sub)
  | _, _ => if objTold idx then (0, s.setMain idx sub v) else (4, s)

/-- R373: a stored value of an object that is bound too goes to a main die that runs; one that does not takes it at
bring-up. -/
def State.tellBound (s : State) (idx sub : Nat) (v : List Byte) : State :=
  if s.running then s.gloveSend .field 0x01 (wholeWrite idx sub v) else s

/-- What a write of an object that the field side holds does when checks 1 to 7 of R383 pass: its abort code and the
state. -/
def State.objEffect (s : State) (lvl : Nat) (h : BusHdr) (idx sub : Nat) (v : List Byte) : Nat × State :=
  let n := beNat v
  let kept := s.setObj idx sub v
  match mboxObject idx sub with
  | some (k, c, x) =>
    if k = 0 ∨ k = 2 then s.opMbxReturn lvl k c (BitVec.ofNat 16 n)
    else if x = 2 then s.opF2hBody lvl h.src k c v
    else (4, s)
  | none =>
    if 0x2100 ≤ idx ∧ idx < 0x2108 then
      (if sub = 2 then s.serviceCmd lvl (idx - 0x2100) n else (0, kept))
    else if idx = 0xA010 ∨ idx = 0xA011 then
      if s.refsClash idx sub n then (9, s) else
        (0, kept.tellBound idx sub v)
    else if idx = 0xA120 && (n % 16 ≠ 0 || n / 16 % 4 = 3) then (6, s)
    else if idx ≠ 0x2F40 && objTold idx then (0, kept.tellBound idx sub v)
    else match idx, sub with
      | 0x2000, 2 => if n = 1 then s.opMainUp lvl else s.opMainEnd lvl (n = 3)
      | 0x2000, 6 => s.restartWrite lvl
      | 0x2010, 1 => s.opDomains lvl (BitVec.ofNat 96 n)
      | 0x2F20, 2 => s.lifeCmd lvl n
      | 0x2F30, 1 => s.opOwnerPkg lvl h.session h.counter v
      | 0x2F31, 1 => s.opPassword lvl h.session h.counter v
      | 0x2F32, 3 => s.opOwnerChain lvl v
      | 0x2F40, 1 => s.opLock lvl h.src (BitVec.ofNat 8 n)
      | 0x2F50, 1 => s.opNonce v
      | _, _ => (0, kept)

/-- R383: an RWP value is committed to flash. -/
def objStored (idx sub : Nat) : Bool :=
  match findObj idx sub with
  | some r => r.acc = .rwp
  | none => false

/-- R382: a partial value of an object in a session is set aside or discarded. -/
def State.setPart (s : State) (sid : Word) (key : Nat) (p : Option (Nat × List Byte)) : State :=
  s.modSession sid (fun x => { x with parts := match p with
    | some v => Map.put x.parts key v
    | none => Map.del x.parts key })

/-- R382: OBJ_WRITE_RSP. -/
def State.objWriteRsp (s : State) (h : BusHdr) (idx sub got : Nat) : State :=
  s.busSend 0x04 h.src h.tid h.session (beBytes 2 idx ++ beBytes 1 sub ++ [0] ++ beBytes 4 got) h.sent

/-- R373, R381: a request crosses the glove, and its session's next ones wait for the answer. -/
def State.askMain (s : State) (q : BusReq) (msg : List Byte) : State :=
  { s with field := { s.field with asked := s.field.asked ++ [q] } }.gloveSend .field 0x01 msg

/-- R382, R383: a whole value has arrived. The answer leaves before an effect that ends the session; a bound object's
value crosses the glove. -/
def State.writeWhole (s : State) (q : BusReq) (idx sub : Nat) (v : List Byte) : State :=
  let h := q.hdr
  let code := s.writeCheck q.lvl idx sub v.length (some v)
  if code ≠ 0 then s.busAbort h idx sub code
  else if (findObj idx sub).any (fun r => r.main) then s.askMain q (wholeWrite idx sub v)
  else
    let (code, t) := s.objEffect q.lvl h idx sub v
    if code ≠ 0 then t.busAbort h idx sub code
    else if objStored idx sub && !q.flashOk then (s.tearObj idx sub v).busAbort h idx sub 0xC
    else ((s.objWriteRsp h idx sub v.length).objEffect q.lvl h idx sub v).2

/-- R382: the partial value that a chunk continues. -/
def State.partOf (s : State) (h : BusHdr) (key off total : Nat) : Option (List Byte) :=
  if off = 0 then some []
  else
    match s.busSession h.session with
    | some x =>
      match Map.get x.parts key with
      | some (t, b) => if t = total ∧ b.length = off then some b else none
      | none => none
    | none => none

/-- R382, R383: OBJ_WRITE. -/
def State.serveWrite (s : State) (q : BusReq) : State :=
  let h := q.hdr
  let p := q.data
  let idx := beAt p 0 2
  let sub := beAt p 2 1
  let off := beAt p 4 4
  let total := beAt p 8 4
  let data := p.drop 12
  let whole := off = 0 && data.length = total
  let key := objKey idx sub
  let code := s.writeCheck q.lvl idx sub total none
  if code ≠ 0 && code < 5 then s.busAbort h idx sub code
  else if p.length < 12 || 1024 < data.length then s.busAbort h idx sub 5
  else if whole then (s.setPart h.session key none).writeWhole q idx sub data
  else if code ≠ 0 then s.busAbort h idx sub code
  else
    match s.partOf h key off total with
    | none => (s.setPart h.session key none).busAbort h idx sub 0xA
    | some b =>
      let b := b ++ data
      if h.session = 0 || total < b.length then (s.setPart h.session key none).busAbort h idx sub 0xA
      else if b.length = total then (s.setPart h.session key none).writeWhole q idx sub b
      else (s.setPart h.session key (some (total, b))).objWriteRsp h idx sub b.length

/-- R382, R383: OBJ_READ; a bound object is read across the glove. -/
def State.serveRead (s : State) (q : BusReq) : State :=
  let h := q.hdr
  let p := q.data
  let idx := beAt p 0 2
  let sub := beAt p 2 1
  let off := beAt p 4 4
  let (code, typ, v) := s.readObject q.lvl idx sub
  if code ≠ 0 && code < 5 then s.busAbort h idx sub code
  else if p.length ≠ 8 then s.busAbort h idx sub 5
  else if code ≠ 0 then s.busAbort h idx sub code
  else if (findObj idx sub).any (fun r => r.main) then s.askMain q p
  else if v.length < off then s.busAbort h idx sub 0xA
  else s.busSend 0x02 h.src h.tid h.session
    (p.take 3 ++ beBytes 1 typ ++ beBytes 4 off ++ beBytes 4 v.length ++ slice v off 1024) h.sent

/-- R381: a request of this request's session, or of its sender where it has none, waits for the main die. -/
def State.sessBusy (s : State) (h : BusHdr) : Bool :=
  s.field.asked.any (fun x => x.hdr.session = h.session && (h.session ≠ 0 || x.hdr.src = h.src))

/-- R381: a request is served, or waits for an earlier one of its session. -/
def State.busServe (s : State) (q : BusReq) : State :=
  if s.sessBusy q.hdr then { s with field := { s.field with later := s.field.later ++ [q] } }
  else match q.kind with
    | .read => s.serveRead q
    | .write => s.serveWrite q
    | .imgOpen => s.imgOpen q.lvl q.hdr q.data
    | .imgData => s.imgData q.lvl q.hdr q.data
    | .imgClose => s.imgClose q.lvl q.hdr q.flashOk
    | .logout => s.endSession q.hdr.session

/-- R381: the requests that wait are served in order of arrival, but for those of sessions that have ended. -/
def State.serveLater (s : State) : State :=
  (s.field.later.filter (fun q => q.hdr.session = 0 || (s.busSession q.hdr.session).isSome)).foldl State.busServe
    { s with field := { s.field with later := [] } }

/-- R381: a request reaches the node. -/
def State.busAsk (s : State) (typ : Nat) (kind : BusKind) (h : BusHdr) (p : List Byte) (flashOk : Bool) : State :=
  s.busRequest typ h p (fun l s =>
    s.serveLater.busServe { kind := kind, hdr := h, lvl := l, data := p, flashOk := flashOk })

/-- R382, R383: OBJ_READ reaches the node. -/
def State.opObjRead (s : State) (h : BusHdr) (p : List Byte) : State := s.busAsk 0x01 .read h p true

/-- R382, R383: OBJ_WRITE reaches the node. -/
def State.opObjWrite (s : State) (h : BusHdr) (p : List Byte) (flashOk : Bool) : State := s.busAsk 0x03 .write h p flashOk

/-- R387: IMG_OPEN reaches the node. -/
def State.opImgOpen (s : State) (h : BusHdr) (p : List Byte) : State := s.busAsk 0x40 .imgOpen h p true

/-- R387: IMG_DATA reaches the node. -/
def State.opImgData (s : State) (h : BusHdr) (p : List Byte) : State := s.busAsk 0x41 .imgData h p true

/-- R387: IMG_CLOSE reaches the node. -/
def State.opImgClose (s : State) (h : BusHdr) (flashOk : Bool) : State := s.busAsk 0x42 .imgClose h [] flashOk

/-- R385: LOGOUT reaches the node. -/
def State.opLogout (s : State) (h : BusHdr) : State :=
  match s.busTake 0x14 h [] with
  | (some l, t) =>
    if h.session = 0 then t
    else t.serveLater.busServe { kind := .logout, hdr := h, lvl := l, data := [], flashOk := true }
  | (none, t) => t

/-! R373: object requests across the glove. -/

/-- R382: the answer of a read of a value of a type. -/
def readAnswer (p : List Byte) (typ : Nat) (v : List Byte) : List Byte :=
  let off := beAt p 4 4
  if v.length < off then abortBytes p 0xA
  else slicePad p 0 3 ++ beBytes 1 typ ++ beBytes 4 off ++ beBytes 4 v.length ++ slice v off 1024

/-- R382: the answer of a write. -/
def writeAnswer (p : List Byte) (code : Nat) : List Byte :=
  if code = 0 then slicePad p 0 3 ++ [0] ++ beBytes 4 (p.length - 12) else abortBytes p code

/-- R373: the host side serves a request through the binding table: its answer. -/
def State.hostServe (s : State) (p : List Byte) : List Byte × State :=
  let idx := beAt p 0 2
  let sub := beAt p 2 1
  if !objBound idx sub then (abortBytes p 1, s)
  else if !s.running then (abortBytes p 7, s)
  else if p.length = 8 then
    let (code, typ, v) := s.readObject 3 idx sub
    (if code ≠ 0 then abortBytes p code else readAnswer p typ (if sub ≠ 0 && objTold idx then s.mainBytes idx sub else v), s)
  else
    let v := p.drop 12
    let code := s.writeCheck 3 idx sub v.length (some v)
    if p.length < 12 then (abortBytes p 5, s)
    else if code ≠ 0 then (abortBytes p code, s)
    else
      let (code, t) := s.boundWrite idx sub v
      (writeAnswer p code, t)

/-- R373, R411: the field side serves a request at access level 0, with the attestation objects beside it: its answer. -/
def State.fieldServe (s : State) (p : List Byte) : List Byte × State :=
  let idx := beAt p 0 2
  let sub := beAt p 2 1
  let v := p.drop 12
  if p.length = 8 then
    if idx = 0x2F60 then
      (match sub with
        | 0 => readAnswer p 1 [2]
        | 1 => abortBytes p 4
        | 2 => readAnswer p 9 s.field.spdmSig
        | _ => abortBytes p 2, s)
    else
      let (code, typ, v) := s.readObject 0 idx sub
      (if code ≠ 0 then abortBytes p code else readAnswer p typ v, s)
  else if p.length < 12 then (abortBytes p 5, s)
  else if idx = 0x2F60 then
    if sub = 1 then
      let (code, t) := s.opSpdmSign true v
      (writeAnswer p code, t)
    else (abortBytes p (if sub = 0 ∨ sub = 2 then 4 else 2), s)
  else
    let code := s.writeCheck 0 idx sub v.length (some v)
    if code ≠ 0 then (abortBytes p code, s)
    else if idx = 0x2F50 then
      let (code, t) := s.opNonce v
      (writeAnswer p code, t)
    else (abortBytes p 3, s)

/-- R373: OBJ_REQ: a side serves an object request of the other side. -/
def State.opObjReq (s : State) (d : Side) : State :=
  match s.takeMsg d 0x01 with
  | none => s
  | some (p, s) =>
    match d with
    | .host => let (b, t) := s.hostServe p; t.gloveSend d 0x02 b
    | .field => let (b, t) := s.fieldServe p; t.gloveSend d 0x02 b

/-- R373, R382: the main die's answer is passed to the session that asked. -/
def State.answerAsked (s : State) (q : BusReq) (p : List Byte) : State :=
  let idx := beAt p 0 2
  let sub := beAt p 2 1
  if beAt p 3 1 = 0xFF then s.busAbort q.hdr idx sub (beAt p 4 2)
  else if q.kind = .read then s.busSend 0x02 q.hdr.src q.hdr.tid q.hdr.session p q.hdr.sent
  else s.objWriteRsp q.hdr idx sub (beAt q.data 8 4)

/-- R373, R381: an object answer reaches the field side: it answers the oldest request that waits for that object, and
the session's next requests follow. -/
def State.fieldAnswered (s : State) (p : List Byte) : State :=
  match s.field.asked.find? (fun q => beAt q.data 0 2 = beAt p 0 2 && beAt q.data 2 1 = beAt p 2 1) with
  | some q => ({ s with field := { s.field with asked := s.field.asked.erase q } }.answerAsked q p).serveLater
  | none => s

/-- R372, R411: OBJ_RSP: an object answer completes a request of the bus or of the SPDM responder. -/
def State.opObjRsp (s : State) (d : Side) : State :=
  match s.takeMsg d 0x02 with
  | none =>
    match d with
    | .field => if s.field.up then s.serveLater else s
    | .host => s
  | some (p, s) =>
    match d with
    | .field => s.fieldAnswered p
    | .host =>
      match s.hep.doe with
      | some r => s.spdmGo r p
      | none => s

/-! Rows that are writes of one object: they act while the field side serves its bus, and their abort code leaves. -/

/-- R383: a write of one object by a command of its own. -/
def State.rowWrite (s : State) (idx sub : Nat) (f : State → Nat × State) : State :=
  if !s.field.up then s
  else if s.field.recovery then s.emit (.object idx sub 1)
  else
    let (code, t) := f s
    t.emit (.object idx sub code)

end Sys2Proof.Machine
end

