-- ==== Sys2Proof/Machine/Audit.lean ====
section
/-! DEFINITION. The books and their auditor (R338, R339, R241). -/

namespace Sys2Proof.Machine

/-- R338: a book that is out: its number in R338 order, its index and its terms. -/
abbrev BookOut : Type := Nat × Nat × List Int

/-- R338: the buffer book of a pool: ring, cache, allocated, in transit. -/
def State.poolBook (s : State) (p : Nat) : Option BookOut :=
  let q := s.pool p
  let a := (s.mem.bufs.filter (fun (e : Nat × Alloc) => e.2.allocated && handlePool (BitVec.ofNat 32 e.1) = p)).length
  let have_ := runCount q.ring + runCount q.cache + a + q.check.length
  let size := s.poolCount p - q.lost
  if !s.poolEn p || (size ≤ have_ + 1024 && have_ ≤ size) then none
  else some (1, p, [runCount q.ring, runCount q.cache, a, q.check.length])

/-- R338: the receive credit types' books: credits advertised and consumed, and the free space. -/
def State.creditBooks (s : State) : List BookOut :=
  (List.range 6).filterMap (fun k =>
    let a := Map.at_ s.hep.rxAdv k 0
    let u := Map.at_ s.hep.rxUsed k 0
    let f := Map.at_ s.hep.rxFree k 0
    if (a : Int) - u = f then none else some (2, k, [(a : Int), (u : Int), f]))

/-- R241, R338: the token book of a bucket with a level and a burst. -/
def tokenBook (idx : Nat) (level : Int) (burst : Nat) : Option BookOut :=
  if decide (-77816000 ≤ level) && decide (level ≤ burst * 8192000) then none
  else some (3, idx % 65536, [level, burst * 8192000])

/-- R241, R338: every bucket's token book, leaves first, then instance, group, class and port buckets. -/
def State.tokenBooks (s : State) : List BookOut :=
  let nodes := fun (lvl : Nat) => (s.nodes lvl).filterMap (fun (e : Nat × Node) => tokenBook e.1 e.2.level e.2.burst)
  nodes 0 ++ nodes 1 ++ nodes 2 ++ nodes 3 ++
    (List.range 128).filterMap (fun k => tokenBook k (s.clsLevel k) (s.shape (tmgClassRate k)).2.1) ++
    (List.range 16).filterMap (fun m => tokenBook m (s.prtLevel m) (s.shape (tmgPortRate m)).2.1)

/-- R338: a cluster's thread book. -/
def State.threadBookOut (s : State) (k : Nat) : Option BookOut :=
  let (f, r, w, x) := s.threadBook k
  if f + r + w + x = 127 then none else some (4, k, [f, r, w, x])

/-- R266, R338: the tag book. -/
def State.tagBook (s : State) : Option BookOut :=
  let free := ((List.range 4096).filter (fun t =>
    (Map.get s.hep.tags t).isNone && !s.hep.quar.contains t)).length
  if s.tagsOut + free = 4096 then none else some (5, 0, [s.tagsOut, free])

/-- R338: the books that are out, in R338 order. -/
def State.booksOut (s : State) : List BookOut :=
  (List.range 8).filterMap (fun p => s.poolBook p) ++ s.creditBooks ++ s.tokenBooks ++
    (List.range 8).filterMap (fun k => s.threadBookOut k) ++ s.tagBook.toList

/-- R339: the notice of a mismatch, with its snapshot. -/
def bookDetail (b : BookOut) (t : Nat) : List Byte :=
  beBytes 2 b.1 ++ beBytes 2 b.2.1 ++ (b.2.2.map (fun x => beBytes 8 (BitVec.ofInt 64 x).toNat)).flatten ++ beBytes 8 t

/-- R339: the audit that falls due at each whole 100 ms of replica 2. -/
def State.opAudit (s : State) : State :=
  let t := s.repTime 2
  if !s.powered 90 || t / msec 100 ≤ s.mem.auditAt / msec 100 then s
  else
    let out := s.booksOut
    let s := { s with mem := { s.mem with auditAt := t } }
    match out with
    | [] => s
    | b :: _ =>
      let s := (s.countN cntBooks out.length).memEvent 2
      if s.mem.snap.isSome then s
      else
        let x : Snap := { book := b.1, index := b.2.1, terms := b.2.2, time := BitVec.ofNat 64 t }
        { s with mem := { s.mem with snap := some x } }.mainEvent 3 5 t (bookDetail b t)

/-- R339, R341: MEM_AUDIT_ACK frees the snapshot registers. -/
def State.opAuditAck (s : State) (v : Word) : State :=
  if v.getLsbD 0 then { s with mem := { s.mem with snap := none } } else s

/-! R327, R328: what an unreadable context brings. -/

/-- R327, R330: a word of the device context area cannot be read. Which object's context it holds the spec leaves open
(log 145): a work or receive queue, which enters ERROR, a node of the traffic manager, which is as if not EN, or none. -/
def State.areaBad (s : State) : State :=
  let qs := (s.qim.queue.filter (fun (e : Nat × Queue) => e.2.st = .enabled || e.2.st = .disabled)).map Prod.fst
  let nodes := [0, 1, 2, 3].flatMap (fun l => (s.nodes l).map (fun (e : Nat × Node) => (l, e.1)))
  let k := s.freeNext % (qs.length + nodes.length + 1)
  let s := s.drawn
  match qs[k]?, nodes[k - qs.length]? with
  | some q, _ => s.queueError q
  | none, some n => s.modNode n.1 n.2 (fun x => { x with bad := true })
  | none, none => s

/-- R327, R331: a line of the context cache cannot be read. What it holds the spec leaves open: bytes of one of the regions
that it caches, or of the device context area. -/
def State.lineBad (s : State) : State :=
  let regs := [(fwtEpBase, 64), (fwtLrnBase 0, 8), (fwtLrnBase 1, 8), (fwtLrnBase 2, 8), (fwtLrnBase 3, 8), (trnCtxBase, 512),
    (trnIdxBase, 256), (rwcSaBase, 128), (rwcTplBase, 8)]
  let k := s.freeNext % 10
  let n := s.freeNext / 10
  let s := s.drawn
  match regs[k]? with
  | some (r, size) => { s with mem := { s.mem with badCtx := s.mem.badCtx ++ [(r, 64 * (n % (size * 16384)))] } }
  | none => s.areaBad

/-- R328: a patrol scrub read, with what an uncorrectable word of the device context area brings. -/
def State.patrolRead (s : State) (a : Nat) (flips : List (Fin 72)) : State :=
  let t := s.opPatrol a flips
  if (s.mem.hbmFail || s.eccOf flips = .uncorrectable) && !s.mem.reduced && s.powered 6 && decide (s.contextBase ≤ a ∧ a < s.ledgerBase) then t.areaBad else t

/-- R328: an SRAM scrub read, with what an uncorrectable line of the context cache brings. -/
def State.sramRead (s : State) (p : ScrubPlace) (flips : List (Fin 72)) : State :=
  let t := s.opSramScrub p flips
  match p with
  | .cache line => if s.eccOf flips = .uncorrectable && decide (line < 524288) && s.powered 87 then t.lineBad else t
  | .sram _ => t

/-- R341: the read-only words of the MEM and BPM. -/
def State.memView (s : State) (o : Nat) : Option Nat :=
  let m := s.mem
  let snap64 := fun (k : Nat) => match m.snap with
    | some x => (BitVec.ofInt 64 (x.terms.getD k 0)).toNat
    | none => 0
  let half := fun (v k : Nat) => if k = 0 then v % 2 ^ 32 else v / 2 ^ 32
  let tooFar := fun (r : Nat) (hbm : Bool) =>
    if s.mem.overQ.contains (2 * r + (if hbm then 1 else 0)) then 2 ^ 31 else 0
  if o = 0 then some ((if m.hbmFail then 2 ^ 31 else 0) + (if m.reduced then 2 ^ 30 else 0) +
    (if m.trained then 2 ^ 29 else 0) + (List.range 8).foldl (fun w b => if s.powered (9 + b) then w + 2 ^ b else w) 0)
  else if o = 0x48 then some (match m.snap with
    | some x => 2 ^ 31 + x.book % 8 * 65536 + x.index % 65536
    | none => 0)
  else if 0x50 ≤ o ∧ o < 0x70 then some (half (snap64 ((o - 0x50) / 8)) ((o - 0x50) / 4 % 2))
  else if 0x70 ≤ o ∧ o < 0x78 then
    some (half (match m.snap with | some x => x.time.toNat | none => 0) ((o - 0x70) / 4))
  else if 0x200 ≤ o ∧ o < 0x300 then
    let p := (o - 0x200) / 32
    match (o - 0x200) % 32 with
    | 0x10 => some (runCount (s.pool p).ring + runCount (s.pool p).cache)
    | 0x14 => some (s.pool p).lost
    | _ => none
  else if 0x400 ≤ o ∧ o < 0x8E0 then
    let r := (o - 0x400) / 32
    match (o - 0x400) % 32 with
    | 0x10 => some (tooFar r false + (if m.waits.any (fun w => w.requester = r) then 2 ^ 30 else 0) + s.reqOcc r false)
    | 0x18 => some (tooFar r true + s.reqOcc r true)
    | _ => none
  else if 0x900 ≤ o ∧ o < 0x910 then
    some (match m.df with
      | [] => 0
      | d :: _ =>
        if o = 0x900 then d.handle.toNat
        else if o = 0x904 then 2 ^ 31 + d.by_ % 64 * 256 + d.last % 64
        else half d.time.toNat ((o - 0x908) / 4))
  else none

end Sys2Proof.Machine
end

