-- ==== Sys2Proof/Machine/Views.lean ====
section
/-! DEFINITION. What every BAR0 word reads as (R9, R27 to R38, R43): stored words, and the words that blocks compute. -/

namespace Sys2Proof.Machine

/-! Read-only words of GLB, DMA and the lanes. -/

/-- R15, R43: the domains that clock an island. -/
def islandDoms (n : Nat) : List Nat :=
  if n = 0 then [0]
  else if n = 1 ∨ n = 7 then [90]
  else if n = 2 ∨ n = 3 then [1, 2]
  else if n = 4 then [3, 4]
  else if n = 5 then [5]
  else if n = 6 then [6, 7]
  else if n < 24 then [33 + (n - 8)]
  else if n < 32 then [49 + (n - 24)]
  else if n = 32 then [57, 58]
  else if n = 33 then [67, 68]
  else if n = 34 then [69, 70]
  else if n < 43 then [71 + (n - 35)]
  else if n = 43 then [79]
  else if n = 44 then [80]
  else if n = 45 then [81, 82]
  else if n = 46 then [91, 87, 88, 89]
  else [95]

/-- R15, R33, R43 GLB_ISLSTAT: an island's clock runs: its domain is powered, and a time core's TREF is
there. -/
def State.islandRuns (s : State) (n : Nat) : Bool :=
  (islandDoms n).any s.powered &&
    (if n = 43 then s.tim.coreA.trefOk
     else if n = 44 then s.tim.coreB.trefOk
     else true)

/-- A word of a row of flags, from flag 32 w. -/
def flagWord (w : Nat) (p : Nat → Bool) : Nat :=
  (List.range 32).foldl (fun v k => if p (32 * w + k) then v + 2 ^ k else v) 0

/-- R43: the computed words of GLB. -/
def State.glbView (s : State) (o : Nat) : Option Nat :=
  if o = 0 then some 0x1600B100
  else if 0x20 ≤ o ∧ o < 0x2C then some (flagWord ((o - 0x20) / 4) (fun n => s.powered n))
  else if o = 0x30 ∨ o = 0x34 then some (flagWord ((o - 0x30) / 4) (fun n => decide (n < 48) && s.islandRuns n))
  else if o = 0x40 then some s.guardStyle.toNat
  else if o = 0x44 then some s.guardLock.toNat
  else if o = 0x48 then some (flagWord 0 (fun g => decide (g < 16) && (Map.get s.arms g).isSome))
  else if o = 0x50 then some (s.satBlk + bits (s.regNat (GLB + 0x10)) 7 7)
  else none

/-- R316, R340: the code of a channel's state. -/
def ChSt.code : ChSt → Nat
  | .idle => 0 | .running => 1 | .waiting => 2 | .haltedBme => 3

/-- R340: the read-only words of the DMA engine. -/
def State.dmaView (s : State) (o : Nat) : Option Nat :=
  if o < 0x10000 ∨ 0x30000 ≤ o then none
  else
    let c := (o - 0x10000) / 32
    let x := s.chan c
    match (o - 0x10000) % 32 with
    | 0x00 => if c < 512 then some (2 ^ 31) else none
    | 0x10 => some (if c < 512 then 0 else (s.getReg (dmaCmd c)).toNat % 64)
    | 0x14 => some (x.st.code * 2 ^ 28 + x.status % 256 * 65536 + x.pc % 65536)
    | _ => none

/-- R111: the MAC that a lane belongs to. -/
def State.laneMac (s : State) (lane : Nat) : Option Nat :=
  (List.range 16).find? (fun m => s.macThere m && (s.laneDoms m).contains (17 + lane))

/-- R136 PRT_LANE_STAT: of a MAC whose link is up, a lane has its signal, CDR lock and marker lock; of another the spec
leaves it to the signal received. -/
def State.laneView (s : State) (o : Nat) : Option Nat :=
  if (o - 0x40000) % 0x100 ≠ 8 then none
  else
    match s.laneMac ((o - 0x40000) / 0x100) with
    | some m => if (s.mac m).link then some 7 else some (s.freeNext % 8)
    | none => some (s.freeNext % 8)

/-- Counts of what only the physical lines and the cache's replacement decide (R136, R331, R341): which of them a word
belongs to. -/
def freeCount (a : Nat) : Bool :=
  (decide (MEM + 0x28 ≤ a) && decide (a < MEM + 0x38)) ||
  (decide (MAC0 ≤ a) && decide (a < MAC0 + 0x10000) && decide (0x440 ≤ a % 0x1000) && decide (a % 0x1000 < 0x450)) ||
  (decide (PRT + 0x40000 ≤ a) && decide (a < PRT + 0x41000) && decide (0x10 ≤ a % 0x100) && decide (a % 0x100 < 0x18))

/-- Reading a word draws a free value. -/
def drawsFree (a : Nat) : Bool := decide (PRT + 0x40000 ≤ a) && decide (a < PRT + 0x41000) && decide (a % 0x100 = 8)

/-- R331: a miss of the context cache, which in reduced-capacity mode holds every context and evicts no line. -/
def State.noMiss (s : State) (a : Nat) : Bool := s.mem.reduced && a / 8 * 8 = MEM + 0x30

/-- R36, R116: a count of what the lines and the cache did has advanced, by a free number, by the time it is read. -/
def State.caughtUp (s : State) (a : Nat) : State :=
  if freeCount a && !s.noMiss a then (s.statN (a / 8 * 8) s.freeNext).drawn else s

/-- R342: TX_USED. -/
def State.txUsed (s : State) (i : Nat) : Nat :=
  let q := s.regBits (txQuota i) 23 0
  (if q ≠ 0 ∧ 4 * q < s.txOcc i then 2 ^ 31 else 0) + s.txOcc i

/-- R171: a word of a staging or maquette window. -/
def State.windowWord (s : State) (a : Nat) : Option Nat :=
  (pclWindow a).map (fun (w : Nat × Nat) => leNat (bankBytes (s.pipe w.1).staged w.2 4))

/-- The words that blocks compute, by BAR0 word address. -/
def State.viewWord (s : State) (a : Nat) : Option Nat :=
  let o := a % 0x100000
  match a / 0x100000 with
    | 0 => s.glbView o
    | 1 => s.hepView o
    | 2 => s.qimView o
    | 3 => s.dmaView o
    | 4 => s.memView o
    | 5 => if 0x40000 ≤ o then s.laneView o else s.prtView o
    | 6 => s.pclView o
    | 7 => s.fwtView o
    | 8 => s.rwcView o
    | 9 => s.trnView o
    | 10 => s.tmgView o
    | 11 => s.timView o
    | 12 => s.sqlView o
    | 13 => s.thaView o
    | 14 => s.glvView o
    | 52 => s.streamView a
    | 56 => if a % 16 = 8 then some (s.usedView ((a - SESSQ) / 16)) else none
    | 57 => if a % 16 = 8 then some (s.txUsed ((a - QUOTAS) / 16)) else none
    | n => if 16 ≤ n ∧ n < 48 then s.windowWord a else none

/-- R9: what a register word reads as before any effect of the read. -/
def State.wordAt (s : State) (a : Nat) : Word :=
  match s.viewWord a with
  | some n => BitVec.ofNat 32 n
  | none => s.getReg a

/-! R38: SATSUM. -/

/-- R38: the number of an event counter in its block's counter list. -/
def counterIndex (a : Nat) : Nat :=
  let o := a % 0x100000
  match a / 0x100000 with
  | 4 =>
    if o < 0xA00 then (o - 0x80) / 4
    else if o < 0xA40 then 8 + (o - 0xA00) / 4
    else if o < 0xB00 then 16 + (o - 0xA40) / 4
    else 32 + (o - 0xB00) / 4
  | 5 => 4 * ((o - 0x10000) / 0x1000) + (o % 0x1000 - 0x800) / 4
  | 6 => 32 * ((o - 0x10000) / 0x10000) + (o % 0x10000 - 0x800) / 4
  | 7 => 5 * ((o - 0x200) / 0x20) + (o - 0x200) % 0x20 / 4
  | 8 => if o < 0x480 then (o - 0x400) / 4 else 16 + (o - 0x480) / 4
  | 9 => (o - 0x400) / 4
  | 10 => if o < 0x3100 then (o - 0x3000) / 4 else 2 + (o - 0x3100) / 4
  | 11 => (o - 0x300) / 4
  | 13 => if o < 0x300 then 8 * ((o - 0x200) / 0x20) + (o - 0x200) % 0x20 / 4 else 64
  | 14 => (o - 0x100) / 4
  | _ => (o - 0x200) / 4

/-- R38: the block whose SATSUM array an address lies in, and the word. -/
def satWord (a : Nat) : Option (Nat × Nat) :=
  let o := a % 0x100000
  if a / 0x100000 < 15 ∧ 0xFF000 ≤ o ∧ o < 0xFF100 then some (a / 0x100000, (o - 0xFF000) / 4) else none

/-- R38: a SATSUM word. -/
def State.satSum (s : State) (b w : Nat) : Nat :=
  flagWord w (fun k => s.sat.any (fun a => decide (a / 0x100000 = b) && decide (counterIndex a = k)))

/-- R34, R38: a block's SATSUM array lies with the block's first register. -/
def State.satPowered (s : State) (b : Nat) : Bool :=
  match blockRows b with
  | r :: _ => s.rowPowered r 0
  | [] => false

end Sys2Proof.Machine
end

