-- ==== Sys2Proof/Machine/Bar.lean ====
section
/-! DEFINITION. BAR0 and BAR2 accesses (chapter 2): widths, unmapped and powered-off targets, the high-half latch,
clear-on-read, guarded writes under either style, and what a write does in each block. -/

namespace Sys2Proof.Machine

/-! Guards (R40, R41). -/

/-- R40: an access to a group's register discards the value that is armed. -/
def State.touchGuard (s : State) (g a : Nat) : State :=
  if (Map.get s.arms g).isSome then { s with arms := Map.del s.arms g }.accErr errGuard a else s

/-- R39, R41: a group is of lock style. -/
def State.lockStyle (s : State) (g : Nat) : Bool := s.guardStyle.getLsbD g

/-- R41, R74, R108: a write that a lock turns away. -/
def State.writeLocked (s : State) (req : Requester) (r : RegRow) (a : Nat) : Bool :=
  (s.lockStyle r.grp && s.guardLock.getLsbD r.grp) ||
  (r.grp = 9 && !s.mgrMayTime req) ||
  (decide (sqlClass 1 ≤ a) && decide (a < sqlClass 16) && !s.mainBool 0xA140 1 &&
    (match req with | .pcie _ _ => true | .thread _ => false))

/-- R41: the groups whose register maps hold an RWL register: the spec's maps give none. -/
def rwlGroups : BitVec 16 := 0

/-- R41: a write of GLB_GUARDLOCK: a bit can be set in a group of lock style or with an RWL register. -/
def State.opGuardLock (s : State) (v : Word) : State :=
  { s with guardLock := s.guardLock ||| (v.setWidth 16 &&& (s.guardStyle ||| rwlGroups)) }

/-! Reads. -/

/-- R271: the vector of an event register. -/
def evtVector (a : Nat) : Option Nat :=
  if a = GLB + 0x10 then some 1
  else if a = HEP + 4 then some 2
  else if a = QIM + 4 then some 3
  else if a = DMA then some 4
  else if a = MEM + 4 then some 5
  else if a = PRT + 0x18 ∨ a = PRT + 0x1C then some 6
  else if a = PCL + 4 then some 7
  else if a = RWC + 4 then some 9
  else if a = TMG + 4 then some 11
  else if a = TIM + 0x54 then some 12
  else if a = SQL + 4 then some 13
  else if a = THA + 4 then some 14
  else if a = GLV + 4 then some 15
  else none

/-- R271: an event register that reads 0 no longer holds its vector back. -/
def State.evtCleared (s : State) (a : Nat) : State :=
  match evtVector a with
  | none => s
  | some v =>
    let zero := if v = 6 then s.getReg (PRT + 0x18) = 0 && s.getReg (PRT + 0x1C) = 0 else s.getReg a = 0
    if zero then { s with hep := { s.hep with raised := s.hep.raised.filter (fun x => x ≠ v) } } else s

/-- The bits of a word that an access of n bytes at byte k covers. -/
def laneMask (k n : Nat) : Word := BitVec.ofNat 32 ((2 ^ (8 * n) - 1) * 2 ^ (8 * k))

/-- R35: a read of an RC register clears the bits it returned. -/
def State.clearRead (s : State) (a k n : Nat) : State :=
  (s.setReg a (s.getReg a &&& ~~~laneMask k n)).evtCleared a

/-- R32: a 4-byte read of one half of a 64-bit counter. -/
def State.readHalf (s : State) (a : Nat) (high : Bool) : Word × State :=
  if high then
    match Map.get s.latches (a - 4) with
    | some v => (v, { s with latches := Map.del s.latches (a - 4) })
    | none => (s.wordAt a, s)
  else (s.wordAt a, { s with latches := Map.put s.latches a (s.wordAt (a + 4)) })

/-- R9, R32 to R38: a read of n bytes from byte k of the register word a: what the word reads as. -/
def State.readReg (s : State) (r : RegRow) (q a k n : Nat) : Word × State :=
  let s := s.caughtUp a
  let s := if drawsFree a then s.drawn else s
  match r.acc with
  | .wo => (0, s)
  | .rwg => (s.wordAt a, s.touchGuard r.grp a)
  | .cnt =>
    (s.wordAt a, if n = 4 then { s.setReg a 0 with sat := s.sat.filter (fun x => x ≠ a) } else s)
  | .rc => (s.wordAt a, s.clearRead a k n)
  | .stat => if n = 4 then s.readHalf a (q % 8 = 4) else (s.wordAt a, s)
  | _ =>
    if n = 4 ∧ (a = TIM + 8 ∨ a = TIM + 0xC ∨ a = TIM + 0x10) then
      let (d, s) := s.readNow (if a = TIM + 8 then .low else if a = TIM + 0xC then .high else .bound)
      (BitVec.ofNat 32 (leNat d), s)
    else if a = TIM + 8 then (s.timNow.time.extractLsb' 0 32, s)
    else if a = TIM + 0xC then (s.timNow.time.extractLsb' 32 32, s)
    else (s.wordAt a, s)

/-- R28, R34, R38, R40: a read within one aligned word. DESIGN CHOICE (log 171): an access to a powered-off register of
an armed group has R34's effect alone, and the armed value stands. -/
def State.readWord (s : State) (a k n : Nat) : Word × State :=
  match satWord a with
  | some (b, w) => if s.satPowered b then (BitVec.ofNat 32 (s.satSum b w), s) else (0xFFFFFFFF, s.accErr errOff a)
  | none =>
    match findReg a with
    | some (r, i, _, q) =>
      if !s.rowPowered r i then (0xFFFFFFFF, s.accErr errOff (a + k)) else s.readReg r q a k n
    | none =>
      match complementOf a with
      | some r =>
        let i := match findReg (a - 4) with
          | some (_, i, _) => i
          | none => 0
        if !s.rowPowered r i then (0xFFFFFFFF, s.accErr errOff (a + k))
        else
          let hidden := decide (rwcKeyData 0 ≤ a) && decide (a < rwcKeyData 16)
          (if hidden then 0 else ~~~s.wordAt (a - 4), s.touchGuard r.grp a)
      | none => (0, s.accErr errUnmap (a + k))

/-- R29: an access that BAR0 takes. DESIGN CHOICE (log 25): the table has no row for contiguous accesses of 3, 5, 6 or
7 bytes; they are refused as an unaligned access is. -/
def widthOk (a n : Nat) : Bool :=
  (n = 1 || n = 2 || n = 4 || n = 8) && a % n = 0 && decide (a + n ≤ 0x4000000)

/-- R273: the MSI-X table and its pending bits, which take aligned accesses of 4 and 8 bytes. -/
def inMsix (a : Nat) : Bool :=
  (decide (HEP + 0x80000 ≤ a) && decide (a < HEP + 0x88000)) || (decide (HEP + 0x90000 ≤ a) && decide (a < HEP + 0x90100))

/-- R29: the access is of a form that BAR0 takes. -/
def barForm (a n : Nat) : Bool := widthOk a n && (!inMsix a || decide (4 ≤ n))

/-- R29, R40: an 8-byte access that goes to one register: a 64-bit register, or a guarded one with its complement. -/
def wholePair (a : Nat) : Option (RegRow × Nat) :=
  match findReg a with
  | some (r, i, _, q) => if (r.size = 8 ∧ q % 8 = 0) ∨ r.acc = .rwg then some (r, i) else none
  | none => none

/-- R29: two 4-byte reads, lower address first. DESIGN CHOICE (log 25): an 8-byte access to unmapped offsets is taken so
too, and counts two errors. -/
def State.readTwo (s : State) (a : Nat) : List Byte × State :=
  let (l, s) := s.readWord a 0 4
  let (h, s) := s.readWord (a + 4) 0 4
  (leBytes 4 l.toNat ++ leBytes 4 h.toNat, s)

/-- R29 to R38: a read of n bytes at a BAR0 offset, in a form that BAR0 takes. -/
def State.regRead (s : State) (a n : Nat) : List Byte × State :=
  let s := if a / 0x100000 = 7 then s.fwtSettle else s
  if n = 8 then
    match wholePair a with
    | some (r, i) =>
      if !s.rowPowered r i then (List.replicate 8 0xFF, s.accErr errOff a)
      else if a = TIM + 8 then s.readNow .both
      else if r.acc = .stat then
        let s := s.caughtUp a
        (leBytes 4 (s.wordAt a).toNat ++ leBytes 4 (s.wordAt (a + 4)).toNat, s)
      else s.readTwo a
    | none => s.readTwo a
  else
    let w := a / 4 * 4
    let (v, s) := s.readWord w (a % 4) n
    (slicePad (leBytes 4 v.toNat) (a % 4) n, s)

/-- R29, R30: a PCIe read of BAR0: its completion leaves the device. -/
def State.barRead (s : State) (a n : Nat) : State :=
  let s := s.rxRequest
  if !s.barOpen || !barForm a n then s.barRefuse 0 a
  else
    let (d, s) := s.regRead a n
    s.reply (.readData d)

/-! Writes. -/

/-- A word with the bytes of an access put in. -/
def mergeWord (old : Word) (k : Nat) (d : List Byte) : Word :=
  (old &&& ~~~laneMask k d.length) ||| (BitVec.ofNat 32 (leNat d * 2 ^ (8 * k)) &&& laneMask k d.length)

/-- The writable bits of a register's word at byte q. -/
def RegRow.wordMask (r : RegRow) (q : Nat) : Word := BitVec.ofNat 32 (r.mask / 2 ^ (8 * (q / 4 * 4)))

/-- A field out of its range keeps its value, and the other bits of the word are written. -/
def keepField (old new : Word) (hi lo least most : Nat) : Word :=
  let f := bits new.toNat hi lo
  if least ≤ f ∧ f ≤ most then new else BitVec.ofNat 32 (putBits new.toNat hi lo (bits old.toNat hi lo))

/-- A word of a register is stored through its mask. -/
def State.store (s : State) (r : RegRow) (q a : Nat) (v : Word) : State :=
  s.setReg a ((s.getReg a &&& ~~~r.wordMask q) ||| (v &&& r.wordMask q))

/-- R40, R41: a guarded register takes its value: what the blocks make of it. None: its block refuses the value, and
the guarded write fails (R255; R7: a member entry that names no source there is, log 135). -/
def State.applyGuarded (s : State) (r : RegRow) (i a : Nat) (v : Word) : Option State :=
  if a = qimAqCfg then some (s.store r 0 a (keepField (s.getReg a) v 4 0 4 16))
  else if a = qimAcqCfg then some (s.store r 0 a (keepField (s.getReg a) v 4 0 4 16)).acqFlush
  else if a = QIM + 0x48 then some (if 16384 < bits v.toNat 14 0 then s else s.store r 0 a v)
  else if a / 0x100000 = 4 ∧ a % 0x100000 < 0x300 ∧ 0x200 ≤ a % 0x100000 then
    some (if a % 32 = 0 then s.opPoolCfg i v else if s.poolEn i then s else s.store r 0 a v)
  else if a / 0x100000 = 4 ∧ 0x400 ≤ a % 0x100000 ∧ a % 0x100000 < 0x900 then
    some ((s.store r 0 a v).checkReq i (decide (a % 32 = 8)))
  else if a = prtGrpMode 0 ∨ a = prtGrpMode 1 then some (s.opGrpMode i v)
  else if a / 0x100000 = 5 ∧ a < PRT + 0x20000 ∧ a % 0x1000 = 8 ∧ MAC0 ≤ a then
    some (s.store r 0 a (keepField (s.getReg a) v 13 0 1518 9600))
  else if a / 0x100000 = 6 ∧ PIPE0 ≤ a ∧ a % 0x10000 = 0 then some ((s.store r 0 a v).pipeCfgSet i v)
  else if a / 0x100000 = 6 ∧ a % 0x10000 = 0x20 then some (s.store r 0 a (keepField (s.getReg a) v 9 0 1 1000))
  else if a = fwtEpBase then some (s.opFwtBase .ep v)
  else if a / 0x100000 = 7 ∧ a % 0x100000 < 0x40 then some (s.opFwtBase (.lrn (Fin.ofNat 4 i)) v)
  else if a = fwtSweepCfg then some (s.opSweepCfg v)
  else if a = rwcTplBase then some (s.opRwcBase .tpl v)
  else if a = rwcSaBase then some (s.opRwcBase .sa v)
  else if a / 0x100000 = 10 then if tmgRateOk a v then some (s.opTmgRate a v) else none
  else if a / 0x100000 = 12 ∧ 0x100 ≤ a % 0x100000 ∧ bits v.toNat 29 28 = 3 then
    some (s.store r 0 a (BitVec.ofNat 32 (putBits v.toNat 29 28 (s.regBits a 29 28))))
  else if MEMBERS ≤ a ∧ a < MEMBERS + 0x200000 ∧ a % 16 = 0 then if memberOk v then some (s.store r 0 a v) else none
  else some (s.store r 0 a v)

/-- R40: a guarded value takes effect, or fails. -/
def State.takeGuarded (s : State) (r : RegRow) (i a : Nat) (v : Word) : State :=
  (s.applyGuarded r i a v).getD (s.accErr errGuard a)

/-- R264: a guarded register takes no write while a command of its block is busy: a staged window during a commit. -/
def State.guardBusy (s : State) (a : Nat) : Bool := s.winBusy && decide (HEP + 0x10000 ≤ a) && decide (a < HEP + 0x12000)

/-- R40, R41: a whole write of a guarded register. -/
def State.writeGuarded (s : State) (req : Requester) (r : RegRow) (i a : Nat) (v : Word) : State :=
  let s := s.touchGuard r.grp a
  if s.writeLocked req r a then s.accErr errLocked a
  else if s.guardBusy a then s.accErr errBusy a
  else if s.lockStyle r.grp then s.takeGuarded r i a v
  else { s with arms := Map.put s.arms r.grp { req := req, addr := a, value := v, at_ := s.clock } }

/-- R40, R41: a whole write of a guarded register's complement, at a + 4. -/
def State.writeComplement (s : State) (req : Requester) (r : RegRow) (i a : Nat) (v : Word) : State :=
  if s.writeLocked req r a then (s.touchGuard r.grp (a + 4)).accErr errLocked (a + 4)
  else if s.guardBusy a then s.accErr errBusy (a + 4)
  else if s.lockStyle r.grp then s
  else
    match Map.get s.arms r.grp with
    | some m =>
      let s := { s with arms := Map.del s.arms r.grp }
      if m.req = req ∧ m.addr = a ∧ v = ~~~m.value ∧ s.clock ≤ m.at_ + usec 10 then s.takeGuarded r i a m.value
      else s.accErr errGuard (a + 4)
    | none => s.accErr errGuard (a + 4)

/-- R29, R41: a narrow write of a guarded register is ignored: LOCKED where a lock turns every write of the group away,
else PARTIAL. DESIGN CHOICE (log 25): under lock style before the lock bit is set it is ignored too, as R29's table has
it, and not merged as an RW register's. -/
def State.narrowGuarded (s : State) (req : Requester) (r : RegRow) (a off : Nat) : State :=
  let s := s.touchGuard r.grp a
  s.accErr (if s.writeLocked req r a then errLocked else errPartial) off

/-- R29, R41: a narrow write of a guarded register's complement; a is the register's own address. -/
def State.narrowComplement (s : State) (req : Requester) (r : RegRow) (a off : Nat) : State :=
  let s := s.touchGuard r.grp (a + 4)
  if s.writeLocked req r a then s.accErr errLocked off
  else if s.lockStyle r.grp then s
  else s.accErr errPartial off

/-- R40: an aligned 8-byte write of a value with its complement. -/
def State.writeBoth (s : State) (req : Requester) (r : RegRow) (i a : Nat) (v c : Word) : State :=
  let s := s.touchGuard r.grp a
  if s.writeLocked req r a then s.accErr errLocked a
  else if s.guardBusy a then s.accErr errBusy a
  else if s.lockStyle r.grp then s.takeGuarded r i a v
  else
    if c = ~~~v then s.takeGuarded r i a v else s.accErr errGuard a

/-- R340: a whole write of DMA_CH_CMD. A program in host memory, which the command does not bring along, is free. -/
def State.dmaCmdWrite (s : State) (c : Nat) (v : Word) : State :=
  let host := s.freeBytes 32800
  match bits v.toNat 3 0 with
  | 0 => s.onCmd (dmaCmd c) false (fun s => if c < 512 then s else s.setReg (dmaCmd c) (v &&& 0x3F))
  | 2 => s.opDmaAbort c v
  | 3 => if (s.chan c).space then s.drawn.opDmaResume c v (.ok host) else s.opDmaResume c v .error
  | _ => if bits v.toNat 5 4 = 1 then s.drawn.opDmaStart c v (.ok host) else s.opDmaStart c v .error

/-- R42: a whole write of a command register. dbg is what THA_DBG_CMD does. -/
def State.commandWrite (dbg : State → Word → State) (s : State) (req : Requester) (i a : Nat) (v : Word) : State :=
  if a = hepWinCmd then s.opWinCommit v
  else if a = hepIvCmd then s.opIvCmd v
  else if a = timPcorrCmd then s.opPcorrCmd req v
  else if a = sqlMembCmd then s.opMembCmd v
  else if a / 0x100000 = 3 then s.dmaCmdWrite i v
  else if a / 0x100000 = 5 then s.opGateCommit i v
  else if a / 0x100000 = 6 then
    if a % 0x10000 = 0x28 then s.opSwapCommit i v
    else if a % 0x10000 = 0x30 then s.opLoadVerify i v
    else s.opBankCopy i v
  else if a = fwtCmd then s.opFwtCmd v
  else if a = rwcSaCmd then s.opSaCmd v
  else if a = rwcTplCmd then s.opTplCmd v
  else if a / 0x100000 = 9 then s.opTrnCmd v
  else if a = tmgCmd then s.opTmgCmd v
  else dbg s v

/-- A write of some bytes of a write-only word. -/
def State.writeOnly (s : State) (req : Requester) (r : RegRow) (i q a k : Nat) (d : List Byte) : State :=
  let v := mergeWord 0 k d
  let whole := d.length = 4
  match a / 0x100000 with
  | 2 =>
    if a = QIM + 0xA8 then s.opIevtNext v
    else if !whole then s.count cntDbBad
    else if q = 0 then s.opStage .pf0 v
    else s.opDoorbell .pf0 (.upper v)
  | 4 => if a = MEM + 0x40 then s.opAuditAck v else s.opDfNext v
  | 5 => s.opTxtsNext i v
  | 6 => s.opSwapGo v
  | 8 => s.opExpNext v
  | 11 =>
    let s := s.setReg a (mergeWord (s.getReg a) k d)
    if q = 4 then s.opPtpMeasurement req (if a < TIM + 0x250 then .A else .B) else s
  | 14 =>
    if !whole then s
    else if a < GLV + 0x20000 then s.opMbxSend req (.host (Fin.ofNat 64 i)) v
    else s.opF2hAck req (.host (Fin.ofNat 64 i)) v
  | _ => s.store r q a v

/-- R41, R42, R128, R183, R390: the access error of a write of a plain register that its block ignores as a whole. -/
def State.plainRefused (s : State) (req : Requester) (i a : Nat) : Option Nat :=
  match a / 0x100000 with
  | 5 => if ((0x204 ≤ a % 0x1000 ∧ a % 0x1000 < 0x218) ∨ PRT + 0x20000 ≤ a) ∧ (s.mac i).gateWait.isSome then some errBusy
         else none
  | 7 => if 0x84 ≤ a % 0x100000 ∧ a % 0x100000 < 0xC0 ∧ s.fwt.run.isSome then some errBusy else none
  | 11 => if !s.mgrMayTime req then some errLocked else none
  | 14 => if s.ownsMbx req i ∧ (s.mbox 0 i).full then some errBusy else none
  | _ => none

/-- A write of a plain register word that its block takes: what the block makes of it. -/
def State.plainTake (s : State) (req : Requester) (r : RegRow) (i q a : Nat) (v : Word) : State :=
  let old := s.getReg a
  match a / 0x100000 with
  | 0 => if a = GLB + 0x44 then s.opGuardLock v else s.store r q a v
  | 2 =>
    if a = qimAqTail then s.opAqTail v
    else if a = qimAcqHead then s.opAcqHead v
    else if a = qimCqStall then s.store r q a (keepField old v 15 0 1 60000)
    else if a = qimMedCfg then s.store r q a (keepField old v 4 0 4 12)
    else s.store r q a v
  | 3 =>
    if a < DMA + 0x10000 then s.store r q a v
    else if i < 512 then s
    else if a % 32 = 0 ∧ (s.chan i).st ≠ .idle then s
    else s.store r q a v
  | 5 =>
    if a < PRT + 0x20000 then
      let o := a % 0x1000
      if o = 0 ∧ old.getLsbD 31 ∧ !v.getLsbD 31 then (s.store r q a (v ||| 0x80000000)).opEnClear i
      else s.store r q a v
    else s.store r q a v
  | 9 =>
    if a = TRN + 0x10 then s.opTrnBase .ctx v
    else if a = TRN + 0x18 then s.opTrnBase .idx v
    else if a = TRN + 0x20 then
      if (s.getReg (TRN + 0x10)).getLsbD 31 || (s.getReg (TRN + 0x18)).getLsbD 31 then s else s.store r q a v
    else if a = TRN + 0x204 then s.store r q a (keepField old v 9 0 1 1000)
    else if a = TRN + 0x208 then s.store r q a (keepField old v 19 0 10 1000000)
    else if a = TRN + 0x20C then s.store r q a (keepField old v 19 0 1 60000)
    else if a = TRN + 0x210 then s.store r q a (keepField old v 4 0 1 31)
    else s.store r q a v
  | 10 => if a = TMG + 0x48 then s.store r q a (keepField old v 4 0 4 20) else s.store r q a v
  | 14 => if !s.ownsMbx req i then s.count glvMbxDeny else s.store r q a v
  | _ => s.store r q a v

/-- A write of a plain register word: refused by its block with an access error, or taken. -/
def State.plainWrite (s : State) (req : Requester) (r : RegRow) (i q a : Nat) (v : Word) : State :=
  match s.plainRefused req i a with
  | some e => s.accErr e a
  | none => s.plainTake req r i q a v

/-- R28, R34, R40 to R42: a write within one aligned word. -/
def State.writeWord (dbg : State → Word → State) (s : State) (req : Requester) (a k : Nat) (d : List Byte) : State :=
  match satWord a with
  | some (b, _) => if s.satPowered b then s else s.accErr errOff a
  | none =>
    match findReg a with
    | some (r, i, _, q) =>
      if !s.rowPowered r i then s.accErr errOff (a + k)
      else match r.acc with
        | .ro | .rc | .cnt | .stat => s
        | .rwg =>
          if d.length = 4 then s.writeGuarded req r i a (mergeWord 0 0 d) else s.narrowGuarded req r a (a + k)
        | .cmd =>
          if d.length = 4 then s.commandWrite dbg req i a (mergeWord 0 0 d) else s.accErr errPartial (a + k)
        | .wo => s.writeOnly req r i q a k d
        | .rwl =>
          if s.guardLock.getLsbD r.grp then s.accErr errLocked (a + k)
          else s.plainWrite req r i q a (mergeWord (s.getReg a) k d)
        | .rw =>
          if 0x1000000 ≤ a ∧ a < 0x3000000 then s.opStaging (a + k) d
          else s.plainWrite req r i q a (mergeWord (s.getReg a) k d)
    | none =>
      match complementOf a with
      | some r =>
        let i := match findReg (a - 4) with
          | some (_, i, _) => i
          | none => 0
        if !s.rowPowered r i then s.accErr errOff (a + k)
        else if d.length = 4 then s.writeComplement req r i (a - 4) (mergeWord 0 0 d)
        else s.narrowComplement req r (a - 4) (a + k)
      | none => s.accErr errUnmap (a + k)

/-- R29: two 4-byte writes, lower address first (log 25). -/
def State.writeTwo (dbg : State → Word → State) (s : State) (req : Requester) (a : Nat) (d : List Byte) : State :=
  (State.writeWord dbg s req a 0 (slicePad d 0 4)).writeWord dbg req (a + 4) 0 (slicePad d 4 4)

/-- R29 to R42: a write of bytes at a BAR0 offset, in a form that BAR0 takes. -/
def State.regWrite (dbg : State → Word → State) (s : State) (req : Requester) (a : Nat) (d : List Byte) : State :=
  let s := if a / 0x100000 = 7 then s.fwtSettle else s
  if d.length = 8 then
    match wholePair a with
    | some (r, i) =>
      if !s.rowPowered r i then s.accErr errOff a
      else if r.acc = .rwg then
        s.writeBoth req r i a (mergeWord 0 0 (slicePad d 0 4)) (mergeWord 0 0 (slicePad d 4 4))
      else if a = QIM + 0x78 then s.opDoorbell .pf0 (.whole (BitVec.ofNat 64 (leNat d)))
      else match (if r.acc = .rw then s.plainRefused req i a else none) with
        | some e => s.accErr e a
        | none => State.writeTwo dbg s req a d
    | none => if (pclWindow a).isSome ∧ (pclWindow (a + 4)).isSome then s.opStaging a d else State.writeTwo dbg s req a d
  else s.writeWord dbg req (a / 4 * 4) (a % 4) d

/-- R29, R30: a PCIe write of BAR0. -/
def State.barWrite (dbg : State → Word → State) (s : State) (req : Requester) (a : Nat) (d : List Byte) : State :=
  let s := s.rxPosted d.length
  if !s.barOpen || !barForm a d.length then s.aerLog .refusedWrite else s.regWrite dbg req a d

/-- R40: an armed value has waited 10 µs. -/
def State.opArmExpire (s : State) (g : Nat) : State :=
  match Map.get s.arms g with
  | some m => if m.at_ + usec 10 ≤ s.clock then s.touchGuard g m.addr else s
  | none => s

/-- R33: an access to another island is not answered within 2 µs. -/
def State.opCrossTimeout (s : State) (a : Nat) (acc : CrossAcc) : State :=
  let s := s.rxTlp acc.write acc.width
  if !s.barOpen || !barForm a acc.width then s.refuseTlp 0 a acc.write
  else
    let s := s.accErr errTmo a
    if acc.write then s else s.reply (.readData (List.replicate acc.width 0xFF))

/-! Instance pages (R31, R262, R282). -/

/-- R262, R282: a write of a page that its instance's state admits. -/
def State.pageWrite (s : State) (i : BitVec 16) (o : Nat) (d : List Byte) : State :=
  let n := d.length
  let v := BitVec.ofNat 32 (leNat d)
  if n = 8 ∧ o = 0 then s.opDoorbell (.inst i) (.whole (BitVec.ofNat 64 (leNat d)))
  else if n = 4 ∧ o = 0 then s.opStage (.inst i) v
  else if n = 4 ∧ o = 4 then s.opDoorbell (.inst i) (.upper v)
  else if n = 4 ∧ o = 0x24 then s.opReqGo i.toNat v
  else if (n = 4 ∨ n = 8) ∧ o % n = 0 ∧ 0x40 ≤ o ∧ o + n ≤ 0x70 then s.pageGate i.toNat (fun s => s.reqWrite i.toNat o d)
  else if n = 4 ∧ o % 4 = 0 ∧ 0x200 ≤ o ∧ o < 0x280 then s.opTmask i.toNat ((o - 0x200) / 4) v
  else s.pageGate i.toNat (fun s => s.errAccess i.toNat)

/-- R262: an access to an instance page. -/
def State.opPage (s : State) (i : BitVec 16) (o : Nat) (acc : PageAccess) : State :=
  let a := 4096 * i.toNat + o
  match acc with
  | .read n =>
    let s := s.rxRequest
    if !s.barOpen then s.barRefuse 2 a else s.pageRead i.toNat o n
  | .write d =>
    let s := s.rxPosted d.length
    if !s.barOpen then s.aerLog .refusedWrite else s.pageWrite i o d
  | .odd k => s.oddTlp k 2 a

end Sys2Proof.Machine
end

