-- ==== Sys2Proof/Machine/HepCfg.lean ====
section
/-! DEFINITION. Configuration requests to PF0 (R259 to R261, R267, R269 to R273, R275, R276), and the DOE mailbox (R278). -/

namespace Sys2Proof.Machine

/-! R278: the DOE mailbox. -/

/-- R278: what DOE Discovery answers to an index: the object type there, and the next index. -/
def doeFound (i : Nat) : Word :=
  match i with
  | 0 => 0x01000001
  | 1 => 0x00010001
  | _ => 0x0000FFFF

/-- R278: the bytes of doublewords. -/
def wordBytes (l : List Word) : List Byte := l.flatMap (fun w => leBytes 4 w.toNat)

/-- R278: the requester sets DOE Go: the object that it has written is processed. One whose length does not fit, or that is
longer than 1,024 DW, is an error; one of a type that is not supported is dropped. -/
def State.doeGo (s : State) : State :=
  let l := s.hep.doeIn
  let s := { s with hep := { s.hep with doeIn := [] } }
  let kind := bits (l.getD 0 0).toNat 23 0
  let len := bits (l.getD 1 0).toNat 17 0
  if l.length ≠ len || decide (len < 2) || decide (1024 < len) then { s with hep := { s.hep with doeErr := true } }
  else if kind = 0x000001 then
    { s with hep := { s.hep with doeOut := [0x00000001, 3, doeFound (bits (l.getD 2 0).toNat 7 0)] } }
  else if kind = 0x010001 then s.opSpdm (wordBytes (l.drop 2))
  else s

/-- R278: DOE Abort: the mailbox and the exchange in progress are given up. -/
def State.doeAbort (s : State) : State :=
  { s with hep := { s.hep with
    doeIn := [], doeOut := [], doeErr := false, doe := none, doeBuf := [], doeChain := none, doePart := [] } }

/-- R278: a write of DOE Control. -/
def State.doeControl (s : State) (v : Word) : State :=
  if v.getLsbD 0 then s.doeAbort else if v.getLsbD 31 && s.hep.doe.isNone then s.doeGo else s

/-- R278: an SPDM request as a whole: one that no data object of 1,024 DW can hold is a DOE error. -/
def State.opDoeSpdm (s : State) (r : List Byte) : State :=
  s.onCfg (fun s => if 4088 < r.length then { s with hep := { s.hep with doeErr := true } } else s.opSpdm r)

/-! R259: reads and writes of configuration space. -/

/-- R259: what a write of a doubleword does beside storing it: new is the doubleword with the written bytes, and ones the
bits that the write sets. -/
def State.cfgActs (s : State) (o : Nat) (new ones : Word) : State :=
  match o with
  | 0x004 =>
    ({ s with hep := { s.hep with mse := new.getLsbD 1, intxDis := new.getLsbD 10 } }).setBme (new.getLsbD 2)
  | 0x044 => s.setPower (bits new.toNat 1 0)
  | 0x050 => s.setMsix (new.getLsbD 31) (new.getLsbD 30)
  | 0x078 => if ones.getLsbD 15 then s.opFlr else s
  | 0x098 => { s with hep := { s.hep with cto := new.extractLsb' 0 4 } }
  | 0x104 => s.clearAer ones
  | 0x110 => { s with hep := { s.hep with aerCor := s.hep.aerCor &&& ~~~ones } }
  | 0x14C => { s with hep := { s.hep with pasid := new.getLsbD 16 } }
  | 0x154 => s.setAts (new.getLsbD 31)
  | 0x168 => s.doeControl ones
  | 0x170 => { s with hep := { s.hep with doeIn := (s.hep.doeIn ++ [new]).take 1025 } }
  | 0x174 => { s with hep := { s.hep with doeOut := s.hep.doeOut.drop 1 } }
  | _ => s

/-- R259: the fields of a doubleword that State holds under their own names, which are not stored twice. -/
def cfgNamed (o : Nat) : Word :=
  match o with
  | 0x004 => 0x00000406
  | 0x044 => 0x00000003
  | 0x050 => 0xC0000000
  | 0x098 => 0x0000000F
  | 0x14C => 0x00010000
  | 0x154 => 0x80000000
  | _ => 0

/-- R259: a write of bytes at an offset, within one doubleword. -/
def State.cfgWrite (s : State) (off : Nat) (d : List Byte) : State :=
  let o := off / 4 * 4
  let k := off % 4
  let d := d.take (4 - k)
  let (_, _, rw, w1c) := cfgRow o
  let ones := mergeWord 0 k d
  let new := (s.cfgDword o &&& ~~~rw) ||| (mergeWord (s.cfgDword o) k d &&& rw)
  let take := rw &&& ~~~cfgNamed o
  let kept := ((s.cfgWord o &&& ~~~take) ||| (new &&& take)) &&& ~~~(ones &&& w1c)
  let s := { s with hep := { s.hep with cfg := Map.set s.hep.cfg o kept (cfgDefault o) } }
  s.cfgActs o (if rw = 0 then mergeWord 0 k d else new) ones

/-- R259, R261: a configuration request to PF0: one of the fields that rules name, or a register by its offset. -/
def State.opConfig (s : State) (c : CfgChange) : State :=
  s.onCfg (fun s => match c with
    | .memorySpace on => { s with hep := { s.hep with mse := on } }
    | .msixEnable on => s.setMsix on s.hep.fmask
    | .functionMask on => s.setMsix s.hep.msix on
    | .interruptDisable on => { s with hep := { s.hep with intxDis := on } }
    | .pasidEnable on => { s with hep := { s.hep with pasid := on } }
    | .atsEnable on => s.setAts on
    | .completionTimeout code => { s with hep := { s.hep with cto := code } }
    | .toD0 => s.setPower 0
    | .write off d => s.cfgWrite off d
    | .read off => s.emit (.readData (leBytes 4 (s.cfgDword (off / 4 * 4)).toNat)))

end Sys2Proof.Machine
end

