-- ==== Sys2Proof/Machine/Rv.lean ====
section
/-! DEFINITION. The base ISA of a thread (R343): RV64IMC as the RISC-V unprivileged specification defines it: the
expansion of compressed words, the integer operations, and the conditions of branches. -/

namespace Sys2Proof.Machine

/-- A field of n bits, sign-extended to 64 bits. -/
def sx (n v : Nat) : BitVec 64 := (BitVec.ofNat n v).signExtend 64

/-- A field of n bits, sign-extended to m bits. -/
def sxTo (n m v : Nat) : Nat := ((BitVec.ofNat n v).signExtend m).toNat

/-! Instruction words by format. -/

def iWord (imm rs1 f3 rd op : Nat) : Word := BitVec.ofNat 32 (imm % 4096 * 2 ^ 20 + rs1 * 2 ^ 15 + f3 * 2 ^ 12 + rd * 2 ^ 7 + op)
def sWord (imm rs2 rs1 f3 : Nat) : Word :=
  BitVec.ofNat 32 (bits imm 11 5 * 2 ^ 25 + rs2 * 2 ^ 20 + rs1 * 2 ^ 15 + f3 * 2 ^ 12 + bits imm 4 0 * 2 ^ 7 + 0x23)
def bWord (imm rs2 rs1 f3 : Nat) : Word :=
  BitVec.ofNat 32 (bits imm 12 12 * 2 ^ 31 + bits imm 10 5 * 2 ^ 25 + rs2 * 2 ^ 20 + rs1 * 2 ^ 15 + f3 * 2 ^ 12 +
    bits imm 4 1 * 2 ^ 8 + bits imm 11 11 * 2 ^ 7 + 0x63)
def jWord (imm rd : Nat) : Word :=
  BitVec.ofNat 32 (bits imm 20 20 * 2 ^ 31 + bits imm 10 1 * 2 ^ 21 + bits imm 11 11 * 2 ^ 20 + bits imm 19 12 * 2 ^ 12 +
    rd * 2 ^ 7 + 0x6F)

/-- The compressed words of quadrant 0. -/
def expand0 (h : Nat) : Option Word :=
  let rd := 8 + bits h 4 2
  let rs := 8 + bits h 9 7
  let w := bits h 12 10 * 8 + bits h 6 6 * 4 + bits h 5 5 * 64
  let d := bits h 12 10 * 8 + bits h 6 5 * 64
  match bits h 15 13 with
  | 0 =>
    let u := bits h 12 11 * 16 + bits h 10 7 * 64 + bits h 6 6 * 4 + bits h 5 5 * 8
    if u = 0 then none else some (iWord u 2 0 rd 0x13)
  | 2 => some (iWord w rs 2 rd 0x03)
  | 3 => some (iWord d rs 3 rd 0x03)
  | 6 => some (sWord w rd rs 2)
  | 7 => some (sWord d rd rs 3)
  | _ => none

/-- The register operations of quadrant 1. -/
def expandAlu (h : Nat) : Option Word :=
  let rd := 8 + bits h 9 7
  let rs := 8 + bits h 4 2
  let sh := bits h 12 12 * 32 + bits h 6 2
  match bits h 11 10 with
  | 0 => some (iWord sh rd 5 rd 0x13)
  | 1 => some (iWord (0x400 + sh) rd 5 rd 0x13)
  | 2 => some (iWord (sxTo 6 12 sh) rd 7 rd 0x13)
  | _ =>
    match bits h 12 12, bits h 6 5 with
    | 0, 0 => some (rType 0x20 rs rd 0 rd 0x33)
    | 0, 1 => some (rType 0 rs rd 4 rd 0x33)
    | 0, 2 => some (rType 0 rs rd 6 rd 0x33)
    | 0, _ => some (rType 0 rs rd 7 rd 0x33)
    | _, 0 => some (rType 0x20 rs rd 0 rd 0x3B)
    | _, 1 => some (rType 0 rs rd 0 rd 0x3B)
    | _, _ => none

/-- The compressed words of quadrant 1. -/
def expand1 (h : Nat) : Option Word :=
  let rd := bits h 11 7
  let i6 := bits h 12 12 * 32 + bits h 6 2
  let imm := sxTo 6 12 i6
  match bits h 15 13 with
  | 0 => some (iWord imm rd 0 rd 0x13)
  | 1 => if rd = 0 then none else some (iWord imm rd 0 rd 0x1B)
  | 2 => some (iWord imm 0 0 rd 0x13)
  | 3 =>
    if rd = 2 then
      let v := bits h 12 12 * 512 + bits h 6 6 * 16 + bits h 5 5 * 64 + bits h 4 3 * 128 + bits h 2 2 * 32
      if v = 0 then none else some (iWord (sxTo 10 12 v) 2 0 2 0x13)
    else if i6 = 0 then none
    else some (BitVec.ofNat 32 (sxTo 6 20 i6 * 2 ^ 12 + rd * 2 ^ 7 + 0x37))
  | 4 => expandAlu h
  | 5 =>
    let v := bits h 12 12 * 2048 + bits h 11 11 * 16 + bits h 10 9 * 256 + bits h 8 8 * 1024 + bits h 7 7 * 64 +
      bits h 6 6 * 128 + bits h 5 3 * 2 + bits h 2 2 * 32
    some (jWord (sxTo 12 21 v) 0)
  | k =>
    let v := bits h 12 12 * 256 + bits h 11 10 * 8 + bits h 6 5 * 64 + bits h 4 3 * 2 + bits h 2 2 * 32
    some (bWord (sxTo 9 13 v) 0 (8 + bits h 9 7) (k - 6))

/-- The compressed words of quadrant 2. -/
def expand2 (h : Nat) : Option Word :=
  let rd := bits h 11 7
  let rs := bits h 6 2
  match bits h 15 13 with
  | 0 => some (iWord (bits h 12 12 * 32 + rs) rd 1 rd 0x13)
  | 2 =>
    if rd = 0 then none
    else some (iWord (bits h 12 12 * 32 + bits h 6 4 * 4 + bits h 3 2 * 64) 2 2 rd 0x03)
  | 3 =>
    if rd = 0 then none
    else some (iWord (bits h 12 12 * 32 + bits h 6 5 * 8 + bits h 4 2 * 64) 2 3 rd 0x03)
  | 4 =>
    if bits h 12 12 = 0 then
      if rs ≠ 0 then some (rType 0 rs 0 0 rd 0x33)
      else if rd = 0 then none
      else some (iWord 0 rd 0 0 0x67)
    else if rs ≠ 0 then some (rType 0 rs rd 0 rd 0x33)
    else if rd = 0 then some 0x00100073
    else some (iWord 0 rd 0 1 0x67)
  | 6 => some (sWord (bits h 12 9 * 4 + bits h 8 7 * 64) rs 2 2)
  | 7 => some (sWord (bits h 12 10 * 8 + bits h 9 7 * 64) rs 2 3)
  | _ => none

/-- R343: the 32-bit word that a compressed one stands for; none: it is not an instruction of the base ISA. -/
def expandC (h : Nat) : Option Word :=
  match h % 4 with
  | 0 => expand0 h
  | 1 => expand1 h
  | _ => expand2 h

/-! Integer operations. -/

/-- A 32-bit result. -/
def w32 (v : BitVec 64) : BitVec 64 := (v.setWidth 32).signExtend 64

/-- The OP and OP-IMM operations by funct3; alt selects SUB and SRA. -/
def intOp (f3 : Nat) (alt : Bool) (a b : BitVec 64) : BitVec 64 :=
  match f3 with
  | 0 => if alt then a - b else a + b
  | 1 => a <<< (b.toNat % 64)
  | 2 => if a.slt b then 1 else 0
  | 3 => if a.ult b then 1 else 0
  | 4 => a ^^^ b
  | 5 => if alt then a.sshiftRight (b.toNat % 64) else a >>> (b.toNat % 64)
  | 6 => a ||| b
  | _ => a &&& b

/-- The 32-bit forms: ADDW, SUBW, SLLW, SRLW, SRAW. -/
def intOpW (f3 : Nat) (alt : Bool) (a b : BitVec 64) : Option (BitVec 64) :=
  let x : BitVec 32 := a.setWidth 32
  let y : BitVec 32 := b.setWidth 32
  let n := y.toNat % 32
  match f3 with
  | 0 => some ((if alt then x - y else x + y).signExtend 64)
  | 1 => if alt then none else some ((x <<< n).signExtend 64)
  | 5 => some ((if alt then x.sshiftRight n else x >>> n).signExtend 64)
  | _ => none

/-- Division of w-bit numbers, with the results that the ISA gives for a divisor of 0 and for an overflow. -/
def divRem {w : Nat} (f3 : Nat) (x y : BitVec w) : BitVec w :=
  match f3 with
  | 4 => if y = 0 then -1 else BitVec.ofInt w (x.toInt.tdiv y.toInt)
  | 5 => if y = 0 then -1 else x / y
  | 6 => if y = 0 then x else BitVec.ofInt w (x.toInt.tmod y.toInt)
  | _ => if y = 0 then x else x % y

/-- The M operations. -/
def mulDiv (f3 : Nat) (a b : BitVec 64) : BitVec 64 :=
  match f3 with
  | 0 => a * b
  | 1 => BitVec.ofInt 64 (a.toInt * b.toInt / 2 ^ 64)
  | 2 => BitVec.ofInt 64 (a.toInt * (b.toNat : Int) / 2 ^ 64)
  | 3 => BitVec.ofNat 64 (a.toNat * b.toNat / 2 ^ 64)
  | n => divRem n a b

/-- The 32-bit M operations. -/
def mulDivW (f3 : Nat) (a b : BitVec 64) : Option (BitVec 64) :=
  let x : BitVec 32 := a.setWidth 32
  let y : BitVec 32 := b.setWidth 32
  match f3 with
  | 0 => some ((x * y).signExtend 64)
  | 1 => none
  | 2 => none
  | 3 => none
  | n => some ((divRem n x y).signExtend 64)

/-- The result of an instruction that only computes: a is rs1, b is rs2. None: the word is not one of those. -/
def rvCompute (w : Word) (pc a b : BitVec 64) : Option (BitVec 64) :=
  let n := w.toNat
  let f3 := bits n 14 12
  let f7 := bits n 31 25
  let imm := sx 12 (bits n 31 20)
  match bits n 6 0 with
  | 0x37 => some (sx 32 (n / 4096 * 4096))
  | 0x17 => some (pc + sx 32 (n / 4096 * 4096))
  | 0x13 =>
    if f3 = 1 then if f7 / 2 = 0 then some (intOp 1 false a imm) else none
    else if f3 = 5 then
      if f7 / 2 = 0 then some (intOp 5 false a imm) else if f7 / 2 = 0x10 then some (intOp 5 true a imm) else none
    else some (intOp f3 false a imm)
  | 0x1B =>
    if f3 = 0 then some (w32 (a + imm))
    else if f7 = 0 ∧ (f3 = 1 ∨ f3 = 5) then intOpW f3 false a imm
    else if f7 = 0x20 ∧ f3 = 5 then intOpW 5 true a imm
    else none
  | 0x33 =>
    if f7 = 0 then some (intOp f3 false a b)
    else if f7 = 1 then some (mulDiv f3 a b)
    else if f7 = 0x20 ∧ (f3 = 0 ∨ f3 = 5) then some (intOp f3 true a b)
    else none
  | 0x3B =>
    if f7 = 0 then intOpW f3 false a b
    else if f7 = 1 then mulDivW f3 a b
    else if f7 = 0x20 then intOpW f3 true a b
    else none
  | _ => none

/-- The condition of a branch. -/
def rvBranch (f3 : Nat) (a b : BitVec 64) : Option Bool :=
  match f3 with
  | 0 => some (a = b)
  | 1 => some (a ≠ b)
  | 4 => some (a.slt b)
  | 5 => some (!a.slt b)
  | 6 => some (a.ult b)
  | 7 => some (!a.ult b)
  | _ => none

/-- Immediates of branches, jumps and stores. -/
def immB (n : Nat) : BitVec 64 := sx 13 (bits n 31 31 * 4096 + bits n 7 7 * 2048 + bits n 30 25 * 32 + bits n 11 8 * 2)
def immJ (n : Nat) : BitVec 64 :=
  sx 21 (bits n 31 31 * 2 ^ 20 + bits n 19 12 * 4096 + bits n 20 20 * 2048 + bits n 30 21 * 2)
def immS (n : Nat) : BitVec 64 := sx 12 (bits n 31 25 * 32 + bits n 11 7)

/-- The width of a load or store, by funct3. -/
def rvWidth (f3 : Nat) : Nat := 2 ^ (f3 % 4)

/-- What a load puts in rd. -/
def rvLoaded (f3 : Nat) (d : List Byte) : BitVec 64 :=
  if f3 < 4 then sx (8 * rvWidth f3) (leNat d) else BitVec.ofNat 64 (leNat d)

end Sys2Proof.Machine
end

