-- ==== Sys2Proof/Machine/Interp.lean ====
section
/-! DEFINITION. How a thread executes (R343 to R347, R361): fetch, loads and stores over the thread's address map, the
base ISA, the Ardar words (R352), and the debugger (R367). -/

namespace Sys2Proof.Machine

/-! R345 to R347, R362, R392: what a thread's address names beside memory. -/

/-- R345: where a thread address lies. -/
inductive ThPlace where
  | mem (a : Nat)
  | page (o : Nat)
  | sup (o : Nat)
  | mbx (t o : Nat)
  | bar (a : Nat)
  | none
  deriving DecidableEq, Repr

/-- R348: the block of R27 that a BAR0 offset belongs to, the indirect windows with the block whose chapter assigns
them. -/
def regBlock (a : Nat) : Nat :=
  let m := a / 0x100000
  if m < 16 then m
  else if m < 48 then 6
  else if m < 56 then 12
  else if m = 56 then 9
  else if m = 57 then 4
  else 15

/-- R348: a thread's service is granted the block of an offset. -/
def State.regGranted (s : State) (t a : Nat) : Bool :=
  match s.slotOf (t / 128) with
  | some slot => regBlock a < 15 && bit (s.desc slot 0x14 2) (regBlock a)
  | none => false

/-- R345, R348, R362, R389: where an access of n bytes goes, of those the thread may make. -/
def State.thPlace (s : State) (t a n : Nat) : ThPlace :=
  if 0x02000000 ≤ a ∧ a + n ≤ 0x02001000 then .page (a - 0x02000000)
  else if 0x03000000 ≤ a ∧ a + n ≤ 0x03001000 then if t % 128 = 0 then .sup (a - 0x03000000) else .none
  else if 0x04000000 ≤ a ∧ a + n ≤ 0x04010000 then
    let c := (a - 0x04000000) / 0x1000
    if (n = 4 ∨ n = 8) ∧ s.ownsThaMbx t c ∧ s.powered 95 then .mbx c ((a - 0x04000000) % 0x1000) else .none
  else if 0x200000000 ≤ a ∧ a + n ≤ 0x204000000 then
    let o := a - 0x200000000
    if s.regGranted t o && barForm o n then .bar o else .none
  else match s.thMem t a n with
    | some x => .mem x
    | none => .none

/-- The bytes of a word at an offset, from byte k on. -/
def wordPart (v k n : Nat) : List Byte := leBytes n (v / 2 ^ (8 * k))

/-- R347: THR_ID. -/
def State.thrId (s : State) (t : Nat) : Nat :=
  ((s.slotOf (t / 128)).getD 0) * 2 ^ 24 + (s.cluster (t / 128)).scluster * 2 ^ 16 + t

/-- R347: a load from the thread page. -/
def State.pageLoad (s : State) (t o n : Nat) : Option (List Byte) :=
  let x := s.thread t
  if o < 4 then some (wordPart (s.thrId t) o n)
  else if 8 ≤ o ∧ o < 12 then some (wordPart (s.eventsOf t).toNat (o - 8) n)
  else if 0x10 ≤ o ∧ o < 0x14 then some (wordPart x.mbxWatch.toNat (o - 0x10) n)
  else if 0x18 ≤ o ∧ o < 0x28 then
    let w := fun (i : Nat) => (Map.at_ x.chWatch i 0).toNat
    some (wordPart (w 0 + w 1 * 2 ^ 32 + w 2 * 2 ^ 64 + w 3 * 2 ^ 96) (o - 0x18) n)
  else none

/-- R347: a store to the thread page. -/
def State.pageStore (s : State) (t o : Nat) (d : List Byte) : Option State :=
  let x := s.thread t
  if 0x10 ≤ o ∧ o < 0x14 then
    let v := mergeWord (x.mbxWatch.setWidth 32) (o - 0x10) (d.take (0x14 - o))
    some (s.modThread t (fun x => { x with mbxWatch := v.setWidth 16 }))
  else if 0x18 ≤ o ∧ o < 0x28 then
    let put := fun (m : Map Word) (b : Byte × Nat) =>
      let p := o - 0x18 + b.2
      if 16 ≤ p then m else Map.set m (p / 4) (mergeWord (Map.at_ m (p / 4) 0) (p % 4) [b.1] &&& 0x800007FF) 0
    let w := d.zipIdx.foldl put x.chWatch
    some (s.modThread t (fun x => { x with chWatch := w }))
  else none

/-- R362: a load from the supervisor page. -/
def State.supLoad (s : State) (k o n : Nat) : Option (List Byte) :=
  let c := s.cluster k
  let e := c.sup.head?
  let val := fun (f : SupEvt → Nat) => match e with
    | some x => f x
    | none => 0
  if o < 4 then some (wordPart (val (fun e => 2 ^ 31 + e.kind * 2 ^ 24 + e.cause * 2 ^ 16 + e.th.toNat)) o n)
  else if 8 ≤ o ∧ o < 0x10 then some (wordPart (val (fun e => e.a.toNat)) (o - 8) n)
  else if 0x10 ≤ o ∧ o < 0x18 then some (wordPart (val (fun e => e.b.toNat)) (o - 0x10) n)
  else if 0x18 ≤ o ∧ o < 0x20 then some (wordPart (val (fun e => e.time.toNat)) (o - 0x18) n)
  else if 0x30 ≤ o ∧ o < 0x38 then some (wordPart c.supPc.toNat (o - 0x30) n)
  else if 0x40 ≤ o ∧ o < 0x50 then some (wordPart c.waitSet.toNat (o - 0x40) n)
  else if 0x100 ≤ o ∧ o < 0x300 then
    let i := (o - 0x100) / 4
    let v := (Map.at_ c.waitInfo i 0).toNat + (if i < 127 then (Map.at_ c.waitInfo (i + 1) 0).toNat else 0) * 2 ^ 32
    some (wordPart v (o % 4) n)
  else none

/-- R362, R365: a store to the supervisor page. -/
def State.supStore (s : State) (k o : Nat) (d : List Byte) : Option State :=
  let v := BitVec.ofNat 32 (leNat d)
  if o = 0x20 then some (s.opSupNext k v)
  else if o = 0x28 then some (s.opSupCmd k v)
  else if 0x30 ≤ o ∧ o < 0x38 then
    let b := splice (leBytes 8 (s.cluster k).supPc.toNat) (o - 0x30) d
    some (s.modCluster k (fun c => { c with supPc := BitVec.ofNat 64 (leNat (b.take 8)) }))
  else if 0x38 ≤ o ∧ o < 0x40 then some (s.opKick k)
  else none

/-- R392: a load from a mailbox channel. -/
def State.mbxLoad (s : State) (t o n : Nat) : Option (List Byte) :=
  let b := fun (x : Bool) (p : Nat) => if x then 2 ^ p else 0
  let m := s.mbox 2 t
  let f := s.mbox 3 t
  if o < 0x100 then some (slicePad m.data o n)
  else if o = 0x108 then
    some (leBytes n (b m.full 31 + b m.done 30 + b m.held 29 + (if m.done then m.code.toNat else 0)))
  else if 0x800 ≤ o ∧ o < 0x900 then some (slicePad f.shown (o - 0x800) n)
  else if o = 0x900 then some (leBytes n (b f.full 31 + f.shown.length * 2 ^ 16 + bits f.who.toNat 15 0))
  else none

/-- R390 to R392: a store to a mailbox channel. -/
def State.mbxStore (s : State) (th : BitVec 10) (t o : Nat) (d : List Byte) : Option State :=
  let v := BitVec.ofNat 32 (leNat d)
  if o < 0x100 then
    some (if (s.mbox 2 t).full then s
      else s.modMbox 2 t (fun m => { m with data := splice (slicePad m.data 0 256) o d }))
  else if o = 0x100 then some (s.opMbxSend (.thread th) (.thread (Fin.ofNat 16 t)) v)
  else if o = 0x908 then some (s.opF2hAck (.thread th) (.thread (Fin.ofNat 16 t)) v)
  else none

/-- R346, R361: a load: the bytes, or the cause of a fault. -/
def State.thLoad (s : State) (t a n : Nat) : (Nat ⊕ List Byte) × State :=
  let page := fun (r : Option (List Byte)) => match r with
    | some d => (.inr d, s)
    | none => (.inl 5, s)
  if a % n ≠ 0 then (.inl 7, s)
  else match s.thPlace t a n with
    | .mem x => if s.readBad x n then (.inl 10, s.noteBad x n) else (.inr (s.readBytes x n), s)
    | .page o => page (s.pageLoad t o n)
    | .sup o => page (s.supLoad (t / 128) o n)
    | .mbx c o => page (s.mbxLoad c o n)
    | .bar o => let (d, s) := s.regRead o n; (.inr d, s)
    | .none => (.inl 5, s)

/-- R346, R361: a store, or the cause of a fault. dbg is what THA_DBG_CMD does. -/
def State.thStore (dbg : State → Word → State) (s : State) (t a : Nat) (d : List Byte) : Nat ⊕ State :=
  let th := BitVec.ofNat 10 t
  let page := fun (r : Option State) => match r with
    | some s => .inr s
    | none => .inl 6
  if a % d.length ≠ 0 then .inl 7
  else match s.thPlace t a d.length with
    | .mem x => .inr (s.land x d)
    | .page o => page (s.pageStore t o d)
    | .sup o => page (s.supStore (t / 128) o d)
    | .mbx c o => page (s.mbxStore th c o d)
    | .bar o => .inr (s.regWrite dbg (.thread th) o d)
    | .none => .inl 6

/-! Fetch. -/

/-- R345, R361: a halfword of an instruction: the cause of a fault, or the halfword. -/
def State.fetchHalf (s : State) (t a : Nat) : Nat ⊕ Nat :=
  match State.thLocal t a 2 with
  | none => .inl 4
  | some x =>
    if a % 2 ≠ 0 || s.touchesRing (t / 128) x 2 then .inl 4
    else if s.readBad x 2 then .inl 10
    else .inr (leNat (s.readBytes x 2))

/-- An instruction as it is fetched: the raw word, what it stands for (none: not an instruction), and its length. -/
structure Fetched where
  raw  : Word
  word : Option Word
  len  : Nat
  deriving DecidableEq, Repr

/-- R345: the instruction at a thread's pc, or the cause and address of a fault. -/
def State.fetchInstr (s : State) (t : Nat) : (Nat × Nat) ⊕ Fetched :=
  let pc := (s.thread t).pc.toNat
  match s.fetchHalf t pc with
  | .inl c => .inl (c, pc)
  | .inr h =>
    if h % 4 ≠ 3 then .inr { raw := BitVec.ofNat 32 h, word := expandC h, len := 2 }
    else match s.fetchHalf t (pc + 2) with
      | .inl c => .inl (c, pc + 2)
      | .inr g =>
        let w := BitVec.ofNat 32 (g * 65536 + h)
        .inr { raw := w, word := some w, len := 4 }

/-! R367: breakpoints. -/

/-- R367: a breakpoint of the thread's core stands at its pc. -/
def State.atBreak (s : State) (t : Nat) : Bool :=
  let x := s.thread t
  let core := t / 16 % 8
  s.field.debugOpen && !x.past &&
    (s.cluster (t / 128)).breaks.any (fun (e : Nat × BitVec 64) => decide (e.1 / 4 = core) && decide (e.2 = x.pc))

/-- R367: the thread reaches a breakpoint, or an EBREAK while debug is open. -/
def State.hitBreak (s : State) (t : Nat) : State := (s.dbgStopped t).thaEvent 16

/-! Execution. -/

/-- A base instruction retires. -/
def State.rvRetire (s : State) (t rd : Nat) (v npc : BitVec 64) : State :=
  s.modThread t (fun x => { x.setReg rd v with pc := npc, past := false })

/-- R361: an undefined word. -/
def State.illegal (s : State) (t : Nat) (raw : Word) : State := s.thFault t 1 (raw.setWidth 64)

/-- R352: an Ardar word. -/
def State.ardar (s : State) (t : Nat) (w : Word) : State :=
  let n := w.toNat
  let rd : Fin 32 := Fin.ofNat 32 (bits n 11 7)
  let a := bits n 19 15
  let b := bits n 24 20
  let f7 := bits n 31 25
  match bits n 6 0, bits n 14 12 with
  | 0x0B, 0 => if f7 < 2 then s.opFork t rd.val a b (f7 = 1) else s.illegal t w
  | 0x0B, 1 => if f7 = 0 then s.opJoin t rd a else s.illegal t w
  | 0x0B, 2 => if f7 = 0 then s.opTwait t rd a b else s.illegal t w
  | 0x0B, 3 => if f7 = 0 then s.opTsend t rd.val a b else s.illegal t w
  | 0x0B, 4 => if f7 = 0 then s.opYield t else if f7 = 1 then s.opYieldE t a w else s.illegal t w
  | 0x2B, 0 => if f7 < 2 then s.opChres t rd a b (f7 = 1) else s.illegal t w
  | 0x2B, 1 => s.opChput t rd.val a b f7
  | 0x2B, 2 => if f7 = 0 then s.opChcommit t rd.val a w else s.illegal t w
  | 0x2B, 3 => if f7 < 2 then s.opChget t rd a b (f7 = 1) else s.illegal t w
  | 0x5B, 0 => if f7 / 64 = 0 ∧ f7 / 4 % 4 = 0 then s.opLkup t rd.val a b (f7 % 4) (f7 / 16 % 4) true else s.illegal t w
  | 0x5B, 1 => if f7 = 0 then s.opDmago t rd.val a b else s.illegal t w
  | 0x5B, 2 => if f7 = 0 then s.opStamp t rd.val a else s.illegal t w
  | _, _ => s.illegal t w

/-- A load executes. -/
def State.rvLoad (s : State) (t f3 rd : Nat) (addr npc : BitVec 64) : State :=
  match s.thLoad t addr.toNat (rvWidth f3) with
  | (.inl c, s) => s.thFault t c addr
  | (.inr d, s) => s.rvRetire t rd (rvLoaded f3 d) npc

/-- A store executes; what it does may stop or move the thread itself, and it retires first. -/
def State.rvStore (dbg : State → Word → State) (s : State) (t f3 : Nat) (addr v npc : BitVec 64) : State :=
  match State.thStore dbg (s.rvRetire t 0 0 npc) t addr.toNat (leBytes (rvWidth f3) v.toNat) with
  | .inl c => s.thFault t c addr
  | .inr s => s

/-- R343, R352: an instruction executes. -/
def State.rvExec (dbg : State → Word → State) (s : State) (t : Nat) (f : Fetched) : State :=
  match f.word with
  | none => s.illegal t f.raw
  | some w =>
    let n := w.toNat
    let x := s.thread t
    let rd := bits n 11 7
    let f3 := bits n 14 12
    let a := x.reg (bits n 19 15)
    let b := x.reg (bits n 24 20)
    let next := x.pc + BitVec.ofNat 64 f.len
    match bits n 6 0 with
    | 0x6F => s.rvRetire t rd next (x.pc + immJ n)
    | 0x67 => if f3 = 0 then s.rvRetire t rd next ((a + sx 12 (bits n 31 20)) &&& ~~~1) else s.illegal t f.raw
    | 0x63 => match rvBranch f3 a b with
      | some c => s.rvRetire t 0 0 (if c then x.pc + immB n else next)
      | none => s.illegal t f.raw
    | 0x03 => if f3 < 7 then s.rvLoad t f3 rd (a + sx 12 (bits n 31 20)) next else s.illegal t f.raw
    | 0x23 => if f3 < 4 then State.rvStore dbg s t f3 (a + immS n) b next else s.illegal t f.raw
    | 0x0F => if f3 < 2 then s.rvRetire t 0 0 next else s.illegal t f.raw
    | 0x73 =>
      if n = 0x73 then s.thFault t 2 (f.raw.setWidth 64)
      else if n = 0x100073 then
        if s.field.debugOpen then s.hitBreak t else s.thFault t 3 (f.raw.setWidth 64)
      else s.illegal t f.raw
    | 0x0B => s.ardar t w
    | 0x2B => s.ardar t w
    | 0x5B => s.ardar t w
    | _ => match rvCompute w x.pc a b with
      | some v => s.rvRetire t rd v next
      | none => s.illegal t f.raw

/-- R33, R346: a thread's next instruction is a load or store of BAR0 at an offset, and no answer comes within 2 µs: the load
returns ones, the store is dropped, and the instruction retires. -/
def State.opThreadTimeout (s : State) (t o : Nat) (acc : CrossAcc) : State :=
  match s.fetchInstr t with
  | .inl _ => s
  | .inr f =>
    let n := (f.word.getD 0).toNat
    let x := s.thread t
    let f3 := bits n 14 12
    let base := x.reg (bits n 19 15)
    let next := x.pc + BitVec.ofNat 64 f.len
    let a := (if acc.write then base + immS n else base + sx 12 (bits n 31 20)).toNat
    let mine := bits n 6 0 = (if acc.write then 0x23 else 0x03) && decide (f3 < if acc.write then 4 else 7) &&
      rvWidth f3 = acc.width && a % rvWidth f3 = 0 && a = 0x200000000 + o && s.regGranted t o && barForm o acc.width
    if !s.thRuns t || s.atBreak t || !mine then s
    else if acc.write then (s.accErr errTmo o).rvRetire t 0 0 next
    else (s.accErr errTmo o).rvRetire t (bits n 11 7) (rvLoaded f3 (List.replicate acc.width 0xFF)) next

/-- R343 to R347: a thread executes its next instruction. -/
def State.threadStep (dbg : State → Word → State) (s : State) (t : Nat) : State :=
  if !s.thRuns t then s
  else if s.atBreak t then s.hitBreak t
  else match s.fetchInstr t with
    | .inl (c, a) =>
      let s := if c = 10 then (match State.thLocal t a 2 with
        | some x => s.noteBad x 2
        | none => s) else s
      s.thFault t c (BitVec.ofNat 64 a)
    | .inr f => State.rvExec dbg s t f

/-- R367: BREAKPOINT_HIT: a thread that has reached a breakpoint, or an EBREAK while debug is open. -/
def State.opBreakHit (s : State) (t : Nat) : State :=
  if !s.thRuns t then s
  else if s.atBreak t then s.hitBreak t
  else match s.fetchInstr t with
    | .inr f => if s.field.debugOpen && f.word = some 0x100073 then s.hitBreak t else s
    | .inl _ => s

/-! R367, R369: the debugger. -/

/-- R369: the registers of THA_DBG_CMD. -/
abbrev thaDbgCmd : Nat := THA + 0x1000
abbrev thaDbgArg : Nat := THA + 0x1008
abbrev thaDbgData : Nat := THA + 0x1010

/-- R369: STATUS. -/
def State.dbgStatus (s : State) (n : Nat) : State := { s with tha := { s.tha with dbgStat := n } }

/-- R367: a debugger access to memory that itself writes THA_DBG_CMD finds it busy. -/
def State.dbgBusy (s : State) (_ : Word) : State := s.accErr errBusy thaDbgCmd

/-- R367: the debugger lets a stopped thread go on. -/
def State.dbgGo (s : State) (t : Nat) : State :=
  let s := s.modThread t (fun x => { x with st := .running, faulted := false, past := true })
  let s := { s with tha := { s.tha with dbg := s.tha.dbg.filter (fun x => x ≠ t) } }
  if t % 128 = 0 && s.gloveH.peerUp then s.goWdt (t / 128) else s

/-- R367: STEP: one instruction runs, and the thread stops again unless the instruction stopped or ended it. -/
def State.dbgStep (s : State) (t : Nat) : State :=
  let s := State.threadStep State.dbgBusy (s.dbgGo t) t
  match (s.thread t).st with
  | .running => s.dbgStopped t
  | .waiting => s.modThread t (fun x => { x with stepping := true })
  | _ => s

/-- R367: DISCARD: the oldest reservation of a thread on a channel becomes VOID. -/
def State.dbgDiscard (s : State) (t num : Nat) : Option State :=
  match s.slotOf (t / 128) with
  | none => none
  | some slot =>
    match s.findChan slot num with
    | none => none
    | some (k, i) =>
      match (s.channel k i).msgs.find? (fun m => m.st = .reserved && m.th.toNat = t) with
      | none => none
      | some m =>
        let s := s.modChannel k i (fun c => { c with msgs := c.msgs.map (fun x =>
          if x.handle = m.handle && x.st = .reserved then { x with st := .void } else x) })
        some (s.chanSettle k i)

/-- R367, R369: a debugger command by its OP. -/
def State.dbgRun (s : State) (op : Nat) : State :=
  let t := s.regBits (THA + 0x1004) 9 0
  let arg := s.getReg64 thaDbgArg
  let data := s.getReg64 thaDbgData
  let k := t / 128
  let st := (s.thread t).st
  let stopped := st = .stopped
  match op with
  | 1 => if s.thRuns t then (s.dbgStopped t).dbgStatus 0 else s.dbgStatus 3
  | 2 => if stopped then (s.dbgGo t).dbgStatus 0 else s.dbgStatus 3
  | 3 => if stopped then (s.dbgStep t).dbgStatus 0 else s.dbgStatus 3
  | 4 =>
    if arg = 0 ∨ 32 < arg.toNat then s.dbgStatus 1
    else if !stopped then s.dbgStatus 3
    else
      let v := if arg = 32 then (s.thread t).pc else s.xreg t arg.toNat
      (s.setReg64 thaDbgData v).dbgStatus 0
  | 5 =>
    if arg = 0 ∨ 32 < arg.toNat then s.dbgStatus 1
    else if !stopped then s.dbgStatus 3
    else if arg = 32 then (s.modThread t (fun x => { x with pc := data, past := false })).dbgStatus 0
    else (s.modThread t (fun x => x.setReg arg.toNat data)).dbgStatus 0
  | 6 =>
    match s.thLoad t arg.toNat 8 with
    | (.inr d, s) => (s.setReg64 thaDbgData (BitVec.ofNat 64 (leNat d))).dbgStatus 0
    | (.inl _, s) => s.dbgStatus 1
  | 7 =>
    match State.thStore State.dbgBusy s t arg.toNat (leBytes 8 data.toNat) with
    | .inr s => s.dbgStatus 0
    | .inl _ => s.dbgStatus 1
  | 8 =>
    let key := 4 * (t / 16 % 8) + data.toNat % 4
    (s.modCluster k (fun c => { c with breaks := Map.put c.breaks key arg })).dbgStatus 0
  | 9 =>
    let key := 4 * (t / 16 % 8) + data.toNat % 4
    if (Map.get (s.cluster k).breaks key).isNone then s.dbgStatus 4
    else (s.modCluster k (fun c => { c with breaks := Map.del c.breaks key })).dbgStatus 0
  | 10 =>
    match s.dbgDiscard t (arg.toNat % 2048) with
    | some s => s.dbgStatus 0
    | none => s.dbgStatus 4
  | _ => s.dbgStatus 1

/-- R367, R369: a whole write of THA_DBG_CMD. -/
def State.opDbgCmd (s : State) (v : Word) : State :=
  s.onCmd thaDbgCmd false (fun s =>
    if !s.field.debugOpen then s.accErr errLocked thaDbgCmd
    else
      let s := s.setReg thaDbgCmd (v &&& 0xF)
      let op := bits v.toNat 3 0
      let t := s.regBits (THA + 0x1004) 9 0
      if op = 0 then s
      else if !s.powered (71 + t / 128) then s.dbgStatus 3
      else s.dbgRun op)

/-- R367: the command of one operation. -/
def State.opDbg (s : State) (op : Nat) (v : Word) : State := s.opDbgCmd (BitVec.ofNat 32 (putBits v.toNat 3 0 op))

/-- A PCIe write of BAR0. -/
def State.opBarWrite (s : State) (req : Requester) (a : Nat) (d : List Byte) : State :=
  State.barWrite State.opDbgCmd s req a d

/-- THREAD_BASE_INSTRUCTION. -/
def State.opThread (s : State) (t : Nat) : State := State.threadStep State.opDbgCmd s t

end Sys2Proof.Machine
end

