-- ==== Sys2Proof/Machine/Rows.lean ====
section
/-! DEFINITION. What the commands share: who makes an access to a register, an instance page or the supervisor's page,
and the few rows that two blocks make together. -/

namespace Sys2Proof.Machine

/-- R29, R345, R348: a requester's write of one register: a PCIe write is a TLP that the function must take, a
thread's is a store that its service must be granted, and faults where it is not. -/
def State.byReq (s : State) (req : Requester) (a : Nat) (f : State → State) : State :=
  match req with
  | .pcie _ _ =>
    let s := s.rxPosted 4
    if s.barOpen then f s else s.aerLog .refusedWrite
  | .thread t =>
    if !s.thRuns t.toNat then s
    else if s.regGranted t.toNat a then f s
    else s.thFault t.toNat 6 (BitVec.ofNat 64 (0x200000000 + a))

/-- R346, R361: a thread's store as a command of its own, which faults where the thread may not make it. -/
def State.byStore (s : State) (t a : Nat) (d : List Byte) : State :=
  if !s.thRuns t then s
  else match State.thStore State.opDbgCmd s t a d with
    | .inr s => s
    | .inl c => s.thFault t c (BitVec.ofNat 64 a)

/-- R29: a BAR0 request whose byte enables are not contiguous is an Unsupported Request. -/
def State.opGapTlp (s : State) (a : Nat) (write : Bool) : State :=
  (s.rxTlp write 8).refuseTlp 0 a write

/-- R29, R270, R346: a register write: by PCIe, whose byte enables are contiguous or not and whose TLP may be bad, or by a
thread's store. -/
def State.opRegisterWrite (s : State) (q : BarReq) (a : Nat) (d : List Byte) : State :=
  match q.req with
  | .pcie _ _ =>
    if s.ecrcDrops q.tlp then (s.rxPosted d.length).aerLog .ecrc
    else if q.tlp = .poisoned && s.barOpen then (s.rxPosted d.length).aerLog .poisoned
    else if q.contig then s.opBarWrite q.req a d else s.opGapTlp a true
  | .thread t => s.byStore t.toNat (0x200000000 + a) d

/-- R29, R346: a register read: by PCIe, whose byte enables are contiguous or not, or by a thread's load. -/
def State.opRegisterRead (s : State) (q : BarReq) (a n : Nat) : State :=
  match q.req with
  | .pcie _ _ =>
    if s.ecrcDrops q.tlp then s.rxRequest.aerLog .ecrc
    else if q.contig then s.barRead a n else s.opGapTlp a false
  | .thread t =>
    if !s.thRuns t.toNat then s
    else match s.thLoad t.toNat (0x200000000 + a) n with
      | (.inr _, s) => s
      | (.inl c, s) => s.thFault t.toNat c (BitVec.ofNat 64 (0x200000000 + a))

/-- R33, R346: an access to another island, by PCIe or by a thread, is not answered within 2 µs. -/
def State.opIslandTimeout (s : State) (req : Requester) (a : Nat) (acc : CrossAcc) : State :=
  match req with
  | .pcie _ _ => s.opCrossTimeout a acc
  | .thread t => s.opThreadTimeout t.toNat a acc

/-- R74: a PCIe read of TIM_NOW or TIM_NOW_BOUND. -/
def State.opTimNowRead (s : State) (p : NowPart) : State :=
  match p with
  | .low => s.barRead (TIM + 8) 4
  | .high => s.barRead (TIM + 0xC) 4
  | .both => s.barRead (TIM + 8) 8
  | .bound => s.barRead (TIM + 0x10) 4

/-- R29, R262: a write TLP to BAR0 or BAR2 that the function takes. -/
def State.onPageTlp (s : State) (f : State → State) : State :=
  let s := s.rxPosted 8
  if s.barOpen then f s else s.aerLog .refusedWrite

/-- R47: the high half of a core's PTP measurement time is written. -/
def State.opPtpWrite (s : State) (req : Requester) (c : CoreId) (hi : Word) : State :=
  s.byReq req (c.ptpReg + 12) (fun s => s.onCmd (c.ptpReg + 12) false (fun s =>
    (s.setReg (c.ptpReg + 12) hi).opPtpMeasurement req c))

/-- R129: the gates of a MAC follow its replica. -/
def State.gatesFollow (s : State) (r : Nat) : State := if 3 ≤ r ∧ r ≤ 18 then s.gateFallback (r - 3) else s

/-- R69, R82: a takeover ends, and the plinth adopts the incoming timescale. -/
def State.opTakeoverClose (s : State) : State :=
  match s.tim.tko with
  | some w => if w.left = 0 then s.opTakeoverEnd.adopt else s
  | none => s

/-- R334: an allocation. -/
def State.opAllocate (s : State) (r i : Nat) (hbm : Bool) (want : BufWant) : State :=
  match want with
  | .size c => (s.alloc r i hbm c.val none).2
  | .length n => (s.allocLen r i hbm n none).2

/-- R305, R334: a request that waits is served; an entry of an old generation has no use for its buffer. -/
def State.opServed (s : State) (r : Nat) : State := (s.opWaitServed r).dropGrants

/-- R362: a store of the supervisor thread. -/
def State.bySup (s : State) (k : Nat) (f : State → State) : State := if s.thRuns (128 * k) then f s else s

/-- R389, R392: the object index of a mailbox channel; field: of its field-to-host half. -/
def mbxIndex (ch : MbxChan) (field : Bool) : Nat :=
  match ch with
  | .host c => (if field then 0x3100 else 0x3000) + c.val
  | .thread t => 0x3200 + t.val

/-- The mailbox table of a channel's half: 0 to the field side, 1 from it. -/
def mbxTable (ch : MbxChan) (half : Nat) : Nat :=
  match ch with
  | .host _ => half
  | .thread _ => 2 + half

/-- The number of a mailbox channel. -/
def mbxNumber (ch : MbxChan) : Nat :=
  match ch with
  | .host c => c.val
  | .thread t => t.val

/-- R390: SEND, by the owner's register write or a thread's store. -/
def State.opSendRow (s : State) (req : Requester) (ch : MbxChan) (v : Word) : State :=
  match ch, req with
  | .host c, _ => s.byReq req (h2fSend c.val) (fun s => s.opMbxSend req ch v)
  | .thread t, .thread th => s.byStore th.toNat (thaData t.val + 0x100) (leBytes 4 v.toNat)
  | .thread _, .pcie _ _ => s

/-- R391: ACK, by a register write or a thread's store. -/
def State.opAckRow (s : State) (req : Requester) (ch : MbxChan) (v : Word) : State :=
  match ch, req with
  | .host c, _ => s.byReq req (f2hAckReg c.val) (fun s => s.opF2hAck req ch v)
  | .thread t, .thread th => s.byStore th.toNat (thaData t.val + 0x908) (leBytes 4 v.toNat)
  | .thread _, .pcie _ _ => s

end Sys2Proof.Machine
end

