-- ==== Sys2Proof/Machine/AdminCmds.lean ====
section
/-! DEFINITION. Admin commands (R308). -/

namespace Sys2Proof.Machine

/-- ADMIN_NOP (R308): An admin NOP completes with OK. -/
def execAdminNop (dt : Nat) (entry : List Byte) (s : State) : Host.Outcome State Fault Refusal :=
  if entry.length ≠ 64 then .fault .illFormed else done s ((s.advance dt).opNop entry)

/-- INST_CREATE (R281): INST_CREATE builds an instance from its fields, or refuses it. -/
def execInstCreate (dt : Nat) (entry : List Byte) (s : State) : Host.Outcome State Fault Refusal :=
  if entry.length ≠ 64 then .fault .illFormed else done s ((s.advance dt).opInstCreate entry)

/-- INST_MODIFY (R281): INST_MODIFY writes an instance's fields under its state rules. -/
def execInstModify (dt : Nat) (entry : List Byte) (s : State) : Host.Outcome State Fault Refusal :=
  if entry.length ≠ 64 then .fault .illFormed else done s ((s.advance dt).opInstModify entry)

/-- INST_RESET (R305): INST_RESET advances the generation, disables queues and returns the instance to ACTIVE. -/
def execInstReset (dt : Nat) (entry : List Byte) (s : State) : Host.Outcome State Fault Refusal :=
  if entry.length ≠ 64 then .fault .illFormed else done s ((s.advance dt).opInstReset entry)

/-- INST_DESTROY (R281): INST_DESTROY resets an instance with no queues or sessions and leaves it FREE. -/
def execInstDestroy (dt : Nat) (entry : List Byte) (s : State) : Host.Outcome State Fault Refusal :=
  if entry.length ≠ 64 then .fault .illFormed else done s ((s.advance dt).opInstDestroy entry)

/-- INST_QUERY (R308): INST_QUERY writes an instance's fields, state and error word to BUF. -/
def execInstQuery (dt : Nat) (entry : List Byte) (s : State) : Host.Outcome State Fault Refusal :=
  if entry.length ≠ 64 then .fault .illFormed else done s ((s.advance dt).opInstQuery entry)

/-- Q_CREATE (R308): Q_CREATE creates a queue as DISABLED, or refuses it. -/
def execQCreate (dt : Nat) (entry : List Byte) (s : State) : Host.Outcome State Fault Refusal :=
  if entry.length ≠ 64 then .fault .illFormed else done s ((s.advance dt).opQCreate entry)

/-- Q_ENABLE (R304): Q_ENABLE restarts fetching at the device head. -/
def execQEnable (dt : Nat) (entry : List Byte) (s : State) : Host.Outcome State Fault Refusal :=
  if entry.length ≠ 64 then .fault .illFormed else done s ((s.advance dt).opQEnable entry)

/-- Q_DISABLE (R304): Q_DISABLE stops fetching, lets begun entries finish and writes the shadow word. -/
def execQDisable (dt : Nat) (entry : List Byte) (s : State) : Host.Outcome State Fault Refusal :=
  if entry.length ≠ 64 then .fault .illFormed else done s ((s.advance dt).opQDisable entry)

/-- Q_DESTROY (R308): Q_DESTROY removes a queue, unless a queue is bound to it. -/
def execQDestroy (dt : Nat) (entry : List Byte) (s : State) : Host.Outcome State Fault Refusal :=
  if entry.length ≠ 64 then .fault .illFormed else done s ((s.advance dt).opQDestroy entry)

/-- Q_QUERY (R308): Q_QUERY writes a queue's state and indices to BUF. -/
def execQQuery (dt : Nat) (entry : List Byte) (s : State) : Host.Outcome State Fault Refusal :=
  if entry.length ≠ 64 then .fault .illFormed else done s ((s.advance dt).opQQuery entry)

/-- SESS_CREATE (R308): The admin SESS_CREATE acts as CREATE on the instance's sessions. -/
def execSessCreate (dt : Nat) (entry : List Byte) (buf : ReadData) (s : State) :
    Host.Outcome State Fault Refusal :=
  if entry.length ≠ 64 then .fault .illFormed else done s ((s.advance dt).opSessCreate entry buf)

/-- SESS_READ (R308): The admin SESS_READ writes a session context to BUF. -/
def execSessRead (dt : Nat) (entry : List Byte) (s : State) : Host.Outcome State Fault Refusal :=
  if entry.length ≠ 64 then .fault .illFormed else done s ((s.advance dt).opSessRead entry)

/-- SESS_MODIFY (R308): The admin SESS_MODIFY acts as MODIFY on a session. -/
def execSessModify (dt : Nat) (entry : List Byte) (buf : ReadData) (s : State) :
    Host.Outcome State Fault Refusal :=
  if entry.length ≠ 64 then .fault .illFormed else done s ((s.advance dt).opSessModify entry buf)

/-- SESS_DESTROY (R308): The admin SESS_DESTROY acts as DESTROY on a session. -/
def execSessDestroy (dt : Nat) (entry : List Byte) (s : State) : Host.Outcome State Fault Refusal :=
  if entry.length ≠ 64 then .fault .illFormed else done s ((s.advance dt).opSessDestroy entry)

/-- MED_RESPOND (R284): MED_RESPOND writes the response to the instance page, clears BUSY and fires the event vector.
-/
def execMedRespond (dt : Nat) (entry : List Byte) (s : State) : Host.Outcome State Fault Refusal :=
  if entry.length ≠ 64 then .fault .illFormed else done s ((s.advance dt).opMedRespond entry)

end Sys2Proof.Machine
end

