-- ==== Sys2Proof/Machine/BarCmds.lean ====
section
/-! DEFINITION. Register and instance-page commands (chapter 2). -/

namespace Sys2Proof.Machine

/-- REGISTER_WRITE (R29): A BAR0 write to a register that has no row of its own updates the enabled bytes, or is
refused as unmapped, partial, powered-off or unsupported. -/
def execRegisterWrite (dt : Nat) (req : BarReq) (addr : Nat) (data : List Byte) (s : State) :
    Host.Outcome State Fault Refusal :=
  done s ((s.advance dt).opRegisterWrite req addr data)

/-- ISLAND_CROSSING_TIMEOUT (R33): A register access to another island that gets no answer within 2 us completes with
FFFF_FFFFh or is dropped, and sets GLB_ACCERR.TMO. -/
def execIslandCrossingTimeout (dt : Nat) (req : Requester) (addr : Nat) (acc : CrossAcc) (s : State) :
    Host.Outcome State Fault Refusal :=
  done s ((s.advance dt).opIslandTimeout req addr acc)

/-- RC_REGISTER_READ (R35): A read of an RC register returns its value and clears exactly the bits it returned. -/
def execRcRegisterRead (req : BarReq) (addr : Nat) (width : Nat) (s : State) :
    Host.Outcome State Fault Refusal :=
  done s (s.opRegisterRead req addr width)

/-- EVENT_COUNTER_READ (R37): A 4-byte read of an event counter returns the count and clears the counter and its SAT
bit. -/
def execEventCounterRead (req : Requester) (addr : Nat) (width : Nat) (s : State) :
    Host.Outcome State Fault Refusal :=
  done s (s.opRegisterRead { req := req, contig := true } addr width)

/-- COUNTER_LOW_HALF_READ (R32): A 4-byte read of a 64-bit counter's low half loads the high half into the latch and
marks the latch valid. -/
def execCounterLowHalfRead (req : Requester) (addr : Nat) (s : State) : Host.Outcome State Fault Refusal :=
  done s (s.opRegisterRead { req := req, contig := true } addr 4)

/-- COUNTER_HIGH_HALF_READ (R32): A 4-byte read of a 64-bit counter's high half returns the latched value, or the
current one, and invalidates the latch. -/
def execCounterHighHalfRead (req : Requester) (addr : Nat) (s : State) : Host.Outcome State Fault Refusal :=
  done s (s.opRegisterRead { req := req, contig := true } addr 4)

/-- TIM_NOW_READ (R74): A read of TIM_NOW takes device time from replica 0 and latches the high half and the bound. -/
def execTimNowRead (dt : Nat) (part : NowPart) (s : State) : Host.Outcome State Fault Refusal :=
  done s ((s.advance dt).opTimNowRead part)

/-- GUARDED_WRITE (R40): A write of a value to a guarded register arms its group under complement style, or takes
effect under lock style until the group is locked. -/
def execGuardedWrite (dt : Nat) (req : Requester) (addr : Nat) (data : List Byte) (s : State) :
    Host.Outcome State Fault Refusal :=
  done s ((s.advance dt).opRegisterWrite { req := req, contig := true } addr data)

/-- GUARDED_COMPLEMENT_WRITE (R40): A write of the complement to A + 4 makes the armed value take effect when it
matches, and otherwise discards it and sets GLB_ACCERR.GUARD. -/
def execGuardedComplementWrite (dt : Nat) (req : Requester) (addr : Nat) (data : List Byte) (s : State) :
    Host.Outcome State Fault Refusal :=
  done s ((s.advance dt).opRegisterWrite { req := req, contig := true } addr data)

/-- GUARD_ARM_EXPIRE (R40): An armed guarded value that has waited 10 us without its complement is discarded and sets
GLB_ACCERR.GUARD. -/
def execGuardArmExpire (dt : Nat) (group : Fin 16) (s : State) : Host.Outcome State Fault Refusal :=
  done s ((s.advance dt).opArmExpire group.val)

/-- GLB_GUARDLOCK_WRITE (R41): A write of 1 to a GLB_GUARDLOCK bit locks the group's lock-style or RWL registers until
power-on reset. -/
def execGlbGuardlockWrite (value : Word) (s : State) : Host.Outcome State Fault Refusal :=
  done s (s.onCmd (GLB + 0x44) false (fun s => s.opGuardLock value))

/-- DOORBELL_STAGE (R31): A 4-byte write at doorbell offset 000h is held in the page's staging word. -/
def execDoorbellStage (page : DbPage) (value : Word) (s : State) : Host.Outcome State Fault Refusal :=
  done s (s.onPageTlp (fun s => s.opStage page value))

/-- DOORBELL (R293): A 64-bit doorbell sets a work queue's new tail or a completion queue's consumer index, or is
refused and counted. -/
def execDoorbell (dt : Nat) (page : DbPage) (value : DbValue) (s : State) : Host.Outcome State Fault Refusal :=
  done s ((s.advance dt).onPageTlp (fun s => s.opDoorbell page value))

/-- INSTANCE_PAGE_ACCESS (R262): An instance-page read or write is accepted or treated as an instance-page error
counted in INST_ERR or in HEP_INST_NOPAGE. -/
def execInstancePageAccess (inst : BitVec 16) (off : Nat) (acc : PageAccess) (s : State) :
    Host.Outcome State Fault Refusal :=
  done s (s.opPage inst off acc)

/-- TMASK_WRITE (R274): A tenant driver's write to the TMASK words sets or clears the tenant masks of its instance
vectors. -/
def execTmaskWrite (inst : BitVec 16) (word : Fin 32) (value : Word) (s : State) :
    Host.Outcome State Fault Refusal :=
  done s (s.onPageTlp (fun s => s.opTmask inst.toNat word.val value))

end Sys2Proof.Machine
end

