-- ==== Sys2Proof/Machine/BusCmds.lean ====
section
/-! DEFINITION. Usnan-bus commands (chapter 15). -/

namespace Sys2Proof.Machine

/-- OBJ_READ (R383): A bus object read is checked and answered with data or an abort. -/
def execObjRead (dt : Nat) (hdr : BusHdr) (payload : List Byte) (s : State) : Host.Outcome State Fault Refusal :=
  done s ((s.advance dt).opObjRead hdr payload)

/-- OBJ_WRITE (R383): A bus object write chunk is checked, and the value is committed when complete. -/
def execObjWrite (dt : Nat) (hdr : BusHdr) (payload : List Byte) (flashOk : Bool) (s : State) :
    Host.Outcome State Fault Refusal :=
  done s ((s.advance dt).opObjWrite hdr payload flashOk)

/-- LOGIN_REQ (R384): A login request is answered with a challenge, or refused. -/
def execLoginReq (dt : Nat) (hdr : BusHdr) (payload : List Byte) (s : State) : Host.Outcome State Fault Refusal :=
  done s ((s.advance dt).opLoginReq hdr payload)

/-- LOGIN_PROOF (R384): A login proof is checked and the session opens with LOGIN_OK, or abort 000Bh. -/
def execLoginProof (dt : Nat) (hdr : BusHdr) (payload : List Byte) (s : State) :
    Host.Outcome State Fault Refusal :=
  done s ((s.advance dt).opLoginProof hdr payload)

/-- LOGIN_TIMEOUT (R384): A login step that is not answered within 1 s ends the login and erases the ephemeral key. -/
def execLoginTimeout (dt : Nat) (sid : Word) (s : State) : Host.Outcome State Fault Refusal :=
  done s ((s.advance dt).opLoginTimeout sid)

/-- LOGIN_LOCKOUT_END (R384): 60 s after five wrong proofs, the level accepts LOGIN_REQ again. -/
def execLoginLockoutEnd (dt : Nat) (lvl : Fin 4) (s : State) : Host.Outcome State Fault Refusal :=
  done s ((s.advance dt).opLockoutEnd lvl.val)

/-- LOGOUT (R385): LOGOUT ends a session. -/
def execLogout (dt : Nat) (hdr : BusHdr) (s : State) : Host.Outcome State Fault Refusal :=
  done s ((s.advance dt).opLogout hdr)

/-- SESSION_IDLE_EXPIRE (R385): A session with no accepted frame for the idle limit ends. -/
def execSessionIdleExpire (dt : Nat) (sid : Word) (s : State) : Host.Outcome State Fault Refusal :=
  done s ((s.advance dt).opSessionIdle sid)

/-- HAT_RESET (R377): HAT_RESET clears the node address, closes sessions and drives HAT_OUT low. -/
def execHatReset (dt : Nat) (s : State) : Host.Outcome State Fault Refusal :=
  done s ((s.advance dt).opHatReset)

/-- HAT_HELD (R376): An unassigned node whose HAT_IN has been high for 1 ms holds the hat. -/
def execHatHeld (dt : Nat) (s : State) : Host.Outcome State Fault Refusal :=
  done s ((s.advance dt).opHatHeld)

/-- HAT_IN_LOW (R376): HAT_IN falling low ends an unassigned node's holding of the hat. -/
def execHatInLow (dt : Nat) (s : State) : Host.Outcome State Fault Refusal :=
  done s ((s.advance dt).opHatLow)

/-- HAT_ASSIGN (R377): The node holding the hat takes the address, sends HAT_ACK and passes the hat. -/
def execHatAssign (dt : Nat) (hdr : BusHdr) (payload : List Byte) (ackSent : Bool) (s : State) :
    Host.Outcome State Fault Refusal :=
  done s ((s.advance dt).opHatAssign hdr payload ackSent)

/-- FOREIGN_ETHERTYPE_FRAME (R375): A bus frame with an EtherType other than 88B5h, a VERSION other than 01h or the
node's own source address is discarded and counted in F000h.11 or F000h.06. -/
def execForeignEthertypeFrame (ethertype : BitVec 16) (version : Byte) (src : Byte) (s : State) :
    Host.Outcome State Fault Refusal :=
  done s (s.opForeign ethertype version src)

/-- EVENT_ACK (R388): An EVENT_ACK stops the resending of the notice it echoes. -/
def execEventAck (hdr : BusHdr) (payload : List Byte) (s : State) : Host.Outcome State Fault Refusal :=
  done s (s.opEventAck hdr payload)

/-- EVENT_RESEND (R388): An unacknowledged event notice is sent again every 1 s. -/
def execEventResend (dt : Nat) (s : State) : Host.Outcome State Fault Refusal :=
  done s ((s.advance dt).opEventResend)

/-- IMG_OPEN (R387): IMG_OPEN opens an image transfer for a target. -/
def execImgOpen (dt : Nat) (hdr : BusHdr) (payload : List Byte) (s : State) : Host.Outcome State Fault Refusal :=
  done s ((s.advance dt).opImgOpen hdr payload)

/-- IMG_DATA (R387): IMG_DATA writes an image chunk in order. -/
def execImgData (dt : Nat) (hdr : BusHdr) (payload : List Byte) (s : State) : Host.Outcome State Fault Refusal :=
  done s ((s.advance dt).opImgData hdr payload)

/-- IMG_CLOSE (R402): IMG_CLOSE checks the image and stores it in the inactive bank or the slot. -/
def execImgClose (dt : Nat) (hdr : BusHdr) (flashOk : Bool) (s : State) : Host.Outcome State Fault Refusal :=
  done s ((s.advance dt).opImgClose hdr flashOk)

end Sys2Proof.Machine
end

