-- ==== Sys2Proof/Machine/CipherCmds.lean ====
section
/-! DEFINITION. Rewrite and cipher commands (chapter 8). -/

namespace Sys2Proof.Machine

/-- RWC_REGION_ENABLE (R188): Setting EN on the template or SA region starts zeroing it. -/
def execRwcRegionEnable (region : RwcRegion) (value : Word) (s : State) : Host.Outcome State Fault Refusal :=
  done s (s.opRwcBase region value)

/-- RWC_ZEROING_DONE (R188): A template or SA region finishes zeroing. -/
def execRwcZeroingDone (region : RwcRegion) (s : State) : Host.Outcome State Fault Refusal :=
  done s (s.opRwcZeroed region)

/-- RWC_INLINE_ITEM (R187): The RWC rewrites and ciphers an inline item at its point, or refuses it. -/
def execRwcInlineItem (dt : Nat) (s : State) : Host.Outcome State Fault Refusal :=
  done s ((s.advance dt).opRwcItem)

/-- LOOKASIDE_JOB (R204): A lookaside job runs on a cipher lane and completes with its status. -/
def execLookasideJob (dt : Nat) (src : ReadData) (tagIn : ReadData) (dstOk : Bool) (s : State) :
    Host.Outcome State Fault Refusal :=
  done s ((s.advance dt).opJob src tagIn dstOk)

/-- SA_READ (R197): A READ SA command returns bytes 00h-3Fh of an SA without the key. -/
def execSaRead (value : Word) (s : State) : Host.Outcome State Fault Refusal :=
  done s (s.opSa 1 value)

/-- SA_WRITE (R197): A WRITE SA command writes an SA's fields and resets its STATE. -/
def execSaWrite (value : Word) (s : State) : Host.Outcome State Fault Refusal :=
  done s (s.opSa 2 value)

/-- SA_KEYSET (R197): A KEYSET SA command writes the key material of an SA that is not valid. -/
def execSaKeyset (value : Word) (s : State) : Host.Outcome State Fault Refusal :=
  done s (s.opSa 3 value)

/-- SA_INVALIDATE (R197): An INVALIDATE SA command clears VALID, the key and KEYED. -/
def execSaInvalidate (value : Word) (s : State) : Host.Outcome State Fault Refusal :=
  done s (s.opSa 4 value)

/-- TPL_READ (R188): A READ template command returns a template or an option set. -/
def execTplRead (value : Word) (s : State) : Host.Outcome State Fault Refusal :=
  done s (s.opTpl 1 value)

/-- TPL_WRITE (R191): A WRITE template command writes a template or an option set, or refuses it with BADTPL. -/
def execTplWrite (value : Word) (s : State) : Host.Outcome State Fault Refusal :=
  done s (s.opTpl 2 value)

/-- SA_EXPIRE_TIME (R198): An SA whose EXPIRE_T is reached becomes hard-expired and enters the expiry FIFO. -/
def execSaExpireTime (dt : Nat) (sa : BitVec 20) (s : State) : Host.Outcome State Fault Refusal :=
  done s ((s.advance dt).opSaExpireTime sa.toNat)

/-- RWC_EXP_NEXT (R198): A write of 1 to RWC_EXP_NEXT removes the oldest expiry entry. -/
def execRwcExpNext (value : Word) (s : State) : Host.Outcome State Fault Refusal :=
  done s (s.onCmd (RWC + 0x304) false (fun s => s.opExpNext value))

/-- KNOWN_ANSWER_TEST (R210): A cipher lane runs its known-answer test and is fenced if it fails. -/
def execKnownAnswerTest (dt : Nat) (lane : Fin 8) (pass : Bool) (s : State) : Host.Outcome State Fault Refusal :=
  done s ((s.advance dt).opKat lane.val pass)

/-- UNFENCE_LANES (R211): An operator write of 2080h.01 reruns the test of each named lane and returns it to service
if it passes. -/
def execUnfenceLanes (dt : Nat) (lvl : Fin 4) (value : Byte) (pass : Byte) (s : State) :
    Host.Outcome State Fault Refusal :=
  done s ((s.advance dt).rowWrite 0x2080 1 (fun s => s.unfenceWrite lvl.val value pass))

end Sys2Proof.Machine
end

