-- ==== Sys2Proof/Machine/DmaCmds.lean ====
section
/-! DEFINITION. DMA commands (chapter 13). -/

namespace Sys2Proof.Machine

/-- DMA_START (R317): A START command reads the program header and runs the program, or ends it as NOTOWNED. -/
def execDmaStart (dt : Nat) (ch : BitVec 12) (value : Word) (prog : ReadData) (s : State) :
    Host.Outcome State Fault Refusal :=
  done s ((s.advance dt).opDmaStart ch.toNat value prog)

/-- DMA_ABORT (R325): An ABORT command ends a channel's program with ABORTED. -/
def execDmaAbort (ch : BitVec 12) (value : Word) (s : State) : Host.Outcome State Fault Refusal :=
  done s (s.opDmaAbort ch.toNat value)

/-- DMA_RESUME (R325): A RESUME command restarts a HALTED_BME channel's interrupted instruction. -/
def execDmaResume (ch : BitVec 12) (value : Word) (prog : ReadData) (s : State) :
    Host.Outcome State Fault Refusal :=
  done s (s.opDmaResume ch.toNat value prog)

/-- MOVE (R319): A MOVE instruction issues bursts that copy LEN bytes at its stepped addresses. -/
def execDmaMove (dt : Nat) (ch : BitVec 12) (s : State) : Host.Outcome State Fault Refusal :=
  done s ((s.advance dt).opMove ch.toNat)

/-- LOOP (R320): A LOOP instruction jumps back to TARGET until it has run COUNT times. -/
def execDmaLoop (dt : Nat) (ch : BitVec 12) (s : State) : Host.Outcome State Fault Refusal :=
  done s ((s.advance dt).opLoop ch.toNat)

/-- WAIT (R321): A WAIT instruction holds its channel until the sync counter reaches VALUE. -/
def execDmaWait (dt : Nat) (ch : BitVec 12) (s : State) : Host.Outcome State Fault Refusal :=
  done s ((s.advance dt).opWait ch.toNat)

/-- WAIT_SATISFIED (R321): A waiting channel's counter condition becomes true and the channel runs on. -/
def execDmaWaitSatisfied (ch : BitVec 12) (s : State) : Host.Outcome State Fault Refusal :=
  done s (s.opWaitSatisfied ch.toNat)

/-- WAIT_TIMEOUT (R323): A WAIT whose TIMEOUT passes ends its program with WAIT_TIMEOUT. -/
def execDmaWaitTimeout (dt : Nat) (ch : BitVec 12) (s : State) : Host.Outcome State Fault Refusal :=
  done s ((s.advance dt).opWaitTimeout ch.toNat)

/-- SIGNAL (R321): A SIGNAL instruction adds to its counter after earlier writes have left, and may raise an event. -/
def execDmaSignal (dt : Nat) (ch : BitVec 12) (s : State) : Host.Outcome State Fault Refusal :=
  done s ((s.advance dt).opSignal ch.toNat)

/-- END (R322): An END instruction writes back BYTES and the STATUS word once the last write has left. -/
def execDmaEnd (dt : Nat) (ch : BitVec 12) (s : State) : Host.Outcome State Fault Refusal :=
  done s ((s.advance dt).opEnd ch.toNat)

/-- FLUSH_READ_RETURN (R322): A flush read returns, or fails, and the channel runs on or ends with FLUSH_FAIL. -/
def execDmaFlushReadReturn (dt : Nat) (ch : BitVec 12) (ok : Bool) (s : State) :
    Host.Outcome State Fault Refusal :=
  done s ((s.advance dt).opFlushReturn ch.toNat ok)

end Sys2Proof.Machine
end

