-- ==== Sys2Proof/Machine/EndpointCmds.lean ====
section
/-! DEFINITION. Host-endpoint commands (chapter 11). -/

namespace Sys2Proof.Machine

/-- PCIE_LINK_RATE_CHANGE (R258): A width or rate change that keeps DL_Up sets HEP_EVT.RATE_CHG. -/
def execPcieLinkRateChange (width : BitVec 5) (rate : BitVec 4) (flit : Bool) (s : State) :
    Host.Outcome State Fault Refusal :=
  done s (s.opRateChange width rate flit)

/-- PCIE_LINK_DOWN (R258): A departure from DL_Up, or a hot reset, acts on the rest of the device as function-level
reset. -/
def execPcieLinkDown (dt : Nat) (hot : Bool) (s : State) : Host.Outcome State Fault Refusal :=
  done s ((s.advance dt).opPcieDown hot)

/-- PERST (R431): PERST_N low resets PF0 and acts on the rest as function-level reset. -/
def execPerst (dt : Nat) (s : State) : Host.Outcome State Fault Refusal :=
  done s ((s.advance dt).opPerst)

/-- D3HOT_ENTRY (R261): PF0's entry to D3hot refuses BAR accesses and acts as a clear of Bus Master Enable. -/
def execD3hotEntry (dt : Nat) (s : State) : Host.Outcome State Fault Refusal :=
  done s ((s.advance dt).onCfg State.opD3)

/-- BME_CLEAR (R268): Clearing Bus Master Enable stops every outbound request and halts or abandons transfers. -/
def execBmeClear (dt : Nat) (s : State) : Host.Outcome State Fault Refusal :=
  done s ((s.advance dt).onCfg State.opBmeClear)

/-- BME_SET (R268): Setting Bus Master Enable lets device channels go IDLE, fetching resume and pending vectors be
sent. -/
def execBmeSet (dt : Nat) (s : State) : Host.Outcome State Fault Refusal :=
  done s ((s.advance dt).onCfg State.opBmeSet)

/-- FUNCTION_LEVEL_RESET (R269): Initiate Function Level Reset resets every instance, quarantines tags and masks
vectors. -/
def execFunctionLevelReset (dt : Nat) (s : State) : Host.Outcome State Fault Refusal :=
  done s ((s.advance dt).onCfg State.opFlr)

/-- FLR_DONE (R269): The function-level reset finishes and HEP_EVT.FLR_DONE sets. -/
def execFlrDone (dt : Nat) (s : State) : Host.Outcome State Fault Refusal :=
  done s ((s.advance dt).opFlrDone)

/-- TAG_QUARANTINE_END (R269): When the completion timeout in force at the reset has passed, the quarantined tags
return to the free pool. -/
def execTagQuarantineEnd (dt : Nat) (s : State) : Host.Outcome State Fault Refusal :=
  done s ((s.advance dt).opQuarTags)

/-- PEER_WINDOW_TLP (R263): A BAR4 request is translated through its window or refused as a closed window. -/
def execPeerWindowTlp (rid : BitVec 16) (off : Nat) (acc : PageAccess) (answer : TargetAnswer) (s : State) :
    Host.Outcome State Fault Refusal :=
  done s (s.opPeer rid off acc answer)

/-- HEP_WIN_COMMIT (R264): A commit through HEP_WIN_CMD makes every staged window active at the commit point. -/
def execHepWinCommit (value : Word) (s : State) : Host.Outcome State Fault Refusal :=
  done s (s.opWinCommit value)

/-- PCIE_COMPLETION_RECEIVE (R267): A received completion returns read data for its tag, or is dropped as unexpected
or stale. -/
def execPcieCompletionReceive (dt : Nat) (tag : BitVec 14) (data : CplData) (s : State) :
    Host.Outcome State Fault Refusal :=
  done s ((s.advance dt).opCpl tag.toNat data)

/-- COMPLETION_TIMEOUT (R267): A read whose completion timeout expires frees its tag and fails its transfer. -/
def execCompletionTimeout (dt : Nat) (tag : BitVec 14) (s : State) : Host.Outcome State Fault Refusal :=
  done s ((s.advance dt).opCplTimeout tag.toNat)

/-- MSIX_VECTOR_FIRE (R273): A PF0 cause fires its MSI-X vector, or sets its pending bit. -/
def execMsixVectorFire (vec : BitVec 11) (s : State) : Host.Outcome State Fault Refusal :=
  done s (s.fireVector vec.toNat)

/-- MSIX_PENDING_SEND (R273): A pending PF0 vector is sent once when its masks and enables permit. -/
def execMsixPendingSend (vec : BitVec 11) (s : State) : Host.Outcome State Fault Refusal :=
  done s (s.opMsixPending vec.toNat)

/-- INSTANCE_VECTOR_FIRE (R274): An instance vector's cause sends its message write, or sets PENDING. -/
def execInstanceVectorFire (vec : BitVec 18) (gen : Byte) (s : State) : Host.Outcome State Fault Refusal :=
  done s (s.opIvFire vec.toNat gen)

/-- IV_READ (R274): A READ through HEP_IV_CMD returns an instance vector entry. -/
def execIvRead (value : Word) (s : State) : Host.Outcome State Fault Refusal :=
  done s (s.opIv 1 value)

/-- IV_WRITE (R274): A WRITE through HEP_IV_CMD writes an instance vector entry. -/
def execIvWrite (value : Word) (s : State) : Host.Outcome State Fault Refusal :=
  done s (s.opIv 2 value)

/-- ATS_TRANSLATION_RESULT (R276): A Translation Completion is cached and the held transfer proceeds or fails. -/
def execAtsTranslationResult (dt : Nat) (pasid : Option (BitVec 20)) (page : Nat) (result : Option Nat) (s : State) :
    Host.Outcome State Fault Refusal :=
  done s ((s.advance dt).opAtsResult pasid page result)

/-- ATS_INVALIDATE_REQUEST (R277): An Invalidate Request removes cache entries and is completed once the requests that
used them are done. -/
def execAtsInvalidateRequest (scope : AtsScope) (page : Nat) (pages : Nat) (itag : BitVec 5) (s : State) :
    Host.Outcome State Fault Refusal :=
  done s (s.opAtsInval scope page pages itag)

/-- SPDM_REQUEST (R278): A DOE CMA-SPDM request is answered by the responder, or passed across the glove for signing.
-/
def execSpdmRequest (dt : Nat) (request : List Byte) (s : State) : Host.Outcome State Fault Refusal :=
  done s ((s.advance dt).opDoeSpdm request)

/-- PCIE_LINK_UP (R258): The PCI Express link trains and enters DL_Up at a supported width and rate, and HEP_LINK.UP
reads 1. -/
def execPcieLinkUp (width : BitVec 5) (rate : BitVec 4) (flit : Bool) (sris : Bool) (s : State) :
    Host.Outcome State Fault Refusal :=
  done s (s.opLinkTrained width rate flit sris)

/-- CONFIGURATION_WRITE (R261): A configuration write to PF0 changes MSI-X Enable, Function Mask, Interrupt Disable,
PASID or ATS Enable, the completion timeout or the D-state, including the return from D3hot to D0. -/
def execConfigurationWrite (dt : Nat) (change : CfgChange) (s : State) : Host.Outcome State Fault Refusal :=
  done s ((s.advance dt).opConfig change)

end Sys2Proof.Machine
end

