-- ==== Sys2Proof/Machine/GloveCmds.lean ====
section
/-! DEFINITION. Glove and mailbox commands (chapter 15). -/

namespace Sys2Proof.Machine

/-- GLOVE_MESSAGE_RECEIVE (R371): A glove message is acknowledged and delivered once, in order, or discarded. -/
def execGloveMessageReceive (dt : Nat) (side : Side) (msg : GloveMsg) (crc : Word) (s : State) :
    Host.Outcome State Fault Refusal :=
  done s ((s.advance dt).opGloveReceive side msg crc)

/-- GLOVE_RETRANSMIT (R371): An unacknowledged glove message is sent again every 20 us, and the link resets after 16
failures. -/
def execGloveRetransmit (dt : Nat) (side : Side) (s : State) : Host.Outcome State Fault Refusal :=
  done s ((s.advance dt).opRetransmit side)

/-- GLOVE_PEER_DOWN (R371): A side that receives nothing for 5 ms declares the other side down. -/
def execGlovePeerDown (dt : Nat) (side : Side) (s : State) : Host.Outcome State Fault Refusal :=
  done s ((s.advance dt).opPeerDown side)

/-- GLOVE_LINK_UP (R394): The glove link comes up and the host side sends the pending seal request, report, mailboxes
and events. -/
def execGloveLinkUp (dt : Nat) (s : State) : Host.Outcome State Fault Refusal :=
  done s ((s.advance dt).opLinkUpGlove)

/-- OBJ_REQ (R373): A glove object request is served through the binding table, or at level 0. -/
def execObjReq (side : Side) (s : State) : Host.Outcome State Fault Refusal :=
  done s (s.opObjReq side)

/-- OBJ_RSP (R372): A glove object response completes an outstanding object request. -/
def execObjRsp (side : Side) (s : State) : Host.Outcome State Fault Refusal :=
  done s (s.opObjRsp side)

/-- MBX (R372): A glove mailbox message delivers a body to its channel. -/
def execMbx (side : Side) (s : State) : Host.Outcome State Fault Refusal :=
  done s (s.opMbx side)

/-- MBX_ACK (R372): A glove mailbox acknowledgement returns a channel's code. -/
def execMbxAck (side : Side) (s : State) : Host.Outcome State Fault Refusal :=
  done s (s.opMbxAck side)

/-- SEAL_REQ (R104): The field side builds the seal body from a seal request, signs it with ECDSA and HSS and returns
the seal. -/
def execSealReq (run : SealRun) (s : State) : Host.Outcome State Fault Refusal :=
  done s ((s.advance run.dt).opSealReq run.signed)

/-- SEAL_RSP (R103): The SQL receives a seal, or a failure, and passes the seal to export. -/
def execSealRsp (dt : Nat) (s : State) : Host.Outcome State Fault Refusal :=
  done s ((s.advance dt).opSealRsp)

/-- EVENT (R388): A glove event notice is logged and sent to the event destination. -/
def execEventNotice (dt : Nat) (s : State) : Host.Outcome State Fault Refusal :=
  done s ((s.advance dt).opEventMsg)

/-- POWER (R426): A glove power command switches domains or resets the main die. -/
def execPowerMsg (dt : Nat) (s : State) : Host.Outcome State Fault Refusal :=
  done s ((s.advance dt).opPower)

/-- POWER_RSP (R372): The field side receives the result of a power command. -/
def execPowerRsp (dt : Nat) (s : State) : Host.Outcome State Fault Refusal :=
  done s ((s.advance dt).opPowerRsp)

/-- IMAGE (R404): The main die receives an image chunk and checks it. -/
def execImageMsg (dt : Nat) (s : State) : Host.Outcome State Fault Refusal :=
  done s ((s.advance dt).opImage)

/-- IMAGE_RSP (R404): The field side receives the main die's acceptance of an image chunk. -/
def execImageRsp (dt : Nat) (s : State) : Host.Outcome State Fault Refusal :=
  done s ((s.advance dt).opImageRsp)

/-- TQR (R73): The field side receives a time-quality report and refreshes A000h. -/
def execTqr (dt : Nat) (s : State) : Host.Outcome State Fault Refusal :=
  done s ((s.advance dt).opTqrMsg)

/-- MBX_SEND (R390): A whole write of SEND posts a host-to-field or thread mailbox message, or is ignored. -/
def execMbxSend (dt : Nat) (req : Requester) (ch : MbxChan) (value : Word) (s : State) :
    Host.Outcome State Fault Refusal :=
  done s ((s.advance dt).opSendRow req ch value)

/-- MBX_RETURN_CODE (R390): An operator write of a return code empties a host-to-field channel and sends MBX_ACK. -/
def execMbxReturnCode (lvl : Fin 4) (ch : MbxChan) (code : BitVec 16) (s : State) :
    Host.Outcome State Fault Refusal :=
  done s (s.rowWrite (mbxIndex ch false) 4 (fun s => s.opMbxReturn lvl.val (mbxTable ch 0) (mbxNumber ch) code))

/-- F2H_BODY_WRITE (R391): An operator write of a field-to-host body sends it to the host, or holds it. -/
def execF2hBodyWrite (lvl : Fin 4) (node : Byte) (ch : MbxChan) (body : List Byte) (s : State) :
    Host.Outcome State Fault Refusal :=
  done s (s.rowWrite (mbxIndex ch true) (match ch with | .host _ => 2 | .thread _ => 6)
    (fun s => s.opF2hBody lvl.val node (mbxTable ch 1) (mbxNumber ch) body))

/-- F2H_ACK (R391): A manager write of ACK clears the field-to-host channel and returns the code. -/
def execF2hAck (req : Requester) (ch : MbxChan) (code : Word) (s : State) : Host.Outcome State Fault Refusal :=
  done s (s.opAckRow req ch code)

end Sys2Proof.Machine
end

