-- ==== Sys2Proof/Machine/LedgerCmds.lean ====
section
/-! DEFINITION. Plinth and ledger commands (chapter 4). -/

namespace Sys2Proof.Machine

/-- MESSAGE_PRESENT (R78): A port, session, instance or thread message reaches the plinth with its stream, source and
raw stamp. -/
def execMessagePresent (dt : Nat) (from_ : PresentFrom) (s : State) : Host.Outcome State Fault Refusal :=
  done s ((s.advance dt).opPresent from_)

/-- PLINTH_PORT_HEARTBEAT (R84): An idle plinth port sends a heartbeat every 64 ns, which advances the thread source's
safe time. -/
def execPlinthPortHeartbeat (dt : Nat) (cluster : Fin 8) (s : State) : Host.Outcome State Fault Refusal :=
  done s ((s.advance dt).opHeartbeat cluster.val)

/-- MESSAGE_RELEASE (R87): Once every member's safe time has passed its key, a held message receives the next sequence
number and goes to delivery. -/
def execMessageRelease (dt : Nat) (stream : Fin 64) (s : State) : Host.Outcome State Fault Refusal :=
  done s ((s.advance dt).opRelease stream.val)

/-- FETCH_BOUND_EXPIRE (R85): A pending doorbell that has held its instance's safe time for F releases it and is
counted in SQL_FETCH_EXP. -/
def execFetchBoundExpire (dt : Nat) (inst : BitVec 16) (s : State) : Host.Outcome State Fault Refusal :=
  done s ((s.advance dt).opFetchBound inst.toNat)

/-- MAX_HOLD_EXPIRE (R88): A message held for the maximum hold excludes its laggards, records them and is released. -/
def execMaxHoldExpire (dt : Nat) (stream : Fin 64) (s : State) : Host.Outcome State Fault Refusal :=
  done s ((s.advance dt).opMaxHold stream.val)

/-- LAGGARD_REJOIN (R88): A laggard whose safe time passes the horizon rejoins its stream and a rejoin record is
written. -/
def execLaggardRejoin (dt : Nat) (member : Fin 131072) (s : State) : Host.Outcome State Fault Refusal :=
  done s ((s.advance dt).opRejoin member.val)

/-- STEP_NOTICE (R83): On a step, the plinth releases every held message, closes the block with reason step, writes a
step record and clears the horizons. -/
def execStepNotice (dt : Nat) (s : State) : Host.Outcome State Fault Refusal :=
  done s ((s.advance dt).opStepNotice)

/-- SQL_MEMB_COMMIT (R79): A commit through SQL_MEMB_CMD stages member and stream changes for their activation time,
or is refused. -/
def execSqlMembCommit (dt : Nat) (req : Requester) (value : Word) (s : State) : Host.Outcome State Fault Refusal :=
  done s ((s.advance dt).byReq req sqlMembCmd (fun s => s.opMembCmd value))

/-- MEMBERSHIP_ACTIVATION (R79): At the activation time, membership changes take effect and membership records are
written. -/
def execMembershipActivation (dt : Nat) (s : State) : Host.Outcome State Fault Refusal :=
  done s ((s.advance dt).opMembActivate)

/-- DIGEST_COMPLETE (R93): A hash engine finishes a message's digest, and the record of the released message is
written. -/
def execDigestComplete (dt : Nat) (idx : Nat) (s : State) : Host.Outcome State Fault Refusal :=
  done s ((s.advance dt).opDigest idx)

/-- GAP_RECORD_WRITE (R95): A pending gap record is written as soon as a record can be written. -/
def execGapRecordWrite (dt : Nat) (stream : Fin 64) (s : State) : Host.Outcome State Fault Refusal :=
  done s ((s.advance dt).opGapRecord stream.val)

/-- BLOCK_INTERVAL_EXPIRE (R98): The block interval since the block opened has passed, so the block closes and enters
the chain. -/
def execBlockIntervalExpire (dt : Nat) (s : State) : Host.Outcome State Fault Refusal :=
  done s ((s.advance dt).opBlockInterval)

/-- EPOCH_END (R103): At a multiple of the epoch length, the SQL closes the block and sends a seal request, or updates
the pending one. -/
def execEpochEnd (dt : Nat) (s : State) : Host.Outcome State Fault Refusal :=
  done s ((s.advance dt).opEpochEnd)

/-- EXPORT_UNIT_WRITE (R101): A closed block or a seal is written as one unit into the next export buffer and
completed. -/
def execExportUnitWrite (dt : Nat) (s : State) : Host.Outcome State Fault Refusal :=
  done s ((s.advance dt).opExport)

end Sys2Proof.Machine
end

