-- ==== Sys2Proof/Machine/MemoryCmds.lean ====
section
/-! DEFINITION. Memory and buffer commands (chapter 13). -/

namespace Sys2Proof.Machine

/-- HBM_FAIL (R329): Loss of training, or 1,024 uncorrectable errors in a second, sets HBM_FAIL and makes every HBM
access uncorrectable. -/
def execHbmFail (dt : Nat) (s : State) : Host.Outcome State Fault Refusal :=
  done s ((s.advance dt).opHbmFail)

/-- PATROL_SCRUB_READ (R328): The patrol scrub reads an HBM word, corrects it or marks it poisoned. -/
def execPatrolScrubRead (dt : Nat) (addr : Nat) (found : List (Fin 72)) (s : State) :
    Host.Outcome State Fault Refusal :=
  done s ((s.advance dt).patrolRead addr found)

/-- SRAM_SCRUB_READ (R328): The SRAM scrub reads an SRAM or context-cache word, corrects it or marks it poisoned. -/
def execSramScrubRead (dt : Nat) (place : ScrubPlace) (found : List (Fin 72)) (s : State) :
    Host.Outcome State Fault Refusal :=
  done s ((s.advance dt).sramRead place found)

/-- BPM_POOL_ENABLE (R333): Setting EN on a pool writes its handles to the free ring, or is refused with CFG_REJ. -/
def execBpmPoolEnable (pool : Fin 8) (value : Word) (s : State) : Host.Outcome State Fault Refusal :=
  done s (s.onCmd (bpmPoolCfg pool.val) false (fun s => s.opPoolCfg pool.val value))

/-- BUFFER_ALLOCATE (R334): A requester's allocation takes a buffer, is refused by quota or empty pool, or waits. -/
def execBufferAllocate (requester : Fin 39) (inst : BitVec 16) (hbm : Bool) (want : BufWant) (s : State) :
    Host.Outcome State Fault Refusal :=
  done s (s.opAllocate requester.val inst.toNat hbm want)

/-- BUFFER_WAIT_SERVED (R334): A waiting allocation is served once buffers and quota become available. -/
def execBufferWaitServed (requester : Fin 39) (s : State) : Host.Outcome State Fault Refusal :=
  done s (s.opServed requester.val)

/-- BUFFER_FREE (R336): A free returns a buffer to its pool, or is refused as a double free or a bad request. -/
def execBufferFree (dt : Nat) (requester : Fin 39) (handle : Word) (s : State) :
    Host.Outcome State Fault Refusal :=
  done s ((s.advance dt).opFree requester.val handle)

/-- FREE_CACHE_REFILL (R337): A pool cache down to 128 handles takes a batch of 256 from its ring. -/
def execFreeCacheRefill (pool : Fin 8) (s : State) : Host.Outcome State Fault Refusal :=
  done s (s.opRefill pool.val)

/-- FREE_CACHE_SPILL (R337): A pool cache up to 448 handles returns a batch of 256 to its ring. -/
def execFreeCacheSpill (pool : Fin 8) (s : State) : Host.Outcome State Fault Refusal :=
  done s (s.opSpill pool.val)

/-- BPM_DF_NEXT (R336): A write of 1 to BPM_DF_NEXT removes the oldest double-free entry. -/
def execBpmDfNext (value : Word) (s : State) : Host.Outcome State Fault Refusal :=
  done s (s.onCmd (MEM + 0x910) false (fun s => s.opDfNext value))

/-- BOOK_AUDIT (R339): Every 100 ms the auditor checks every book and records a mismatch. -/
def execBookAudit (dt : Nat) (s : State) : Host.Outcome State Fault Refusal :=
  done s ((s.advance dt).opAudit)

/-- MEM_AUDIT_ACK (R339): A write to MEM_AUDIT_ACK frees the audit snapshot registers. -/
def execMemAuditAck (value : Word) (s : State) : Host.Outcome State Fault Refusal :=
  done s (s.onCmd (MEM + 0x40) false (fun s => s.opAuditAck value))

end Sys2Proof.Machine
end

