-- ==== Sys2Proof/Machine/PipelineCmds.lean ====
section
/-! DEFINITION. Pipeline commands (chapter 6). -/

namespace Sys2Proof.Machine

/-- PIPELINE_INTAKE (R138): A pipeline takes one item from its port or internal intake, or refuses it when disabled or
without a program. -/
def execPipelineIntake (dt : Nat) (pipe : Fin 8) (s : State) : Host.Outcome State Fault Refusal :=
  done s ((s.advance dt).opIntake pipe.val)

/-- GLOBAL_LOOKUP (R182): A table unit serves a global-stage or LKUP lookup in its order. -/
def execGlobalLookup (dt : Nat) (pipe : Fin 8) (idx : Nat) (s : State) : Host.Outcome State Fault Refusal :=
  done s ((s.advance dt).opLookup pipe.val idx)

/-- LOOKUP_TIMEOUT (R137): A global lookup without an answer after 2 us is treated as a miss and counted in
PCL_LKUP_TMO. -/
def execLookupTimeout (dt : Nat) (pipe : Fin 8) (idx : Nat) (s : State) : Host.Outcome State Fault Refusal :=
  done s ((s.advance dt).opLookupTimeout pipe.val idx)

/-- INGRESS_EXIT (R153): An item leaving an ingress pipeline is disposed of by verdict and destination, presented to
the plinth, or learns. -/
def execIngressExit (dt : Nat) (pipe : Fin 4) (s : State) : Host.Outcome State Fault Refusal :=
  done s ((s.advance dt).opIngressExit pipe.val)

/-- EGRESS_EXIT (R156): An egress item is checked for length and SA, then transmitted or copied. -/
def execEgressExit (dt : Nat) (pipe : Fin 4) (s : State) : Host.Outcome State Fault Refusal :=
  done s ((s.advance dt).opEgressExit pipe.val)

/-- FRAGMENT_HOLD_EXPIRE (R159): A fragment held 1 ms in the early store goes to COPY_Q with reason 80h. -/
def execFragmentHoldExpire (dt : Nat) (pipe : Fin 8) (s : State) : Host.Outcome State Fault Refusal :=
  done s ((s.advance dt).opFragHold pipe.val)

/-- FRAGMENT_ENTRY_AGE (R160): A fragment-table entry unused for 2 s is removed. -/
def execFragmentEntryAge (dt : Nat) (pipe : Fin 8) (idx : Nat) (s : State) : Host.Outcome State Fault Refusal :=
  done s ((s.advance dt).opFragAge pipe.val idx)

/-- PCL_BANK_COPY (R161): PCL_BANK_CMD starts copying the active banks of the named stages into their maquette banks.
-/
def execPclBankCopy (dt : Nat) (pipe : Fin 8) (value : Word) (s : State) : Host.Outcome State Fault Refusal :=
  done s ((s.advance dt).opBankCopy pipe.val value)

/-- PCL_BANK_COPY_DONE (R161): A bank copy finishes and BUSY clears. -/
def execPclBankCopyDone (dt : Nat) (pipe : Fin 8) (s : State) : Host.Outcome State Fault Refusal :=
  done s ((s.advance dt).opBankCopyDone pipe.val)

/-- PCL_SWAP_COMMIT (R163): A commit through PCL_SWAP_CMD arms a swap for its activation time, or is refused. -/
def execPclSwapCommit (dt : Nat) (pipe : Fin 8) (value : Word) (s : State) : Host.Outcome State Fault Refusal :=
  done s ((s.advance dt).opSwapCommit pipe.val value)

/-- PCL_SWAP_GO (R163): A write of PCL_SWAP_GO commits the staged swap of each named pipeline. -/
def execPclSwapGo (dt : Nat) (value : Word) (s : State) : Host.Outcome State Fault Refusal :=
  done s ((s.advance dt).onCmd (PCL + 8) false (fun s => s.opSwapGo value))

/-- SWAP_ACTIVATION (R164): The pipeline replica reaches the activation time, and the swap passes from ARMED to
SETTLING. -/
def execSwapActivation (dt : Nat) (pipe : Fin 8) (s : State) : Host.Outcome State Fault Refusal :=
  done s ((s.advance dt).opSwapActivate pipe.val)

/-- SWAP_SETTLE_END (R164): At the end of the settle time, the new banks become active and the old ones become
maquette banks. -/
def execSwapSettleEnd (dt : Nat) (pipe : Fin 8) (s : State) : Host.Outcome State Fault Refusal :=
  done s ((s.advance dt).opSwapSettle pipe.val)

/-- PCL_STAGING_WRITE (R166): A write to a program staging area changes the staged program and clears VERIFIED, or is
ignored. -/
def execPclStagingWrite (addr : Nat) (data : List Byte) (s : State) : Host.Outcome State Fault Refusal :=
  done s (s.opStaging addr data)

/-- PCL_LOAD_VERIFY (R166): A write of VERIFY checks the staged program and reports its STATUS. -/
def execPclLoadVerify (pipe : Fin 8) (value : Word) (s : State) : Host.Outcome State Fault Refusal :=
  done s (s.opLoadVerify pipe.val value)

end Sys2Proof.Machine
end

