-- ==== Sys2Proof/Machine/PortCmds.lean ====
section
/-! DEFINITION. Port commands (chapter 5). -/

namespace Sys2Proof.Machine

/-- PRT_GRP_MODE_WRITE (R113): A write of PRT_GRP_MODE changes a port group's mode and starts the domain switch, or is
refused. -/
def execPrtGrpModeWrite (group : Fin 2) (value : Word) (s : State) : Host.Outcome State Fault Refusal :=
  done s (s.onCmd (prtGrpMode group.val) false (fun s => s.opGrpMode group.val value))

/-- GROUP_MODE_SWITCH_DONE (R113): The field side finishes switching a group's power domains and BUSY clears. -/
def execGroupModeSwitchDone (dt : Nat) (group : Fin 2) (s : State) : Host.Outcome State Fault Refusal :=
  done s ((s.advance dt).opGroupDone group.val)

/-- LINK_UP (R114): A MAC gains lock on every lane and alignment, and its link comes up. -/
def execLinkUp (dt : Nat) (mac : Fin 16) (s : State) : Host.Outcome State Fault Refusal :=
  done s (((s.advance dt).opLinkUp mac.val).gateFallback mac.val)

/-- LINK_DOWN (R114): A MAC loses a link condition, cuts off frames and discards its transmit store. -/
def execLinkDown (dt : Nat) (mac : Fin 16) (cutRx : Option (List Byte)) (s : State) :
    Host.Outcome State Fault Refusal :=
  done s (((s.advance dt).opLinkDown mac.val cutRx).gateFallback mac.val)

/-- MAC_RECEIVE_FRAME (R117): A received frame is ignored, refused, consumed as a control frame or passed to the
pipeline. -/
def execMacReceiveFrame (dt : Nat) (mac : Fin 16) (frame : List Byte) (arrival : Arrival)
    (s : State) : Host.Outcome State Fault Refusal :=
  done s ((s.advance dt).opReceive mac.val frame arrival.sof arrival.ending)

/-- PAUSE_TIMER_EXPIRE (R124): A priority's pause timer expires and its class may be eligible again. -/
def execPauseTimerExpire (dt : Nat) (mac : Fin 16) (prio : Fin 8) (s : State) : Host.Outcome State Fault Refusal :=
  done s ((s.advance dt).opPauseExpire mac.val prio.val)

/-- PFC_REFRESH_TIMER (R125): While any priority is in XOFF, the MAC sends a PFC frame again at each refresh interval.
-/
def execPfcRefreshTimer (dt : Nat) (mac : Fin 16) (s : State) : Host.Outcome State Fault Refusal :=
  done s ((s.advance dt).opPfcRefresh mac.val)

/-- MAC_EN_CLEAR (R122): Clearing EN lets the frame in transmission end and discards the transmit store. -/
def execMacEnClear (dt : Nat) (mac : Fin 16) (s : State) : Host.Outcome State Fault Refusal :=
  done s ((s.advance dt).onCmd (macReg mac.val 0) false (fun s => s.opEnClear mac.val))

/-- MAC_FRAME_REQUEST (R242): A MAC with room asks its port, which chooses and dequeues the next frame under the class
and DWRR rules. -/
def execMacFrameRequest (dt : Nat) (mac : Fin 16) (s : State) : Host.Outcome State Fault Refusal :=
  done s ((s.advance dt).opMacRequest mac.val)

/-- MAC_TRANSMIT_FRAME (R120): Once a whole frame is in the transmit store, the MAC sends it with a new FCS, MACsec
and any stamping action. -/
def execMacTransmitFrame (dt : Nat) (mac : Fin 16) (s : State) : Host.Outcome State Fault Refusal :=
  done s ((s.advance dt).opTransmit mac.val)

/-- PRT_TXTS_NEXT (R135): A write of 1 to PRT_TXTS_NEXT removes the oldest transmit stamp report. -/
def execPrtTxtsNext (mac : Fin 16) (value : Word) (s : State) : Host.Outcome State Fault Refusal :=
  done s (s.onCmd (macReg mac.val 0x310) false (fun s => s.opTxtsNext mac.val value))

/-- PRT_GATE_COMMIT (R128): A commit through PRT_GATE_CMD schedules the staged gate list for its activation time, or
is refused. -/
def execPrtGateCommit (dt : Nat) (mac : Fin 16) (value : Word) (s : State) : Host.Outcome State Fault Refusal :=
  done s ((s.advance dt).opGateCommit mac.val value)

/-- GATE_LIST_ACTIVATION (R128): At T_a, the staged gate list becomes active with B0 = T_a. -/
def execGateListActivation (dt : Nat) (mac : Fin 16) (s : State) : Host.Outcome State Fault Refusal :=
  done s ((s.advance dt).opGateActivate mac.val)

end Sys2Proof.Machine
end

