-- ==== Sys2Proof/Machine/PowerCmds.lean ====
section
/-! DEFINITION. Boot, power and reset commands (chapters 15 to 17). -/

namespace Sys2Proof.Machine

/-- FIELD_SIDE_RESTART (R394): A lockstep mismatch, watchdog expiry or 2000h.06 restarts the field side while the data
path runs on. -/
def execFieldSideRestart (dt : Nat) (cause : RestartCause) (s : State) : Host.Outcome State Fault Refusal :=
  done s ((s.advance dt).opFieldRestart cause)

/-- FIELD_COLD_START (R431): FLD_RST_N low, or loss of VF33, restarts the field side and loses the node address. -/
def execFieldColdStart (dt : Nat) (vf33Lost : Bool) (s : State) : Host.Outcome State Fault Refusal :=
  done s ((s.advance dt).opColdStart vf33Lost)

/-- FIELD_BOOT (R404): The field ROM selects and checks a firmware bank, derives keys and starts the firmware or the
recovery loader. -/
def execFieldBoot (dt : Nat) (s : State) : Host.Outcome State Fault Refusal :=
  done s ((s.advance dt).opFieldBoot)

/-- ANTI_ROLLBACK_CONFIRM (R403): An image that reaches its confirmation point raises its anti-rollback counter. -/
def execAntiRollbackConfirm (dt : Nat) (what : ConfirmKind) (s : State) : Host.Outcome State Fault Refusal :=
  done s ((s.advance dt).opConfirm what)

/-- MAIN_FIRMWARE_TIMEOUT (R405): Main-die firmware not RUNNING within 2 s falls back to the other bank. -/
def execMainFirmwareTimeout (dt : Nat) (s : State) : Host.Outcome State Fault Refusal :=
  done s ((s.advance dt).opMainTimeout)

/-- MAIN_DIE_WATCHDOG_EXPIRE (R396): The glove silent from the host side for the watchdog period makes the main die
UNRESPONSIVE and may reset it. -/
def execMainDieWatchdogExpire (dt : Nat) (s : State) : Host.Outcome State Fault Refusal :=
  done s ((s.advance dt).opMainWatchdog)

/-- MAIN_DIE_BRING_UP_COMMAND (R404): A write of 01h to 2000h.02 starts main-die bring-up. -/
def execMainDieBringUpCommand (dt : Nat) (lvl : Fin 4) (s : State) : Host.Outcome State Fault Refusal :=
  done s ((s.advance dt).rowWrite 0x2000 2 (fun s => s.opMainUp lvl.val))

/-- MAIN_DIE_RESET_COMMAND (R432): A write of 02h to 2000h.02 ends the run with a seal and resets the main die. -/
def execMainDieResetCommand (dt : Nat) (lvl : Fin 4) (s : State) : Host.Outcome State Fault Refusal :=
  done s ((s.advance dt).rowWrite 0x2000 2 (fun s => s.opMainEnd lvl.val false))

/-- MAIN_DIE_POWER_DOWN (R432): A write of 03h to 2000h.02 ends the run with a seal and powers off the main die. -/
def execMainDiePowerDown (dt : Nat) (lvl : Fin 4) (s : State) : Host.Outcome State Fault Refusal :=
  done s ((s.advance dt).rowWrite 0x2000 2 (fun s => s.opMainEnd lvl.val true))

/-- RUN_END_SEAL_TIMEOUT (R432): 100 ms after an orderly reset command without a seal, the reset proceeds. -/
def execRunEndSealTimeout (dt : Nat) (s : State) : Host.Outcome State Fault Refusal :=
  done s ((s.advance dt).opRunEndTimeout)

/-- BRING_UP (R434): Main-die firmware trains the HBM, powers domains, starts time and the ledger and reaches RUNNING.
-/
def execBringUp (dt : Nat) (step : Fin 9) (ok : Bool) (s : State) : Host.Outcome State Fault Refusal :=
  done s ((s.advance dt).opBringUp step.val ok)

/-- POWER_DOMAIN_REQUEST (R427): A write of 2010h.01 powers domains up or down, or is refused with abort 0009h. -/
def execPowerDomainRequest (dt : Nat) (lvl : Fin 4) (value : BitVec 96) (s : State) :
    Host.Outcome State Fault Refusal :=
  done s ((s.advance dt).rowWrite 0x2010 1 (fun s => s.opDomains lvl.val value))

/-- POWER_ON_RESET (R424): The main-die rails being within tolerance for 10 ms end power-on reset. -/
def execPowerOnReset (dt : Nat) (s : State) : Host.Outcome State Fault Refusal :=
  done s ((s.advance dt).opPowerOn)

/-- SUPPLY_OUT_OF_TOLERANCE (R424): A rail out of tolerance for more than 2 us starts a new power-on reset and event
0Dh. -/
def execSupplyOutOfTolerance (dt : Nat) (rail : Fin 6) (s : State) : Host.Outcome State Fault Refusal :=
  done s ((s.advance dt).opSupply rail.val)

/-- THERMAL_TRIP (R430): A sensor at 125 C drives THERM_TRIP_N low and powers off the main die. -/
def execThermalTrip (dt : Nat) (sensor : Fin 24) (tenths : Int) (s : State) : Host.Outcome State Fault Refusal :=
  done s ((s.advance dt).opTrip sensor.val tenths)

/-- TELEMETRY_SAMPLE (R428): Each telemetry period the field side reads temperatures and VDD into F020h and raises
warnings. -/
def execTelemetrySample (dt : Nat) (mainT hbmT fieldT : Int) (current : Word) (s : State) :
    Host.Outcome State Fault Refusal :=
  done s ((s.advance dt).opTelemetry mainT hbmT fieldT current)

/-- AVS_SETPOINT_STEP (R423): The device moves the VDD setpoint by at most one 10 mV step per millisecond. -/
def execAvsSetpointStep (dt : Nat) (reading : Int) (s : State) : Host.Outcome State Fault Refusal :=
  done s ((s.advance dt).opAvs reading)

/-- FLASH_WEAR_LEVELLING (R437): When a sector of the RWP or event-log region passes its rotation count, the field
side moves it, yielding to seal-state, leaf and RWP writes. -/
def execFlashWearLevelling (sector : Nat) (busy : Bool) (s : State) : Host.Outcome State Fault Refusal :=
  done s (s.opWear sector busy)

end Sys2Proof.Machine
end

