-- ==== Sys2Proof/Machine/QueueCmds.lean ====
section
/-! DEFINITION. Instance and queue commands (chapter 12). -/

namespace Sys2Proof.Machine

/-- REQ_GO (R283): A write of REQ_GO sends the tenant's request as a mediation entry, or is refused. -/
def execReqGo (inst : BitVec 16) (value : Word) (s : State) : Host.Outcome State Fault Refusal :=
  done s (s.onPageTlp (fun s => s.opReqGo inst.toNat value))

/-- WORK_FETCH (R287): The QIM reads work-queue slots, and entries with matching phase are taken. -/
def execWorkFetch (dt : Nat) (queue : BitVec 20) (slots : ReadData) (s : State) :
    Host.Outcome State Fault Refusal :=
  done s ((s.advance dt).opWorkFetch queue.toNat slots)

/-- ENTRY_BEGIN (R287): A work entry with a reserved completion place begins and the device head advances past it. -/
def execEntryBegin (dt : Nat) (queue : BitVec 20) (payload : ReadData) (shadowOk : Bool) (s : State) :
    Host.Outcome State Fault Refusal :=
  done s ((s.advance dt).opEntryBegin queue.toNat payload shadowOk)

/-- COMPLETION_WRITE (R298): A finished run of entries gets its completion written and its vector fired. -/
def execCompletionWrite (dt : Nat) (queue : BitVec 20) (s : State) : Host.Outcome State Fault Refusal :=
  done s ((s.advance dt).opCompletion queue.toNat)

/-- RECEIVE_PLACEMENT (R301): An item for a receive queue is placed in posted buffers, or waits in the backlog, or is
refused. -/
def execReceivePlacement (dt : Nat) (s : State) : Host.Outcome State Fault Refusal :=
  done s ((s.advance dt).opPlacement)

/-- BACKLOG_PLACEMENT (R302): A backlogged item is placed once buffers and a completion place are available. -/
def execBacklogPlacement (dt : Nat) (queue : BitVec 20) (s : State) : Host.Outcome State Fault Refusal :=
  done s ((s.advance dt).opBacklog queue.toNat)

/-- CQ_STALL_EXPIRE (R303): A completion queue full for QIM_CQ_STALL puts its instance in ERROR, or sets AQ_ERR for
PF0. -/
def execCqStallExpire (dt : Nat) (queue : BitVec 20) (s : State) : Host.Outcome State Fault Refusal :=
  done s ((s.advance dt).opCqStall queue.toNat)

/-- ADMIN_TAIL_WRITE (R307): A write of QIM_AQ_TAIL publishes admin entries for execution. -/
def execAdminTailWrite (value : Word) (s : State) : Host.Outcome State Fault Refusal :=
  done s (s.onCmd qimAqTail false (fun s => s.opAqTail value))

/-- INSTANCE_RESET_DONE (R305): Every unit has adopted the new generation, and the instance becomes ACTIVE or FREE. -/
def execInstanceResetDone (dt : Nat) (inst : BitVec 16) (s : State) : Host.Outcome State Fault Refusal :=
  done s ((s.advance dt).opResetDone inst.toNat)

/-- QIM_IEVT_NEXT (R312): A write of 1 to QIM_IEVT_NEXT removes the oldest instance event. -/
def execQimIevtNext (value : Word) (s : State) : Host.Outcome State Fault Refusal :=
  done s (s.onCmd (QIM + 0xA8) false (fun s => s.opIevtNext value))

end Sys2Proof.Machine
end

