-- ==== Sys2Proof/Machine/SecurityCmds.lean ====
section
/-! DEFINITION. Security commands (chapter 16). -/

namespace Sys2Proof.Machine

/-- ENROL (R407): Lifecycle command 01h takes the owner package, generates seal keys and makes the device OWNED. -/
def execEnrol (dt : Nat) (lvl : Fin 4) (s : State) : Host.Outcome State Fault Refusal :=
  done s ((s.advance dt).rowWrite 0x2F20 2 (fun s => s.opEnrol lvl.val))

/-- ENROLMENT_DONE (R407): Enrolment finishes its last write and the state becomes OWNED. -/
def execEnrolmentDone (dt : Nat) (s : State) : Host.Outcome State Fault Refusal :=
  done s ((s.advance dt).opEnrolled)

/-- RELEASE (R408): Lifecycle command 02h erases the owner data and returns to PROVISIONED. -/
def execReleaseOwner (lvl : Fin 4) (s : State) : Host.Outcome State Fault Refusal :=
  done s (s.rowWrite 0x2F20 2 (fun s => s.opReleaseOwner lvl.val))

/-- DECOMMISSION (R408): Lifecycle command 03h erases the owner data and K_op and blows the lifecycle fuse. -/
def execDecommission (lvl : Fin 4) (s : State) : Host.Outcome State Fault Refusal :=
  done s (s.rowWrite 0x2F20 2 (fun s => s.opDecommission lvl.val))

/-- PROVISION (R398): Lifecycle command 04h at level 3 moves the device from MANUFACTURE to PROVISIONED. -/
def execProvision (lvl : Fin 4) (s : State) : Host.Outcome State Fault Refusal :=
  done s (s.rowWrite 0x2F20 2 (fun s => s.opProvision lvl.val))

/-- PASSWORD_CHANGE (R413): A write of 2F31h.01 sets a new SALT, ITER and K_op. -/
def execPasswordChange (hdr : BusHdr) (value : List Byte) (s : State) : Host.Outcome State Fault Refusal :=
  done s (s.opObjWrite hdr (wholeWrite 0x2F31 1 value) true)

/-- OWNER_CHAIN_WRITE (R409): A write of 2F32h.03 installs the owner chain for SPDM slot 1. -/
def execOwnerChainWrite (lvl : Fin 4) (chain : List Byte) (s : State) : Host.Outcome State Fault Refusal :=
  done s (s.rowWrite 0x2F32 3 (fun s => s.opOwnerChain lvl.val chain))

/-- LOCK_WRITE (R415): A write of the door byte opens or closes doors and ends the sessions that a closed door
admitted. -/
def execLockWrite (lvl : Fin 4) (node : Byte) (value : Byte) (s : State) : Host.Outcome State Fault Refusal :=
  done s (s.rowWrite 0x2F40 1 (fun s => s.opLock lvl.val node value))

/-- QUOTE_NONCE_WRITE (R412): A nonce written to 2F50h.01 produces a new signed quote. -/
def execQuoteNonceWrite (nonce : List Byte) (s : State) : Host.Outcome State Fault Refusal :=
  done s (s.rowWrite 0x2F50 1 (fun s => s.opNonce nonce))

/-- SPDM_SIGN_REQUEST (R411): A host-side write of 2F60h.01 makes the field side sign an SPDM transcript with the
Alias key. -/
def execSpdmSignRequest (fromHost : Bool) (value : List Byte) (s : State) : Host.Outcome State Fault Refusal :=
  done s (s.rowWrite 0x2F60 1 (fun s => s.opSpdmSign fromHost value))

/-- JTAG_TAP_OPERATION (R416): TCK, TMS, TDI and TRST_N drive the main-die TAP, which decodes only BYPASS, IDCODE and
SAMPLE/PRELOAD while the JTAG door is closed. -/
def execJtagTapOperation (trstN tms tdi : Bool) (s : State) : Host.Outcome State Fault Refusal :=
  done s (s.opTap trstN tms tdi)

end Sys2Proof.Machine
end

