-- ==== Sys2Proof/Machine/TableCmds.lean ====
section
/-! DEFINITION. Forwarding-table commands (chapter 7). -/

namespace Sys2Proof.Machine

/-- FWT_TABLE_ENABLE (R172): Setting EN on a forwarding table starts the zeroing of its region. -/
def execFwtTableEnable (table : FwtTable) (value : Word) (s : State) : Host.Outcome State Fault Refusal :=
  done s (s.opFwtBase table value)

/-- FWT_ZEROING_DONE (R172): A forwarding table's region finishes zeroing and the table enters service. -/
def execFwtZeroingDone (table : FwtTable) (s : State) : Host.Outcome State Fault Refusal :=
  done s (s.opFwtZeroed table)

/-- LEARN_REQUEST (R178): A learning table takes a learn request and creates, refreshes or moves an entry, or refuses
it. -/
def execLearnRequest (dt : Nat) (table : Fin 4) (s : State) : Host.Outcome State Fault Refusal :=
  done s ((s.advance dt).opLearn table.val)

/-- SWEEPER_VISIT (R180): The sweeper visits a slot and clears HIT, sets CLEAR1 or removes the entry. -/
def execSweeperVisit (dt : Nat) (table : Fin 4) (s : State) : Host.Outcome State Fault Refusal :=
  done s ((s.advance dt).opSweep table.val)

/-- FWT_READ (R184): A READ table command returns an endpoint entry with its count, or a learning slot. -/
def execFwtRead (value : Word) (s : State) : Host.Outcome State Fault Refusal :=
  done s (s.opFwt 1 value)

/-- FWT_WRITE (R184): A WRITE table command writes an endpoint entry or a learning slot, after checking bucket and
duplicate. -/
def execFwtWrite (value : Word) (s : State) : Host.Outcome State Fault Refusal :=
  done s (s.opFwt 2 value)

/-- FWT_INSERT (R184): An INSERT table command places a key in the named learning tables. -/
def execFwtInsert (dt : Nat) (value : Word) (s : State) : Host.Outcome State Fault Refusal :=
  done s ((s.advance dt).opFwt 3 value)

/-- FWT_DELETE (R184): A DELETE table command removes the entry with the key. -/
def execFwtDelete (value : Word) (s : State) : Host.Outcome State Fault Refusal :=
  done s (s.opFwt 4 value)

/-- FWT_SEARCH (R184): A SEARCH table command returns the entry with the key from one learning table. -/
def execFwtSearch (value : Word) (s : State) : Host.Outcome State Fault Refusal :=
  done s (s.opFwt 5 value)

end Sys2Proof.Machine
end

