-- ==== Sys2Proof/Machine/ThreadCmds.lean ====
section
/-! DEFINITION. Thread commands (chapter 14). -/

namespace Sys2Proof.Machine

/-- FORK (R353): FORK starts a free thread of the cluster, or returns -1. -/
def execThaFork (dt : Nat) (th : BitVec 10) (rd rs1 rs2 : Fin 32) (detached : Bool) (s : State) :
    Host.Outcome State Fault Refusal :=
  done s ((s.advance dt).opFork th.toNat rd.val rs1.val rs2.val detached)

/-- JOIN (R353): JOIN waits for a joinable child to end and returns its exit value. -/
def execThaJoin (dt : Nat) (th : BitVec 10) (rd rs1 : Fin 32) (s : State) : Host.Outcome State Fault Refusal :=
  done s ((s.advance dt).opJoin th.toNat rd rs1.val)

/-- TWAIT (R354): TWAIT returns the set event bits of its mask, or waits for them. -/
def execThaTwait (dt : Nat) (th : BitVec 10) (rd rs1 rs2 : Fin 32) (s : State) :
    Host.Outcome State Fault Refusal :=
  done s ((s.advance dt).opTwait th.toNat rd rs1.val rs2.val)

/-- TWAIT_DEADLINE (R354): A TWAIT whose deadline is reached returns 0. -/
def execThaTwaitDeadline (dt : Nat) (th : BitVec 10) (s : State) : Host.Outcome State Fault Refusal :=
  done s ((s.advance dt).opTwaitDeadline th.toNat)

/-- TSEND (R354): TSEND sets event bits in a thread of the cluster and wakes it. -/
def execThaTsend (dt : Nat) (th : BitVec 10) (rd rs1 rs2 : Fin 32) (s : State) :
    Host.Outcome State Fault Refusal :=
  done s ((s.advance dt).opTsend th.toNat rd.val rs1.val rs2.val)

/-- YIELD (R353): YIELD gives up the thread's current turn. -/
def execThaYield (dt : Nat) (th : BitVec 10) (s : State) : Host.Outcome State Fault Refusal :=
  done s ((s.advance dt).opYield th.toNat)

/-- YIELD_E (R353): YIELD.E ends the thread, which becomes ENDED or FREE. -/
def execThaYieldE (dt : Nat) (th : BitVec 10) (rs1 : Fin 32) (s : State) : Host.Outcome State Fault Refusal :=
  done s ((s.advance dt).opYieldE th.toNat rs1.val)

/-- CHRES (R359): CHRES reserves a message in a channel, or waits or returns -1 while it lacks room. -/
def execThaChres (dt : Nat) (th : BitVec 10) (rd rs1 rs2 : Fin 32) (nowait : Bool) (s : State) :
    Host.Outcome State Fault Refusal :=
  done s ((s.advance dt).opChres th.toNat rd rs1.val rs2.val nowait)

/-- CHPUT (R359): CHPUT copies bytes into a reservation at its cursor. -/
def execThaChput (dt : Nat) (th : BitVec 10) (rd rs1 rs2 : Fin 32) (n : Fin 128) (s : State) :
    Host.Outcome State Fault Refusal :=
  done s ((s.advance dt).opChput th.toNat rd.val rs1.val rs2.val n.val)

/-- CHCOMMIT (R359): CHCOMMIT makes a reserved message COMMITTED and stamps device-kind messages. -/
def execThaChcommit (dt : Nat) (th : BitVec 10) (rd rs1 : Fin 32) (s : State) : Host.Outcome State Fault Refusal :=
  done s ((s.advance dt).opChcommit th.toNat rd.val rs1.val)

/-- CHGET (R359): CHGET takes the committed head message, or waits or returns -1. -/
def execThaChget (dt : Nat) (th : BitVec 10) (rd rs1 rs2 : Fin 32) (nowait : Bool) (s : State) :
    Host.Outcome State Fault Refusal :=
  done s ((s.advance dt).opChget th.toNat rd rs1.val rs2.val nowait)

/-- LKUP (R355): LKUP looks up a global table and writes the result. -/
def execThaLkup (dt : Nat) (th : BitVec 10) (rd rs1 rs2 : Fin 32) (target table : Fin 4) (answered : Bool) (s : State) :
    Host.Outcome State Fault Refusal :=
  done s ((s.advance dt).opLkup th.toNat rd.val rs1.val rs2.val target.val table.val answered)

/-- DMAGO (R356): DMAGO starts one of the cluster's DMA channels on a program in local SRAM. -/
def execThaDmago (dt : Nat) (th : BitVec 10) (rd rs1 rs2 : Fin 32) (s : State) :
    Host.Outcome State Fault Refusal :=
  done s ((s.advance dt).opDmago th.toNat rd.val rs1.val rs2.val)

/-- STAMP (R357): STAMP reads the thread stamp point and may write a stamp record. -/
def execThaStamp (dt : Nat) (th : BitVec 10) (rd rs1 : Fin 32) (s : State) : Host.Outcome State Fault Refusal :=
  done s ((s.advance dt).opStamp th.toNat rd.val rs1.val)

/-- FRAME_OUT_SEND (R360): The device reads a committed frame-out message and hands the frame to an ingress pipeline.
-/
def execFrameOutSend (dt : Nat) (cluster : Fin 8) (index : Byte) (s : State) : Host.Outcome State Fault Refusal :=
  done s ((s.advance dt).opFrameOut cluster.val index.toNat)

/-- CHANNEL_HELD (R363): A reserved head held 65,536 clocks raises a CHAN_HELD supervisor event. -/
def execChannelHeld (dt : Nat) (cluster : Fin 8) (index : Byte) (s : State) : Host.Outcome State Fault Refusal :=
  done s ((s.advance dt).opChanHeld cluster.val index.toNat)

/-- WAIT_DEADLOCK (R364): A cluster whose pooled threads have all waited 4,096 clocks with no external source raises
WAIT_DEADLOCK. -/
def execWaitDeadlock (dt : Nat) (cluster : Fin 8) (s : State) : Host.Outcome State Fault Refusal :=
  done s ((s.advance dt).opDeadlock cluster.val)

/-- SUP_KILL (R362): A KILL through SUP_CMD ends a pooled thread with exit value -1. -/
def execSupKill (cluster : Fin 8) (value : Word) (s : State) : Host.Outcome State Fault Refusal :=
  done s (s.bySup cluster.val (fun s => s.opKill cluster.val value))

/-- SUP_RESUME (R362): A RESUME through SUP_CMD restarts a thread stopped by a fault at SUP_PC. -/
def execSupResume (cluster : Fin 8) (value : Word) (s : State) : Host.Outcome State Fault Refusal :=
  done s (s.bySup cluster.val (fun s => s.opResume cluster.val value))

/-- SUP_EVT_NEXT (R362): A write to SUP_EVT_NEXT removes the head supervisor event. -/
def execSupEvtNext (cluster : Fin 8) (value : Word) (s : State) : Host.Outcome State Fault Refusal :=
  done s (s.bySup cluster.val (fun s => s.opSupNext cluster.val value))

/-- SUP_KICK (R365): A write to SUP_KICK restarts the cluster's watchdog period. -/
def execSupKick (dt : Nat) (cluster : Fin 8) (s : State) : Host.Outcome State Fault Refusal :=
  done s ((s.advance dt).bySup cluster.val (fun s => s.opKick cluster.val))

/-- WATCHDOG_EXPIRE (R365): An expired cluster watchdog resets the cluster with cause 1. -/
def execWatchdogExpire (dt : Nat) (cluster : Fin 8) (s : State) : Host.Outcome State Fault Refusal :=
  done s ((s.advance dt).opWatchdog cluster.val)

/-- CLUSTER_RESET (R366): A cluster reset stops its threads, empties its channels, reloads the sections and restarts
the supervisor. -/
def execClusterReset (dt : Nat) (cluster : Fin 8) (s : State) : Host.Outcome State Fault Refusal :=
  done s ((s.advance dt).opClusterReset cluster.val)

/-- SERVICE_START (R350): A start of a service slot takes clusters, checks the layout and starts the supervisor
threads. -/
def execServiceStart (dt : Nat) (lvl : Fin 4) (slot : Fin 8) (s : State) : Host.Outcome State Fault Refusal :=
  done s ((s.advance dt).rowWrite (0x2100 + slot.val) 2 (fun s => s.serviceCmd lvl.val slot.val 1))

/-- SERVICE_STOP (R350): A stop of a service slot ends every thread and releases its clusters. -/
def execServiceStop (dt : Nat) (lvl : Fin 4) (slot : Fin 8) (s : State) : Host.Outcome State Fault Refusal :=
  done s ((s.advance dt).rowWrite (0x2100 + slot.val) 2 (fun s => s.serviceCmd lvl.val slot.val 2))

/-- SERVICE_RESTART (R351): Command 03h resets every cluster of the service. -/
def execServiceRestart (dt : Nat) (lvl : Fin 4) (slot : Fin 8) (s : State) : Host.Outcome State Fault Refusal :=
  done s ((s.advance dt).rowWrite (0x2100 + slot.val) 2 (fun s => s.serviceCmd lvl.val slot.val 3))

/-- DBG_STOP (R367): The debugger STOP stops a thread at an instruction boundary. -/
def execDbgStop (value : Word) (s : State) : Host.Outcome State Fault Refusal :=
  done s (s.opDbg 1 value)

/-- DBG_RUN (R367): The debugger RUN lets a stopped thread run. -/
def execDbgRun (value : Word) (s : State) : Host.Outcome State Fault Refusal :=
  done s (s.opDbg 2 value)

/-- DBG_STEP (R367): The debugger STEP runs one instruction. -/
def execDbgStep (dt : Nat) (value : Word) (s : State) : Host.Outcome State Fault Refusal :=
  done s ((s.advance dt).opDbg 3 value)

/-- DBG_READ_REG (R367): The debugger READ_REG reads a thread register or the pc. -/
def execDbgReadReg (value : Word) (s : State) : Host.Outcome State Fault Refusal :=
  done s (s.opDbg 4 value)

/-- DBG_WRITE_REG (R367): The debugger WRITE_REG writes a thread register or the pc. -/
def execDbgWriteReg (value : Word) (s : State) : Host.Outcome State Fault Refusal :=
  done s (s.opDbg 5 value)

/-- DBG_READ_MEM (R367): The debugger READ_MEM reads 8 bytes at a thread address. -/
def execDbgReadMem (value : Word) (s : State) : Host.Outcome State Fault Refusal :=
  done s (s.opDbg 6 value)

/-- DBG_WRITE_MEM (R367): The debugger WRITE_MEM writes 8 bytes at a thread address. -/
def execDbgWriteMem (value : Word) (s : State) : Host.Outcome State Fault Refusal :=
  done s (s.opDbg 7 value)

/-- DBG_SET_BREAK (R367): The debugger SET_BREAK sets a core breakpoint. -/
def execDbgSetBreak (value : Word) (s : State) : Host.Outcome State Fault Refusal :=
  done s (s.opDbg 8 value)

/-- DBG_CLEAR_BREAK (R367): The debugger CLEAR_BREAK clears a core breakpoint. -/
def execDbgClearBreak (value : Word) (s : State) : Host.Outcome State Fault Refusal :=
  done s (s.opDbg 9 value)

/-- DBG_DISCARD (R367): The debugger DISCARD makes a thread's oldest reservation on a channel VOID. -/
def execDbgDiscard (value : Word) (s : State) : Host.Outcome State Fault Refusal :=
  done s (s.opDbg 10 value)

/-- BREAKPOINT_HIT (R367): A thread that reaches a breakpoint or EBREAK while debug is open becomes STOPPED and sets
THA_EVT.DBG. -/
def execBreakpointHit (th : BitVec 10) (s : State) : Host.Outcome State Fault Refusal :=
  done s (s.opBreakHit th.toNat)

/-- THREAD_BASE_INSTRUCTION (R361): A thread executes a base RV64IMC instruction, such as a load, store, fetch, FENCE,
ECALL or EBREAK while debug is closed, which performs its access or faults. -/
def execThreadBaseInstruction (dt : Nat) (th : BitVec 10) (s : State) : Host.Outcome State Fault Refusal :=
  done s ((s.advance dt).opThread th.toNat)

end Sys2Proof.Machine
end

