-- ==== Sys2Proof/Machine/TimeCmds.lean ====
section
/-! DEFINITION. Time commands (chapter 3). -/

namespace Sys2Proof.Machine

/-- PPS_EDGE (R47): A rising edge at PPS_IN_A or PPS_IN_B gives the core an offset measurement when the PPS reference
is present. -/
def execPpsEdge (dt : Nat) (core : CoreId) (s : State) : Host.Outcome State Fault Refusal :=
  done s ((s.advance dt).opPpsEdge core)

/-- PTP_MEASUREMENT (R47): A write of the high half of TIM_PTPMEAS_TIME submits a PTP measurement, which the core
accepts or rejects. -/
def execPtpMeasurement (dt : Nat) (req : Requester) (core : CoreId) (hi : Word) (s : State) :
    Host.Outcome State Fault Refusal :=
  done s ((s.advance dt).opPtpWrite req core hi)

/-- TAI_SECOND_LABEL_WRITE (R47): A write of A020h labels the next PPS edge of a core with its TAI second. -/
def execTaiSecondLabelWrite (lvl : Fin 4) (core : CoreId) (label : BitVec 64) (s : State) :
    Host.Outcome State Fault Refusal :=
  done s (s.rowWrite 0xA020 (match core with | .A => 1 | .B => 2) (fun s => s.labelWrite lvl.val core label))

/-- PPS_REFERENCE_LOST (R48): No PPS edge within 1 s + 1 us ends the PPS reference's presence. -/
def execPpsReferenceLost (dt : Nat) (core : CoreId) (s : State) : Host.Outcome State Fault Refusal :=
  done s ((s.advance dt).opPpsLost core)

/-- PTP_REFERENCE_LOST (R48): A PTP reference that receives no valid measurement for 2 s stops being present, and a
core using it as primary changes to a present secondary reference. -/
def execPtpReferenceLost (dt : Nat) (core : CoreId) (s : State) : Host.Outcome State Fault Refusal :=
  done s ((s.advance dt).opPtpLost core)

/-- HOLDOVER_ENTRY (R48): A LOCKED core with no reference present for 2 s enters HOLDOVER. -/
def execHoldoverEntry (dt : Nat) (core : CoreId) (s : State) : Host.Outcome State Fault Refusal :=
  done s ((s.advance dt).opHoldover core)

/-- REVERT_TO_PRIMARY (R48): A core returns to its primary reference once the primary has been present for the revert
hold-off. -/
def execRevertToPrimary (dt : Nat) (core : CoreId) (s : State) : Host.Outcome State Fault Refusal :=
  done s ((s.advance dt).opRevert core)

/-- HOLDOVER_LIMIT_EXPIRE (R64): A core in HOLDOVER beyond its holdover limit makes its term unknown. -/
def execHoldoverLimitExpire (dt : Nat) (core : CoreId) (s : State) : Host.Outcome State Fault Refusal :=
  done s ((s.advance dt).opHoldLimit core)

/-- STROKE (R51): Each 1 us a running time core sends a stroke carrying its time, state, term and flags to every
replica. -/
def execStroke (dt : Nat) (core : CoreId) (s : State) : Host.Outcome State Fault Refusal :=
  done s ((s.advance dt).opStroke core)

/-- STROKE_RECEIVE (R51): A replica receives a stroke and sets and advances its timescale for that core. -/
def execStrokeReceive (dt : Nat) (rep : Fin 40) (core : CoreId) (s : State) : Host.Outcome State Fault Refusal :=
  done s (((s.advance dt).opStrokeReceive rep.val core).gatesFollow rep.val)

/-- STROKE_MISS (R53): A stroke of the active core that does not arrive when due widens the replica term, which
becomes unknown at the eighth miss. -/
def execStrokeMiss (dt : Nat) (rep : Fin 40) (s : State) : Host.Outcome State Fault Refusal :=
  done s (((s.advance dt).opStrokeMiss rep.val).1.gatesFollow rep.val)

/-- ARMATURE_CALIBRATION (R52): Every 1 ms the armature measures each line's round trip and recalibrates its one-way
delay. -/
def execArmatureCalibration (dt : Nat) (rep : Fin 40) (roundTrip : Nat) (s : State) :
    Host.Outcome State Fault Refusal :=
  done s ((s.advance dt).opCalibrate rep.val roundTrip)

/-- TREF_LOSS (R67): Three missing TREF cycles put the core in FAULT, stop its strokes and signal the standby. -/
def execTrefLoss (dt : Nat) (core : CoreId) (s : State) : Host.Outcome State Fault Refusal :=
  done s ((s.advance dt).opTrefLoss core)

/-- CORE_PLL_UNLOCK (R45): A time core whose PLL unlocks, or whose internal check fails, enters FAULT, stops its
strokes and signals the standby. -/
def execCorePllUnlock (dt : Nat) (core : CoreId) (s : State) : Host.Outcome State Fault Refusal :=
  done s ((s.advance dt).opPllUnlock core)

/-- TREF_RESTORE (R70): A core in FAULT whose TREF is present and PLL locked again leaves FAULT for ACQUIRING or
FREERUN. -/
def execTrefRestore (dt : Nat) (core : CoreId) (s : State) : Host.Outcome State Fault Refusal :=
  done s ((s.advance dt).opTrefRestore core)

/-- TIME_CORE_POWER_UP (R439): A time-core domain powered while the main die runs starts its core in FREERUN at the
active core's time. -/
def execTimeCorePowerUp (dt : Nat) (core : CoreId) (strokeSeen : Bool) (s : State) :
    Host.Outcome State Fault Refusal :=
  done s ((s.advance dt).opCorePowerUp core strokeSeen)

/-- BOUND_TAKEOVER_TIMER (R67): The active term exceeding the threshold for 1 ms while the independent standby's does
not starts a takeover. -/
def execBoundTakeoverTimer (dt : Nat) (s : State) : Host.Outcome State Fault Refusal :=
  done s ((s.advance dt).opBoundTimer)

/-- MAKE_ACTIVE (R71): An operator write of A030h.04 starts a takeover to the named core, or is refused. -/
def execMakeActive (dt : Nat) (lvl : Fin 4) (value : Byte) (s : State) : Host.Outcome State Fault Refusal :=
  done s ((s.advance dt).rowWrite 0xA030 4 (fun s => s.activeWrite lvl.val value.toNat))

/-- TAKEOVER_NOTICE (R68): A replica that receives the takeover notice produces dual stamps until it switches. -/
def execTakeoverNotice (dt : Nat) (rep : Fin 40) (s : State) : Host.Outcome State Fault Refusal :=
  done s ((s.advance dt).opTakeoverNotice rep.val)

/-- TAKEOVER_END (R69): The last replica's acknowledgement closes the overlap window at T_e, and the plinth adopts the
incoming timescale. -/
def execTakeoverEnd (dt : Nat) (s : State) : Host.Outcome State Fault Refusal :=
  done s ((s.advance dt).opTakeoverClose)

/-- TIME_QUALITY_REPORT (R73): Every 1 s, and on each change, the TIM sends a time-quality report across the glove. -/
def execTimeQualityReport (dt : Nat) (s : State) : Host.Outcome State Fault Refusal :=
  done s ((s.advance dt).opTqr)

/-- PPS_OUT (R72): PPS_OUT rises at each whole TAI second of the active core while enabled and driven. -/
def execPpsOut (dt : Nat) (s : State) : Host.Outcome State Fault Refusal :=
  done s ((s.advance dt).opPpsOut)

/-- TIM_PCORR_COMMIT (R61): A commit through TIM_PCORR_CMD stages every path correction for its activation time, or is
refused. -/
def execTimPcorrCommit (dt : Nat) (req : Requester) (value : Word) (s : State) :
    Host.Outcome State Fault Refusal :=
  done s ((s.advance dt).byReq req timPcorrCmd (fun s => s.opPcorrCmd req value))

/-- PATH_CORRECTION_ACTIVATION_WRITE (R61): A write of A050h.13 commits the staged path corrections with the written
activation time, or is refused. -/
def execPathCorrectionActivationWrite (dt : Nat) (lvl : Fin 4) (time : BitVec 64) (s : State) :
    Host.Outcome State Fault Refusal :=
  done s ((s.advance dt).rowWrite 0xA050 0x13 (fun s => s.activationWrite lvl.val time))

/-- PCORR_ACTIVATION (R61): Once every stamp point has passed the activation time, the new corrections are in force
and BUSY clears. -/
def execPcorrActivation (dt : Nat) (s : State) : Host.Outcome State Fault Refusal :=
  done s ((s.advance dt).opPcorrActivate)

end Sys2Proof.Machine
end

