-- ==== Sys2Proof/Machine/TrafficCmds.lean ====
section
/-! DEFINITION. Traffic-manager commands (chapter 10). -/

namespace Sys2Proof.Machine

/-- TMG_ENQUEUE (R237): A frame arriving at the TMG is appended to its leaf or refused. -/
def execTmgEnqueue (dt : Nat) (s : State) : Host.Outcome State Fault Refusal :=
  done s ((s.advance dt).opTmgEnqueue)

/-- SHAPER_REFILL (R239): Every 256 ns every bucket is credited, and pending TMG writes take effect. -/
def execShaperRefill (dt : Nat) (s : State) : Host.Outcome State Fault Refusal :=
  done s ((s.advance dt).opRefillShapers)

/-- HEAD_EXPIRE (R245): A class head that has waited HEAD_LIMIT is discarded and counted in TMG_HEAD_EXPIRE. -/
def execHeadExpire (dt : Nat) (cls : Fin 128) (s : State) : Host.Outcome State Fault Refusal :=
  done s ((s.advance dt).opHeadExpire cls.val)

/-- TMG_READ (R256): A READ TMG command returns a node or policer entry. -/
def execTmgRead (value : Word) (s : State) : Host.Outcome State Fault Refusal :=
  done s (s.opTmg 1 value)

/-- TMG_WRITE (R247): A WRITE TMG command changes a node or policer at the next refill, or is refused. -/
def execTmgWrite (value : Word) (s : State) : Host.Outcome State Fault Refusal :=
  done s (s.opTmg 2 value)

/-- TMG_RATE_WRITE (R247): A write to a class or port rate register takes effect at the next refill. -/
def execTmgRateWrite (addr : Nat) (value : Word) (s : State) : Host.Outcome State Fault Refusal :=
  done s (s.opTmgRate addr value)

/-- POLICER_DECISION (R250): An ingress policer finds an item conforming, or drops or marks it. -/
def execPolicerDecision (dt : Nat) (s : State) : Host.Outcome State Fault Refusal :=
  done s ((s.advance dt).opPolice)

end Sys2Proof.Machine
end

