-- ==== Sys2Proof/Machine/TransportCmds.lean ====
section
/-! DEFINITION. Transport commands (chapter 9). -/

namespace Sys2Proof.Machine

/-- TRN_REGION_ENABLE (R214): Setting EN in TRN_CTX_BASE or TRN_IDX_BASE starts zeroing that region. -/
def execTrnRegionEnable (region : TrnRegion) (value : Word) (s : State) : Host.Outcome State Fault Refusal :=
  done s (s.opTrnBase region value)

/-- TRN_ZEROING_DONE (R214): A transport region finishes zeroing. -/
def execTrnZeroingDone (region : TrnRegion) (s : State) : Host.Outcome State Fault Refusal :=
  done s (s.opTrnZeroed region)

/-- SESSION_CREATE (R216): A CREATE transport command takes a free session, writes its context and inserts its key, or
refuses it. -/
def execSessionCreate (value : Word) (s : State) : Host.Outcome State Fault Refusal :=
  done s (s.opTrn 1 value)

/-- SESSION_READ (R216): A READ transport command returns a session's context, clearing its counters when CLR is set.
-/
def execSessionRead (value : Word) (s : State) : Host.Outcome State Fault Refusal :=
  done s (s.opTrn 2 value)

/-- SESSION_MODIFY (R216): A MODIFY transport command writes the permitted context fields and may make the session
ACTIVE again. -/
def execSessionModify (value : Word) (s : State) : Host.Outcome State Fault Refusal :=
  done s (s.opTrn 3 value)

/-- SESSION_DESTROY (R216): A DESTROY transport command removes the key, aborts send entries and puts the session in
QUARANTINE. -/
def execSessionDestroy (dt : Nat) (value : Word) (s : State) : Host.Outcome State Fault Refusal :=
  done s ((s.advance dt).opTrn 4 value)

/-- SESSION_QUARANTINE_END (R216): After 100 us of quarantine the session returns to the pool. -/
def execSessionQuarantineEnd (dt : Nat) (session : BitVec 21) (s : State) : Host.Outcome State Fault Refusal :=
  done s ((s.advance dt).opQuarEnd session.toNat)

/-- TCP_SEGMENT_RECEIVE (R219): An arriving TCP item is refused, handed to software or placed and framed. -/
def execTcpSegmentReceive (dt : Nat) (s : State) : Host.Outcome State Fault Refusal :=
  done s ((s.advance dt).opTcpSegment)

/-- ROCE_PACKET_RECEIVE (R227): An arriving RoCEv2 RC packet is executed, acknowledged again or NAKed by its PSN. -/
def execRocePacketReceive (dt : Nat) (readData : ReadData) (s : State) :
    Host.Outcome State Fault Refusal :=
  done s ((s.advance dt).opRoce readData)

/-- NVME_PDU_RECEIVE (R229): An arriving NVMe/TCP PDU is digest-checked and placed directly or delivered to RXQ. -/
def execNvmePduReceive (dt : Nat) (entry : ReadData) (s : State) : Host.Outcome State Fault Refusal :=
  done s ((s.advance dt).opNvmePdu entry)

/-- ACK_DELAY_EXPIRE (R222): TRN_ACK_DELAY after the first unacknowledged byte, the engine sends an ACK. -/
def execAckDelayExpire (dt : Nat) (session : BitVec 21) (s : State) : Host.Outcome State Fault Refusal :=
  done s ((s.advance dt).opAckDelay session.toNat)

/-- SESSION_SEND (R222): The engine sends send-entry bytes as segments while the window and CWND allow. -/
def execSessionSend (dt : Nat) (session : BitVec 21) (s : State) : Host.Outcome State Fault Refusal :=
  done s ((s.advance dt).opSessSend session.toNat)

/-- RETRANSMISSION_TIMEOUT (R222): An RTO expiry retransmits, and after TRN_RETRIES timeouts the session enters ERROR
with reason 04h. -/
def execRetransmissionTimeout (dt : Nat) (session : BitVec 21) (s : State) : Host.Outcome State Fault Refusal :=
  done s ((s.advance dt).opRto session.toNat)

end Sys2Proof.Machine
end

