-- ==== Sys2Proof/Machine/Dispatch.lean ====
section
/-! DEFINITION. What each command does: one arm for each row of spec/opcode_table.json. -/

namespace Sys2Proof.Machine

/-- The effect of a command on everything but the queue. -/
def exec (i : Instr) (s : State) : Host.Outcome State Fault Refusal :=
  match i with
  | .registerWrite dt req addr data => Sys2Proof.Machine.execRegisterWrite dt req addr data s
  | .islandCrossingTimeout dt req addr acc => Sys2Proof.Machine.execIslandCrossingTimeout dt req addr acc s
  | .rcRegisterRead req addr width => Sys2Proof.Machine.execRcRegisterRead req addr width s
  | .eventCounterRead req addr width => Sys2Proof.Machine.execEventCounterRead req addr width s
  | .counterLowHalfRead req addr => Sys2Proof.Machine.execCounterLowHalfRead req addr s
  | .counterHighHalfRead req addr => Sys2Proof.Machine.execCounterHighHalfRead req addr s
  | .timNowRead dt part => Sys2Proof.Machine.execTimNowRead dt part s
  | .guardedWrite dt req addr data => Sys2Proof.Machine.execGuardedWrite dt req addr data s
  | .guardedComplementWrite dt req addr data => Sys2Proof.Machine.execGuardedComplementWrite dt req addr data s
  | .guardArmExpire dt group => Sys2Proof.Machine.execGuardArmExpire dt group s
  | .glbGuardlockWrite value => Sys2Proof.Machine.execGlbGuardlockWrite value s
  | .doorbellStage page value => Sys2Proof.Machine.execDoorbellStage page value s
  | .doorbell dt page value => Sys2Proof.Machine.execDoorbell dt page value s
  | .instancePageAccess inst off acc => Sys2Proof.Machine.execInstancePageAccess inst off acc s
  | .tmaskWrite inst word value => Sys2Proof.Machine.execTmaskWrite inst word value s
  | .ppsEdge dt core => Sys2Proof.Machine.execPpsEdge dt core s
  | .ptpMeasurement dt req core hi => Sys2Proof.Machine.execPtpMeasurement dt req core hi s
  | .taiSecondLabelWrite lvl core label => Sys2Proof.Machine.execTaiSecondLabelWrite lvl core label s
  | .ppsReferenceLost dt core => Sys2Proof.Machine.execPpsReferenceLost dt core s
  | .holdoverEntry dt core => Sys2Proof.Machine.execHoldoverEntry dt core s
  | .revertToPrimary dt core => Sys2Proof.Machine.execRevertToPrimary dt core s
  | .holdoverLimitExpire dt core => Sys2Proof.Machine.execHoldoverLimitExpire dt core s
  | .stroke dt core => Sys2Proof.Machine.execStroke dt core s
  | .strokeReceive dt rep core => Sys2Proof.Machine.execStrokeReceive dt rep core s
  | .strokeMiss dt rep => Sys2Proof.Machine.execStrokeMiss dt rep s
  | .armatureCalibration dt rep roundTrip => Sys2Proof.Machine.execArmatureCalibration dt rep roundTrip s
  | .trefLoss dt core => Sys2Proof.Machine.execTrefLoss dt core s
  | .trefRestore dt core => Sys2Proof.Machine.execTrefRestore dt core s
  | .timeCorePowerUp dt core strokeSeen => Sys2Proof.Machine.execTimeCorePowerUp dt core strokeSeen s
  | .boundTakeoverTimer dt => Sys2Proof.Machine.execBoundTakeoverTimer dt s
  | .makeActive dt lvl value => Sys2Proof.Machine.execMakeActive dt lvl value s
  | .takeoverNotice dt rep => Sys2Proof.Machine.execTakeoverNotice dt rep s
  | .takeoverEnd dt => Sys2Proof.Machine.execTakeoverEnd dt s
  | .timeQualityReport dt => Sys2Proof.Machine.execTimeQualityReport dt s
  | .ppsOut dt => Sys2Proof.Machine.execPpsOut dt s
  | .timPcorrCommit dt req value => Sys2Proof.Machine.execTimPcorrCommit dt req value s
  | .pathCorrectionActivationWrite dt lvl time => Sys2Proof.Machine.execPathCorrectionActivationWrite dt lvl time s
  | .pcorrActivation dt => Sys2Proof.Machine.execPcorrActivation dt s
  | .messagePresent dt from_ => Sys2Proof.Machine.execMessagePresent dt from_ s
  | .plinthPortHeartbeat dt cluster => Sys2Proof.Machine.execPlinthPortHeartbeat dt cluster s
  | .messageRelease dt stream => Sys2Proof.Machine.execMessageRelease dt stream s
  | .fetchBoundExpire dt inst => Sys2Proof.Machine.execFetchBoundExpire dt inst s
  | .maxHoldExpire dt stream => Sys2Proof.Machine.execMaxHoldExpire dt stream s
  | .laggardRejoin dt member => Sys2Proof.Machine.execLaggardRejoin dt member s
  | .stepNotice dt => Sys2Proof.Machine.execStepNotice dt s
  | .sqlMembCommit dt req value => Sys2Proof.Machine.execSqlMembCommit dt req value s
  | .membershipActivation dt => Sys2Proof.Machine.execMembershipActivation dt s
  | .digestComplete dt idx => Sys2Proof.Machine.execDigestComplete dt idx s
  | .gapRecordWrite dt stream => Sys2Proof.Machine.execGapRecordWrite dt stream s
  | .blockIntervalExpire dt => Sys2Proof.Machine.execBlockIntervalExpire dt s
  | .epochEnd dt => Sys2Proof.Machine.execEpochEnd dt s
  | .exportUnitWrite dt => Sys2Proof.Machine.execExportUnitWrite dt s
  | .prtGrpModeWrite group value => Sys2Proof.Machine.execPrtGrpModeWrite group value s
  | .groupModeSwitchDone dt group => Sys2Proof.Machine.execGroupModeSwitchDone dt group s
  | .linkUp dt mac => Sys2Proof.Machine.execLinkUp dt mac s
  | .linkDown dt mac cutRx => Sys2Proof.Machine.execLinkDown dt mac cutRx s
  | .macReceiveFrame dt mac frame arrival => Sys2Proof.Machine.execMacReceiveFrame dt mac frame arrival s
  | .pauseTimerExpire dt mac prio => Sys2Proof.Machine.execPauseTimerExpire dt mac prio s
  | .pfcRefreshTimer dt mac => Sys2Proof.Machine.execPfcRefreshTimer dt mac s
  | .macEnClear dt mac => Sys2Proof.Machine.execMacEnClear dt mac s
  | .macFrameRequest dt mac => Sys2Proof.Machine.execMacFrameRequest dt mac s
  | .macTransmitFrame dt mac => Sys2Proof.Machine.execMacTransmitFrame dt mac s
  | .prtTxtsNext mac value => Sys2Proof.Machine.execPrtTxtsNext mac value s
  | .prtGateCommit dt mac value => Sys2Proof.Machine.execPrtGateCommit dt mac value s
  | .gateListActivation dt mac => Sys2Proof.Machine.execGateListActivation dt mac s
  | .pipelineIntake dt pipe => Sys2Proof.Machine.execPipelineIntake dt pipe s
  | .globalLookup dt pipe idx => Sys2Proof.Machine.execGlobalLookup dt pipe idx s
  | .lookupTimeout dt pipe idx => Sys2Proof.Machine.execLookupTimeout dt pipe idx s
  | .ingressExit dt pipe => Sys2Proof.Machine.execIngressExit dt pipe s
  | .egressExit dt pipe => Sys2Proof.Machine.execEgressExit dt pipe s
  | .fragmentHoldExpire dt pipe => Sys2Proof.Machine.execFragmentHoldExpire dt pipe s
  | .fragmentEntryAge dt pipe idx => Sys2Proof.Machine.execFragmentEntryAge dt pipe idx s
  | .pclBankCopy dt pipe value => Sys2Proof.Machine.execPclBankCopy dt pipe value s
  | .pclBankCopyDone dt pipe => Sys2Proof.Machine.execPclBankCopyDone dt pipe s
  | .pclSwapCommit dt pipe value => Sys2Proof.Machine.execPclSwapCommit dt pipe value s
  | .pclSwapGo dt value => Sys2Proof.Machine.execPclSwapGo dt value s
  | .swapActivation dt pipe => Sys2Proof.Machine.execSwapActivation dt pipe s
  | .swapSettleEnd dt pipe => Sys2Proof.Machine.execSwapSettleEnd dt pipe s
  | .pclStagingWrite addr data => Sys2Proof.Machine.execPclStagingWrite addr data s
  | .pclLoadVerify pipe value => Sys2Proof.Machine.execPclLoadVerify pipe value s
  | .fwtTableEnable table value => Sys2Proof.Machine.execFwtTableEnable table value s
  | .fwtZeroingDone table => Sys2Proof.Machine.execFwtZeroingDone table s
  | .learnRequest dt table => Sys2Proof.Machine.execLearnRequest dt table s
  | .sweeperVisit dt table => Sys2Proof.Machine.execSweeperVisit dt table s
  | .fwtRead value => Sys2Proof.Machine.execFwtRead value s
  | .fwtWrite value => Sys2Proof.Machine.execFwtWrite value s
  | .fwtInsert dt value => Sys2Proof.Machine.execFwtInsert dt value s
  | .fwtDelete value => Sys2Proof.Machine.execFwtDelete value s
  | .fwtSearch value => Sys2Proof.Machine.execFwtSearch value s
  | .rwcRegionEnable region value => Sys2Proof.Machine.execRwcRegionEnable region value s
  | .rwcZeroingDone region => Sys2Proof.Machine.execRwcZeroingDone region s
  | .rwcInlineItem dt => Sys2Proof.Machine.execRwcInlineItem dt s
  | .lookasideJob dt src tagIn dstOk => Sys2Proof.Machine.execLookasideJob dt src tagIn dstOk s
  | .saRead value => Sys2Proof.Machine.execSaRead value s
  | .saWrite value => Sys2Proof.Machine.execSaWrite value s
  | .saKeyset value => Sys2Proof.Machine.execSaKeyset value s
  | .saInvalidate value => Sys2Proof.Machine.execSaInvalidate value s
  | .tplRead value => Sys2Proof.Machine.execTplRead value s
  | .tplWrite value => Sys2Proof.Machine.execTplWrite value s
  | .saExpireTime dt sa => Sys2Proof.Machine.execSaExpireTime dt sa s
  | .rwcExpNext value => Sys2Proof.Machine.execRwcExpNext value s
  | .knownAnswerTest dt lane pass => Sys2Proof.Machine.execKnownAnswerTest dt lane pass s
  | .unfenceLanes dt lvl value pass => Sys2Proof.Machine.execUnfenceLanes dt lvl value pass s
  | .trnRegionEnable region value => Sys2Proof.Machine.execTrnRegionEnable region value s
  | .trnZeroingDone region => Sys2Proof.Machine.execTrnZeroingDone region s
  | .sessionCreate value => Sys2Proof.Machine.execSessionCreate value s
  | .sessionRead value => Sys2Proof.Machine.execSessionRead value s
  | .sessionModify value => Sys2Proof.Machine.execSessionModify value s
  | .sessionDestroy dt value => Sys2Proof.Machine.execSessionDestroy dt value s
  | .sessionQuarantineEnd dt session => Sys2Proof.Machine.execSessionQuarantineEnd dt session s
  | .tcpSegmentReceive dt => Sys2Proof.Machine.execTcpSegmentReceive dt s
  | .rocePacketReceive dt readData => Sys2Proof.Machine.execRocePacketReceive dt readData s
  | .nvmePduReceive dt entry => Sys2Proof.Machine.execNvmePduReceive dt entry s
  | .ackDelayExpire dt session => Sys2Proof.Machine.execAckDelayExpire dt session s
  | .sessionSend dt session => Sys2Proof.Machine.execSessionSend dt session s
  | .retransmissionTimeout dt session => Sys2Proof.Machine.execRetransmissionTimeout dt session s
  | .tmgEnqueue dt => Sys2Proof.Machine.execTmgEnqueue dt s
  | .shaperRefill dt => Sys2Proof.Machine.execShaperRefill dt s
  | .headExpire dt cls => Sys2Proof.Machine.execHeadExpire dt cls s
  | .tmgRead value => Sys2Proof.Machine.execTmgRead value s
  | .tmgWrite value => Sys2Proof.Machine.execTmgWrite value s
  | .tmgRateWrite addr value => Sys2Proof.Machine.execTmgRateWrite addr value s
  | .policerDecision dt => Sys2Proof.Machine.execPolicerDecision dt s
  | .pcieLinkRateChange width rate flit => Sys2Proof.Machine.execPcieLinkRateChange width rate flit s
  | .pcieLinkDown dt hot => Sys2Proof.Machine.execPcieLinkDown dt hot s
  | .perst dt => Sys2Proof.Machine.execPerst dt s
  | .d3hotEntry dt => Sys2Proof.Machine.execD3hotEntry dt s
  | .bmeClear dt => Sys2Proof.Machine.execBmeClear dt s
  | .bmeSet dt => Sys2Proof.Machine.execBmeSet dt s
  | .functionLevelReset dt => Sys2Proof.Machine.execFunctionLevelReset dt s
  | .flrDone dt => Sys2Proof.Machine.execFlrDone dt s
  | .tagQuarantineEnd dt => Sys2Proof.Machine.execTagQuarantineEnd dt s
  | .peerWindowTlp rid off acc answer => Sys2Proof.Machine.execPeerWindowTlp rid off acc answer s
  | .hepWinCommit value => Sys2Proof.Machine.execHepWinCommit value s
  | .pcieCompletionReceive dt tag data => Sys2Proof.Machine.execPcieCompletionReceive dt tag data s
  | .completionTimeout dt tag => Sys2Proof.Machine.execCompletionTimeout dt tag s
  | .msixVectorFire vec => Sys2Proof.Machine.execMsixVectorFire vec s
  | .msixPendingSend vec => Sys2Proof.Machine.execMsixPendingSend vec s
  | .instanceVectorFire vec gen => Sys2Proof.Machine.execInstanceVectorFire vec gen s
  | .ivRead value => Sys2Proof.Machine.execIvRead value s
  | .ivWrite value => Sys2Proof.Machine.execIvWrite value s
  | .atsTranslationResult dt pasid page result => Sys2Proof.Machine.execAtsTranslationResult dt pasid page result s
  | .atsInvalidateRequest scope page pages itag => Sys2Proof.Machine.execAtsInvalidateRequest scope page pages itag s
  | .spdmRequest dt request => Sys2Proof.Machine.execSpdmRequest dt request s
  | .reqGo inst value => Sys2Proof.Machine.execReqGo inst value s
  | .workFetch dt queue slots => Sys2Proof.Machine.execWorkFetch dt queue slots s
  | .entryBegin dt queue payload shadowOk => Sys2Proof.Machine.execEntryBegin dt queue payload shadowOk s
  | .completionWrite dt queue => Sys2Proof.Machine.execCompletionWrite dt queue s
  | .receivePlacement dt => Sys2Proof.Machine.execReceivePlacement dt s
  | .backlogPlacement dt queue => Sys2Proof.Machine.execBacklogPlacement dt queue s
  | .cqStallExpire dt queue => Sys2Proof.Machine.execCqStallExpire dt queue s
  | .adminTailWrite value => Sys2Proof.Machine.execAdminTailWrite value s
  | .adminNop dt entry => Sys2Proof.Machine.execAdminNop dt entry s
  | .instCreate dt entry => Sys2Proof.Machine.execInstCreate dt entry s
  | .instModify dt entry => Sys2Proof.Machine.execInstModify dt entry s
  | .instReset dt entry => Sys2Proof.Machine.execInstReset dt entry s
  | .instDestroy dt entry => Sys2Proof.Machine.execInstDestroy dt entry s
  | .instanceResetDone dt inst => Sys2Proof.Machine.execInstanceResetDone dt inst s
  | .instQuery dt entry => Sys2Proof.Machine.execInstQuery dt entry s
  | .qCreate dt entry => Sys2Proof.Machine.execQCreate dt entry s
  | .qEnable dt entry => Sys2Proof.Machine.execQEnable dt entry s
  | .qDisable dt entry => Sys2Proof.Machine.execQDisable dt entry s
  | .qDestroy dt entry => Sys2Proof.Machine.execQDestroy dt entry s
  | .qQuery dt entry => Sys2Proof.Machine.execQQuery dt entry s
  | .sessCreate dt entry buf => Sys2Proof.Machine.execSessCreate dt entry buf s
  | .sessRead dt entry => Sys2Proof.Machine.execSessRead dt entry s
  | .sessModify dt entry buf => Sys2Proof.Machine.execSessModify dt entry buf s
  | .sessDestroy dt entry => Sys2Proof.Machine.execSessDestroy dt entry s
  | .medRespond dt entry => Sys2Proof.Machine.execMedRespond dt entry s
  | .qimIevtNext value => Sys2Proof.Machine.execQimIevtNext value s
  | .dmaStart dt ch value prog => Sys2Proof.Machine.execDmaStart dt ch value prog s
  | .dmaAbort ch value => Sys2Proof.Machine.execDmaAbort ch value s
  | .dmaResume ch value prog => Sys2Proof.Machine.execDmaResume ch value prog s
  | .dmaMove dt ch => Sys2Proof.Machine.execDmaMove dt ch s
  | .dmaLoop dt ch => Sys2Proof.Machine.execDmaLoop dt ch s
  | .dmaWait dt ch => Sys2Proof.Machine.execDmaWait dt ch s
  | .dmaWaitSatisfied ch => Sys2Proof.Machine.execDmaWaitSatisfied ch s
  | .dmaWaitTimeout dt ch => Sys2Proof.Machine.execDmaWaitTimeout dt ch s
  | .dmaSignal dt ch => Sys2Proof.Machine.execDmaSignal dt ch s
  | .dmaEnd dt ch => Sys2Proof.Machine.execDmaEnd dt ch s
  | .dmaFlushReadReturn dt ch ok => Sys2Proof.Machine.execDmaFlushReadReturn dt ch ok s
  | .hbmFail dt => Sys2Proof.Machine.execHbmFail dt s
  | .patrolScrubRead dt addr found => Sys2Proof.Machine.execPatrolScrubRead dt addr found s
  | .sramScrubRead dt place found => Sys2Proof.Machine.execSramScrubRead dt place found s
  | .bpmPoolEnable pool value => Sys2Proof.Machine.execBpmPoolEnable pool value s
  | .bufferAllocate requester inst hbm want => Sys2Proof.Machine.execBufferAllocate requester inst hbm want s
  | .bufferWaitServed requester => Sys2Proof.Machine.execBufferWaitServed requester s
  | .bufferFree dt requester handle => Sys2Proof.Machine.execBufferFree dt requester handle s
  | .freeCacheRefill pool => Sys2Proof.Machine.execFreeCacheRefill pool s
  | .freeCacheSpill pool => Sys2Proof.Machine.execFreeCacheSpill pool s
  | .bpmDfNext value => Sys2Proof.Machine.execBpmDfNext value s
  | .bookAudit dt => Sys2Proof.Machine.execBookAudit dt s
  | .memAuditAck value => Sys2Proof.Machine.execMemAuditAck value s
  | .thaFork dt th rd rs1 rs2 detached => Sys2Proof.Machine.execThaFork dt th rd rs1 rs2 detached s
  | .thaJoin dt th rd rs1 => Sys2Proof.Machine.execThaJoin dt th rd rs1 s
  | .thaTwait dt th rd rs1 rs2 => Sys2Proof.Machine.execThaTwait dt th rd rs1 rs2 s
  | .thaTwaitDeadline dt th => Sys2Proof.Machine.execThaTwaitDeadline dt th s
  | .thaTsend dt th rd rs1 rs2 => Sys2Proof.Machine.execThaTsend dt th rd rs1 rs2 s
  | .thaYield dt th => Sys2Proof.Machine.execThaYield dt th s
  | .thaYieldE dt th rs1 => Sys2Proof.Machine.execThaYieldE dt th rs1 s
  | .thaChres dt th rd rs1 rs2 nowait => Sys2Proof.Machine.execThaChres dt th rd rs1 rs2 nowait s
  | .thaChput dt th rd rs1 rs2 n => Sys2Proof.Machine.execThaChput dt th rd rs1 rs2 n s
  | .thaChcommit dt th rd rs1 => Sys2Proof.Machine.execThaChcommit dt th rd rs1 s
  | .thaChget dt th rd rs1 rs2 nowait => Sys2Proof.Machine.execThaChget dt th rd rs1 rs2 nowait s
  | .thaLkup dt th rd rs1 rs2 target table answered => Sys2Proof.Machine.execThaLkup dt th rd rs1 rs2 target table answered s
  | .thaDmago dt th rd rs1 rs2 => Sys2Proof.Machine.execThaDmago dt th rd rs1 rs2 s
  | .thaStamp dt th rd rs1 => Sys2Proof.Machine.execThaStamp dt th rd rs1 s
  | .frameOutSend dt cluster index => Sys2Proof.Machine.execFrameOutSend dt cluster index s
  | .channelHeld dt cluster index => Sys2Proof.Machine.execChannelHeld dt cluster index s
  | .waitDeadlock dt cluster => Sys2Proof.Machine.execWaitDeadlock dt cluster s
  | .supKill cluster value => Sys2Proof.Machine.execSupKill cluster value s
  | .supResume cluster value => Sys2Proof.Machine.execSupResume cluster value s
  | .supEvtNext cluster value => Sys2Proof.Machine.execSupEvtNext cluster value s
  | .supKick dt cluster => Sys2Proof.Machine.execSupKick dt cluster s
  | .watchdogExpire dt cluster => Sys2Proof.Machine.execWatchdogExpire dt cluster s
  | .clusterReset dt cluster => Sys2Proof.Machine.execClusterReset dt cluster s
  | .serviceStart dt lvl slot => Sys2Proof.Machine.execServiceStart dt lvl slot s
  | .serviceStop dt lvl slot => Sys2Proof.Machine.execServiceStop dt lvl slot s
  | .serviceRestart dt lvl slot => Sys2Proof.Machine.execServiceRestart dt lvl slot s
  | .dbgStop value => Sys2Proof.Machine.execDbgStop value s
  | .dbgRun value => Sys2Proof.Machine.execDbgRun value s
  | .dbgStep dt value => Sys2Proof.Machine.execDbgStep dt value s
  | .dbgReadReg value => Sys2Proof.Machine.execDbgReadReg value s
  | .dbgWriteReg value => Sys2Proof.Machine.execDbgWriteReg value s
  | .dbgReadMem value => Sys2Proof.Machine.execDbgReadMem value s
  | .dbgWriteMem value => Sys2Proof.Machine.execDbgWriteMem value s
  | .dbgSetBreak value => Sys2Proof.Machine.execDbgSetBreak value s
  | .dbgClearBreak value => Sys2Proof.Machine.execDbgClearBreak value s
  | .dbgDiscard value => Sys2Proof.Machine.execDbgDiscard value s
  | .breakpointHit th => Sys2Proof.Machine.execBreakpointHit th s
  | .gloveMessageReceive dt side msg crc => Sys2Proof.Machine.execGloveMessageReceive dt side msg crc s
  | .gloveRetransmit dt side => Sys2Proof.Machine.execGloveRetransmit dt side s
  | .glovePeerDown dt side => Sys2Proof.Machine.execGlovePeerDown dt side s
  | .gloveLinkUp dt => Sys2Proof.Machine.execGloveLinkUp dt s
  | .objReq side => Sys2Proof.Machine.execObjReq side s
  | .objRsp side => Sys2Proof.Machine.execObjRsp side s
  | .mbx side => Sys2Proof.Machine.execMbx side s
  | .mbxAck side => Sys2Proof.Machine.execMbxAck side s
  | .sealReq run => Sys2Proof.Machine.execSealReq run s
  | .sealRsp dt => Sys2Proof.Machine.execSealRsp dt s
  | .eventNotice dt => Sys2Proof.Machine.execEventNotice dt s
  | .powerMsg dt => Sys2Proof.Machine.execPowerMsg dt s
  | .powerRsp dt => Sys2Proof.Machine.execPowerRsp dt s
  | .imageMsg dt => Sys2Proof.Machine.execImageMsg dt s
  | .imageRsp dt => Sys2Proof.Machine.execImageRsp dt s
  | .tqr dt => Sys2Proof.Machine.execTqr dt s
  | .objRead dt hdr payload => Sys2Proof.Machine.execObjRead dt hdr payload s
  | .objWrite dt hdr payload flashOk => Sys2Proof.Machine.execObjWrite dt hdr payload flashOk s
  | .loginReq dt hdr payload => Sys2Proof.Machine.execLoginReq dt hdr payload s
  | .loginProof dt hdr payload => Sys2Proof.Machine.execLoginProof dt hdr payload s
  | .loginTimeout dt sid => Sys2Proof.Machine.execLoginTimeout dt sid s
  | .loginLockoutEnd dt lvl => Sys2Proof.Machine.execLoginLockoutEnd dt lvl s
  | .logout dt hdr => Sys2Proof.Machine.execLogout dt hdr s
  | .sessionIdleExpire dt sid => Sys2Proof.Machine.execSessionIdleExpire dt sid s
  | .hatReset dt => Sys2Proof.Machine.execHatReset dt s
  | .hatHeld dt => Sys2Proof.Machine.execHatHeld dt s
  | .hatAssign dt hdr payload ackSent => Sys2Proof.Machine.execHatAssign dt hdr payload ackSent s
  | .eventAck hdr payload => Sys2Proof.Machine.execEventAck hdr payload s
  | .eventResend dt => Sys2Proof.Machine.execEventResend dt s
  | .imgOpen dt hdr payload => Sys2Proof.Machine.execImgOpen dt hdr payload s
  | .imgData dt hdr payload => Sys2Proof.Machine.execImgData dt hdr payload s
  | .imgClose dt hdr flashOk => Sys2Proof.Machine.execImgClose dt hdr flashOk s
  | .mbxSend dt req ch value => Sys2Proof.Machine.execMbxSend dt req ch value s
  | .mbxReturnCode lvl ch code => Sys2Proof.Machine.execMbxReturnCode lvl ch code s
  | .f2hBodyWrite lvl node ch body => Sys2Proof.Machine.execF2hBodyWrite lvl node ch body s
  | .f2hAck req ch code => Sys2Proof.Machine.execF2hAck req ch code s
  | .fieldSideRestart dt cause => Sys2Proof.Machine.execFieldSideRestart dt cause s
  | .fieldColdStart dt vf33Lost => Sys2Proof.Machine.execFieldColdStart dt vf33Lost s
  | .fieldBoot dt => Sys2Proof.Machine.execFieldBoot dt s
  | .antiRollbackConfirm dt what => Sys2Proof.Machine.execAntiRollbackConfirm dt what s
  | .mainFirmwareTimeout dt => Sys2Proof.Machine.execMainFirmwareTimeout dt s
  | .mainDieWatchdogExpire dt => Sys2Proof.Machine.execMainDieWatchdogExpire dt s
  | .mainDieBringUpCommand dt lvl => Sys2Proof.Machine.execMainDieBringUpCommand dt lvl s
  | .mainDieResetCommand dt lvl => Sys2Proof.Machine.execMainDieResetCommand dt lvl s
  | .mainDiePowerDown dt lvl => Sys2Proof.Machine.execMainDiePowerDown dt lvl s
  | .runEndSealTimeout dt => Sys2Proof.Machine.execRunEndSealTimeout dt s
  | .bringUp dt step ok => Sys2Proof.Machine.execBringUp dt step ok s
  | .powerDomainRequest dt lvl value => Sys2Proof.Machine.execPowerDomainRequest dt lvl value s
  | .enrol dt lvl => Sys2Proof.Machine.execEnrol dt lvl s
  | .enrolmentDone dt => Sys2Proof.Machine.execEnrolmentDone dt s
  | .releaseOwner lvl => Sys2Proof.Machine.execReleaseOwner lvl s
  | .decommission lvl => Sys2Proof.Machine.execDecommission lvl s
  | .provision lvl => Sys2Proof.Machine.execProvision lvl s
  | .passwordChange hdr value => Sys2Proof.Machine.execPasswordChange hdr value s
  | .ownerChainWrite lvl chain => Sys2Proof.Machine.execOwnerChainWrite lvl chain s
  | .lockWrite lvl node value => Sys2Proof.Machine.execLockWrite lvl node value s
  | .quoteNonceWrite nonce => Sys2Proof.Machine.execQuoteNonceWrite nonce s
  | .spdmSignRequest fromHost value => Sys2Proof.Machine.execSpdmSignRequest fromHost value s
  | .powerOnReset dt => Sys2Proof.Machine.execPowerOnReset dt s
  | .supplyOutOfTolerance dt rail => Sys2Proof.Machine.execSupplyOutOfTolerance dt rail s
  | .thermalTrip dt sensor tenths => Sys2Proof.Machine.execThermalTrip dt sensor tenths s
  | .telemetrySample dt mainT hbmT fieldT current => Sys2Proof.Machine.execTelemetrySample dt mainT hbmT fieldT current s
  | .avsSetpointStep dt reading => Sys2Proof.Machine.execAvsSetpointStep dt reading s
  | .ptpReferenceLost dt core => Sys2Proof.Machine.execPtpReferenceLost dt core s
  | .corePllUnlock dt core => Sys2Proof.Machine.execCorePllUnlock dt core s
  | .pcieLinkUp width rate flit sris => Sys2Proof.Machine.execPcieLinkUp width rate flit sris s
  | .configurationWrite dt change => Sys2Proof.Machine.execConfigurationWrite dt change s
  | .threadBaseInstruction dt th => Sys2Proof.Machine.execThreadBaseInstruction dt th s
  | .hatInLow dt => Sys2Proof.Machine.execHatInLow dt s
  | .foreignEthertypeFrame ethertype version src => Sys2Proof.Machine.execForeignEthertypeFrame ethertype version src s
  | .flashWearLevelling sector busy => Sys2Proof.Machine.execFlashWearLevelling sector busy s
  | .jtagTapOperation trstN tms tdi => Sys2Proof.Machine.execJtagTapOperation trstN tms tdi s

end Sys2Proof.Machine
end

