-- ==== Sys2Proof/Safety.lean ====
section
/-! DEFINITION. What a completed command is, in the terms the statements use. -/

namespace Sys2Proof.Machine

/-- The state that a command leaves when its effect is t: INTA follows its condition (R272), and the queue of commands
is as it was. -/
def State.ended (s t : State) : State := { t.intxUpdate with pending := s.pending }

/-- A command completes: it answers a next state with the queue of commands as it was and with the rest as p says. -/
def Completes (c : Instr) (s : State) (p : State → Prop) : Prop :=
  ∃ t, exec c s = .next t ∧ t.pending = s.pending ∧ p t

/-- R28, R34: a register's block takes a command write: the offset is mapped and its domain is powered. -/
def State.cmdTaken (s : State) (a : Nat) : Bool :=
  match findReg a with
  | some (r, i, _) => s.rowPowered r i
  | none => false

/-- R386, R406: the field side serves objects: it runs, and not in the recovery loader. -/
def State.objTaken (s : State) : Bool := s.field.up && !s.field.recovery

/-- R383: an object write of a command's own ended with a code. -/
def State.objSays (t : State) (idx sub code : Nat) : Prop := Out.object idx sub code ∈ t.out

/-- R307: the admin queue's read of the entry at its head answers e, which is then 64 bytes of KIND 4; v is the state in
which its command runs. -/
def State.takesAdmin (s : State) (e : List Byte) (v : State) : Prop :=
  let h := s.qim.aqHead
  e.length = 64 ∧ s.aqReady = true ∧ (e.getD 0 0).toNat / 128 = phaseOf h (s.regBits qimAqCfg 4 0) ∧
  (e.getD 0 0).toNat % 16 = 4 ∧ ∃ w, s.unitRead none (s.aqBase + 16 * (h.toNat % 2 ^ s.regBits qimAqCfg 4 0)) 64 (.ok e) = (some (some e), w) ∧
    v = { w with qim := { w.qim with aqHead := h + 4, aqBusy := true } }.stat statEntries

/-- R272: INTA stands exactly while its condition does. -/
def State.intaHolds (s : State) : Prop := s.hep.inta = (!s.hep.msix && !s.hep.intxDis && s.intxCause)

/-- R28: no register, complement or SATSUM word lies at an aligned offset. -/
def unmapped (a : Nat) : Prop := satWord a = none ∧ findReg a = none ∧ complementOf a = none

/-- Nothing but the field side, what leaves the device, and INTA has changed. -/
def State.onlyField (s t : State) : Prop :=
  t = { s with clock := t.clock, fresh := t.fresh, out := t.out, field := t.field, hep := { s.hep with inta := t.hep.inta } }

/-- What a frame compares: the state without what any command may change beside its own unit: time, free values, the
output, BAR0 registers and SAT bits (counters and events), the endpoint (interrupts), the glove's host end (notices). -/
def State.rest (s : State) : State :=
  { s with pending := [], clock := 0, fresh := 0, out := [], regs := [], sat := [], hep := {}, gloveH := {} }

end Sys2Proof.Machine
end

