-- ==== Sys2Proof/WellFormed.lean ====
section
/-! DEFINITION. Which commands can exist at all: the operands that their interface can carry. -/

namespace Sys2Proof

/-- R308: an admin entry is 64 bytes. -/
def entryWf (e : List Byte) : Bool := decide (e.length = 64)

/-- R27: BAR0 is 64 MiB. -/
def bar0Wf (a : Nat) : Bool := decide (a < 0x4000000)

/-- A command that its interface can carry. -/
def Instr.wf : Instr → Bool
  | .registerWrite _ _ a d => bar0Wf a && !d.isEmpty
  | .islandCrossingTimeout _ _ a acc => bar0Wf a && decide (0 < acc.width)
  | .rcRegisterRead _ a w => bar0Wf a && decide (0 < w)
  | .eventCounterRead _ a w => bar0Wf a && decide (0 < w)
  | .counterLowHalfRead _ a => bar0Wf a
  | .counterHighHalfRead _ a => bar0Wf a
  | .guardedWrite _ _ a d => bar0Wf a && !d.isEmpty
  | .guardedComplementWrite _ _ a d => bar0Wf a && !d.isEmpty
  | .pclStagingWrite a d => bar0Wf a && !d.isEmpty
  | .tmgRateWrite a _ => bar0Wf a
  | .adminNop _ e => entryWf e
  | .instCreate _ e => entryWf e
  | .instModify _ e => entryWf e
  | .instReset _ e => entryWf e
  | .instDestroy _ e => entryWf e
  | .instQuery _ e => entryWf e
  | .qCreate _ e => entryWf e
  | .qEnable _ e => entryWf e
  | .qDisable _ e => entryWf e
  | .qDestroy _ e => entryWf e
  | .qQuery _ e => entryWf e
  | .sessCreate _ e _ => entryWf e
  | .sessRead _ e => entryWf e
  | .sessModify _ e _ => entryWf e
  | .sessDestroy _ e => entryWf e
  | .medRespond _ e => entryWf e
  | .macReceiveFrame _ _ f _ => !f.isEmpty
  | .instancePageAccess _ o _ => decide (o < 4096)
  | _ => true

end Sys2Proof
end

