-- ==== Sys2Proof/Certificates/Slice0/Obligations.lean ====
section
/-! DEFINITION. The statements for the provers. -/

open Sys2Proof Sys2Proof.Machine

/-! Chapter 3: device time. -/

/-- R47, R48, R64: PPS edges and their measurements, the presence of references, HOLDOVER, the return to the primary and
the holdover limit. -/
def Obligations.ReferenceCommandsComplete : Prop :=
  (∀ (s : State) (dt : Nat) (c : CoreId) (p : BitVec 64), let u := s.advance dt
    let now := u.coreTime c
    let sec : Nat := match (u.core c).label with | some l => l.toNat | none => (now + 2000000000) / 4000000000
    (u.core c).st ≠ .off → (u.core c).ppsLast = some p → ppsSpacing (now - p.toNat) = true →
    u.measValid c (BitVec.ofNat 64 now) = true → (u.refs c).1 = 1 → (u.core c).ref = 1 → (u.core c).st ≠ .slaved →
    Completes (.ppsEdge dt c) s (fun t => (t.core c).ppsOk = true ∧ (t.core c).ppsLastAt = u.clock ∧
      (t.core c).label = none ∧ (t.core c).everValid = true ∧ (t.core c).validAt = u.clock ∧
      (t.core c).theta = ((u.coreCount c : Int) - 256 * ((sec : Int) * 4000000000 - u.mainInt c.obj 5)) / 16 ∧
      (t.core c).unc = u.mainNat c.obj 4 + 32)) ∧
  (∀ (s : State) (dt : Nat) (c : CoreId), let u := s.advance dt
    (u.core c).st ≠ .off →
    (match (u.core c).ppsLast with | some p => ppsSpacing (u.coreTime c - p.toNat) | none => false) = false →
    exec (.ppsEdge dt c) s = .next (s.ended ((u.modCore c (fun t =>
      { t with ppsLast := some (BitVec.ofNat 64 (u.coreTime c)), ppsLastAt := u.clock, ppsOk := false, label := none })).reselect c))) ∧
  (∀ (s : State) (dt : Nat) (c : CoreId), let u := s.advance dt
    (u.core c).ppsOk = true → u.due (u.core c).ppsLastAt (secs 1 + usec 1) = true →
    exec (.ppsReferenceLost dt c) s = .next (s.ended ((u.modCore c (fun t => { t with ppsOk := false })).reselect c))) ∧
  (∀ (s : State) (dt : Nat) (c : CoreId), let u := s.advance dt
    (u.core c).ptpOk = true → u.due (u.core c).ptpLastAt (secs 2) = true →
    exec (.ptpReferenceLost dt c) s = .next (s.ended ((u.modCore c (fun t => { t with ptpOk := false })).reselect c))) ∧
  (∀ (s : State) (dt : Nat) (c : CoreId), let u := s.advance dt
    (u.core c).st = .locked → u.due (u.core c).validAt (secs 2) = true →
    Completes (.holdoverEntry dt c) s (fun t => (t.core c).st = .holdover ∧ (t.core c).holdSince = some u.clock ∧
      t.core c.other = s.core c.other ∧ t.mem = s.mem)) ∧
  (∀ (s : State) (dt : Nat) (c : CoreId) (x : Nat), let u := s.advance dt
    (u.core c).primSince = some x → (u.core c).present (u.refs c).1 = true → (u.core c).ref ≠ (u.refs c).1 →
    (u.core c).st ≠ .slaved → u.due x (secs (u.mainNat c.obj 8)) = true →
    Completes (.revertToPrimary dt c) s (fun t => (t.core c).ref = (s.refs c).1 ∧ (t.core c).st = (s.core c).st)) ∧
  (∀ (s : State) (dt : Nat) (c : CoreId), let u := s.advance dt
    (u.core c).st = .holdover → u.ownTerm c = none →
    Completes (.holdoverLimitExpire dt c) s (fun t => (t.core c).st = .holdover ∧ t.tim.tqrDue = true))

/-- R47, R61, R74: measurements, labels and path corrections are taken. -/
def Obligations.TimeWritesComplete : Prop :=
  (∀ (s : State) (dt : Nat) (th : BitVec 10) (c : CoreId) (hi : Word), let u := s.advance dt
    let v := u.setReg (c.ptpReg + 12) hi
    u.thRuns th.toNat = true → u.regGranted th.toNat (c.ptpReg + 12) = true → u.cmdTaken (c.ptpReg + 12) = true →
    v.mainBool 0xA060 2 = true → th.toNat = v.mainNat 0xA060 1 → v.measValid c (v.getReg64 (c.ptpReg + 8)) = true →
    (v.core c).st ≠ .off →
    Completes (.ptpMeasurement dt (.thread th) c hi) s (fun t => (t.core c).ptpOk = true ∧
      (t.core c).ptpLastAt = u.clock)) ∧
  (∀ (s : State) (lvl : Fin 4) (c : CoreId) (label : BitVec 64),
    s.objTaken = true → 1 ≤ lvl.val → s.running = true → s.powered c.dom = true →
    exec (.taiSecondLabelWrite lvl c label) s = .next (s.ended ((s.modCore c (fun t => { t with label := some label })).emit
      (.object 0xA020 (match c with | .A => 1 | .B => 2) 0)))) ∧
  (∀ (s : State) (dt : Nat) (rid : BitVec 16) (pasid : Option (BitVec 20)) (v : Word),
    let u := (s.advance dt).rxPosted 4
    u.barOpen = true → u.mainBool 0xA051 1 = true → u.cmdTaken timPcorrCmd = true → u.tim.pcorrWait = none →
    v.getLsbD 0 = true → u.repTime 0 + usec 10 ≤ (u.getReg64 timPcorrTime).toNat →
    (u.getReg64 timPcorrTime).toNat ≤ u.repTime 0 + secs 60 →
    exec (.timPcorrCommit dt (.pcie rid pasid) v) s = .next (s.ended { u with tim := { u.tim with
      pcorrStat := 0
      pcorrWait := some { time := u.getReg64 timPcorrTime
                          next := (List.range 18).map (fun n => (u.getReg (timPcorrStg n)).extractLsb' 0 16) } } })) ∧
  (∀ (s : State) (dt : Nat) (lvl : Fin 4) (time : BitVec 64), let u := s.advance dt
    u.objTaken = true → 1 ≤ lvl.val → u.timThere = true → u.tim.pcorrWait = none →
    u.repTime 0 + usec 10 ≤ time.toNat → time.toNat ≤ u.repTime 0 + secs 60 →
    Completes (.pathCorrectionActivationWrite dt lvl time) s (fun t => t.objSays 0xA050 0x13 0 ∧
      t.tim.pcorrWait.map (fun w => w.time) = some time ∧ t.tim.pcorr = s.tim.pcorr)) ∧
  (∀ (s : State) (dt : Nat) (w : PcorrCommit), let u := s.advance dt
    u.tim.pcorrWait = some w →
    (∀ r, r < 38 → (u.rep r).run = false ∨ w.time.toNat ≤ u.repTime r) →
    exec (.pcorrActivation dt) s = .next (s.ended { u with tim := { u.tim with
      pcorr := (List.range 18).foldl (fun m n => Map.set m n (w.next.getD n 0) 0) [], pcorrPrev := u.tim.pcorr
      pcorrAt := w.time, pcorrWait := none } })) ∧
  (∀ (s : State) (dt : Nat), let u := s.advance dt
    u.tim.tqrDue = true ∨ u.tim.tqrAt = none →
    Completes (.timeQualityReport dt) s (fun t => t.tim.tqrDue = false ∧ t.tim.tqrAt = some u.clock)) ∧
  (∀ (s : State) (dt : Nat), let u := s.advance dt
    u.ppsDriven = true → u.mainBool 0xA040 1 = true → (∀ x, u.tim.ppsAt = some x → u.due x (msec 500) = true) →
    ((u.coreTime u.ppsCore : Int) + u.mainInt 0xA040 3 + 8) % 4000000000 ≤ 16 →
    Completes (.ppsOut dt) s (fun t => Out.ppsOut (usec (u.mainNat 0xA040 2)) ∈ t.out ∧ t.tim.ppsAt = some u.clock ∧
      t.tim.ppsWidth = usec (u.mainNat 0xA040 2))) ∧
  (∀ (s : State) (dt : Nat), let u := (s.advance dt).rxRequest
    u.barOpen = true → (u.powered 79 || u.powered 80) = true →
    Completes (.timNowRead dt .both) s (fun t => Out.readData (leBytes 8 u.timNow.time.toNat) ∈ t.out ∧
      t.nowLatch = s.nowLatch))

/-- R51 to R53: strokes and replicas. -/
def Obligations.StrokeCommandsComplete : Prop :=
  (∀ (s : State) (dt : Nat) (c : CoreId), let u := s.advance dt
    let at_ := (u.coreTime c - c.phase) / 4000 * 4000 + c.phase
    (u.core c).running = true → (u.core c).st ≠ .off → (u.core c).st ≠ .fault → c.phase ≤ u.coreTime c →
    (∀ x, (u.core c).strokeAt = some x → x < at_) →
    Completes (.stroke dt c) s (fun t => (t.core c).strokeAt = some at_ ∧
      ∃ k, (match c with | .A => t.tim.strokeA | .B => t.tim.strokeB) = some k ∧ k.time = 256 * at_ ∧
        k.st = (s.core c).st ∧ k.step = (s.core c).stepFlag ∧ k.due = BitVec.allOnes 40)) ∧
  (∀ (s : State) (dt : Nat) (r : Fin 40) (c : CoreId) (k : Stroke), let u := s.advance dt
    (match c with | .A => u.tim.strokeA | .B => u.tim.strokeB) = some k → k.due.getLsbD r.val = true →
    Completes (.strokeReceive dt r c) s (fun t =>
      ((t.rep r.val).scale c).map (fun y => (y.value, y.since)) = some (k.time - 16 * (s.rep r.val).lineDelay, u.clock) ∧
      (t.rep r.val).term c = k.term)) ∧
  (∀ (s : State) (dt : Nat) (r : Fin 40), let u := s.advance dt
    let x := u.rep r.val
    exec (.strokeMiss dt r) s = .next (s.ended (((u.setRep r.val { x with
      missed := min 7 (min 8 (x.missed + 1)), got := 0, unknown := x.unknown || decide (7 ≤ x.missed) }).count
        cntStrokeMiss).gatesFollow r.val))) ∧
  (∀ (s : State) (dt : Nat) (r : Fin 40) (n : Nat), let u := s.advance dt
    exec (.armatureCalibration dt r n) s =
      .next (s.ended (u.setRep r.val { (u.rep r.val) with lineDelay := n / 2 % 65536 })))

/-- R67 to R71, R419, R439: cores that fail, return, start and take over; one that starts without its TREF is in FAULT. -/
def Obligations.CoreCommandsComplete : Prop :=
  (∀ (s : State) (dt : Nat) (c : CoreId), (s.core c).st ≠ .off → (s.core c).st ≠ .fault →
    Completes (.trefLoss dt c) s (fun t => (t.core c).st = .fault ∧ (t.core c).trefOk = false) ∧
    Completes (.corePllUnlock dt c) s (fun t => (t.core c).st = .fault ∧ (t.core c).trefOk = false)) ∧
  (∀ (s : State) (dt : Nat) (c : CoreId), (s.core c).st = .fault →
    Completes (.trefRestore dt c) s (fun t =>
      (t.core c).st = (if (s.core c).everValid then .acquiring else .freerun) ∧ (t.core c).trefIn = true ∧
      (t.core c).trefOk = true ∧ (t.core c).good = 0 ∧ (t.core c).count = (s.core c).count ∧
      t.core c.other = s.core c.other ∧ t.mem = s.mem)) ∧
  (∀ (s : State) (dt : Nat) (c : CoreId) (seen : Bool), let u := s.advance dt
    u.powered c.dom = true → (u.core c).st = .off → (u.core c).trefIn = true →
    Completes (.timeCorePowerUp dt c seen) s (fun t => (t.core c).st = .freerun ∧ (t.core c).running = true ∧
      (t.core c).trefOk = true ∧ (t.core c).countAt = u.clock ∧ (t.core c).drift = u.mainNat c.obj 3 ∧
      (t.core c).count = (if seen then u.coreCount c.other else 256 * u.repTime 38) ∧ t.core c.other = s.core c.other)) ∧
  (∀ (s : State) (dt : Nat) (c : CoreId) (seen : Bool), let u := s.advance dt
    u.powered c.dom = true → (u.core c).st = .off → (u.core c).trefIn = false →
    Completes (.timeCorePowerUp dt c seen) s (fun t => (t.core c).st = .fault ∧ (t.core c).trefOk = false)) ∧
  (∀ (s : State) (dt x k l : Nat), let u := s.advance dt
    u.mainBool 0xA030 2 = true → u.indep u.tim.active.other = true → u.term u.tim.active = some k →
    u.term u.tim.active.other = some l → 64 * u.mainNat 0xA030 3 < k → l ≤ 64 * u.mainNat 0xA030 3 →
    u.tim.overSince = some x → u.due x (msec 1) = true → u.tim.tko = none →
    Completes (.boundTakeoverTimer dt) s (fun t =>
      t.tim.tko.map (fun w => (w.outgoing, w.tk)) =
        some (s.tim.active, BitVec.ofNat 64 (u.coreTime u.tim.active.other)) ∧ t.tim.active = s.tim.active)) ∧
  (∀ (s : State) (dt : Nat) (lvl : Fin 4) (c : CoreId), let u := s.advance dt
    u.objTaken = true → 1 ≤ lvl.val → u.timThere = true → c ≠ u.tim.active →
    ((u.core c).st = .locked ∨ (u.core c).st = .slaved) → u.term c ≠ none → u.tim.tko = none →
    Completes (.makeActive dt lvl (match c with | .A => 1 | .B => 2)) s (fun t => t.objSays 0xA030 4 0 ∧
      t.tim.tko.map (fun w => w.outgoing) = some s.tim.active)) ∧
  (∀ (s : State) (dt : Nat) (r : Fin 40) (w : Takeover), s.tim.tko = some w → w.left.getLsbD r.val = true →
    Completes (.takeoverNotice dt r) s (fun t => (t.rep r.val).dual = true ∧ t.tim.tko = s.tim.tko)) ∧
  (∀ (s : State) (dt : Nat) (w : Takeover), s.tim.tko = some w → w.left = 0 →
    Completes (.takeoverEnd dt) s (fun t => t.tim.tko = none ∧ t.tim.active = w.outgoing.other ∧
      t.tim.tkoStart = w.tk ∧ t.tim.tkoStep = w.step ∧ t.tim.tkoCount = s.tim.tkoCount + 1))

/-! Chapter 2: registers. -/

/-- R29, R32, R33: an access of the PCIe manager to BAR0 in a form that BAR0 takes is carried out, one whose byte enables
are not contiguous is an Unsupported Request; a thread's access is carried out; one that its island does not answer in
time counts TMO and reads all ones; a write whose TLP is poisoned or fails its ECRC check is logged and dropped. -/
def Obligations.RegisterAccessComplete : Prop :=
  (∀ (s : State) (dt : Nat) (rid : BitVec 16) (pasid : Option (BitVec 20)) (a : Nat) (d : List Byte),
    let u := (s.advance dt).rxPosted d.length
    u.barOpen = true → barForm a d.length = true →
    exec (.registerWrite dt ⟨.pcie rid pasid, true, .good⟩ a d) s =
      .next (s.ended (u.regWrite State.opDbgCmd (.pcie rid pasid) a d))) ∧
  (∀ (s t : State) (dt : Nat) (th : BitVec 10) (a : Nat) (d : List Byte), let u := s.advance dt
    u.thRuns th.toNat = true → State.thStore State.opDbgCmd u th.toNat (0x200000000 + a) d = .inr t →
    exec (.registerWrite dt ⟨.thread th, true, .good⟩ a d) s = .next (s.ended t)) ∧
  (∀ (s : State) (dt : Nat) (rid : BitVec 16) (pasid : Option (BitVec 20)) (g : Bool) (a : Nat) (d : List Byte),
    let u := (s.advance dt).rxPosted d.length
    (u.barOpen = true →
      exec (.registerWrite dt ⟨.pcie rid pasid, g, .poisoned⟩ a d) s = .next (s.ended (u.aerLog .poisoned))) ∧
    ((s.advance dt).ecrcOn = true →
      exec (.registerWrite dt ⟨.pcie rid pasid, g, .badEcrc⟩ a d) s = .next (s.ended (u.aerLog .ecrc)))) ∧
  (∀ (s : State) (dt : Nat) (rid : BitVec 16) (pasid : Option (BitVec 20)) (a n : Nat) (d : List Byte),
    exec (.registerWrite dt ⟨.pcie rid pasid, false, .good⟩ a d) s =
      .next (s.ended (((s.advance dt).rxPosted 8).aerLog .refusedWrite)) ∧
    exec (.rcRegisterRead ⟨.pcie rid pasid, false, .good⟩ a n) s = .next (s.ended (s.rxRequest.barRefuse 0 a))) ∧
  (∀ (s t : State) (v : List Byte) (th : BitVec 10) (a n : Nat),
    s.thRuns th.toNat = true → s.thLoad th.toNat (0x200000000 + a) n = (.inr v, t) →
    exec (.rcRegisterRead ⟨.thread th, true, .good⟩ a n) s = .next (s.ended t)) ∧
  (∀ (s : State) (rid : BitVec 16) (pasid : Option (BitVec 20)) (a n : Nat),
    let u := s.rxRequest
    let r := u.regRead a n
    u.barOpen = true → barForm a n = true →
    exec (.rcRegisterRead ⟨.pcie rid pasid, true, .good⟩ a n) s = .next (s.ended (r.2.reply (.readData r.1))) ∧
    exec (.eventCounterRead (.pcie rid pasid) a n) s = .next (s.ended (r.2.reply (.readData r.1)))) ∧
  (∀ (s : State) (rid : BitVec 16) (pasid : Option (BitVec 20)) (a : Nat),
    let u := s.rxRequest
    let r := u.regRead a 4
    u.barOpen = true → barForm a 4 = true →
    exec (.counterLowHalfRead (.pcie rid pasid) a) s = .next (s.ended (r.2.reply (.readData r.1))) ∧
    exec (.counterHighHalfRead (.pcie rid pasid) a) s = .next (s.ended (r.2.reply (.readData r.1)))) ∧
  (∀ (s : State) (dt : Nat) (rid : BitVec 16) (pasid : Option (BitVec 20)) (a n : Nat),
    let v := (s.advance dt).rxPosted n
    let u := (s.advance dt).rxRequest
    u.barOpen = true → barForm a n = true →
    exec (.islandCrossingTimeout dt (.pcie rid pasid) a ⟨n, true⟩) s = .next (s.ended (v.accErr errTmo a)) ∧
    exec (.islandCrossingTimeout dt (.pcie rid pasid) a ⟨n, false⟩) s =
      .next (s.ended ((u.accErr errTmo a).reply (.readData (List.replicate n 0xFF))))) ∧
  (∀ (s : State) (dt : Nat) (th : BitVec 10) (a : Nat) (f : Fetched), let u := s.advance dt
    let t := th.toNat
    let n := (f.word.getD 0).toNat
    let x := u.thread t
    u.thRuns t = true → u.atBreak t = false → u.fetchInstr t = .inr f → bits n 6 0 = 0x03 → bits n 14 12 = 2 →
    (x.reg (bits n 19 15) + sx 12 (bits n 31 20)).toNat = 0x200000000 + a → u.regGranted t a = true → barForm a 4 = true →
    exec (.islandCrossingTimeout dt (.thread th) a ⟨4, false⟩) s = .next (s.ended ((u.accErr errTmo a).rvRetire t
      (bits n 11 7) (rvLoaded 2 (List.replicate 4 0xFF)) (x.pc + BitVec.ofNat 64 f.len))))

/-- R40, R41: a value written to a group of complement style is armed, and taken with its complement within 10 µs or in
one 8-byte write; a group of lock style takes the value at once until it is locked; an armed value that waits is dropped
as a guard error; a write of GLB_GUARDLOCK locks groups of lock style. -/
def Obligations.GuardCommandsComplete : Prop :=
  (∀ (s : State) (dt : Nat) (rid : BitVec 16) (pasid : Option (BitVec 20)) (a : Nat) (d : List Byte) (r : RegRow) (i j : Nat),
    let v := (s.advance dt).rxPosted 4
    let u := if a / 0x100000 = 7 then v.fwtSettle else v
    v.barOpen = true → barForm a 4 = true → d.length = 4 → u.guardBusy a = false → satWord a = none → findReg a = some (r, i, j, 0) →
    r.acc = .rwg → u.rowPowered r i = true → u.writeLocked (.pcie rid pasid) r a = false → u.lockStyle r.grp = false →
    (Map.get u.arms r.grp) = none →
    exec (.guardedWrite dt (.pcie rid pasid) a d) s = .next (s.ended { u with
      arms := Map.put u.arms r.grp { req := .pcie rid pasid, addr := a, value := mergeWord 0 0 d, at_ := u.clock } })) ∧
  (∀ (s t : State) (dt : Nat) (rid : BitVec 16) (pasid : Option (BitVec 20)) (a : Nat) (d : List Byte) (r : RegRow) (i j : Nat),
    let v := (s.advance dt).rxPosted 4
    let u := if a / 0x100000 = 7 then v.fwtSettle else v
    v.barOpen = true → barForm a 4 = true → d.length = 4 → u.guardBusy a = false → satWord a = none → findReg a = some (r, i, j, 0) →
    r.acc = .rwg → u.rowPowered r i = true → u.writeLocked (.pcie rid pasid) r a = false → u.lockStyle r.grp = true →
    (Map.get u.arms r.grp) = none → u.applyGuarded r i a (mergeWord 0 0 d) = some t →
    exec (.guardedWrite dt (.pcie rid pasid) a d) s = .next (s.ended t)) ∧
  (∀ (s : State) (dt : Nat) (rid : BitVec 16) (pasid : Option (BitVec 20)) (a : Nat) (v : Word) (r : RegRow) (i : Nat),
    let w := (s.advance dt).rxPosted 8
    let u := if a / 0x100000 = 7 then w.fwtSettle else w
    w.barOpen = true → barForm a 8 = true → u.guardBusy a = false → wholePair a = some (r, i) →
    r.acc = .rwg → u.rowPowered r i = true → u.writeLocked (.pcie rid pasid) r a = false → u.lockStyle r.grp = false →
    (Map.get u.arms r.grp) = none →
    exec (.guardedWrite dt (.pcie rid pasid) a (leBytes 4 v.toNat ++ leBytes 4 (~~~v).toNat)) s =
      .next (s.ended (u.takeGuarded r i a v))) ∧
  (∀ (s : State) (dt : Nat) (rid : BitVec 16) (pasid : Option (BitVec 20)) (a : Nat) (d : List Byte) (r r' : RegRow)
    (i j : Nat) (m : Arm),
    let v := (s.advance dt).rxPosted 4
    let u := if (a + 4) / 0x100000 = 7 then v.fwtSettle else v
    v.barOpen = true → barForm (a + 4) 4 = true → d.length = 4 → u.guardBusy a = false → satWord (a + 4) = none → findReg (a + 4) = none →
    complementOf (a + 4) = some r → findReg a = some (r', i, j, 0) → u.rowPowered r i = true →
    u.writeLocked (.pcie rid pasid) r a = false → u.lockStyle r.grp = false →
    Map.get u.arms r.grp = some m → m.req = .pcie rid pasid → m.addr = a → mergeWord 0 0 d = ~~~m.value →
    u.clock ≤ m.at_ + usec 10 →
    exec (.guardedComplementWrite dt (.pcie rid pasid) (a + 4) d) s =
      .next (s.ended ({ u with arms := Map.del u.arms r.grp }.takeGuarded r i a m.value))) ∧
  (∀ (s : State) (dt : Nat) (g : Fin 16) (m : Arm), let u := s.advance dt
    Map.get u.arms g.val = some m → m.at_ + usec 10 ≤ u.clock →
    exec (.guardArmExpire dt g) s =
      .next (s.ended ({ u with arms := Map.del u.arms g.val }.accErr errGuard m.addr))) ∧
  (∀ (s : State) (v : Word), s.cmdTaken (GLB + 0x44) = true →
    exec (.glbGuardlockWrite v) s =
      .next (s.ended { s with guardLock := s.guardLock ||| (v.setWidth 16 &&& (s.guardStyle ||| rwlGroups)) }))

/-- R31, R262, R274, R280, R293: pages of ACTIVE instances: reads, staged and whole doorbells and TMASK words. -/
def Obligations.PageCommandsComplete : Prop :=
  (∀ (s : State) (i : BitVec 16) (v : Word), let u := s.rxPosted 8
    u.barOpen = true → (u.inst i.toNat).st = .active → Map.get u.staging i.toNat = none →
    exec (.doorbellStage (.inst i) v) s = .next (s.ended { u with staging := Map.put u.staging i.toNat v })) ∧
  (∀ (s : State) (v : Word), let u := s.rxPosted 8
    u.barOpen = true → u.cmdTaken (QIM + 0x078) = true → Map.get u.staging 65536 = none →
    exec (.doorbellStage .pf0 v) s = .next (s.ended { u with staging := Map.put u.staging 65536 v })) ∧
  (∀ (s : State) (dt : Nat) (i : BitVec 16) (v : BitVec 64) (q : Nat), let u := (s.advance dt).rxPosted 8
    u.barOpen = true → (u.inst i.toNat).st = .active → u.globalOf (.inst i) (bits v.toNat 61 48) = some q →
    (u.queue q).st ≠ .none → (u.queue q).kind ≠ 7 → v.getLsbD 62 = false →
    0 ≤ (v.extractLsb' 0 32 - (u.queue q).tail).toInt → (v.extractLsb' 0 32 - (u.queue q).head).toNat ≤ (u.queue q).size →
    exec (.doorbell dt (.inst i) (.whole v)) s =
      .next (s.ended ((u.workBell q (v.extractLsb' 0 32)).stat statDoorbells))) ∧
  (∀ (s : State) (dt : Nat) (i : BitVec 16) (v : BitVec 64) (q : Nat), let u := (s.advance dt).rxPosted 8
    u.barOpen = true → (u.inst i.toNat).st = .active → u.globalOf (.inst i) (bits v.toNat 61 48) = some q →
    (u.queue q).st ≠ .none → (u.queue q).kind = 7 → v.getLsbD 62 = true →
    (v.extractLsb' 0 32 - (u.queue q).cons).toNat ≤ ((u.queue q).prod - (u.queue q).cons).toNat →
    exec (.doorbell dt (.inst i) (.whole v)) s =
      .next (s.ended ((u.consBell q (v.extractLsb' 0 32) (v.getLsbD 63)).stat statDoorbells))) ∧
  (∀ (s : State) (dt : Nat) (i : BitVec 16) (h l : Word), let u := (s.advance dt).rxPosted 8
    u.barOpen = true → (u.inst i.toNat).st = .active → Map.get u.staging i.toNat = some l →
    exec (.doorbell dt (.inst i) (.upper h)) s =
      .next (s.ended ({ u with staging := Map.del u.staging i.toNat }.ring (.inst i) (h ++ l)))) ∧
  (∀ (s : State) (i : BitVec 16) (o n : Nat), let u := s.rxRequest
    u.barOpen = true → (u.inst i.toNat).st ≠ .free → o + n ≤ 4096 →
    exec (.instancePageAccess i o (.read n)) s = .next (s.ended ((u.reply (.readData
      ((List.range n).map (fun k => u.pageByte i.toNat (o + k))))).clearErr i.toNat o n))) ∧
  (∀ (s : State) (i : BitVec 16) (w : Fin 32) (v : Word), let u := s.rxPosted 8
    u.barOpen = true → (u.inst i.toNat).st = .active →
    exec (.tmaskWrite i w v) s = .next (s.ended (u.tmask i.toNat w.val v))) ∧
  (∀ (s : State) (i : BitVec 16), let u := s.rxPosted 8
    u.barOpen = true → (u.inst i.toNat).st = .active → (u.inst i.toNat).busy = false →
    (u.getReg qimMedCfg).getLsbD 31 = true → u.bmeOn = true →
    (u.qim.medProd - u.getReg (QIM + 0x090)).toNat + 4 ≤ 2 ^ bits (u.getReg qimMedCfg).toNat 4 0 →
    Completes (.reqGo i 1) s (fun t => (t.inst i.toNat).busy = true ∧ (t.inst i.toNat).seq = (s.inst i.toNat).seq + 1 ∧
      t.qim.medProd = s.qim.medProd + 4))

/-! Chapter 4: the plinth and the ledger. -/

/-- R78, R80 to R82, R84, R89: a member's message on time is keyed and held in order; a message off its stream's
membership, and one that comes late, goes to the late queue's path; a message stamped on the incoming timescale alone waits for the overlap's end. -/
def Obligations.PresentationCompletes : Prop :=
  (∀ (s : State) (dt : Nat) (m : Msg) (l : List Msg), let u := s.advance dt
    let v : State := { u with sql := { u.sql with inbox := l } }
    let w := match m.mac with | some c => if m.keep then v else v.retireToken c.val m.tag.raw.time | none => v
    u.sql.inbox = m :: l → w.sqlOn = true → w.waitsOverlap m.tag = false → (w.stream m.stream.toNat).en = true →
    w.isMember m (w.keyOf m.tag) = true → w.isLate m (w.keyOf m.tag) = false →
    exec (.messagePresent dt .inbox) s = .next (s.ended (
      let e := w.takeEngine (w.stream m.stream.toNat).cls m.data.length
      let h : Held := { msg := m, key := w.keyOf m.tag, no := e.2.2.sql.nextNo, since := e.2.2.islandTime 38, skipped := e.1,
                        engine := e.2.1 }
      { e.2.2 with sql := { e.2.2.sql with nextNo := e.2.2.sql.nextNo + 1 } }.modStream m.stream.toNat
        (fun x => { x with held := insertHeld h x.held })))) ∧
  (∀ (s : State) (dt : Nat) (m : Msg) (l : List Msg), let u := s.advance dt
    let v : State := { u with sql := { u.sql with inbox := l } }
    let w := match m.mac with | some c => if m.keep then v else v.retireToken c.val m.tag.raw.time | none => v
    u.sql.inbox = m :: l → w.sqlOn = true → w.waitsOverlap m.tag = false →
    (w.stream m.stream.toNat).en = false ∨ w.isMember m (w.keyOf m.tag) = false →
    exec (.messagePresent dt .inbox) s = .next (s.ended (w.presentLate m true))) ∧
  (∀ (s : State) (dt : Nat) (m : Msg) (l : List Msg), let u := s.advance dt
    let v : State := { u with sql := { u.sql with inbox := l } }
    let w := match m.mac with | some c => if m.keep then v else v.retireToken c.val m.tag.raw.time | none => v
    u.sql.inbox = m :: l → w.sqlOn = true → w.waitsOverlap m.tag = false → (w.stream m.stream.toNat).en = true →
    w.isMember m (w.keyOf m.tag) = true → w.isLate m (w.keyOf m.tag) = true →
    exec (.messagePresent dt .inbox) s = .next (s.ended (w.presentLate m false))) ∧
  (∀ (s : State) (dt : Nat) (m : Msg) (l : List Msg), let u := s.advance dt
    let v : State := { u with sql := { u.sql with inbox := l } }
    let w := match m.mac with | some c => if m.keep then v else v.retireToken c.val m.tag.raw.time | none => v
    u.sql.inbox = m :: l → w.sqlOn = true → w.waitsOverlap m.tag = true →
    exec (.messagePresent dt .inbox) s =
      .next (s.ended { w with sql := { w.sql with overlap := w.sql.overlap ++ [m] } })) ∧
  (∀ (s : State) (dt : Nat) (k : Fin 8) (i : Byte),
    exec (.messagePresent dt (.port k i)) s = .next (s.ended ((s.advance dt).opPortPresent k.val i.toNat))) ∧
  (∀ (s : State) (dt : Nat) (k : Fin 8), let u := s.advance dt
    u.portOldest k.val = none → u.powered (71 + k.val) = true →
    exec (.plinthPortHeartbeat dt k) s = .next (s.ended { u with sql := { u.sql with
      beat := Map.set u.sql.beat k.val (BitVec.ofNat 64 (u.repTime (30 + k.val))) 0 } }))

/-- R85, R87, R88: release in order of key once no member's safe time stands before it; expiry of the fetch bound and of
the maximum hold; a laggard rejoins. -/
def Obligations.ReleaseCompletes : Prop :=
  (∀ (s : State) (dt : Nat) (n : Fin 64) (h : Held) (l : List Held), let u := s.advance dt
    (u.stream n.val).held = h :: l → u.blockers n.val h.key = [] → u.sqlOn = true →
    (u.classOn (u.stream n.val).cls && !u.lenient (u.stream n.val).cls &&
      u.unrecordable (u.stream n.val).cls h.skipped) = false →
    exec (.messageRelease dt n) s = .next (s.ended (u.releaseHead n.val)) ∧
    Completes (.messageRelease dt n) s (fun t => ∃ d, d ∈ t.qim.deliv ∧ d.queue = (u.stream n.val).mainQ.toNat ∧
      d.detail = (u.stream n.val).nextSeq.setWidth 32 ∧ d.stamp = some h.msg.tag.raw)) ∧
  (∀ (s : State) (dt : Nat) (i : BitVec 16) (b : Nat), let u := s.advance dt
    u.oldestBell i.toNat = some b → b + usec (u.mainNat 0xA150 2) < u.repTime 0 →
    u.sql.fetchExp.contains (i.toNat, BitVec.ofNat 64 b) = false →
    Completes (.fetchBoundExpire dt i) s (fun t => (i.toNat, BitVec.ofNat 64 b) ∈ t.sql.fetchExp ∧
      ({ t.rest with sql := {} } : State) = { s.rest with sql := {} })) ∧
  (∀ (s : State) (dt : Nat) (n : Fin 64) (h : Held) (k : Nat), let u := s.advance dt
    longestHeld (u.stream n.val).held = some (h, k) → u.sqlOn = true → u.islandDue 38 h.since (u.holdLimit n.val) = true →
    exec (.maxHoldExpire dt n) s = .next (s.ended ((List.range (k + 1)).foldl (fun s _ => s.releaseHead n.val)
      ((u.blockers n.val h.key).foldl (fun s e => s.exclude n.val e) u)))) ∧
  (∀ (s : State) (dt : Nat) (i : Fin 131072) (w : Word × Word), let u := s.advance dt
    let n := bits w.1.toNat 29 24
    Map.get u.sql.members i.val = some w → (u.stream n).laggards.contains i.val = true →
    (∀ k r, (u.stream n).horizon = some (k, r) → (k.toNat : Int) < u.safeTime w) →
    exec (.laggardRejoin dt i) s = .next (s.ended
      ((u.modStream n (fun x => { x with laggards := x.laggards.erase i.val })).laggardRecord n w.1 true)))

/-- R79, R83: a step notice releases what is held, clears the horizons and turns the parity; a membership commit is checked
and taken at its time. -/
def Obligations.MembershipCompletes : Prop :=
  (∀ (s : State) (dt : Nat) (d : StepNote) (l : List StepNote), let u := s.advance dt
    u.sql.steps = d :: l → u.sqlOn = true →
    Completes (.stepNotice dt) s (fun t => t.sql.steps = l ∧ t.sql.parity = !s.sql.parity ∧
      (∀ n, (t.stream n).horizon = none) ∧ (∀ n, n < 64 → (t.stream n).held = []) ∧
      ({ t.rest with sql := {}, qim := {}, mem := {}, prt := {} } : State) = { s.rest with sql := {}, qim := {}, mem := {}, prt := {} } ∧
      t.mem.cells = s.mem.cells)) ∧
  (∀ (s : State) (dt : Nat) (rid : BitVec 16) (pasid : Option (BitVec 20)) (v : Word),
    let u := (s.advance dt).rxPosted 4
    u.barOpen = true → u.cmdTaken sqlMembCmd = true → u.sql.membWait = none → v.getLsbD 0 = true →
    u.repTime 0 + usec 10 ≤ (u.getReg64 sqlMembTime).toNat → (u.getReg64 sqlMembTime).toNat ≤ u.repTime 0 + secs 60 →
    exec (.sqlMembCommit dt (.pcie rid pasid) v) s = .next (s.ended { u with sql := { u.sql with
      membStat := 0
      membWait := some { time := u.getReg64 sqlMembTime, members := u.stagedMembers, streams := u.stagedStreams } } })) ∧
  (∀ (s : State) (dt : Nat) (rid : BitVec 16) (pasid : Option (BitVec 20)) (v : Word),
    let u := (s.advance dt).rxPosted 4
    u.barOpen = true → u.cmdTaken sqlMembCmd = true → u.sql.membWait = none → v.getLsbD 0 = true →
    (u.getReg64 sqlMembTime).toNat < u.repTime 0 + usec 10 →
    exec (.sqlMembCommit dt (.pcie rid pasid) v) s =
      .next (s.ended { u with sql := { u.sql with membStat := 1 } })) ∧
  (∀ (s : State) (dt : Nat) (w : MembCommit), let u := s.advance dt
    u.sql.membWait = some w → w.time.toNat ≤ u.repTime 38 → u.sqlOn = true →
    Completes (.membershipActivation dt) s (fun t => t.sql.membWait = none ∧ t.sql.members = w.members ∧
      t.sql.membPast = (w.time, s.sql.members) :: s.sql.membPast ∧
      ({ t.rest with sql := {}, qim := {}, mem := {}, prt := {} } : State) = { s.rest with sql := {}, qim := {}, mem := {}, prt := {} } ∧
      t.mem.cells = s.mem.cells))

/-- R93 to R103: digests, gap records, blocks, epochs and export units. -/
def Obligations.LedgerCommandsComplete : Prop :=
  (∀ (s : State) (dt idx : Nat) (e : RecWait) (d : List Byte), let u := s.advance dt
    u.sql.recq[idx]? = some e → e.data = some d →
    exec (.digestComplete dt idx) s = .next (s.ended
      ({ u with sql := { u.sql with recq := u.sql.recq.set idx { e with
          record := splice e.record 40 ((sha256 d).take 20), data := none } } }.unloadEngine e.engine d.length).flush)) ∧
  (∀ (s : State) (dt idx n : Nat) (h : Held), let u := s.advance dt
    u.sql.recq[idx]? = none → u.hashing[idx - u.sql.recq.length]? = some (n, h) →
    exec (.digestComplete dt idx) s = .next (s.ended ((u.modStream n (fun x => { x with held := x.held.map (fun y =>
      if y.no = h.no then { y with engine := none, digest := some ((sha256 h.msg.data).take 20) } else y) })).unloadEngine
        h.engine h.msg.data.length))) ∧
  (∀ (s : State) (dt : Nat) (n : Fin 64), let u := s.advance dt
    n ≠ 0 → u.sqlOn = true → u.areaRoom 64 = true → u.sql.recq.length < 65536 →
    exec (.gapRecordWrite dt n) s = .next (s.ended (u.putGap n.val))) ∧
  (∀ (s : State) (dt : Nat), let u := s.advance dt
    u.sqlOn = true → u.sql.open_ = true → u.islandDue 38 u.sql.block.openAt (usec u.sql.intervalUs) = true →
    Completes (.blockIntervalExpire dt) s (fun t => t.sql.block.number = s.sql.block.number + 1 ∧
      t.sql.chain = sha256 (u.blockHeader 1 (u.repTime 38)) ∧ t.sql.blockLast = some s.sql.block.number ∧
      ({ t.rest with sql := {} } : State) = { s.rest with sql := {} })) ∧
  (∀ (s : State) (dt : Nat), let u := s.advance dt
    let len := msec u.sql.epochMs
    let e := u.repTime 38 / len * len
    0 < len → u.sqlOn = true → u.sql.open_ = true → u.sql.lastEpoch.toNat < e →
    Completes (.epochEnd dt) s (fun t => t.sql.lastEpoch = BitVec.ofNat 64 e ∧
      t.sql.chain = sha256 (u.blockHeader 3 e) ∧
      ({ t.rest with sql := {} } : State) = { s.rest with sql := {} })) ∧
  (∀ (s : State) (dt : Nat) (e : Entry) (x : ExpUnit), let u := s.advance dt
    let q := u.regBits sqlExpq 19 0
    (u.queue q).ents.find? (fun e => e.st = .waiting) = some e →
    u.sql.units[u.unitsOut]? = some x →
    (u.getReg sqlExpq).getLsbD 31 = true → (u.queue q).kind = 6 → u.bmeOn = true → u.sqlOn = true →
    leAt e.slots 16 4 < x.needs u.sql.recLimit →
    exec (.exportUnitWrite dt) s = .next (s.ended (u.modQueue q (fun y => { y with ents := y.ents.map (fun z =>
      if z.no = e.no then { z with st := .finished 7, cb := true, len := 0, detail := BitVec.ofNat 32 (x.kind * 2 ^ 24) }
      else z) })))) ∧
  (∀ (s v : State) (dt : Nat) (e : Entry) (x : ExpUnit), let u := s.advance dt
    let q := u.regBits sqlExpq 19 0
    (u.queue q).ents.find? (fun e => e.st = .waiting) = some e →
    u.sql.units[u.unitsOut]? = some x →
    (u.getReg sqlExpq).getLsbD 31 = true → (u.queue q).kind = 6 → u.bmeOn = true → u.sqlOn = true →
    x.needs u.sql.recLimit ≤ leAt e.slots 16 4 →
    u.unitPut 1 none (leAt e.slots 8 8) x.bytes = (some true, v) → v.unitBad x = false →
    exec (.exportUnitWrite dt) s = .next (s.ended (v.modQueue q (fun y => { y with ents := y.ents.map (fun z =>
      if z.no = e.no then { z with st := .finished 0, cb := true, len := x.bytes.length
                                   detail := BitVec.ofNat 32 (x.kind * 2 ^ 24) }
      else z) }))))

/-! Chapter 5: ports and MACs. -/

/-- R111, R113 to R115: a group's mode is taken and its change finishes; a link comes up and goes down. -/
def Obligations.LinkCommandsComplete : Prop :=
  (∀ (s : State) (g : Fin 2) (v : Word),
    s.cmdTaken (prtGrpMode g.val) = true → s.grpBusy g.val = false →
    (∀ k, k < 8 → s.macEn (8 * g.val + k) = false) → bits v.toNat 2 0 ≤ 4 → s.laneMapOk g.val (bits v.toNat 2 0) = true →
    Completes (.prtGrpModeWrite g v) s (fun t => t.modeOf g.val = bits v.toNat 2 0 ∧ t.grpBusy g.val = true ∧
      (∀ k, k < 8 → (t.mac (8 * g.val + k)).link = false) ∧
      ((∀ k, k < 8 → (s.mac (8 * g.val + k)).link = false) →
        t.gloveF = s.askPower.gloveF ∧
        ({ t.rest with prt := {}, gloveF := {} } : State) = { s.rest with prt := {}, gloveF := {} }))) ∧
  (∀ (s : State) (g : Fin 2) (v : Word),
    s.cmdTaken (prtGrpMode g.val) = true → s.grpBusy g.val = false →
    (∃ k, k < 8 ∧ s.macEn (8 * g.val + k) = true) →
    exec (.prtGrpModeWrite g v) s = .next (s.ended (s.prtEvent g.val))) ∧
  (∀ (s : State) (dt : Nat) (g : Fin 2), s.grpBusy g.val = true →
    exec (.groupModeSwitchDone dt g) s = .next (s.ended (
      let u := s.advance dt
      let goal := u.target (BitVec.ofNat 96 (u.objNat 0x2010 1)) (u.powered 8)
      let mine := domainOrder.filter (fun d => (17 + 8 * g.val ≤ d ∧ d < 25 + 8 * g.val) ∨
        (33 + 8 * g.val ≤ d ∧ d < 41 + 8 * g.val))
      let v := mine.reverse.foldl (fun v d => if goal.getLsbD d then v else v.powerOff d) u
      let w := mine.foldl (fun w d => if goal.getLsbD d then w.powerOn d else w) v
      (w.setGrpBusy g.val false).mainEvent 0xA 6 0 [BitVec.ofNat 8 g.val]))) ∧
  (∀ (s : State) (dt : Nat) (m : Fin 16), let u := s.advance dt
    let v := (u.lanesOf m.val).foldl (fun v n => v.trainLane n) u
    let w := v.emit (.trained m ((u.lanesOf m.val).map (fun n => v.getReg (prtLaneCfg n))))
    u.macThere m.val = true → u.powered (33 + m.val) = true → u.grpBusy (m.val / 8) = false → (u.mac m.val).link = false →
    exec (.linkUp dt m) s = .next (s.ended
      ((((w.modMac m.val (fun c => { c with link := true })).repRestart (3 + m.val)).prtEvent (16 + m.val)).gateFallback
        m.val))) ∧
  (∀ (s : State) (dt : Nat) (m : Fin 16) (cut : Option (List Byte)), let u := s.advance dt
    (u.mac m.val).link = true →
    exec (.linkDown dt m cut) s = .next (s.ended (
      let v := match cut with
        | some b =>
          if u.macEn m.val = false ∨ u.macPassing m.val = false then u.stat (macReg m.val 0x420)
          else if b.length < 64 then u.count (macReg m.val 0x800)
          else if u.regBits (macReg m.val 8) 13 0 < b.length then u.count (macReg m.val 0x804)
          else u.count (macReg m.val 0x808)
        | none => u
      let w := ((((v.settlePfc m.val).cutTransmit m.val).discardStore m.val).modMac m.val (fun c => { c with link := false, pfcOwed := none })).repRestart
        (3 + m.val)
      ((w.stat (macReg m.val 0x450)).prtEvent (16 + m.val)).gateFallback m.val)))

/-- R117 to R120, R122 to R125: frames in by the first row of the table that applies, frames out, pause. -/
def Obligations.FrameCommandsComplete : Prop :=
  (∀ (s : State) (dt : Nat) (m : Fin 16) (w : List Byte) (p : SofPos) (e : RxEnd), let u := s.advance dt
    u.macEn m.val = false ∨ u.macPassing m.val = false →
    exec (.macReceiveFrame dt m w ⟨p, e⟩) s = .next (s.ended (u.stat (macReg m.val 0x420)))) ∧
  (∀ (s : State) (dt : Nat) (m : Fin 16) (w : List Byte) (p : SofPos) (e : RxEnd), let u := s.advance dt
    u.macEn m.val = true → u.macPassing m.val = true → w.length < 64 →
    exec (.macReceiveFrame dt m w ⟨p, e⟩) s = .next (s.ended (u.count (macReg m.val 0x800)))) ∧
  (∀ (s v : State) (dt : Nat) (m : Fin 16) (w : List Byte) (p : SofPos) (e : RxEnd) (l : List Word), let u := s.advance dt
    let f := w.take (w.length - 4)
    let prio := u.rxPrio m.val f
    let max_ := u.regBits (macReg m.val 8) 13 0
    let holder := if (u.getReg (macReg m.val 0x20)).getLsbD (8 + prio) then m.val else 16 + m.val
    u.macEn m.val = true → u.macPassing m.val = true → 64 ≤ w.length →
    State.rxBuffers m.val prio ((min w.length max_ + 2047) / 2048) u [] = (some l, v) →
    exec (.macReceiveFrame dt m w ⟨p, e⟩) s = .next (s.ended (
      if max_ < w.length then (v.freeBufs holder l).count (macReg m.val 0x804)
      else if e ≠ .good then (v.freeBufs holder l).count (macReg m.val 0x808)
      else if beAt f 12 2 = 0x8808 then (v.freeBufs holder l).loadPause m.val f
      else v.passFrame m.val f p prio holder l w.length))) ∧
  (∀ (s v : State) (dt : Nat) (m : Fin 16) (w : List Byte) (p : SofPos) (e : RxEnd), let u := s.advance dt
    u.macEn m.val = true → u.macPassing m.val = true → 64 ≤ w.length →
    State.rxBuffers m.val (u.rxPrio m.val (w.take (w.length - 4))) ((min w.length (u.regBits (macReg m.val 8) 13 0) + 2047) / 2048)
      u [] = (none, v) →
    exec (.macReceiveFrame dt m w ⟨p, e⟩) s = .next (s.ended v)) ∧
  (∀ (s : State) (dt : Nat) (m : Fin 16) (p : Fin 8), let u := s.advance dt
    u.paused m.val p.val = false →
    exec (.pauseTimerExpire dt m p) s =
      .next (s.ended (u.modMac m.val (fun c => { c with pause := Map.del c.pause p.val })))) ∧
  (∀ (s : State) (dt : Nat) (m : Fin 16), let u := s.advance dt
    u.xoff m.val ≠ 0 → u.due (u.mac m.val).pfcAt (4 * u.regBits (macReg m.val 0x24) 23 0) = true →
    (u.mac m.val).link = true → u.macEn m.val = true → (u.mac m.val).pfcOwed = none → (u.mac m.val).sendsTill ≤ u.clock →
    Completes (.pfcRefreshTimer dt m) s (fun t =>
      Out.pfcFrame m (u.pfcBytes m.val (u.xoff m.val) (u.xoff m.val)) ∈ t.out ∧ (t.mac m.val).pfcAt = u.clock ∧
      ({ t.rest with prt := {} } : State) = { s.rest with prt := {} })) ∧
  (∀ (s : State) (dt : Nat) (m : Fin 16), let u := s.advance dt
    u.cmdTaken (macReg m.val 0) = true →
    exec (.macEnClear dt m) s =
      .next (s.ended (((u.settlePfc m.val).setReg (macReg m.val 0) (u.getReg (macReg m.val 0) &&& 0x7FFFFFFF)).discardStore m.val))) ∧
  (∀ (s : State) (dt : Nat) (m : Fin 16), let u := s.advance dt
    u.storeRoom m.val = true →
    u.macThere m.val = true → u.prtShaped m.val = false →
    exec (.macFrameRequest dt m) s = .next (s.ended (State.chooseClass m.val [7, 6, 5, 4, 3, 2, 1, 0] u))) ∧
  (∀ (s : State) (dt : Nat) (m : Fin 16) (c : Fin 8) (leaf since : Nat), let u := s.advance dt
    let k := 8 * m.val + c.val
    u.storeRoom m.val = true →
    u.macThere m.val = true → u.prtShaped m.val = false →
    (∀ h : Fin 8, c < h → u.sendable m.val h.val = false) → u.sendable m.val c.val = true → u.clsShaped k = false →
    (u.gates m.val).getLsbD c.val = true → Map.get u.tmg.head k = some (leaf, since) →
    ((u.node 0 leaf).urgent = true ∨ u.openBudget m.val c.val = none) →
    exec (.macFrameRequest dt m) s = .next (s.ended (u.dequeue m.val k leaf))) ∧
  (∀ (s : State) (dt : Nat) (m : Fin 16) (i : Item) (l : List Item), let u := s.advance dt
    let v := (u.settleSend m.val).settlePfc m.val
    (u.mac m.val).link = true → u.macEn m.val = true → (u.mac m.val).sendEnd ≤ u.clock →
    (v.mac m.val).sendsTill ≤ v.clock → nextFrame (v.mac m.val).store (v.paused m.val) = some (i, l) →
    exec (.macTransmitFrame dt m) s =
      .next (s.ended ((v.modMac m.val (fun c => { c with store := l })).sendFrame m.val i)))

/-- R127 to R129, R135: a gate list is committed and becomes active; a transmit stamp report is taken off. -/
def Obligations.GateCommandsComplete : Prop :=
  (∀ (s : State) (m : Fin 16) (v : Word),
    s.cmdTaken (macReg m.val 0x310) = true → v.getLsbD 0 = true →
    exec (.prtTxtsNext m v) s = .next (s.ended (s.modMac m.val (fun c => { c with txts := c.txts.drop 1 })))) ∧
  (∀ (s : State) (dt : Nat) (m : Fin 16) (v : Word), let u := s.advance dt
    let l := u.stagedGates m.val
    let from_ := u.repTime (3 + m.val) + usec 10
    let ta := if from_ ≤ l.base.toNat then l.base.toNat
      else l.base.toNat + (from_ - l.base.toNat + 4 * l.cycle - 1) / (4 * l.cycle) * (4 * l.cycle)
    u.cmdTaken (macReg m.val 0x218) = true → (u.mac m.val).gateWait = none → v.getLsbD 0 = true →
    1 ≤ u.regBits (macReg m.val 0x204) 8 0 → u.regBits (macReg m.val 0x204) 8 0 ≤ 256 →
    1000 ≤ l.cycle → l.cycle ≤ 1000000000 → (∀ e ∈ l.entries, e.2 ≠ 0) → ta ≤ u.repTime (3 + m.val) + secs 60 →
    Completes (.prtGateCommit dt m v) s (fun t => (t.mac m.val).gateStat = 0 ∧
      (t.mac m.val).gateWait = some { l with base := BitVec.ofNat 64 ta } ∧ (t.mac m.val).gates = (s.mac m.val).gates ∧
      ({ t.rest with prt := {} } : State) = { s.rest with prt := {} })) ∧
  (∀ (s : State) (dt : Nat) (m : Fin 16) (l : GateList), let u := s.advance dt
    (u.mac m.val).gateWait = some l → l.base.toNat ≤ u.repTime (3 + m.val) →
    exec (.gateListActivation dt m) s =
      .next (s.ended (u.modMac m.val (fun c => { c with gates := l, gateWait := none }))))

/-! Chapter 6: pipelines. -/

/-- R138 to R140, R147, R151 to R154, R156: a pipeline takes its next item; a lookup is answered or times out; an item
whose stages have run leaves by its disposition. -/
def Obligations.PipelineCommandsComplete : Prop :=
  (∀ (s : State) (dt : Nat) (p : Fin 8) (i : Item) (x : Pipe), let u := s.advance dt
    let v := u.modPipe p.val (fun _ => x.pull)
    let j := if i.pass then i else
      { i with swapT := if i.src < 2 ^ 16 ∧ i.tag.raw.bound ≠ 0xFFFF then i.tag.raw.time
                        else BitVec.ofNat 64 (v.pipeTime p.val) }
    let k : Item := { v.intakeFields p.val j with
      orig := j.frame, stage := 0, want := none, learn := [], stored := false, dropped := false }
    let w := v.stat (pipeReg p.val 0x100)
    u.powered (49 + p.val) = true → (u.pipe p.val).next u.clock = some (i, x) →
    exec (.pipelineIntake dt p) s = .next (s.ended (
      if k.copy = true then w.modPipe p.val (fun y => { y with flight := y.flight ++ [{ k with stage := 16 }] })
      else if (w.getReg (pipeCfg p.val)).getLsbD 31 = true ∧ (w.pipe p.val).noProgram k.swapT = false then w.enterPipe p.val k
      else (w.count (pipeReg p.val 0x864)).dropItem k))) ∧
  (∀ (s : State) (dt : Nat) (p : Fin 8) (idx target key : Nat), let u := (s.advance dt).fwtSettle
    u.wanted p.val idx = some (target, key) →
    exec (.globalLookup dt p idx) s =
      .next (s.ended (u.answerLookup p.val idx (u.globalAnswer p.val target key) false))) ∧
  (∀ (s : State) (dt : Nat) (p : Fin 8) (idx : Nat) (i : Item), let u := s.advance dt
    (u.pipe p.val).flight[idx]? = some i → i.want ≠ none → u.due i.wantAt (usec 2) = true →
    exec (.lookupTimeout dt p idx) s = .next (s.ended (u.answerLookup p.val idx none true))) ∧
  (∀ (s : State) (dt : Nat) (p : Fin 4) (i : Item), let u := s.advance dt
    let j := fragRules i
    let v := ((u.leaveFlight p.val 0).storeFrag p.val j).learnAt p.val j
    let m := if j.fld fVERDICT = 1 ∧ bit (j.fld fMIRROR) 6 = true then v.mirrorCopy p.val j j.orig (j.fld fMIRROR % 64) else v
    let w := (m.countExit p.val j).exitToken j
    u.exitItem p.val = some i → u.exitHeld p.val j = false →
    exec (.ingressExit dt p) s = .next (s.ended (match refusedAt j with
      | some c => (m.count (pipeReg p.val c)).dropItem j
      | none =>
        if bit (j.fld fPOLICER) 18 = true ∧ w.2.second = false then
          { w.1 with tmg := { w.1.tmg with polIn := w.1.tmg.polIn ++ [(w.2, p)] } }
        else w.1.afterPolicer p.val w.2))) ∧
  (∀ (s : State) (dt : Nat) (e : Fin 4) (i : Item), let u := s.advance dt
    let p := 4 + e.val
    let j := fragRules i
    let m := i.fld fDEST % 16
    let v := (u.leaveFlight p 0).storeFrag p j
    u.exitItem p = some i → j.copy = false → j.fld fVERDICT = 0 → v.regBits (macReg m 8) 13 0 ≥ j.frame.length + 4 →
    v.protects m j.frame = false →
    exec (.egressExit dt e) s = .next (s.ended ((v.stat (pipeReg p 0x108)).txPass m j)))

/-- R159, R160: a held fragment goes to COPY_Q; an entry of the fragment table ages. -/
def Obligations.FragmentTimersComplete : Prop :=
  (∀ (s : State) (dt : Nat) (p : Fin 8) (i : Item) (x : Nat) (l : List (Item × Nat)), let u := s.advance dt
    let j := ((i.setFld fVERDICT 2).setFld fCOPYREASON 0x80).setFld fCOPYQ (u.regBits (pipeCfg p.val) 19 0)
    (u.pipe p.val).early = (i, x) :: l → x + msec 1 ≤ u.repTime (19 + p.val) →
    exec (.fragmentHoldExpire dt p) s = .next (s.ended
      ((((u.modPipe p.val (fun y => { y with early := l })).count (pipeReg p.val 0x850)).stat (pipeReg p.val 0x118)).deliverItem
        p.val j (j.fld fCOPYQ) true))) ∧
  (∀ (s : State) (dt : Nat) (p : Fin 8) (idx : Nat) (e : Frag), let u := s.advance dt
    (u.pipe p.val).frags[idx]? = some e → u.due e.used (secs 2) = true →
    exec (.fragmentEntryAge dt p idx) s =
      .next (s.ended (u.modPipe p.val (fun x => { x with frags := x.frags.eraseIdx idx }))))

/-- R161, R163 to R167: bank copies, swaps, staging and the verification of a program. -/
def Obligations.BankCommandsComplete : Prop :=
  (∀ (s : State) (dt : Nat) (p : Fin 8) (v : Word), let u := s.advance dt
    u.cmdTaken (pipeReg p.val 0x38) = true → (u.pipe p.val).busy = false → v.getLsbD 0 = true →
    exec (.pclBankCopy dt p v) s = .next (s.ended (u.modPipe p.val (fun x =>
      { x with copying := some (BitVec.ofNat 16 (bits v.toNat 16 1)) })))) ∧
  (∀ (s : State) (dt : Nat) (p : Fin 8) (m : BitVec 16), let u := s.advance dt
    (u.pipe p.val).copying = some m →
    exec (.pclBankCopyDone dt p) s = .next (s.ended (u.modPipe p.val (fun x => { x with
      copying := none, staged := bankTake x.staged x.active (maskRange x.active m.toNat) })))) ∧
  (∀ (s : State) (dt : Nat) (p : Fin 8) (v : Word), let u := s.advance dt
    let t := u.getReg64 (pipeReg p.val 0x10)
    let mask := u.regNat (pipeReg p.val 0x18)
    u.cmdTaken (pipeReg p.val 0x28) = true → (u.pipe p.val).busy = false → v.getLsbD 0 = true →
    u.pipeTime p.val + usec 10 ≤ t.toNat → t.toNat ≤ u.pipeTime p.val + secs 60 → bit mask 16 = true →
    (u.pipe p.val).verified = true →
    exec (.pclSwapCommit dt p v) s = .next (s.ended (u.modPipe p.val (fun x => { x with
      swapStat := 0, swap := some { time := t, mask := BitVec.ofNat 17 mask } })))) ∧
  (∀ (s : State) (dt : Nat) (p : Fin 8) (v : Word), let u := s.advance dt
    u.cmdTaken (pipeReg p.val 0x28) = true → (u.pipe p.val).busy = false → v.getLsbD 0 = true →
    (u.getReg64 (pipeReg p.val 0x10)).toNat < u.pipeTime p.val + usec 10 →
    exec (.pclSwapCommit dt p v) s =
      .next (s.ended ((u.modPipe p.val (fun x => { x with swapStat := 1 })).pclEvent p.val))) ∧
  (∀ (s : State) (dt : Nat) (p : Fin 8), let u := s.advance dt
    u.cmdTaken (PCL + 8) = true → u.powered (49 + p.val) = true → (u.pipe p.val).busy = false →
    exec (.pclSwapGo dt (BitVec.ofNat 32 (2 ^ p.val))) s = .next (s.ended (u.commitSwap p.val))) ∧
  (∀ (s : State) (dt : Nat) (p : Fin 8) (w : Swap), let u := s.advance dt
    (u.pipe p.val).swap = some w → w.time.toNat ≤ u.pipeTime p.val →
    exec (.swapActivation dt p) s =
      .next (s.ended (u.modPipe p.val (fun x => { x with swap := some { w with settling := true } })))) ∧
  (∀ (s : State) (dt : Nat) (p : Fin 8) (w : Swap), let u := s.advance dt
    (u.pipe p.val).swap = some w → w.settling = true → w.mask.getLsbD 16 = true →
    w.time.toNat + usec (u.regBits (pipeReg p.val 0x20) 9 0) ≤ u.pipeTime p.val →
    exec (.swapSettleEnd dt p) s = .next (s.ended ((u.modPipe p.val (fun x => { x with
      active := x.staged, staged := x.active, valid := true, stagedOk := x.valid, verified := x.valid
      swap := none, swaps := x.swaps + 1, lastT := w.time, firstDue := !w.first
      olds := if x.flight.isEmpty then [] else x.olds ++ [⟨x.swaps, w.mask, w.time, x.active⟩] })).pclEvent (8 + p.val)))) ∧
  (∀ (s : State) (dt : Nat) (p : Fin 8) (w : Swap), let u := s.advance dt
    let r := maskRange (u.pipe p.val).active w.mask.toNat
    (u.pipe p.val).swap = some w → w.settling = true → w.mask.getLsbD 16 = false →
    w.time.toNat + usec (u.regBits (pipeReg p.val 0x20) 9 0) ≤ u.pipeTime p.val →
    exec (.swapSettleEnd dt p) s = .next (s.ended ((u.modPipe p.val (fun x => { x with
      active := bankTake x.active x.staged r, staged := bankTake x.staged x.active r
      swap := none, swaps := x.swaps + 1, lastT := w.time, firstDue := !w.first
      olds := if x.flight.isEmpty then [] else x.olds ++ [⟨x.swaps, w.mask, w.time, x.active⟩] })).pclEvent (8 + p.val)))) ∧
  (∀ (s : State) (a p o : Nat) (d : List Byte),
    pclWindow a = some (p, o) → s.powered (49 + p) = true → (s.pipe p).busy = false → 0x9000 ≤ o →
    exec (.pclStagingWrite a d) s = .next (s.ended (s.modPipe p (fun x => { x with
      staged := (d.zipIdx).foldl (fun b c => Map.set (α := Byte) b (o + c.2) (c.1 &&& BitVec.ofNat 8 (windowMask (o + c.2))) 0) x.staged })))) ∧
  (∀ (s : State) (p : Fin 8) (v : Word),
    let r := checkProgram (s.pipe p.val).staged (decide (4 ≤ p.val))
    s.cmdTaken (pipeReg p.val 0x30) = true → v.getLsbD 0 = true → s.mainBool 0x2060 1 = true →
    exec (.pclLoadVerify p v) s = .next (s.ended (s.modPipe p.val (fun x => { x with
      loadStat := r.1, loadDet := r.2, verified := r.1 = 0 }))))

/-! Chapter 7: forwarding tables. -/

/-- R172, R178, R180, R183 to R185: tables are enabled, zeroed, learned into, swept, and worked by commands. -/
def Obligations.TableCommandsComplete : Prop :=
  (∀ (s : State) (v : Word), let u := s.fwtSettle
    u.cmdTaken fwtEpBase = true → (u.getReg fwtEpBase).getLsbD 31 = false → v.getLsbD 31 = true →
    Completes (.fwtTableEnable .ep v) s (fun t => t.fwt.ep = [] ∧ t.fwt.count = [] ∧ t.fwt.init = u.fwt.init ||| 1 ∧
      t.fwt.lrn = u.fwt.lrn ∧ ({ t.rest with fwt := {}, mem := {} } : State) = { u.rest with fwt := {}, mem := {} } ∧
      ∀ a, (a < bits v.toNat 13 0 * 2 ^ 20 ∨ (bits v.toNat 13 0 + 64) * 2 ^ 20 ≤ a) → t.readByte a = u.readByte a)) ∧
  (∀ (s : State) (k : Fin 4) (v : Word), let u := s.fwtSettle
    u.cmdTaken (fwtLrnBase k.val) = true → (u.getReg (fwtLrnBase k.val)).getLsbD 31 = false → v.getLsbD 31 = true →
    Completes (.fwtTableEnable (.lrn k) v) s (fun t => t.fwt.init.getLsbD (1 + k.val) = true ∧ t.fwt.ep = u.fwt.ep ∧
      (∀ i, i / 2 ^ 20 = k.val → Map.get t.fwt.lrn i = none) ∧
      ({ t.rest with fwt := {}, mem := {} } : State) = { u.rest with fwt := {}, mem := {} } ∧
      ∀ a, (a < bits v.toNat 13 0 * 2 ^ 20 ∨ (bits v.toNat 13 0 + 8) * 2 ^ 20 ≤ a) → t.readByte a = u.readByte a)) ∧
  (∀ (s : State) (x : FwtTable),
    Completes (.fwtZeroingDone x) s (fun t => t.fwt.init.getLsbD (match x with | .ep => 0 | .lrn k => 1 + k.val) = false ∧
      t.fwt.ep = s.fwt.ep ∧ t.fwt.lrn = s.fwt.lrn ∧ ({ t.rest with fwt := {} } : State) = { s.rest with fwt := {} })) ∧
  (∀ (s : State) (dt : Nat) (k : Fin 4) (r : LearnReq) (l : List LearnReq), let u := (s.advance dt).fwtSettle
    u.lrnOn k.val = true → Map.at_ u.fwt.reqs k.val [] = r :: l →
    exec (.learnRequest dt k) s = .next (s.ended
      ({ u with fwt := { u.fwt with reqs := Map.set u.fwt.reqs k.val l [] } }.learn k.val r))) ∧
  (∀ (s : State) (dt : Nat) (k : Fin 4) (i start period st p : Nat), let u := (s.advance dt).fwtSettle.rollPass
    u.fwt.pass = some (start, period) → u.nextVisit k.val start period = (i, st, p) → u.lrnOn k.val = true →
    Map.at_ u.fwt.reqs k.val [] = [] → i < u.lrnCap → st + msec p * i / u.lrnCap ≤ u.sweepTime →
    lrnCounts (u.lrnEntry k.val i) = true → lrnHit (u.lrnEntry k.val i) = false → lrnClear1 (u.lrnEntry k.val i) = true →
    Completes (.sweeperVisit dt k) s (fun t => Map.get t.fwt.sweep k.val = some (i + 1, st, p) ∧
      t.fwt.lrn = Map.del u.fwt.lrn (lrnSlot k.val i) ∧
      ({ t.rest with fwt := {}, mem := {} } : State) = { u.rest with fwt := {}, mem := {} } ∧
      ∀ a, t.readByte a = u.readByte a)) ∧
  (∀ (s : State) (v : Word), s.cmdTaken fwtCmd = true → s.fwt.run = none →
    let w := fun (op : Nat) => BitVec.ofNat 32 (putBits v.toNat 3 0 op)
    let f := fun (op : Nat) (u : State) => (u.setReg fwtCmd (w op &&& 0x000F011F)).fwtRun op (bit (w op).toNat 4)
      (bit (w op).toNat 8) (bits (w op).toNat 19 16)
    exec (.fwtRead v) s = .next (s.ended (f 1 s)) ∧ exec (.fwtWrite v) s = .next (s.ended (f 2 s)) ∧
    (∀ dt, exec (.fwtInsert dt v) s = .next (s.ended (f 3 (s.advance dt)))) ∧
    exec (.fwtDelete v) s = .next (s.ended (f 4 s)) ∧ exec (.fwtSearch v) s = .next (s.ended (f 5 s)))

/-! Chapter 8: the rewrite and cipher unit. -/

/-- R187 to R191, R203 to R206, R209: the unit works on the oldest item of its input store and on the oldest lookaside
job; a job that no SA or no lane serves ends with its status. An SA whose time has come is hard-expired (R198). -/
def Obligations.CipherItemsComplete : Prop :=
  (∀ (s : State) (dt : Nat) (p : Fin 4) (i : Item) (l : List (RwcPoint × Item)), let u := s.advance dt
    let v : State := { u with rwc := { u.rwc with input := l } }
    u.rwc.input = (.ingress p, i) :: l → i.ready ≤ u.clock → u.rwcHolds (.ingress p) i = false →
    exec (.rwcInlineItem dt) s = .next (s.ended (v.rwcIngress p.val i))) ∧
  (∀ (s : State) (dt : Nat) (m : Fin 16) (i : Item) (l : List (RwcPoint × Item)), let u := s.advance dt
    let v : State := { u with rwc := { u.rwc with input := l } }
    let n := bits (i.fld fSA) 19 0
    u.rwc.input = (.macTx m, i) :: l → i.ready ≤ u.clock → u.rwcHolds (.macTx m) i = false → bit (i.fld fSA) 20 = true →
    v.saValid n = true → (v.sa n).kind = 2 → (v.sa n).dirIn = false → (v.sa n).st ≠ 2 →
    exec (.rwcInlineItem dt) s = .next (s.ended ((((v.useSeq n).statN rwcStatInline
      ((v.sa n).macsecOut i.frame).length).toStore m.val { i with frame := (v.sa n).macsecOut i.frame }).txDone m.val))) ∧
  (∀ (s : State) (dt : Nat) (m : Fin 16) (i : Item) (l : List (RwcPoint × Item)), let u := s.advance dt
    let v : State := { u with rwc := { u.rwc with input := l } }
    u.rwc.input = (.macRx m, i) :: l → i.ready ≤ u.clock → u.rwcHolds (.macRx m) i = false →
    exec (.rwcInlineItem dt) s = .next (s.ended ((v.rwcMacRx m.val i).rxDone m.val))) ∧
  (∀ (s : State) (dt : Nat) (src tagIn : ReadData) (ok : Bool) (j : LaJob) (l : List LaJob), let u := s.advance dt
    u.rwc.jobs = j :: l → u.queueGen j.queue = j.entry.gen →
    u.saValid (bits (leAt j.slots 12 4) 19 0) = false →
    exec (.lookasideJob dt src tagIn ok) s = .next (s.ended ((u.count rwcSaInvalid).endJob j 3 0))) ∧
  (∀ (s : State) (dt : Nat) (src tagIn : ReadData) (ok : Bool) (j : LaJob) (l : List LaJob), let u := s.advance dt
    let n := bits (leAt j.slots 12 4) 19 0
    u.rwc.jobs = j :: l → u.queueGen j.queue = j.entry.gen → u.saValid n = true → 3 ≤ (u.sa n).kind →
    opSuits (u.sa n).kind (leAt j.slots 8 1) = true →
    (u.queue j.queue).owner.map (fun (x : BitVec 16) => x.toNat) = some (u.sa n).instance_ → (u.sa n).st ≠ 2 → u.lanes = [] →
    exec (.lookasideJob dt src tagIn ok) s = .next (s.ended (u.endJob j 5 0))) ∧
  (∀ (s r v : State) (dt : Nat) (d : List Byte) (tagIn : ReadData) (j : LaJob) (l : List LaJob),
    let u := s.advance dt
    let n := bits (leAt j.slots 12 4) 19 0
    let len := bits (leAt j.slots 40 4) 23 0
    let who := (u.queue j.queue).owner
    let tag := (jobData (u.sa n) 2 [] (slicePad j.slots 48 16) (slicePad d 0 len) (leAt j.slots 9 1)).2
    u.rwc.jobs = j :: l → u.queueGen j.queue = j.entry.gen → u.saValid n = true → (u.sa n).kind = 9 →
    leAt j.slots 8 1 = 2 → 16 ≤ leAt j.slots 9 1 → leAt j.slots 9 1 ≤ 32 →
    who.map (fun (x : BitVec 16) => x.toNat) = some (u.sa n).instance_ → (u.sa n).st ≠ 2 → u.freeLanes ≠ [] →
    u.bmeOn = true → u.pickLane.2.readFor who (leAt j.slots 16 8) len (.ok d) = (some (some d), r) →
    r.hostReady who [(leAt j.slots 32 8, tag.length)] = (some true, v) →
    exec (.lookasideJob dt (.ok d) tagIn true) s =
      .next (s.ended (((v.statN rwcStatLa len).hostPut who (leAt j.slots 32 8) tag).2.endJob j 0 len))) ∧
  (∀ (s : State) (dt : Nat) (a : BitVec 20), let u := s.advance dt
    (u.sa a.toNat).field 447 384 ≠ 0 → (u.sa a.toNat).field 447 384 ≤ u.repTime 27 →
    (u.sa a.toNat).st < 2 →
    exec (.saExpireTime dt a) s = .next (s.ended (u.setSaState a.toNat 2 true)) ∧
    Completes (.saExpireTime dt a) s (fun t => (t.getReg rwcEvt).getLsbD 1 = true ∧
      (s.rwc.exp.length < 256 → t.rwc.exp = s.rwc.exp ++ [{ sa := a, hard := true, byTime := true }])))

/-- R188, R191, R193, R195, R197, R212: regions, SA commands and template commands. -/
def Obligations.CipherTablesComplete : Prop :=
  (∀ (s : State) (v : Word),
    s.cmdTaken rwcTplBase = true → (s.getReg rwcTplBase).getLsbD 31 = false → v.getLsbD 31 = true →
    Completes (.rwcRegionEnable .tpl v) s (fun t => t.rwc.tpl = [] ∧ t.rwc.initTpl = true ∧ t.rwc.sas = s.rwc.sas ∧
      ({ t.rest with rwc := {}, mem := {} } : State) = { s.rest with rwc := {}, mem := {} } ∧
      ∀ a, (a < bits v.toNat 13 0 * 2 ^ 20 ∨ (bits v.toNat 13 0 + 8) * 2 ^ 20 ≤ a) → t.readByte a = s.readByte a)) ∧
  (∀ (s : State) (v : Word),
    s.cmdTaken rwcSaBase = true → (s.getReg rwcSaBase).getLsbD 31 = false → v.getLsbD 31 = true →
    Completes (.rwcRegionEnable .sa v) s (fun t => t.rwc.sas = [] ∧ t.rwc.initSa = true ∧ t.rwc.tpl = s.rwc.tpl ∧
      ({ t.rest with rwc := {}, mem := {} } : State) = { s.rest with rwc := {}, mem := {} } ∧
      ∀ a, (a < bits v.toNat 13 0 * 2 ^ 20 ∨ (bits v.toNat 13 0 + 128) * 2 ^ 20 ≤ a) → t.readByte a = s.readByte a)) ∧
  (∀ s : State, exec (.rwcZeroingDone .tpl) s = .next (s.ended { s with rwc := { s.rwc with initTpl := false } }) ∧
    exec (.rwcZeroingDone .sa) s = .next (s.ended { s with rwc := { s.rwc with initSa := false } })) ∧
  (∀ (s : State) (v : Word),
    let u := fun (op : Nat) => s.setReg rwcSaCmd (BitVec.ofNat 32 (putBits v.toNat 3 0 op) &&& 0xF)
    let n := fun (op : Nat) => (u op).regBits rwcSaIndex 19 0
    s.cmdTaken rwcSaCmd = true → (∀ op, (u op).saOn = true) → (∀ op, n op < (u op).saCap) →
    exec (.saRead v) s = .next (s.ended (((List.range 16).foldl (fun w k =>
      w.setReg (rwcSaData k) (((u 1).sa (n 1)).words.extractLsb' (32 * k) 32)) (u 1)).saStatus 0)) ∧
    (badSa (u 2).saData = false → ((u 2).saData.getLsbD 31 = true → ((u 2).sa (n 2)).keyed = true) →
      exec (.saWrite v) s = .next (s.ended (
        let w := putBits (putBits (u 2).saData.toNat 23 22 0) 21 21 (if ((u 2).sa (n 2)).keyed then 1 else 0)
        (((u 2).modSa (n 2) (fun a => { a with words := BitVec.ofNat 512 w &&& saMask })).tableClean
          rwcSaBase (128 * n 2) 128).saStatus 0))) ∧
    (((u 3).sa (n 3)).valid = false →
      exec (.saKeyset v) s = .next (s.ended (
        let w := (u 3).modSa (n 3) (fun a => { (a.setField 21 21 1) with key := (u 3).keyData, ivKey := s.freeNext })
        (((List.range 16).foldl (fun x k => x.setReg (rwcKeyData k) 0) w).drawn).saStatus 0))) ∧
    exec (.saInvalidate v) s = .next (s.ended (
      ((u 4).modSa (n 4) (fun a => { ((a.setField 31 31 0).setField 21 21 0) with key := 0 })).saStatus 0))) ∧
  (∀ (s : State) (v : Word), s.cmdTaken rwcTplCmd = true →
    let u := fun (op : Nat) => s.setReg rwcTplCmd (BitVec.ofNat 32 (putBits v.toNat 3 0 op) &&& 0x1F)
    let o := fun (op : Nat) => (BitVec.ofNat 32 (putBits v.toNat 3 0 op)).getLsbD 4
    exec (.tplRead v) s = .next (s.ended ((u 1).tplRun 1 (o 1))) ∧
    exec (.tplWrite v) s = .next (s.ended ((u 2).tplRun 2 (o 2)))) ∧
  (∀ (s : State) (n : Nat), n = s.regBits rwcTplIndex 15 0 → n < s.tplCap → s.tplOn = true →
    badTemplate (s.tplData.setWidth 1024) = false →
    s.tplRun 2 false = ({ s.tableClean rwcTplBase (128 * n) 128 with rwc := { s.rwc with
      tpl := Map.set s.rwc.tpl n (s.tplData.setWidth 1024 &&& tplMask) 0 } }).tplStatus 0) ∧
  (∀ (s : State) (v : Word), s.cmdTaken (RWC + 0x304) = true → v.getLsbD 0 = true →
    exec (.rwcExpNext v) s = .next (s.ended { s with rwc := { s.rwc with exp := s.rwc.exp.drop 1 } }))

/-- R210, R211: a known-answer test in its slot fences the lane that fails; a test that software asks for fences a lane
or returns it, by its result. -/
def Obligations.LaneTestsComplete : Prop :=
  (∀ (s : State) (dt : Nat) (l : Fin 8), let u := s.advance dt
    u.testing l.val = true →
    Completes (.knownAnswerTest dt l true) s (fun t => t.rwc.fenced.getLsbD l.val = false ∧
      Map.get t.rwc.tested l.val = some (u.repTime 27) ∧ t.rwc.fails = s.rwc.fails ∧
      ({ t.rest with rwc := {} } : State) = { s.rest with rwc := {} }) ∧
    Completes (.knownAnswerTest dt l false) s (fun t => t.rwc.fenced.getLsbD l.val = true ∧
      (t.getReg rwcEvt).getLsbD (8 + l.val) = true ∧ t.rwc.fails = s.rwc.fails + 1 ∧
      ({ t.rest with rwc := {} } : State) = { s.rest with rwc := {} })) ∧
  (∀ (s : State) (dt : Nat) (lvl : Fin 4) (v pass : Byte), let u := s.advance dt
    u.objTaken = true → 1 ≤ lvl.val → u.running = true → u.powered 95 = true → u.gloveH.peerUp = true →
    u.powered 57 = true ∨ u.powered 58 = true →
    exec (.unfenceLanes dt lvl v pass) s = .next (s.ended ((u.opUnfence v pass).emit (.object 0x2080 1 0))) ∧
    ∀ l : Fin 8, (u.opUnfence v pass).rwc.fenced.getLsbD l.val =
      if v.getLsbD l.val ∧ u.powered (59 + l.val) = true then !pass.getLsbD l.val else s.rwc.fenced.getLsbD l.val)

/-! Chapter 9: sessions. -/

/-- R214, R216, R232: regions and session commands. -/
def Obligations.SessionCommandsComplete : Prop :=
  (∀ (s : State) (v : Word),
    s.cmdTaken trnCtxBase = true → (s.getReg trnCtxBase).getLsbD 31 = false → v.getLsbD 31 = true →
    bits v.toNat 13 0 % 512 = 0 →
    Completes (.trnRegionEnable .ctx v) s (fun t => t.trn.sess = [] ∧ t.trn.initCtx = true ∧ t.trn.idx = s.trn.idx ∧
      ({ t.rest with trn := {}, mem := {} } : State) = { s.rest with trn := {}, mem := {} } ∧
      ∀ a, (a < bits v.toNat 13 0 * 2 ^ 20 ∨ (bits v.toNat 13 0 + 512) * 2 ^ 20 ≤ a) → t.readByte a = s.readByte a)) ∧
  (∀ (s : State) (v : Word),
    s.cmdTaken trnIdxBase = true → (s.getReg trnIdxBase).getLsbD 31 = false → v.getLsbD 31 = true →
    bits v.toNat 13 0 % 256 = 0 →
    Completes (.trnRegionEnable .idx v) s (fun t => t.trn.idx = [] ∧ t.trn.initIdx = true ∧ t.trn.sess = s.trn.sess ∧
      ({ t.rest with trn := {}, mem := {} } : State) = { s.rest with trn := {}, mem := {} } ∧
      ∀ a, (a < bits v.toNat 13 0 * 2 ^ 20 ∨ (bits v.toNat 13 0 + 256) * 2 ^ 20 ≤ a) → t.readByte a = s.readByte a)) ∧
  (∀ s : State, exec (.trnZeroingDone .ctx) s = .next (s.ended { s with trn := { s.trn with initCtx := false } }) ∧
    exec (.trnZeroingDone .idx) s = .next (s.ended { s with trn := { s.trn with initIdx := false } })) ∧
  (∀ (s : State) (v : Word),
    let u := fun (op : Nat) => s.setReg trnCmd (BitVec.ofNat 32 (putBits v.toNat 3 0 op) &&& 0x10F)
    let n := fun (op : Nat) => (u op).regBits trnSession 20 0
    s.cmdTaken trnCmd = true → (∀ op, (u op).trnOn = true) →
    exec (.sessionCreate v) s = .next (s.ended (
      let r := (u 1).sessCreate (u 1).trnDataIn (u 1).trnKeyIn
      (if r.1 = 0 then r.2.2.setReg trnSession (BitVec.ofNat 32 r.2.1) else r.2.2).trnStatus r.1)) ∧
    (n 2 < (u 2).sessCap → (BitVec.ofNat 32 (putBits v.toNat 3 0 2)).getLsbD 8 = false →
      exec (.sessionRead v) s = .next (s.ended (
        let w := (u 2).healSess (n 2)
        ((List.range 64).foldl (fun x k => x.setReg (trnData k) ((w.sess (n 2)).ctx.extractLsb' (32 * k) 32)) w).trnStatus
          0))) ∧
    exec (.sessionModify v) s = .next (s.ended (
      let r := (u 3).sessModify (n 3) (u 3).trnDataIn
      r.2.trnStatus r.1)) ∧
    (∀ dt, let w := { u 4 with clock := s.clock + dt }
      let x := w.sess (n 4)
      (w.regBits trnSession 20 0 = n 4 ∧ n 4 < w.sessCap ∧ w.trnOn = true ∧ 1 ≤ x.st ∧ x.st ≤ 3) →
      exec (.sessionDestroy dt v) s = .next (s.ended (
        let y := { w with trn := { w.trn with idx := w.trn.idx.filter (fun e => e.2.2 ≠ n 4) } }
        let z := x.sends.foldl (fun (z : State) e => z.finishEntry e.ref 9 id) y
        (z.modSess (n 4) (fun _ => Sess.setF { ctx := x.ctx, key := x.key, quarAt := z.trnTime } 0 31 29 4)).trnStatus 0)))) ∧
  (∀ (s : State) (c : BitVec 2048) (key : BitVec 320) (k : Nat),
    let i := Sess.owner { ctx := c }
    let r := s.sessCreate c key
    s.trnOn = true → s.badCtx c = false → s.sessUsed i < s.regBits (sessQuota i) 21 0 →
    s.trn.sess.length < s.sessCap → s.idxFind key = none →
    (s.idxSlots key).find? (fun k => (s.idxEntry k).isNone) = some k →
    r.1 = 0 ∧ (r.2.2.sess r.2.1).key = key ∧ Map.get r.2.2.trn.idx k = some (key, r.2.1)) ∧
  (∀ (s : State) (dt : Nat) (n : BitVec 21), let u := s.advance dt
    (u.sess n.toNat).st = 4 → u.trnDue (u.sess n.toNat).quarAt (usec 100) = true →
    exec (.sessionQuarantineEnd dt n) s = .next (s.ended (u.modSess n.toNat (fun _ => {}))))

/-- R219, R222, R227, R229: the engine's oldest item by its session's kind; acknowledgments, sends and timeouts. -/
def Obligations.SessionTrafficCompletes : Prop :=
  (∀ (s : State) (dt : Nat) (i : Item) (l : List Item), let u := (s.advance dt)
    let n := i.fld fSESSION % 2 ^ 21
    let v := u.healSess n
    let w : State := { v with trn := { v.trn with input := l } }
    (u.powered 67 && u.powered 68) = true → u.trn.input = i :: l → (v.sess n).kind ≠ 1 → w.sessGate n i = none →
    w.badBuf i.bufs i.frame.length = none →
    exec (.tcpSegmentReceive dt) s = .next (s.ended (w.tcpRows n i))) ∧
  (∀ (s : State) (n : Nat) (i : Item), let g := segOf i.frame
    g.tcp = true → g.rst = false → g.syn = false → g.urg = false → g.badOpt = false → (s.sess n).tsOn = false →
    g.seq = (s.sess n).rcvNxt → g.data ≠ [] → 0 < s.rcvWnd n → (g.isAck = true → seqGap 32 (s.sess n).nxt g.ack ≤ 0) →
    s.tcpRows n i = s.tcpAccept n i g) ∧
  (∀ (s : State) (dt : Nat) (data : ReadData) (i : Item) (l : List Item), let u := (s.advance dt)
    let n := i.fld fSESSION % 2 ^ 21
    let v := u.healSess n
    let w : State := { v with trn := { v.trn with input := l } }
    let p := rpktOf i.frame
    let count := fun (t : State) => (t.stat statRxSegs).statN statRxBytes p.body.length
    (u.powered 67 && u.powered 68) = true → u.trn.input = i :: l → (v.sess n).kind = 1 → w.sessGate n i = none →
    w.badBuf i.bufs i.frame.length = none → p.ok = true →
    (p.op = 0x81 → exec (.rocePacketReceive dt data) s =
      .next (s.ended (count (((w.stat statCnpRx).retireItem i).freeBufs i.holder i.bufs)))) ∧
    (p.op = 0x11 → p.ce = false → exec (.rocePacketReceive dt data) s = .next (s.ended (count (w.rdmaAeth n i p)))) ∧
    (p.op ≤ 5 → p.ce = false → seqGap 24 (w.sess n).rcvNxt p.psn = 0 →
      exec (.rocePacketReceive dt data) s = .next (s.ended (count (w.rdmaSend n i p))))) ∧
  (∀ (s t : State) (dt : Nat) (data : ReadData) (i : Item) (l : List Item) (x : State), let u := (s.advance dt)
    let n := i.fld fSESSION % 2 ^ 21
    let v := u.healSess n
    let w : State := { v with trn := { v.trn with input := l } }
    (u.powered 67 && u.powered 68) = true → u.trn.input = i :: l → (v.sess n).kind = 1 → w.sessGate n i = none →
    w.badBuf i.bufs i.frame.length = none → (rpktOf i.frame).ok = true → w.rdmaPacket n i data = (some t, x) →
    exec (.rocePacketReceive dt data) s =
      .next (s.ended ((t.stat statRxSegs).statN statRxBytes (rpktOf i.frame).body.length))) ∧
  (∀ (s : State) (dt : Nat) (entry : ReadData) (p : Pdu) (l : List Pdu), let u := s.advance dt
    let v : State := { u with trn := { u.trn with pdus := l } }
    u.trn.pdus = p :: l → ((u.sess p.session).st = 1 ∨ (u.sess p.session).st = 2) → hdgstOk (u.sess p.session) p.data = true →
    ddgstOk (u.sess p.session) p.data = true → leAt p.data 0 1 ≠ 6 → leAt p.data 0 1 ≠ 7 →
    exec (.nvmePduReceive dt entry) s = .next (s.ended (v.pduOut p p.data 0 false))) ∧
  (∀ (s r t : State) (dt : Nat) (e : List Byte) (p : Pdu) (l : List Pdu), let u := s.advance dt
    let v : State := { u with trn := { u.trn with pdus := l } }
    let x := u.sess p.session
    let who := some (BitVec.ofNat 16 x.owner)
    let body := slice p.data (pduData x p.data).1 (pduData x p.data).2
    u.trn.pdus = p :: l → (x.st = 1 ∨ x.st = 2) → hdgstOk x p.data = true → ddgstOk x p.data = true →
    (leAt p.data 0 1 = 6 ∨ leAt p.data 0 1 = 7) →
    v.unitRead who (Sess.f x 0x54 63 0 + 32 * (pduTag p.data % 2 ^ Sess.f x 0x50 20 16)) 32 (.ok e) = (some (some e), r) →
    placeMiss x p.data e = none → bit (leAt e 2 1) 6 = false → body ≠ [] →
    r.unitPut 6 who (leAt e 8 8 + leAt p.data 12 4) body = (some true, t) →
    exec (.nvmePduReceive dt (.ok e)) s = .next (s.ended (t.pduOut p (p.data.take (leAt p.data 2 1)) 0x80 true))) ∧
  (∀ (s : State) (dt : Nat) (n : BitVec 21) (x : Nat), let u := s.advance dt
    (u.sess n.toNat).ackAt = some x → (u.sess n.toNat).st = 1 → u.trnOn = true →
    u.trnDue x (usec (u.regBits (TRN + 0x204) 9 0)) = true →
    exec (.ackDelayExpire dt n) s = .next (s.ended (u.sendAck n.toNat))) ∧
  (∀ (s : State) (dt : Nat) (n : BitVec 21), let u := (s.advance dt).healSess n.toNat
    u.trnOn = true → (u.sess n.toNat).st = 1 →
    exec (.sessionSend dt n) s =
      .next (s.ended (if (u.sess n.toNat).kind = 1 then u.rdmaSendNext n.toNat else u.tcpSend n.toNat))) ∧
  (∀ (s : State) (dt : Nat) (n : BitVec 21) (x : Nat), let u := s.advance dt
    (u.sess n.toNat).rtoAt = some x → (u.sess n.toNat).st = 1 → u.trnOn = true →
    u.trnDue x (usec (u.rtoBound (u.sess n.toNat).rto)) = true →
    (u.sess n.toNat).retries + 1 < u.regBits (TRN + 0x210) 4 0 →
    exec (.retransmissionTimeout dt n) s = .next (s.ended (
      if (u.sess n.toNat).kind = 1 then u.modSess n.toNat (fun y => Sess.setF { y with
        retries := y.retries + 1, resend := some y.una, timed := none, rtoAt := some u.trnTime } 0x38 31 0 (u.rtoBound (2 * y.rto)))
      else u.tcpTimeout n.toNat)))

/-! Chapter 10: the traffic manager. -/

/-- R236 to R240, R245, R247 to R251, R255: arrivals, refills, heads that wait too long, policers and commands. -/
def Obligations.TrafficCommandsComplete : Prop :=
  (∀ (s : State) (dt : Nat) (i : Item) (leaf : Nat) (l : List (Item × Nat)), let u := s.advance dt
    u.tmg.input = (i, leaf) :: l →
    exec (.tmgEnqueue dt) s = .next (s.ended ({ u with tmg := { u.tmg with input := l } }.arrive i leaf))) ∧
  (∀ (s : State) (dt : Nat), let n := (s.advance dt).refillsDue
    n ≠ 0 → s.tmg.pend = [] →
    Completes (.shaperRefill dt) s (fun t => t.tmg.busy = false ∧ t.tmg.pend = [] ∧
      t.tmg.leaf = s.tmg.leaf.map (fun e => (e.1, { e.2 with level := refilled n e.2.rate e.2.burst e.2.level })) ∧
      t.tmg.refillAt = s.tmg.refillAt + 1024 * n ∧
      ({ t.rest with tmg := {} } : State) = { s.rest with tmg := {} })) ∧
  (∀ (s : State) (dt : Nat), (s.advance dt).refillsDue = 0 →
    exec (.shaperRefill dt) s = .next (s.ended (s.advance dt))) ∧
  (∀ (s : State) (dt : Nat) (k : Fin 128) (leaf x : Nat) (f : TmFrame) (l : List TmFrame), let u := s.advance dt
    let v : State := { u with tmg := { u.tmg with head := Map.del u.tmg.head k.val } }
    let w := (v.count (tmgHeadExpire k.val)).tmgEvent 1
    Map.get u.tmg.head k.val = some (leaf, x) → u.regBits (TMG + 0xC04 + 8 * k.val) 15 0 ≠ 0 →
    u.due x (msec (u.regBits (TMG + 0xC04 + 8 * k.val) 15 0)) = true → (u.node 0 leaf).frames = f :: l →
    exec (.headExpire dt k) s =
      .next (s.ended (((w.modNode 0 leaf (fun n => { n with frames := l })).emptied leaf (w.parentOf 0 leaf)
        (w.parentOf 1 (w.parentOf 0 leaf))).dropItem f.item))) ∧
  (∀ (s : State) (v : Word),
    let w := fun (op : Nat) => BitVec.ofNat 32 (putBits v.toNat 3 0 op)
    let u := fun (op : Nat) => s.setReg tmgCmd (w op &&& 0x71F)
    s.cmdTaken tmgCmd = true → s.tmg.busy = false →
    exec (.tmgRead v) s =
      .next (s.ended ((u 1).tmgRead (bits (w 1).toNat 10 8) ((u 1).regBits tmgIndex 19 0) (bit (w 1).toNat 4))) ∧
    exec (.tmgWrite v) s = .next (s.ended ((u 2).tmgWrite (bits (w 2).toNat 10 8) ((u 2).regBits tmgIndex 19 0)))) ∧
  (∀ (s : State) (a : Nat) (v : Word) (r : RegRow) (i j : Nat),
    s.cmdTaken a = true → findReg a = some (r, i, j, 0) → TMG + 0x100 ≤ a → a < TMG + 0xC00 → r.acc = .rwg →
    tmgRateOk a v = true →
    exec (.tmgRateWrite a v) s = .next (s.ended { s with tmg := { s.tmg with
      pend := s.tmg.pend ++ [.reg a (v &&& BitVec.ofNat 32 r.mask)] } })) ∧
  (∀ (s : State) (dt : Nat) (i : Item) (p : Fin 4) (l : List (Item × Fin 4)), let u := s.advance dt
    let v : State := { u with tmg := { u.tmg with polIn := l } }
    let q := bits (i.fld fPOLICER) 17 0
    let need : Int := ((frameLen (i.fld fLEN) : Nat) + (v.node 3 q).overhead) * 8000
    u.tmg.polIn = (i, p) :: l → q < v.nodeCap 3 → (v.node 3 q).en = true → need ≤ (v.node 3 q).level →
    exec (.policerDecision dt) s = .next (s.ended ((v.modNode 3 q (fun n => { n with
      level := n.level - need
      words := BitVec.ofNat 256 (putBits n.words.toNat 255 192 (bits n.words.toNat 255 192 + 1)) })).afterPolicer p.val i)))

/-! Chapter 11: the host endpoint. -/

/-- R257 to R261, R268, R269, R431, R434: the link, power states, Bus Master Enable, resets of PF0 and its configuration
space; a configuration request that comes before the function is ready, or during a reset, is answered with Request Retry
Status. -/
def Obligations.LinkStateCommandsComplete : Prop :=
  (∀ (s : State) (w : BitVec 5) (r : BitVec 4) (f x : Bool),
    s.hep.up = false → linkOk w r f = true → s.powered 1 = true → s.powered 2 = true →
    exec (.pcieLinkUp w r f x) s =
      .next (s.ended { s with hep := { s.hep with up := true, width := w, rate := r, flit := f, sris := x } })) ∧
  (∀ (s : State) (w : BitVec 5) (r : BitVec 4) (f : Bool),
    s.hep.up = true → linkOk w r f = true →
    Completes (.pcieLinkRateChange w r f) s (fun t => t.hep.up = true ∧ t.hep.width = w ∧ t.hep.rate = r ∧ t.hep.flit = f ∧
      (t.getReg hepEvt).getLsbD 1 = true ∧ t.rest = s.rest)) ∧
  (∀ (s : State) (dt : Nat), s.hep.up = true →
    Completes (.pcieLinkDown dt false) s (fun t => t.hep.up = false ∧ t.hep.bme = false ∧ t.hep.mse = false ∧
      t.hep.msix = false ∧ t.hep.ats = false ∧ t.hep.tags = [] ∧ (t.getReg hepEvt).getLsbD 0 = true)) ∧
  (∀ (s : State) (dt : Nat), s.hep.up = true →
    Completes (.pcieLinkDown dt true) s (fun t => t.hep.bme = false ∧ t.hep.mse = false ∧ t.hep.tags = [])) ∧
  (∀ (s : State) (dt : Nat),
    Completes (.perst dt) s (fun t => t.hep.aer = [] ∧ t.hep.cfg = [] ∧ t.hep.bme = false ∧ t.hep.mse = false ∧ t.hep.tags = [])) ∧
  (∀ (s : State) (dt : Nat), let u := (s.advance dt).rxRequest
    s.hep.up = true → s.hep.crs = false → s.hep.flrAt = none →
    exec (.d3hotEntry dt) s = .next (s.ended (
      let v := { u with hep := { u.hep with d3 := true } }
      (if u.bmeOn then v.loseMaster else v).stat statTxTlp))) ∧
  (∀ (s : State) (dt : Nat), let u := (s.advance dt).rxRequest
    s.hep.up = true → s.hep.crs = false → s.hep.flrAt = none →
    exec (.bmeClear dt) s = .next (s.ended (
      let v := { u with hep := { u.hep with bme := false } }
      (if u.bmeOn then v.loseMaster else v).stat statTxTlp))) ∧
  (∀ (s : State) (dt : Nat), let u := (s.advance dt).rxRequest
    s.hep.up = true → s.hep.crs = false → s.hep.flrAt = none →
    exec (.bmeSet dt) s = .next (s.ended ({ u with hep := { u.hep with bme := true } }.gainMaster.stat statTxTlp))) ∧
  (∀ (s : State) (dt : Nat) (c : CfgChange), s.hep.up = true → s.hep.crs = true ∨ s.hep.flrAt ≠ none →
    let r := ((s.advance dt).rxRequest).reply .cfgRetry
    exec (.configurationWrite dt c) s = .next (s.ended r) ∧ exec (.functionLevelReset dt) s = .next (s.ended r) ∧
    exec (.bmeSet dt) s = .next (s.ended r)) ∧
  (∀ (s : State) (dt : Nat), s.hep.up = true → s.hep.crs = false → s.hep.flrAt = none →
    Completes (.functionLevelReset dt) s (fun t => t.hep.tags = [] ∧ t.hep.cache = [] ∧ t.staging = [] ∧ t.arms = [] ∧
      t.nowLatch = none)) ∧
  (∀ (s : State) (dt x : Nat), s.hep.flrAt = some x →
    exec (.flrDone dt) s = .next (s.ended (
      let u := (s.advance dt).cfgReset
      let v : State := { u with hep := { u.hep with flrAt := none } }
      ((v.qim.inst.foldl (fun (w : State) (e : Nat × Inst) => w.endReset e.1) v).idleManagers).hepEvent 2))) ∧
  (∀ (s : State) (dt x n : Nat) (l : List Nat), (x, n, l) ∈ s.hep.quarAt → x + n ≤ s.clock + dt →
    let stays := s.hep.quarAt.filter (fun (e : Nat × Nat × List Nat) => !decide (e.1 + e.2.1 ≤ s.clock + dt))
    exec (.tagQuarantineEnd dt) s =
      .next (s.ended ({ s.advance dt with hep := { s.hep with
        quar := stays.flatMap (fun (e : Nat × Nat × List Nat) => e.2.2), quarAt := stays } }.retryFlush))) ∧
  (∀ (s : State) (dt : Nat) (on : Bool), let u := (s.advance dt).rxRequest
    s.hep.up = true → s.hep.crs = false → s.hep.flrAt = none →
    exec (.configurationWrite dt (.memorySpace on)) s = .next (s.ended ({ u with hep := { u.hep with mse := on } }.stat statTxTlp)) ∧
    exec (.configurationWrite dt (.msixEnable on)) s =
      .next (s.ended ({ u with hep := { u.hep with msix := on } }.sweepIv.stat statTxTlp)) ∧
    exec (.configurationWrite dt (.functionMask on)) s =
      .next (s.ended ({ u with hep := { u.hep with fmask := on } }.sweepIv.stat statTxTlp)) ∧
    exec (.configurationWrite dt (.interruptDisable on)) s =
      .next (s.ended ({ u with hep := { u.hep with intxDis := on } }.stat statTxTlp)) ∧
    exec (.configurationWrite dt (.pasidEnable on)) s =
      .next (s.ended ({ u with hep := { u.hep with pasid := on } }.stat statTxTlp)) ∧
    exec (.configurationWrite dt (.atsEnable on)) s = .next (s.ended ({ u with hep := { u.hep with
      ats := on, cache := if on then u.hep.cache else [], denied := if on then u.hep.denied else [] } }.stat statTxTlp)) ∧
    (∀ code, exec (.configurationWrite dt (.completionTimeout code)) s =
      .next (s.ended ({ u with hep := { u.hep with cto := code } }.stat statTxTlp))) ∧
    (s.hep.d3 = true → exec (.configurationWrite dt .toD0) s =
      .next (s.ended ({ u with hep := { u.hep with d3 := false } }.gainMaster.stat statTxTlp)))) ∧
  (∀ (s : State) (dt : Nat) (off : BitVec 12) (d : List Byte), let u := (s.advance dt).rxRequest
    s.hep.up = true → s.hep.crs = false → s.hep.flrAt = none →
    exec (.configurationWrite dt (.read off.toNat)) s = .next (s.ended ((u.emit (.readData
      (leBytes 4 (u.cfgDword (off.toNat / 4 * 4)).toNat))).stat statTxTlp)) ∧
    exec (.configurationWrite dt (.write off.toNat d)) s = .next (s.ended ((u.cfgWrite off.toNat d).stat statTxTlp))) ∧
  (∀ (s : State) (dt : Nat) (v : Word), s.hep.up = true → s.hep.crs = false → s.hep.flrAt = none →
    Completes (.configurationWrite dt (.write 0x10 (leBytes 4 v.toNat))) s (fun t =>
      t.cfgDword 0x10 &&& 0xFC000000 = v &&& 0xFC000000))

/-- R263 to R267, R273 to R278: peer windows, completions and timeouts, vectors, ATS and SPDM requests. -/
def Obligations.RequestCommandsComplete : Prop :=
  (∀ (s : State) (rid : BitVec 16) (off n : Nat),
    let u := s.rxRequest
    let e := Map.at_ s.hep.win (off / 2 ^ 28) (0, 0)
    let a := e.2.toNat + off % 2 ^ 28
    u.barOpen = true → closedWin e rid (off % 2 ^ 28) n false = false → u.accessBad a n = false → u.readBad a n = false →
    exec (.peerWindowTlp rid off (.read n) .ok) s = .next (s.ended (u.reply (.readData (u.readBytes a n))))) ∧
  (∀ (s : State) (rid : BitVec 16) (off : Nat) (d : List Byte),
    let u := s.rxPosted d.length
    let e := Map.at_ s.hep.win (off / 2 ^ 28) (0, 0)
    let a := e.2.toNat + off % 2 ^ 28
    u.barOpen = true → closedWin e rid (off % 2 ^ 28) d.length true = false → u.accessBad a d.length = false →
    exec (.peerWindowTlp rid off (.write d) .ok) s = .next (s.ended (u.land a d))) ∧
  (∀ (s : State) (rid : BitVec 16) (off n : Nat),
    let u := s.rxRequest
    let e := Map.at_ s.hep.win (off / 2 ^ 28) (0, 0)
    u.barOpen = true → closedWin e rid (off % 2 ^ 28) n false = true →
    exec (.peerWindowTlp rid off (.read n) .ok) s =
      .next (s.ended (((u.count cntWinClosed).hepEvent 3).barRefuse 4 off))) ∧
  (∀ (s : State) (rid : BitVec 16) (off n : Nat), let u := s.rxRequest
    u.barOpen = true → closedWin (Map.at_ s.hep.win (off / 2 ^ 28) (0, 0)) rid (off % 2 ^ 28) n false = false →
    exec (.peerWindowTlp rid off (.read n) .late) s =
      .next (s.ended ((u.aerLog .completerAbort).reply (.completerAbort off)))) ∧
  (∀ (s : State) (v : Word),
    s.cmdTaken hepWinCmd = true → s.winBusy = false → v.getLsbD 0 = true → (∀ w, w < 256 → badWin (s.stagedWin w) = false) →
    Completes (.hepWinCommit v) s (fun t => t.hep.winStat = 0 ∧
      (∀ w, w < 256 → Map.at_ t.hep.win w (0, 0) = s.stagedWin w) ∧ t.rest = s.rest ∧ t.regs = s.regs)) ∧
  (∀ (s : State) (v : Word) (w : Nat),
    s.cmdTaken hepWinCmd = true → s.winBusy = false → v.getLsbD 0 = true → w < 256 → badWin (s.stagedWin w) = true →
    exec (.hepWinCommit v) s = .next (s.ended { s with hep := { s.hep with winStat := 3 } })) ∧
  (∀ (s : State) (dt : Nat) (tag : BitVec 14) (d : List Byte) (use : TagUse),
    let u := (s.advance dt).rxCpl 0 d.length
    Map.get u.hep.tags tag.toNat = some use →
    exec (.pcieCompletionReceive dt tag (.ok d)) s =
      .next (s.ended (((u.dropTag tag.toNat).readEnded use (some d)).retryFlush))) ∧
  (∀ (s : State) (dt : Nat) (tag : BitVec 14) (use : TagUse),
    let u := (s.advance dt).rxCpl 0 0
    Map.get u.hep.tags tag.toNat = some use →
    exec (.pcieCompletionReceive dt tag .error) s =
      .next (s.ended (((u.dropTag tag.toNat).readEnded use none).retryFlush)) ∧
    exec (.pcieCompletionReceive dt tag .poisoned) s =
      .next (s.ended ((((u.dropTag tag.toNat).aerLog .poisoned).readEnded use none).retryFlush))) ∧
  (∀ (s : State) (dt : Nat) (tag : BitVec 14), let u := (s.advance dt).rxCpl 0 0
    u.ecrcOn = true →
    exec (.pcieCompletionReceive dt tag .badEcrc) s = .next (s.ended (u.aerLog .ecrc))) ∧
  (∀ (s : State) (dt : Nat) (tag : BitVec 14) (use : TagUse), let u := s.advance dt
    Map.get u.hep.tags tag.toNat = some use →
    exec (.completionTimeout dt tag) s = .next (s.ended
      ((u.dropTag tag.toNat).readEnded use none).timedOut.retryFlush)) ∧
  (∀ (s : State) (v : BitVec 11), s.msixOpen v.toNat = true →
    exec (.msixVectorFire v) s = .next (s.ended (((s.emit (s.msixMessage v.toNat)).stat intrSent).stat statTxTlp))) ∧
  (∀ (s : State) (v : BitVec 11), s.msixOpen v.toNat = false →
    exec (.msixVectorFire v) s = .next (s.ended (if v.toNat ∈ s.hep.pend then s
      else { s with hep := { s.hep with pend := s.hep.pend ++ [v.toNat] } }))) ∧
  (∀ (s : State) (v : BitVec 11), v.toNat ∈ s.hep.pend → s.msixOpen v.toNat = true →
    Completes (.msixPendingSend v) s (fun t => s.msixMessage v.toNat ∈ t.out ∧ t.hep.pend = s.hep.pend.erase v.toNat ∧
      t.rest = s.rest)) ∧
  (∀ (s : State) (v : BitVec 18) (g : Byte) (i : Nat) (x : Inst),
    s.qim.inst.find? (fun e => decide (e.2.st ≠ .free ∧ e.2.vbase ≤ v.toNat ∧ v.toNat < e.2.vbase + e.2.vcount)) = some (i, x) →
    x.gen = g →
    exec (.instanceVectorFire v g) s = .next (s.ended (s.fireInst i (v.toNat - x.vbase)))) ∧
  (∀ (s : State) (v : Word), s.cmdTaken hepIvCmd = true →
    let u := fun (op : Nat) => s.setReg hepIvCmd (BitVec.ofNat 32 (putBits v.toNat 3 0 op) &&& 0xF)
    let n := s.regBits hepIvIndex 17 0
    let d : BitVec 128 := s.getReg (hepIvData 3) ++ s.getReg (hepIvData 2) ++ s.getReg (hepIvData 1) ++ s.getReg (hepIvData 0)
    let e := (d &&& ((0xC000FFFF <<< 96) ||| 0xFFFFFFFFFFFFFFFFFFFFFFFC)) ||| (s.iv n &&& (3 <<< 124))
    exec (.ivRead v) s = .next (s.ended (
      let w := (List.range 4).foldl (fun (w : State) k => w.setReg (hepIvData k) ((s.iv n).extractLsb' (32 * k) 32)) (u 1)
      { w with hep := { w.hep with ivStat := 0 } })) ∧
    ((d.extractLsb' 96 16).toNat < s.instCap → e.getLsbD 125 = false → e ≠ s.hep.ivDflt →
      Completes (.ivWrite v) s (fun t => t.iv n = e ∧ t.hep.ivStat = 0 ∧ t.rest = s.rest))) ∧
  (∀ (s : State) (dt : Nat) (p : Option (BitVec 20)) (page x : Nat) (w : AtsWait),
    s.hep.ats = true → w ∈ s.hep.atsWait → w.pasid = p → w.page = page →
    (∀ i ∈ s.hep.inval, i.covers p page = false) → s.hep.cache.length < 65536 →
    Completes (.atsTranslationResult dt p page (some x)) s (fun t => Map.get t.hep.cache (atsKey p page) = some x ∧
      ∀ y ∈ t.hep.atsWait, y.pasid ≠ p ∨ y.page ≠ page)) ∧
  (∀ (s : State) (c : AtsScope) (page pages : Nat) (itag : BitVec 5), s.hep.tags = [] → s.hep.inval = [] →
    (∀ e ∈ s.dma.ch, e.2.queue = []) →
    Completes (.atsInvalidateRequest c page pages itag) s (fun t => Out.atsInvalidated itag ∈ t.out ∧ t.hep.inval = [] ∧
      ∀ (q : Option (BitVec 20)) (n : Nat), (c = .global ∨ (c = .untagged ∧ q = none) ∨ ∃ r, c = .pasid r ∧ q = some r) →
        page ≤ n → n < page + pages → n < 2 ^ 52 → Map.get t.hep.cache (atsKey q n) = none)) ∧
  (∀ (s : State) (dt : Nat) (r : List Byte), let u := (s.advance dt).rxRequest
    s.hep.up = true → s.hep.crs = false → s.hep.flrAt = none → r.length ≤ 4088 → s.hep.doe = none → spdmKind r = 1 →
    exec (.spdmRequest dt r) s = .next (s.ended ((u.spdmSay r spdmVersion).stat statTxTlp))) ∧
  (∀ (s : State) (dt : Nat) (r : List Byte), let u := (s.advance dt).rxRequest
    s.hep.up = true → s.hep.crs = false → s.hep.flrAt = none → r.length ≤ 4088 → s.hep.doe = none → beAt r 0 1 = 0x12 →
    s.hep.spdm ≠ 0 →
    (spdmKind r = 2 → exec (.spdmRequest dt r) s = .next (s.ended ((u.spdmSay r spdmCapabilities).stat statTxTlp))) ∧
    (spdmKind r = 3 → exec (.spdmRequest dt r) s = .next (s.ended ((u.spdmSay r (spdmAlgorithms r)).stat statTxTlp))) ∧
    (∀ a, 3 ≤ s.hep.spdm → spdmKind r = 7 → s.field.life ≠ 3 → measSigned r = false →
      u.measAnswer r (u.freeBytes 32) = some a →
      exec (.spdmRequest dt r) s = .next (s.ended ((u.drawn.spdmSay r a).stat statTxTlp))) ∧
    (3 ≤ s.hep.spdm → spdmKind r = 5 → beAt r 2 1 % 16 ≤ 1 → s.gloveH.peerUp = true →
      exec (.spdmRequest dt r) s = .next (s.ended
        (({ u with hep := { u.hep with doe := some r } }.spdmAsk 0x2F32 (beAt r 2 1 % 16 + 1) 0 none).stat statTxTlp)))) ∧
  (∀ (s : State) (dt : Nat) (r : List Byte), let u := (s.advance dt).rxRequest
    s.hep.up = true → s.hep.crs = false → s.hep.flrAt = none → 4088 < r.length →
    exec (.spdmRequest dt r) s = .next (s.ended ({ u with hep := { u.hep with doeErr := true } }.stat statTxTlp)))

/-! Chapter 12: queues. -/

/-- R286 to R307, R312: fetching, entries, completions, placement, stalls, the admin queue's tail and instance events. -/
def Obligations.QueueCommandsComplete : Prop :=
  (∀ (s v w : State) (dt : Nat) (q : BitVec 20) (b : List Byte), let u := s.advance dt
    let x := u.queue q.toNat
    let at_ := x.head + BitVec.ofNat 32 x.fetched.length
    let room := min ((x.tail - x.head).toNat + 64 - x.fetched.length) (x.size - at_.toNat % x.size)
    let all := x.fetched ++ slotsOf room b
    let r := x.goodSlots all.length x.head all
    u.mayFetch q.toNat = true → x.stopped = false → u.place q.toNat = (true, v) → slotsOf room b ≠ [] →
    v.unitRead x.owner (x.ring.toNat + 16 * (at_.toNat % x.size)) (16 * (slotsOf room b).length) (.ok b) = (some (some b), w) →
    exec (.workFetch dt q (.ok b)) s =
      .next (s.ended (w.modQueue q.toNat (fun y => { y with fetched := r.1, stopped := !r.2 })))) ∧
  (∀ (s v : State) (dt : Nat) (q : BitVec 20) (r : ReadData) (h : List Byte) (l : List (List Byte)),
    let u := (s.advance dt).settleSends
    let x := u.queue q.toNat
    let n := x.taken x.head h
    u.pipeHolds x = false → x.ents.find? (fun e => e.waits x.kind) = none → x.fetched = h :: l → u.mayFetch q.toNat = true →
    n ≤ x.fetched.length → n ≤ (x.tail - x.head).toNat → entryLen h ≤ n → leAt (x.fetched.take n).flatten 1 1 = 0 →
    u.passHead q.toNat n true = (true, v) →
    exec (.entryBegin dt q r true) s = .next (s.ended v)) ∧
  (∀ (s v w z : State) (dt : Nat) (q : BitVec 20) (h : List Byte) (r : ReadData) (g : Option (List Byte))
    (l : List (List Byte)), let u := (s.advance dt).settleSends
    let x := u.queue q.toNat
    let n := x.taken x.head h
    let b := (x.fetched.take n).flatten
    x.ents.find? (fun e => e.waits x.kind) = none → x.fetched = h :: l → u.mayFetch q.toNat = true →
    n ≤ x.fetched.length → n ≤ (x.tail - x.head).toNat → entryLen h ≤ n → leAt b 1 1 ≠ 0 → 2 < x.kind →
    u.place q.toNat = (true, v) → v.malformed q.toNat b false = false → v.entryRead x b r = (some g, w) →
    w.passHead q.toNat n true = (true, z) →
    exec (.entryBegin dt q r true) s = .next (s.ended ((z.addEntry q.toNat b x.stampAt).goEntry q.toNat x.entNo b
      x.stampAt (entryData x.kind (leAt b 1 1) b g) none))) ∧
  (∀ (s v w z y : State) (dt : Nat) (q : BitVec 20) (h : List Byte) (r : ReadData) (g : Option (List Byte))
    (l : List (List Byte)) (buf : Word),
    let u := (s.advance dt).settleSends
    let x := u.queue q.toNat
    let n := x.taken x.head h
    let b := (x.fetched.take n).flatten
    u.pipeHolds x = false → x.ents.find? (fun e => e.waits x.kind) = none → x.fetched = h :: l → u.mayFetch q.toNat = true →
    n ≤ x.fetched.length → n ≤ (x.tail - x.head).toNat → entryLen h ≤ n → leAt b 1 1 ≠ 0 → x.kind ≤ 2 →
    u.txWaits x = false → u.place q.toNat = (true, v) → v.malformed q.toNat b false = false →
    v.entryRead x b r = (some g, w) → w.passHead q.toNat n true = (true, z) →
    (z.addEntry q.toNat b x.stampAt).txBuffer x (entryBytes x.kind (leAt b 1 1) b) = (some buf, y) →
    exec (.entryBegin dt q r true) s = .next (s.ended (y.goEntry q.toNat x.entNo b
      x.stampAt (entryData x.kind (leAt b 1 1) b g) (some buf)))) ∧
  (∀ (s : State) (dt : Nat) (q : BitVec 20), let u := s.advance dt
    exec (.completionWrite dt q) s = .next (s.ended (
      if (u.queue q.toNat).kind = 7 then u.flushCq q.toNat else (u.settleSends.coverDue q.toNat).tryDisable q.toNat))) ∧
  (∀ (s v : State) (dt : Nat) (d : Delivery) (l : List Delivery), let u := s.advance dt
    let w : State := { u with qim := { u.qim with deliv := l } }
    u.qim.deliv = d :: l → (d.gen = none ∨ d.gen = some (w.queueGen d.queue)) → (w.queue d.queue).kind = 3 →
    (w.queue d.queue).st = .enabled → w.ownerRuns (w.queue d.queue) = true → (w.queue d.queue).back = [] →
    (∀ x, w.putItem d = (some v, x) → exec (.receivePlacement dt) s = .next (s.ended v)) ∧
    (w.putItem d = (none, v) → exec (.receivePlacement dt) s = .next (s.ended (v.toBacklog d)))) ∧
  (∀ (s v w : State) (dt : Nat) (q : BitVec 20) (d : Delivery) (l : List Delivery), let u := s.advance dt
    (u.queue q.toNat).back = d :: l → (u.queue q.toNat).st = .enabled → u.ownerRuns (u.queue q.toNat) = true →
    (u.queue q.toNat).owner = none → u.putItem d = (some v, w) →
    exec (.backlogPlacement dt q) s = .next (s.ended (v.modQueue q.toNat (fun x => { x with back := l })))) ∧
  (∀ (s : State) (dt : Nat) (q : BitVec 20) (x : Nat) (i : BitVec 16), let u := s.advance dt
    (u.queue q.toNat).fullAt = some x → (u.queue q.toNat).kind = 7 → u.due x (msec (u.regBits qimCqStall 15 0)) = true →
    (u.queue q.toNat).owner = some i → (u.inst i.toNat).st = .active →
    Completes (.cqStallExpire dt q) s (fun t => (t.inst i.toNat).st = .error)) ∧
  (∀ (s : State) (v : Word), s.cmdTaken qimAqTail = true →
    0 ≤ (v - s.getReg qimAqTail).toInt → (v - s.qim.aqHead).toNat ≤ 2 ^ s.regBits qimAqCfg 4 0 →
    exec (.adminTailWrite v) s = .next (s.ended (s.setReg qimAqTail v))) ∧
  (∀ (s : State) (dt : Nat) (i : BitVec 16) (x : Nat) (b : Bool), let u := s.advance dt
    (u.inst i.toNat).resetAt = some (x, b) → x + usec 2 ≤ u.clock →
    exec (.instanceResetDone dt i) s = .next (s.ended (u.endReset i.toNat))) ∧
  (∀ (s : State) (v : Word), s.cmdTaken (QIM + 0xA8) = true → v.getLsbD 0 = true →
    exec (.qimIevtNext v) s = .next (s.ended { s with qim := { s.qim with ievt := s.qim.ievt.drop 1 } }))

/-! Chapter 13: DMA. -/

/-- R316 to R325, R340: a channel starts, is aborted and resumed, runs its instructions and ends. -/
def Obligations.ChannelCommandsComplete : Prop :=
  (∀ (s : State) (dt : Nat) (c : BitVec 12) (v : Word) (prog : ReadData), let u := s.advance dt
    u.cmdTaken (dmaCmd c.toNat) = true → 512 ≤ c.toNat → bits v.toNat 3 0 = 1 → (u.chan c.toNat).st = .idle →
    exec (.dmaStart dt c v prog) s = .next (s.ended ((u.setReg (dmaCmd c.toNat) (v &&& 0x3F)).startProg c.toNat
      (bits v.toNat 5 4 = 1) ((u.setReg (dmaCmd c.toNat) (v &&& 0x3F)).getReg64 (dmaPaddr c.toNat)) none prog))) ∧
  (∀ (s : State) (c : BitVec 12) (v : Word),
    s.cmdTaken (dmaCmd c.toNat) = true → 512 ≤ c.toNat → bits v.toNat 3 0 = 2 → (s.chan c.toNat).st ≠ .idle →
    exec (.dmaAbort c v) s = .next (s.ended ((s.setReg (dmaCmd c.toNat) (v &&& 0x3F)).endProg c.toNat 0x13))) ∧
  (∀ (s : State) (c : BitVec 12) (v : Word) (prog : ReadData),
    let u := (s.setReg (dmaCmd c.toNat) (v &&& 0x3F)).modChan c.toNat (fun x => { x with st := .running, issued := 0 })
    let x := s.chan c.toNat
    s.cmdTaken (dmaCmd c.toNat) = true → 512 ≤ c.toNat → bits v.toNat 3 0 = 3 → x.st = .haltedBme → s.bmeOn = true →
    x.ending = none → x.flush = 0 → x.prog ≠ [] →
    exec (.dmaResume c v prog) s = .next (s.ended (u.enterInstr c.toNat))) ∧
  (∀ (s : State) (dt : Nat) (c : BitVec 12), let u := s.advance dt
    u.chReady c.toNat (u.chan c.toNat) = true → u.arbiter = some c.toNat →
    exec (.dmaMove dt c) s = .next (s.ended (u.moveBurst c.toNat))) ∧
  (∀ (s : State) (dt : Nat) (c : BitVec 12), let u := s.advance dt
    let x := u.chan c.toNat
    let b := x.instr x.pc
    let runs := Map.at_ x.loops x.pc 0 + 1
    x.active = true → x.flush = 0 → x.op = 2 →
    exec (.dmaLoop dt c) s = .next (s.ended (
      if runs < leAt b 8 4 then
        (u.modChan c.toNat (fun y => { y with loops := Map.put y.loops y.pc runs })).gotoInstr c.toNat (leAt b 4 2)
      else (u.modChan c.toNat (fun y => { y with loops := Map.del y.loops y.pc })).gotoInstr c.toNat (x.pc + 1)))) ∧
  (∀ (s : State) (dt : Nat) (c : BitVec 12), let u := s.advance dt
    let x := u.chan c.toNat
    x.active = true → x.flush = 0 → x.op = 3 →
    exec (.dmaWait dt c) s = .next (s.ended (
      if u.waitMet (x.instr x.pc) then u.gotoInstr c.toNat (x.pc + 1)
      else u.modChan c.toNat (fun y => { y with st := .waiting, waitAt := u.repTime 2 })))) ∧
  (∀ (s : State) (c : BitVec 12), (s.chan c.toNat).st = .waiting →
    s.waitMet ((s.chan c.toNat).instr (s.chan c.toNat).pc) = true →
    exec (.dmaWaitSatisfied c) s = .next (s.ended (s.gotoInstr c.toNat ((s.chan c.toNat).pc + 1)))) ∧
  (∀ (s : State) (dt : Nat) (c : BitVec 12), let u := s.advance dt
    let n := leAt ((u.chan c.toNat).instr (u.chan c.toNat).pc) 12 4
    (u.chan c.toNat).st = .waiting → n ≠ 0 → (u.chan c.toNat).waitAt + usec n ≤ u.repTime 2 →
    exec (.dmaWaitTimeout dt c) s = .next (s.ended (u.endProg c.toNat 0x12))) ∧
  (∀ (s : State) (dt : Nat) (c : BitVec 12), let u := s.advance dt
    let x := u.chan c.toNat
    let b := x.instr x.pc
    let r := dmaSync (leAt b 4 2)
    x.active = true → x.flush = 0 → x.op = 4 → x.queue = [] → bit (leAt b 1 1) 0 = false →
    exec (.dmaSignal dt c) s =
      .next (s.ended ((u.setReg r (u.getReg r + BitVec.ofNat 32 (leAt b 8 4))).gotoInstr c.toNat (x.pc + 1)))) ∧
  (∀ (s : State) (dt : Nat) (c : BitVec 12), let u := s.advance dt
    (u.chan c.toNat).active = true → (u.chan c.toNat).flush = 0 → (u.chan c.toNat).op = 5 →
    exec (.dmaEnd dt c) s = .next (s.ended (u.endProg c.toNat 0))) ∧
  (∀ (s : State) (dt : Nat) (c : BitVec 12), let u := s.advance dt
    let x := u.chan c.toNat
    let mine := fun (y : TagUse) => match y with
      | .flush d run _ => d = c.toNat && run = x.run
      | .dma .. => false
    let v := { u with hep := { u.hep with tags := u.hep.tags.filter (fun e => !mine e.2) } }.checkInval.modChan
      c.toNat (fun y => { y with flush := 0 })
    x.flush = 2 → x.st = .running → x.ending = none →
    exec (.dmaFlushReadReturn dt c true) s = .next (s.ended (v.gotoInstr c.toNat (x.pc + 1))) ∧
    exec (.dmaFlushReadReturn dt c false) s = .next (s.ended (v.endProg c.toNat 0x14)))

/-! Chapter 13: memory and buffers. -/

/-- R327 to R329: the scrub, and the loss of HBM. -/
def Obligations.MemoryErrorsComplete : Prop :=
  (∀ (s : State) (dt : Nat), s.mem.hbmFail = false → s.mem.reduced = false →
    Completes (.hbmFail dt) s (fun t => t.mem.hbmFail = true ∧ (t.getReg (MEM + 0x004)).getLsbD 0 = true ∧
      t.mem.cells = s.mem.cells)) ∧
  (∀ (s : State), s.eccOf [] = .good ∧ (∀ b, s.eccOf [b] = .corrected) ∧ ∀ b c, b ≠ c → s.eccOf [b, c] = .uncorrectable) ∧
  (∀ (s : State) (dt a : Nat) (f : List (Fin 72)), let u := s.advance dt
    let w := a / 8 * 8
    u.mem.reduced = false → u.mem.hbmFail = false → u.powered 6 = true → a < 2 ^ 34 →
    (u.eccOf f = .good → exec (.patrolScrubRead dt a f) s = .next (s.ended (u.misread w f))) ∧
    (u.eccOf f = .corrected → exec (.patrolScrubRead dt a f) s = .next (s.ended ((u.misread w f).corrected w))) ∧
    (u.eccOf f = .uncorrectable → exec (.patrolScrubRead dt a f) s = .next (s.ended (
      if u.contextBase ≤ a ∧ a < u.ledgerBase then (u.uncorrectable w).areaBad else u.uncorrectable w)))) ∧
  (∀ (s : State) (dt a : Nat) (f : List (Fin 72)), let u := s.advance dt
    u.mem.reduced = false → u.mem.hbmFail = true → u.powered 6 = true → a < 2 ^ 34 →
    exec (.patrolScrubRead dt a f) s = .next (s.ended (
      if u.contextBase ≤ a ∧ a < u.ledgerBase then (u.uncorrectable (a / 8 * 8)).areaBad else u.uncorrectable (a / 8 * 8)))) ∧
  (∀ (s : State) (dt a : Nat) (f : List (Fin 72)), let u := s.advance dt
    let w := a / 8 * 8
    memOf a 1 = some 1 → u.powered (9 + (a - 0x001000000000) / 0x800000) = true →
    (u.eccOf f = .good → exec (.sramScrubRead dt (.sram a) f) s = .next (s.ended (u.misread w f))) ∧
    (u.eccOf f = .corrected → exec (.sramScrubRead dt (.sram a) f) s = .next (s.ended ((u.misread w f).corrected w))) ∧
    (u.eccOf f = .uncorrectable → exec (.sramScrubRead dt (.sram a) f) s = .next (s.ended (u.uncorrectable w)))) ∧
  (∀ (s : State) (dt k : Nat) (f : List (Fin 72)), let u := s.advance dt
    k < 524288 → u.powered 87 = true →
    (u.eccOf f = .corrected → exec (.sramScrubRead dt (.cache k) f) s = .next (s.ended (u.corrected (k * 64)))) ∧
    (u.eccOf f = .uncorrectable → Completes (.sramScrubRead dt (.cache k) f) s (fun t => k ∈ t.mem.badLines)))

/-- R333 to R339: pools, allocation, frees, the free caches, the double-free FIFO and the audit. -/
def Obligations.BufferCommandsComplete : Prop :=
  (∀ (s : State) (p : Fin 8) (v : Word),
    s.cmdTaken (bpmPoolCfg p.val) = true → s.poolEn p.val = false → v.getLsbD 31 = true →
    s.poolRefused p.val (bits v.toNat 23 0) = false → 0 < bits v.toNat 23 0 →
    Completes (.bpmPoolEnable p v) s (fun t => t.poolEn p.val = true ∧ t.poolCount p.val = bits v.toNat 23 0 ∧
      t.pool p.val = { ring := [(0, bits v.toNat 23 0)] } ∧ t.mem.cells = s.mem.cells ∧
      ({ t.rest with mem := {} } : State) = { s.rest with mem := {} })) ∧
  (∀ (s : State) (r : Fin 39) (i : BitVec 16) (hbm : Bool) (c : Fin 4),
    let p := (if hbm then 4 else 0) + c.val
    (s.mem.waits = [] ∨ reqWaits r.val = false) → s.quotaOk r.val i.toNat hbm c.val = true → s.poolEn p = true →
    0 < runCount (s.pool p).cache →
    Completes (.bufferAllocate r i hbm (.size c)) s (fun t => ∃ h,
      t.buf h = some { requester := r.val, inst := i.toNat, allocated := true, occ := none } ∧ t.mem.cells = s.mem.cells) ∧
    (∀ n, n ≠ 0 → sizeFor n = some c.val → Completes (.bufferAllocate r i hbm (.length n)) s (fun t => ∃ h,
      t.buf h = some { requester := r.val, inst := i.toNat, allocated := true, occ := none } ∧ t.mem.cells = s.mem.cells))) ∧
  (∀ (s : State) (r : Fin 39) (i : BitVec 16) (hbm : Bool) (n : Nat) (c : Fin 4), n ≠ 0 → sizeFor n = some c.val →
    s.mem.poison = [] →
    exec (.bufferAllocate r i hbm (.length n)) s = exec (.bufferAllocate r i hbm (.size c)) s) ∧
  (∀ (s : State) (r : Fin 39), exec (.bufferWaitServed r) s = .next (s.ended ((s.opWaitServed r.val).dropGrants))) ∧
  (∀ (s : State) (r : Fin 39) (w : BufReq), let p := (if w.hbm then 4 else 0) + w.size
    s.mem.waits.find? (fun w => w.requester = r.val) = some w → s.quotaOk r.val w.inst w.hbm w.size = true →
    s.poolEn p = true → 0 < runCount (s.pool p).cache →
    ∃ h, (s.opWaitServed r.val).mem.waits = s.mem.waits.erase w ∧
      (s.opWaitServed r.val).mem.granted = s.mem.granted ++ [(r.val, w.inst, h)]) ∧
  (∀ (s : State) (dt : Nat) (r : Fin 39) (h : Word) (a : Alloc), let u := s.advance dt
    u.poolEn (handlePool h) = true → handleIndex h < u.poolCount (handlePool h) → bits h.toNat 28 23 = 0 →
    (u.pool (handlePool h)).check = [] →
    u.buf h = some a → a.allocated = true →
    Completes (.bufferFree dt r h) s (fun t => (t.buf h).map (fun x => x.allocated) = some false ∧
      t.mem.cells = s.mem.cells ∧ ({ t.rest with mem := {}, prt := {} } : State) = { s.rest with mem := {}, prt := {} })) ∧
  (∀ (s : State) (dt : Nat) (r : Fin 39) (h : Word), let u := s.advance dt
    let last := ((u.buf h).map (·.requester)).getD 0
    u.poolEn (handlePool h) = true → handleIndex h < u.poolCount (handlePool h) → bits h.toNat 28 23 = 0 →
    (u.pool (handlePool h)).check = [] →
    (∀ a, u.buf h = some a → a.allocated = false) → u.mem.df.length < 16 →
    Completes (.bufferFree dt r h) s (fun t => t.mem.df = s.mem.df ++ [{ handle := h, by_ := r.val, last := last
                                                                         time := BitVec.ofNat 64 (u.repTime 2) }] ∧
      t.mem.bufs = s.mem.bufs ∧ t.mem.cells = s.mem.cells ∧ ({ t.rest with mem := {} } : State) = { s.rest with mem := {} })) ∧
  (∀ (s : State) (p : Fin 8), let q := s.pool p.val
    let m := splitRuns q.ring 256
    runCount q.cache ≤ 128 → q.ring ≠ [] → s.mem.poison = [] → s.mem.hbmFail = false →
    exec (.freeCacheRefill p) s = .next (s.ended (s.modPool p.val (fun q => { q with
      ring := m.2, cache := q.cache ++ m.1, head := (q.head + runCount m.1) % max 1 (s.poolCount p.val) })))) ∧
  (∀ (s : State) (p : Fin 8), let q := s.pool p.val
    let m := splitRuns q.cache 256
    448 ≤ runCount q.cache → s.mem.poison = [] →
    exec (.freeCacheSpill p) s =
      .next (s.ended (s.modPool p.val (fun q => { q with ring := q.ring ++ m.1, cache := m.2 })))) ∧
  (∀ (s : State) (v : Word), s.cmdTaken (MEM + 0x910) = true → v.getLsbD 0 = true →
    exec (.bpmDfNext v) s = .next (s.ended { s with mem := { s.mem with df := s.mem.df.drop 1 } })) ∧
  (∀ (s : State) (dt : Nat), let u := s.advance dt
    u.powered 90 = true → u.mem.auditAt / msec 100 < u.repTime 2 / msec 100 → u.booksOut = [] →
    exec (.bookAudit dt) s = .next (s.ended { u with mem := { u.mem with auditAt := u.repTime 2 } })) ∧
  (∀ (s : State) (dt : Nat) (b : BookOut) (l : List BookOut), let u := s.advance dt
    u.powered 90 = true → u.mem.auditAt / msec 100 < u.repTime 2 / msec 100 → u.booksOut = b :: l → u.mem.snap = none →
    Completes (.bookAudit dt) s (fun t => t.mem.snap = some { book := b.1, index := b.2.1, terms := b.2.2
                                                              time := BitVec.ofNat 64 (u.repTime 2) })) ∧
  (∀ (s : State) (v : Word), s.cmdTaken (MEM + 0x40) = true → v.getLsbD 0 = true →
    exec (.memAuditAck v) s = .next (s.ended { s with mem := { s.mem with snap := none } }))

/-! Chapter 14: threads. -/

/-- R353, R354: threads are forked, joined, wait for events, send them, yield and end. -/
def Obligations.ThreadInstructionsComplete : Prop :=
  (∀ (s : State) (dt : Nat) (th : BitVec 10) (rd rs1 rs2 : Fin 32) (b : Bool) (c slot : Nat), let u := s.advance dt
    let x : Thread := { st := .running, pc := u.xreg th.toNat rs1.val, joinable := !b
                        parent := if b then none else some th }
    u.thRuns th.toNat = true → u.forkPlace (th.toNat / 128) = some c → u.slotOf (th.toNat / 128) = some slot →
    exec (.thaFork dt th rd rs1 rs2 b) s = .next (s.ended ((u.modThread c (fun _ =>
      (((x.setReg 10 (u.xreg th.toNat rs2.val)).setReg 11 (th.setWidth 64)).setReg 2
        (BitVec.ofNat 64 (0x40000 - u.desc slot 0x10 4 * (c % 16)))))).retire th.toNat rd.val (BitVec.ofNat 64 c)))) ∧
  (∀ (s : State) (dt : Nat) (th : BitVec 10) (rd rs1 rs2 : Fin 32) (b : Bool), let u := s.advance dt
    u.thRuns th.toNat = true → u.forkPlace (th.toNat / 128) = none →
    exec (.thaFork dt th rd rs1 rs2 b) s = .next (s.ended (u.retire th.toNat rd.val (-1)))) ∧
  (∀ (s : State) (dt : Nat) (th : BitVec 10) (rd rs1 : Fin 32), let u := s.advance dt
    let c := (u.xreg th.toNat rs1.val).toNat
    u.thRuns th.toNat = true → c < 1024 → (u.thread c).joinable = true → (u.thread c).parent = some th →
    exec (.thaJoin dt th rd rs1) s = .next (s.ended (
      if (u.thread c).st = .ended then (u.modThread c (fun _ => {})).retire th.toNat rd.val (u.thread c).exit
      else u.beginWait th.toNat (.join rd (BitVec.ofNat 10 c))))) ∧
  (∀ (s : State) (dt : Nat) (th : BitVec 10) (rd rs1 : Fin 32), let u := s.advance dt
    let c := (u.xreg th.toNat rs1.val).toNat
    u.thRuns th.toNat = true → (1024 ≤ c ∨ (u.thread c).joinable = false ∨ (u.thread c).parent ≠ some th) →
    exec (.thaJoin dt th rd rs1) s = .next (s.ended (u.retire th.toNat rd.val (-2)))) ∧
  (∀ (s : State) (dt : Nat) (th : BitVec 10) (rd rs1 rs2 : Fin 32), let u := s.advance dt
    let got := (u.eventsOf th.toNat).setWidth 64 &&& u.xreg th.toNat rs1.val
    let d := u.xreg th.toNat rs2.val
    u.thRuns th.toNat = true →
    exec (.thaTwait dt th rd rs1 rs2) s = .next (s.ended (
      if got ≠ 0 then
        (u.modThread th.toNat (fun x => { x with events := x.events &&& ~~~(got.setWidth 29) })).retire th.toNat rd.val got
      else if d ≠ 0 ∧ d.toNat ≤ u.repTime (30 + th.toNat / 128) then u.retire th.toNat rd.val 0
      else u.beginWait th.toNat (.twait rd (u.xreg th.toNat rs1.val) d)))) ∧
  (∀ (s : State) (dt : Nat) (th : BitVec 10) (rd : Fin 32) (m d : BitVec 64), let u := s.advance dt
    (u.thread th.toNat).st = .waiting → (u.thread th.toNat).wait = .twait rd m d → d ≠ 0 →
    d.toNat ≤ u.repTime (30 + th.toNat / 128) →
    exec (.thaTwaitDeadline dt th) s = .next (s.ended (u.leaveWait th.toNat rd.val 0))) ∧
  (∀ (s : State) (dt : Nat) (th : BitVec 10) (rd rs1 rs2 : Fin 32), let u := s.advance dt
    let c := (u.xreg th.toNat rs1.val).toNat
    u.thRuns th.toNat = true → c / 128 = th.toNat / 128 → (u.thread c).st ≠ .free → (u.thread c).st ≠ .ended →
    exec (.thaTsend dt th rd rs1 rs2) s = .next (s.ended
      ((u.threadEvent c (((u.xreg th.toNat rs2.val).setWidth 24).setWidth 29)).retire th.toNat rd.val 0))) ∧
  (∀ (s : State) (dt : Nat) (th : BitVec 10), let u := s.advance dt
    u.thRuns th.toNat = true → exec (.thaYield dt th) s = .next (s.ended (u.retire th.toNat 0 0))) ∧
  (∀ (s : State) (dt : Nat) (th : BitVec 10) (rs1 : Fin 32), let u := s.advance dt
    u.thRuns th.toNat = true → th.toNat % 128 ≠ 0 →
    exec (.thaYieldE dt th rs1) s = .next (s.ended (u.endThread th.toNat (u.xreg th.toNat rs1.val)))) ∧
  (∀ (s : State) (dt : Nat) (th : BitVec 10) (rs1 : Fin 32), let u := s.advance dt
    u.thRuns th.toNat = true → th.toNat % 128 = 0 →
    exec (.thaYieldE dt th rs1) s =
      .next (s.ended (u.thFault th.toNat 1 ((rType 1 0 rs1.val 4 0 0x0B).setWidth 64))))

/-- R355 to R357, R359: messages are reserved, filled, committed and taken; tables are looked up; a DMA channel starts;
the time is stamped. -/
def Obligations.ChannelInstructionsComplete : Prop :=
  (∀ (s v : State) (dt : Nat) (th : BitVec 10) (rd rs1 rs2 : Fin 32) (nowait : Bool) (k i : Nat) (h : BitVec 64),
    let u := s.advance dt
    let len := (u.xreg th.toNat rs2.val).toNat
    u.thRuns th.toNat = true → u.threadChan th.toNat (u.xreg th.toNat rs1.val).toNat = some (k, i) → 1 ≤ len →
    len ≤ (u.channel k i).maxMsg → u.chanReserve k i th.toNat len = (some h, v) →
    exec (.thaChres dt th rd rs1 rs2 nowait) s = .next (s.ended (v.retire th.toNat rd.val h))) ∧
  (∀ (s v : State) (dt : Nat) (th : BitVec 10) (rd rs1 rs2 : Fin 32) (nowait : Bool) (k i : Nat),
    let u := s.advance dt
    let num := u.xreg th.toNat rs1.val
    let len := (u.xreg th.toNat rs2.val).toNat
    u.thRuns th.toNat = true → u.threadChan th.toNat num.toNat = some (k, i) → 1 ≤ len →
    len ≤ (u.channel k i).maxMsg → u.chanReserve k i th.toNat len = (none, v) →
    exec (.thaChres dt th rd rs1 rs2 nowait) s = .next (s.ended (
      if nowait = true then v.retire th.toNat rd.val (-1)
      else v.beginWait th.toNat (.chres rd (BitVec.ofNat 11 num.toNat) len)))) ∧
  (∀ (s : State) (dt : Nat) (th : BitVec 10) (rd rs1 rs2 : Fin 32) (n : Fin 128) (k i a : Nat) (m : ChMsg),
    let u := s.advance dt
    let len := 8 * (n.val + 1)
    u.thRuns th.toNat = true → u.findHandle th.toNat (u.xreg th.toNat rs1.val) = some (k, i, m) →
    m.cursor + len ≤ m.body.length → u.thMem th.toNat (u.xreg th.toNat rs2.val).toNat len = some a →
    u.readBad a len = false →
    exec (.thaChput dt th rd rs1 rs2 n) s = .next (s.ended ((u.modChannel k i (fun c => { c with
      msgs := c.msgs.map (fun x => if x.handle = m.handle ∧ x.st = .reserved then
        { x with body := splice m.body m.cursor (u.readBytes a len), cursor := x.cursor + len } else x) })).retire
        th.toNat rd.val (BitVec.ofNat 64 (m.body.length - (m.cursor + len)))))) ∧
  (∀ (s : State) (dt : Nat) (th : BitVec 10) (rd rs1 : Fin 32) (k i : Nat) (m : ChMsg), let u := s.advance dt
    let g := u.stampTag (.thread (th.toNat / 128)) 0 17
    u.thRuns th.toNat = true → u.findHandle th.toNat (u.xreg th.toNat rs1.val) = some (k, i, m) →
    exec (.thaChcommit dt th rd rs1) s = .next (s.ended (
      if (u.channel k i).kind = 0 then
        (u.retire th.toNat rd.val 0).chanCommit k i (fun x => x.handle = m.handle && x.st = .reserved) {}
      else ((u.countStamp g).retire th.toNat rd.val 0).chanCommit k i (fun x => x.handle = m.handle && x.st = .reserved) g))) ∧
  (∀ (s : State) (dt : Nat) (th : BitVec 10) (rd rs1 rs2 : Fin 32) (nowait : Bool) (k i a : Nat) (m : ChMsg) (l : List ChMsg),
    let u := s.advance dt
    let dst := (u.xreg th.toNat rs2.val).toNat
    u.thRuns th.toNat = true → u.threadChan th.toNat (u.xreg th.toNat rs1.val).toNat = some (k, i) →
    (u.channel k i).kind ≠ 1 → (u.channel k i).kind ≠ 3 → (u.channel k i).msgs = m :: l → m.st = .committed →
    u.thMem th.toNat dst m.body.length = some a →
    exec (.thaChget dt th rd rs1 rs2 nowait) s = .next (s.ended
      ((((u.chanTake k i).thCopy th.toNat dst m.body).retire th.toNat rd.val (BitVec.ofNat 64 m.body.length)).chanSettle k i))) ∧
  (∀ (s : State) (dt : Nat) (th : BitVec 10) (rd rs1 rs2 : Fin 32) (target table : Fin 4) (k r slot : Nat),
    let u := (s.advance dt).fwtSettle
    let n := lkupLen target.val
    let b := u.readBytes k n
    let key := if target.val = 2 then beNat b else if target.val = 1 then leNat b else leNat b % 2 ^ 20
    u.thRuns th.toNat = true → u.slotOf (th.toNat / 128) = some slot → bit (u.desc slot 0x16 1) target.val = true →
    u.thMem th.toNat (u.xreg th.toNat rs1.val).toNat n = some k →
    u.thMem th.toNat (u.xreg th.toNat rs2.val).toNat 32 = some r → u.readBad k n = false →
    exec (.thaLkup dt th rd rs1 rs2 target table true) s = .next (s.ended
      (match u.globalAnswer table.val target.val key with
        | some v => (u.land r (leBytes 32 v)).retire th.toNat rd.val 1
        | none => (u.land r (leBytes 32 0)).retire th.toNat rd.val 0)) ∧
    exec (.thaLkup dt th rd rs1 rs2 target table false) s = .next (s.ended (u.retire th.toNat rd.val (-1)))) ∧
  (∀ (s : State) (dt : Nat) (th : BitVec 10) (rd rs1 rs2 : Fin 32) (a : Nat), let u := s.advance dt
    let c := (u.xreg th.toNat rs1.val).toNat
    u.thRuns th.toNat = true → 512 ≤ c → c < 4096 → u.chOwner c = 1 → u.chCluster c = th.toNat / 128 →
    (u.chan c).st = .idle → State.thLocal th.toNat (u.xreg th.toNat rs2.val).toNat 32 = some a →
    exec (.thaDmago dt th rd rs1 rs2) s = .next (s.ended
      ((u.startProg c false (BitVec.ofNat 64 a) (some th) .error).retire th.toNat rd.val 0))) ∧
  (∀ (s : State) (dt : Nat) (th : BitVec 10) (rd rs1 : Fin 32), let u := s.advance dt
    let g := u.stampTag (.thread (th.toNat / 128)) 0 17
    u.thRuns th.toNat = true →
    (rs1 = 0 → exec (.thaStamp dt th rd rs1) s = .next (s.ended ((u.countStamp g).retire th.toNat rd.val g.raw.time))) ∧
    (∀ a, rs1 ≠ 0 → u.thMem th.toNat (u.xreg th.toNat rs1.val).toNat 32 = some a →
      exec (.thaStamp dt th rd rs1) s =
        .next (s.ended (((u.countStamp g).land a (stampRecord g)).retire th.toNat rd.val g.raw.time))))

/-- R343: base instructions: an integer addition, a load, a store, a branch taken and a jump of 32-bit words. -/
def Obligations.BaseInstructionsComplete : Prop :=
  ∀ (s : State) (dt : Nat) (th : BitVec 10) (w : Word), let u := s.advance dt
    let t := th.toNat
    let n := w.toNat
    let rd := bits n 11 7
    let a := u.xreg t (bits n 19 15)
    let b := u.xreg t (bits n 24 20)
    let pc := (u.thread t).pc
    u.thRuns t = true → u.atBreak t = false → u.fetchInstr t = .inr { raw := w, word := some w, len := 4 } →
    (bits n 6 0 = 0x13 → bits n 14 12 = 0 → exec (.threadBaseInstruction dt th) s =
      .next (s.ended (u.rvRetire t rd (a + sx 12 (bits n 31 20)) (pc + 4)))) ∧
    (bits n 6 0 = 0x33 → bits n 14 12 = 0 → bits n 31 25 = 0 → exec (.threadBaseInstruction dt th) s =
      .next (s.ended (u.rvRetire t rd (a + b) (pc + 4)))) ∧
    (bits n 6 0 = 0x63 → bits n 14 12 = 0 → exec (.threadBaseInstruction dt th) s =
      .next (s.ended (u.rvRetire t 0 0 (if a = b then pc + immB n else pc + 4)))) ∧
    (bits n 6 0 = 0x6F → exec (.threadBaseInstruction dt th) s =
      .next (s.ended (u.rvRetire t rd (pc + 4) (pc + immJ n)))) ∧
    (bits n 6 0 = 0x03 → bits n 14 12 = 3 → ∀ x, let q := (a + sx 12 (bits n 31 20)).toNat
      q % 8 = 0 → u.thPlace t q 8 = .mem x → u.readBad x 8 = false → exec (.threadBaseInstruction dt th) s =
        .next (s.ended (u.rvRetire t rd (rvLoaded 3 (u.readBytes x 8)) (pc + 4)))) ∧
    (bits n 6 0 = 0x23 → bits n 14 12 = 3 → ∀ x, let q := (a + immS n).toNat
      q % 8 = 0 → (u.rvRetire t 0 0 (pc + 4)).thPlace t q 8 = .mem x → exec (.threadBaseInstruction dt th) s =
        .next (s.ended ((u.rvRetire t 0 0 (pc + 4)).land x (leBytes 8 b.toNat)))) ∧
    (n = 0x73 → exec (.threadBaseInstruction dt th) s = .next (s.ended (u.thFault t 2 0x73)))

/-- R360, R362 to R366: frame-out messages leave; held heads and deadlocks are reported; the supervisor commands its
cluster; a watchdog and a cluster reset run. -/
def Obligations.ClusterCommandsComplete : Prop :=
  (∀ (s v : State) (dt : Nat) (k : Fin 8) (c : Byte) (m : ChMsg) (l : List ChMsg) (h : Word), let u := s.advance dt
    let ch := u.channel k.val c.toNat
    let len := leAt m.body 2 2
    let p := leAt m.body 0 1 % 4
    let f := slice m.body 16 len
    ch.msgs = m :: l → ch.kind = 1 → m.st = .committed → 14 ≤ len → len ≤ 9596 → 16 + len ≤ m.body.length →
    u.powered (49 + p) = true → (u.pipe p).internalFull = false → u.takeGranted 35 k.val = none →
    u.mem.waits.any (fun w => w.requester = 35 && w.inst = k.val) = false →
    u.allocLen 35 k.val false len none = (.granted h, v) →
    exec (.frameOutSend dt k c) s = .next (s.ended (((v.chanTake k.val c.toNat).modPipe p (fun x => { x with
      thread := x.thread ++ [{ frame := f, orig := f, tag := m.tag, prio := leAt m.body 1 1 % 8
                               src := 3 * 2 ^ 16 + (128 * k.val + ch.source.toNat), bufs := [h]
                               holder := 35 }] })).chanSettle k.val c.toNat))) ∧
  (∀ (s : State) (dt : Nat) (k : Fin 8) (c : Byte) (m : ChMsg) (l : List ChMsg) (x : Nat), let u := s.advance dt
    let v := u.modChannel k.val c.toNat (fun y => { y with msgs := { m with told := true } :: l })
    (u.channel k.val c.toNat).msgs = m :: l → m.st = .reserved → m.told = false → m.headAt = some x →
    u.clocksPast x 65536 = true →
    exec (.channelHeld dt k c) s = .next (s.ended ((v.count (cluCnt k.val 1)).supEvent k.val 2 0 m.th.toNat
      (BitVec.ofNat 64 (256 * (v.cluster k.val).scluster + c.toNat)) (BitVec.ofNat 64 (3 * (u.clock - x) / 8))))) ∧
  (∀ (s : State) (dt : Nat) (k : Fin 8), let u := s.advance dt
    let live := ((List.range 127).map (fun i => 128 * k.val + 1 + i)).filter
      (fun t => (u.thread t).st ≠ .free && (u.thread t).st ≠ .ended)
    let v := u.modCluster k.val (fun c => { c with
      waitSet := BitVec.ofNat 128 (live.foldl (fun n t => n + 2 ^ (t % 128)) 0)
      waitInfo := (List.range 128).foldl (fun (m : Map Word) i =>
        Map.set m i (BitVec.ofNat 32 (waitInfo (u.thread (128 * k.val + i)))) 0) []
      deadTold := true })
    live ≠ [] → (∀ t ∈ live, (u.thread t).st = .waiting ∧ u.clocksPast (u.thread t).waitAt 4096 = true ∧ u.armed t = false) →
    (u.cluster k.val).deadTold = false →
    exec (.waitDeadlock dt k) s = .next (s.ended (((v.count (cluCnt k.val 2)).thaEvent k.val).supEvent k.val 3 0 0 0 0))) ∧
  (∀ (s : State) (k : Fin 8) (v : Word),
    let t := bits v.toNat 9 0
    s.thRuns (128 * k.val) = true → t / 128 = k.val → t % 128 ≠ 0 → (s.thread t).st ≠ .free → (s.thread t).st ≠ .ended →
    exec (.supKill k v) s = .next (s.ended (
      if (s.thread t).st = .waiting then (s.endThread t (-1)).modCluster k.val (fun c => { c with deadTold := false })
      else s.endThread t (-1)))) ∧
  (∀ (s : State) (k : Fin 8) (v : Word),
    let t := bits v.toNat 9 0
    s.thRuns (128 * k.val) = true → t / 128 = k.val → t % 128 ≠ 0 → (s.thread t).st = .stopped →
    (s.thread t).faulted = true →
    exec (.supResume k v) s = .next (s.ended (s.modThread t (fun x => { x with
      st := .running, faulted := false, pc := (s.cluster k.val).supPc })))) ∧
  (∀ (s : State) (k : Fin 8) (v : Word), s.thRuns (128 * k.val) = true → v.getLsbD 0 = true →
    exec (.supEvtNext k v) s = .next (s.ended (s.modCluster k.val (fun c => { c with sup := c.sup.drop 1 })))) ∧
  (∀ (s : State) (dt : Nat) (k : Fin 8), let u := s.advance dt
    u.thRuns (128 * k.val) = true →
    exec (.supKick dt k) s = .next (s.ended (u.modCluster k.val (fun c => { c with
      kickAt := u.clock, wdtStop := c.wdtStop.map (fun _ => u.clock) })))) ∧
  (∀ (s : State) (dt slot : Nat) (k : Fin 8), let u := s.advance dt
    u.slotOf k.val = some slot → u.field.up = true → (u.cluster k.val).wdtStop = none →
    (u.cluster k.val).kickAt + msec (u.desc slot 0x28 4) ≤ u.clock →
    exec (.watchdogExpire dt k) s = .next (s.ended (u.startReset k.val 1))) ∧
  (∀ (s : State) (dt slot x : Nat) (k : Fin 8), let u := s.advance dt
    let v := ((u.loadCluster slot k.val).startSup slot k.val).modService slot (fun y => { y with
      resets := y.resets + 1, cause := (u.cluster k.val).resetBy })
    (u.cluster k.val).resetAt = some x → u.slotOf k.val = some slot → u.due x (usec 20) = true →
    exec (.clusterReset dt k) s = .next (s.ended
      (((v.count (cluCnt k.val 3)).thaEvent (8 + k.val)).mainEvent 5 12 (v.repTime (30 + k.val)) [BitVec.ofNat 8 k.val])))

/-- R350, R351, R387: a service is started, its image crossing the glove, stopped and restarted. -/
def Obligations.ServiceCommandsComplete : Prop :=
  ∀ (s : State) (dt : Nat) (lvl : Fin 4) (slot : Fin 8), let u := s.advance dt
    u.objTaken = true → u.running = true → lvl ≠ 0 →
    ((u.service slot.val).state ≠ 0 → (u.service slot.val).state ≠ 2 →
      u.imageResult (u.service slot.val).file (0x10 + slot.val) = 0 →
      exec (.serviceStart dt lvl slot) s =
        .next (s.ended ((if ((u.startService slot.val).service slot.val).state = 2
          then (u.startService slot.val).sendService slot.val else u.startService slot.val).emit
          (.object (0x2100 + slot.val) 2 0)))) ∧
    ((u.service slot.val).state = 2 → exec (.serviceStop dt lvl slot) s =
      .next (s.ended ((u.stopService slot.val).emit (.object (0x2100 + slot.val) 2 0)))) ∧
    ((u.service slot.val).state = 2 → exec (.serviceRestart dt lvl slot) s =
      .next (s.ended (((u.clustersOf slot.val).foldl (fun w k => w.startReset k 3) u).emit
        (.object (0x2100 + slot.val) 2 0))))

/-- R367: the debugger's operations, while debug is open. -/
def Obligations.DebugCommandsComplete : Prop :=
  (∀ (s : State) (v : Word),
    let w := fun (op : Nat) => BitVec.ofNat 32 (putBits v.toNat 3 0 op) &&& 0xF
    let u := fun (op : Nat) => s.setReg thaDbgCmd (w op)
    let t := s.regBits (THA + 0x1004) 9 0
    let arg := s.getReg64 thaDbgArg
    let data := s.getReg64 thaDbgData
    let key := 4 * (t / 16 % 8) + data.toNat % 4
    s.cmdTaken thaDbgCmd = true → s.field.debugOpen = true → s.powered (71 + t / 128) = true →
    (s.thRuns t = true → exec (.dbgStop v) s = .next (s.ended (((u 1).dbgStopped t).dbgStatus 0))) ∧
    ((s.thread t).st = .stopped → exec (.dbgRun v) s = .next (s.ended (((u 2).dbgGo t).dbgStatus 0))) ∧
    (∀ n, (s.thread t).st = .stopped → arg = BitVec.ofNat 64 n → 1 ≤ n → n ≤ 31 →
      exec (.dbgReadReg v) s = .next (s.ended (((u 4).setReg64 thaDbgData (s.xreg t n)).dbgStatus 0)) ∧
      exec (.dbgWriteReg v) s = .next (s.ended (((u 5).modThread t (fun x => x.setReg n data)).dbgStatus 0))) ∧
    ((s.thread t).st = .stopped → arg = 32 →
      exec (.dbgReadReg v) s = .next (s.ended (((u 4).setReg64 thaDbgData (s.thread t).pc).dbgStatus 0)) ∧
      exec (.dbgWriteReg v) s =
        .next (s.ended (((u 5).modThread t (fun x => { x with pc := data, past := false })).dbgStatus 0))) ∧
    (∀ x, arg.toNat % 8 = 0 → (u 6).thPlace t arg.toNat 8 = .mem x → s.readBad x 8 = false → exec (.dbgReadMem v) s =
      .next (s.ended (((u 6).setReg64 thaDbgData (BitVec.ofNat 64 (leNat (s.readBytes x 8)))).dbgStatus 0))) ∧
    (∀ x, arg.toNat % 8 = 0 → (u 7).thPlace t arg.toNat 8 = .mem x → exec (.dbgWriteMem v) s =
      .next (s.ended (((u 7).land x (leBytes 8 data.toNat)).dbgStatus 0))) ∧
    exec (.dbgSetBreak v) s = .next (s.ended (((u 8).modCluster (t / 128) (fun c => { c with
      breaks := Map.put c.breaks key arg })).dbgStatus 0)) ∧
    ((Map.get (s.cluster (t / 128)).breaks key).isSome = true → exec (.dbgClearBreak v) s =
      .next (s.ended (((u 9).modCluster (t / 128) (fun c => { c with breaks := Map.del c.breaks key })).dbgStatus 0))) ∧
    (∀ w, (u 10).dbgDiscard t (arg.toNat % 2048) = some w → exec (.dbgDiscard v) s = .next (s.ended (w.dbgStatus 0)))) ∧
  (∀ (s : State) (dt : Nat) (v : Word), let u := s.advance dt
    let t := u.regBits (THA + 0x1004) 9 0
    u.cmdTaken thaDbgCmd = true → u.field.debugOpen = true → u.powered (71 + t / 128) = true →
    (u.thread t).st = .stopped →
    exec (.dbgStep dt v) s = .next (s.ended
      (((u.setReg thaDbgCmd (BitVec.ofNat 32 (putBits v.toNat 3 0 3) &&& 0xF)).dbgStep t).dbgStatus 0))) ∧
  (∀ (s : State) (th : BitVec 10), s.thRuns th.toNat = true → s.atBreak th.toNat = true →
    exec (.breakpointHit th) s = .next (s.ended ((s.dbgStopped th.toNat).thaEvent 16)))

/-! Chapter 15: the glove and the mailboxes. -/

/-- R371 to R373, R394: glove messages are received, sent again and lost with the peer; the link comes up; object
requests and answers cross. -/
def Obligations.GloveCommandsComplete : Prop :=
  (∀ (s : State) (dt : Nat) (d : Side) (m : GloveMsg), let u := s.advance dt
    let v := ((u.setGlove d { u.glove d with heardAt := u.clock }).emit (.gloveAck d m.seq)).gloveAcked (otherSide d) m.seq
    u.sideRuns d = true → seqOrder (u.glove d).last m.seq = 0 → gloveGood d m = true →
    exec (.gloveMessageReceive dt d m (gloveCrc m)) s = .next (s.ended
      (v.setGlove d { v.glove d with last := some m.seq, inbox :=
        if d = .host ∧ m.typ = 0x30 then (v.glove d).inbox else (v.glove d).inbox ++ [m] }))) ∧
  (∀ (s : State) (dt : Nat) (d : Side), let u := s.advance dt
    let g := u.glove d
    let again := fun (w : State) => g.sent.foldl (fun w m => w.emit (.glove d m (gloveCrc m))) w
    u.sideRuns d = true → g.sent ≠ [] → u.due g.retryAt (usec 20) = true →
    (g.fails + 1 < 16 → exec (.gloveRetransmit dt d) s =
      .next (s.ended (again (u.setGlove d { g with fails := g.fails + 1, retryAt := u.clock })))) ∧
    (g.fails = 15 → u.powered 95 = true → exec (.gloveRetransmit dt d) s =
      let v := again (u.setGlove d { g with fails := 0, retryAt := u.clock })
      .next (s.ended ({ v with gloveH := { v.gloveH with err := true } }.count glvLinkReset)))) ∧
  (∀ (s : State) (dt : Nat), let u := s.advance dt
    u.sideRuns .field = true → u.gloveF.peerUp = true → u.due u.gloveF.heardAt (msec 5) = true →
    Completes (.glovePeerDown dt .field) s (fun t => t.gloveF.peerUp = false ∧ t.gloveF.sent = s.gloveF.sent ∧
      t.field.asked = [] ∧ t.gloveH = s.gloveH)) ∧
  (∀ (s : State) (dt : Nat), let u := s.advance dt
    u.sideRuns .host = true → u.gloveH.peerUp = true → u.due u.gloveH.heardAt (msec 5) = true → u.gloveH.sent = [] →
    u.gloveH.evq.length ≤ 64 → u.tha.clusters = [] → u.hep.doe = none →
    let v := { u with gloveH := { u.gloveH with
      peerUp := false, lost := true, sent := [], evq := u.gloveH.evq.take 64 } }.countN glvEvtLost 0
    let hold := fun (m : Mbox) => { m with held := m.held || m.full }
    let w : State := { v with field := { v.field with
      h2f := v.field.h2f.map (fun (e : Nat × Mbox) => (e.1, hold e.2))
      thaTo := v.field.thaTo.map (fun (e : Nat × Mbox) => (e.1, hold e.2)) } }
    exec (.glovePeerDown dt .host) s = .next (s.ended (w.pendOutstanding.spdmBusy.glvEvent 0))) ∧
  (∀ (s : State) (dt : Nat), let u := s.advance dt
    u.sideRuns .field = true → u.sideRuns .host = true → u.gloveH.peerUp = false → u.gloveH.evq = [] →
    u.sql.pendSeal = none → u.running = false → u.field.restartAt = none → u.field.h2f = [] → u.field.f2h = [] →
    u.field.thaTo = [] → u.field.thaFrom = [] →
    Completes (.gloveLinkUp dt) s (fun t => t.gloveH.peerUp = true ∧ t.gloveF.peerUp = true ∧
      (∃ m ∈ t.gloveH.sent, m.typ = 0x60) ∧ t.tim.tqrAt = some u.clock)) ∧
  (∀ (s v : State) (p val b : List Byte) (typ : Nat) (d : Side),
    let idx := beAt p 0 2
    let sub := beAt p 2 1
    let off := beAt p 4 4
    s.takeMsg d 0x01 = some (p, v) → p.length = 8 →
    (match d with
      | .host => objBound idx sub = true ∧ v.running = true ∧ v.readObject 3 idx sub = (0, typ, b) ∧
          val = (if sub ≠ 0 ∧ objTold idx = true then v.mainBytes idx sub else b)
      | .field => idx ≠ 0x2F60 ∧ v.readObject 0 idx sub = (0, typ, val)) → off ≤ val.length →
    exec (.objReq d) s = .next (s.ended (v.gloveSend d 0x02
      (slicePad p 0 3 ++ beBytes 1 typ ++ beBytes 4 off ++ beBytes 4 val.length ++ slice val off 1024)))) ∧
  (∀ (s v x : State) (p : List Byte),
    let idx := beAt p 0 2
    let sub := beAt p 2 1
    let val := p.drop 12
    s.takeMsg .host 0x01 = some (p, v) → 12 ≤ p.length → objBound idx sub = true → v.running = true →
    v.writeCheck 3 idx sub val.length (some val) = 0 → v.boundWrite idx sub val = (0, x) →
    exec (.objReq .host) s = .next (s.ended (x.gloveSend .host 0x02 (slicePad p 0 3 ++ [0] ++ beBytes 4 (p.length - 12))))) ∧
  (∀ (s v : State) (p : List Byte), s.takeMsg .field 0x02 = some (p, v) →
    let mine := fun (q : BusReq) => beAt q.data 0 2 = beAt p 0 2 && beAt q.data 2 1 = beAt p 2 1
    (v.field.asked.find? mine = none → exec (.objRsp .field) s = .next (s.ended v)) ∧
    (∀ q, v.field.asked.find? mine = some q → exec (.objRsp .field) s = .next (s.ended
      (({ v with field := { v.field with asked := v.field.asked.erase q } }.answerAsked q p).serveLater)))) ∧
  (∀ (s v : State) (p r : List Byte), s.takeMsg .host 0x02 = some (p, v) → v.hep.doe = some r →
    exec (.objRsp .host) s = .next (s.ended (v.spdmGo r p)) ∧
    (beAt p 3 1 ≠ 0xFF → beAt p 0 2 = 0x2F60 → beAt p 2 1 = 2 →
      exec (.objRsp .host) s = .next (s.ended (v.spdmSay r (v.hep.doePart ++ p.drop 12)))))

/-- R73, R103 to R106, R372, R388, R404, R426: seals, notices, power commands, image chunks and reports cross the glove. -/
def Obligations.GlovePayloadsComplete : Prop :=
  (∀ (s v : State) (dt n : Nat) (r : List Byte), let u := s.advance dt
    let f := v.field
    let g := if f.leaf = f.leafRes then f.reserve (f.leaf + 4096) else f
    let b := v.sealBody r (n + 1)
    let w : State := { v.drawn with field := { g with
      leaf := f.leaf + 1, sealRun := f.runNo, sealNo := some (BitVec.ofNat 64 (n + 1))
      sealEnd := some (BitVec.ofNat 64 (beAt r 88 8)), sealHead := slicePad r 0 32, sealHash := sha256 b } }
    u.takeMsg .field 0x20 = some (r, v) → f.sealKeys = true → f.life = 2 → f.leaf < 2 ^ 40 →
    f.sealNo = some (BitVec.ofNat 64 n) → n < 2 ^ 64 → f.sealRun = f.runNo →
    exec (.sealReq ⟨dt, true⟩) s = .next (s.ended (w.gloveSend .field 0x21 (beBytes 4 0 ++ b ++
      ecdsaSign f.sealKey (sha384 b) v.freeNext ++ hssSign f.sealTree f.leaf b)))) ∧
  (∀ (s v : State) (dt : Nat) (r : List Byte), let u := s.advance dt
    let f := v.field
    let g := if f.leaf = f.leafRes then f.reserve (f.leaf + 4096) else f
    let w : State := { v with field := { g with leaf := f.leaf + 1 } }
    u.takeMsg .field 0x20 = some (r, v) → f.sealKeys = true → f.life = 2 → f.leaf < 2 ^ 40 →
    exec (.sealReq ⟨dt, false⟩) s = .next (s.ended ((w.gloveSend .field 0x21 (beBytes 4 1)).fieldEvent 7 15 0 []))) ∧
  (∀ (s v : State) (dt : Nat) (signed : Bool) (r : List Byte), (s.advance dt).takeMsg .field 0x20 = some (r, v) →
    (v.field.sealKeys = false ∨ v.field.life ≠ 2 ∨ 2 ^ 40 ≤ v.field.leaf) →
    exec (.sealReq ⟨dt, signed⟩) s = .next (s.ended ((v.gloveSend .field 0x21 (beBytes 4 1)).fieldEvent 7 15 0 []))) ∧
  (∀ (s v : State) (dt : Nat) (p : List Byte), (s.advance dt).takeMsg .host 0x21 = some (p, v) →
    (v.opSealReturn p).sql.runEnd = none → exec (.sealRsp dt) s = .next (s.ended (v.opSealReturn p))) ∧
  (∀ (s v : State) (dt : Nat) (p : List Byte), (s.advance dt).takeMsg .field 0x30 = some (p, v) →
    exec (.eventNotice dt) s = .next (s.ended (v.fieldEvent (beAt p 4 2) (beAt p 6 1) (beAt p 8 8) (p.drop 16)))) ∧
  (∀ (s v : State) (dt : Nat) (p : List Byte), (s.advance dt).takeMsg .host 0x40 = some (p, v) →
    (beAt p 0 1 = 0 → exec (.powerMsg dt) s = .next (s.ended ((v.switchDomains
      (v.target (BitVec.ofNat 96 (beAt p 4 12)) (v.powered 8))).gloveSend .host 0x41 (beBytes 2 0 ++ List.replicate 6 0)))) ∧
    (beAt p 0 1 = 1 → exec (.powerMsg dt) s =
      .next (s.ended ((v.gloveSend .host 0x41 (beBytes 2 0 ++ List.replicate 6 0)).endRun false))) ∧
    (beAt p 0 1 = 2 → exec (.powerMsg dt) s =
      .next (s.ended ((v.gloveSend .host 0x41 (beBytes 2 0 ++ List.replicate 6 0)).endRun true)))) ∧
  (∀ (s v : State) (dt : Nat) (p : List Byte), (s.advance dt).takeMsg .field 0x41 = some (p, v) →
    exec (.powerRsp dt) s = .next (s.ended { v with field := { v.field with powerRes := beAt p 0 2 } })) ∧
  (∀ (s v : State) (dt : Nat) (p : List Byte),
    let d := p.drop 16
    (s.advance dt).takeMsg .host 0x50 = some (p, v) → v.pwr.fw = false → beAt p 0 4 = 1 →
    beAt p 4 4 = v.pwr.imgBuf.length → beAt p 4 4 + d.length < beAt p 8 4 → beAt p 8 4 ≤ 0x100000 →
    exec (.imageMsg dt) s = .next (s.ended ({ v with pwr := { v.pwr with imgBuf := v.pwr.imgBuf ++ d } }.gloveSend .host 0x51
      (beBytes 2 0 ++ [0, 0] ++ beBytes 4 (beAt p 4 4))))) ∧
  (∀ (s v : State) (dt : Nat) (p : List Byte), (s.advance dt).takeMsg .field 0x51 = some (p, v) →
    (beAt p 0 2 = 0 → exec (.imageRsp dt) s = .next (s.ended v)) ∧
    (beAt p 0 2 ≠ 0 → v.field.mainSt = 1 → exec (.imageRsp dt) s = .next (s.ended v.fallBackMain))) ∧
  (∀ (s v : State) (dt : Nat) (p : List Byte), (s.advance dt).takeMsg .field 0x60 = some (p, v) → v.field.report = [] →
    exec (.tqr dt) s = .next (s.ended { v with field := { v.field with report := p } }))

/-- R389 to R392: mailbox messages are sent, shown, answered and acknowledged. -/
def Obligations.MailboxCommandsComplete : Prop :=
  (∀ (s v : State) (p : List Byte),
    let k := beAt p 0 1
    let c := beAt p 1 1
    let n := beAt p 8 4
    let body := slice p 12 n
    let who := BitVec.ofNat 32 (beAt p 4 4)
    1 ≤ n → n ≤ 256 → body.length = n →
    (s.takeMsg .field 0x10 = some (p, v) → (k = 0 ∧ c < 64 ∨ k = 2 ∧ c < 16) → exec (.mbx .field) s =
      .next (s.ended (v.modMbox k c (fun m => { m with state := 1, shown := body, who := who, old := false })))) ∧
    (s.takeMsg .host 0x10 = some (p, v) → k = 1 → c < 64 → exec (.mbx .host) s =
      .next (s.ended (v.modMbox k c (fun m => { m with full := true, shown := body, who := who })))) ∧
    (s.takeMsg .host 0x10 = some (p, v) → k = 3 → c < 16 → exec (.mbx .host) s =
      .next (s.ended ((v.modMbox k c (fun m => { m with full := true, shown := body, who := who })).mbxArrival c)))) ∧
  (∀ (s v : State) (p : List Byte),
    let k := beAt p 0 1
    let c := beAt p 1 1
    let code := BitVec.ofNat 16 (beAt p 2 2)
    (s.takeMsg .host 0x11 = some (p, v) → (k = 0 ∧ c < 64 ∨ k = 2 ∧ c < 16) → (v.mbox k c).full = true →
      exec (.mbxAck .host) s = .next (s.ended (v.modMbox k c (fun m => { m with
        full := false, done := true, held := false, code := code })))) ∧
    (s.takeMsg .field 0x11 = some (p, v) → (k = 1 ∧ c < 64 ∨ k = 3 ∧ c < 16) → (v.mbox k c).state = 2 →
      exec (.mbxAck .field) s = .next (s.ended (v.modMbox k c (fun m => { m with state := 3, code := code }))))) ∧
  (∀ (s : State) (dt : Nat) (id : BitVec 16) (x : Option (BitVec 20)) (c : Fin 64) (v : Word),
    let u := (s.advance dt).rxPosted 4
    let len := bits v.toNat 8 0
    let body := ((List.range 64).map (fun w => leBytes 4 (u.regNat (h2fData c.val w)))).flatten.take len
    u.barOpen = true → u.powered 95 = true → u.ownsMbx (.pcie id x) c.val = true → (u.mbox 0 c.val).full = false →
    1 ≤ len → len ≤ 256 →
    exec (.mbxSend dt (.pcie id x) (.host c) v) s = .next (s.ended (u.postMbx 0 c.val (id.setWidth 32) body))) ∧
  (∀ (s : State) (dt slot : Nat) (th : BitVec 10) (t : Fin 16) (v : Word), let u := s.advance dt
    let len := bits v.toNat 8 0
    u.thRuns th.toNat = true → u.powered 95 = true → u.ownsThaMbx th.toNat t.val = true → (u.mbox 2 t.val).full = false →
    1 ≤ len → len ≤ 256 → u.slotOf (th.toNat / 128) = some slot →
    exec (.mbxSend dt (.thread th) (.thread t) v) s = .next (s.ended (u.postMbx 2 t.val
      ((0x80000000 ||| th.setWidth 32) ||| BitVec.ofNat 32 (slot * 2 ^ 10)) (slicePad (u.mbox 2 t.val).data 0 len)))) ∧
  (∀ (s : State) (lvl : Fin 4) (ch : MbxChan) (code : BitVec 16),
    let k := mbxTable ch 0
    let c := mbxNumber ch
    s.objTaken = true → lvl ≠ 0 → (s.mbox k c).state = 1 → (s.mbox k c).old = false →
    exec (.mbxReturnCode lvl ch code) s = .next (s.ended (((s.modMbox k c (fun m => { m with state := 0, old := false })
      ).gloveSend .field 0x11 (mbxAckPayload k c code)).emit (.object (mbxIndex ch false) 4 0)))) ∧
  (∀ (s : State) (lvl : Fin 4) (node : Byte) (ch : MbxChan) (body : List Byte),
    let k := mbxTable ch 1
    let c := mbxNumber ch
    let x : Mbox := { s.mbox k c with state := 2, body := body, sender := BitVec.ofNat 32 (lvl.val * 256 + node.toNat) }
    s.objTaken = true → lvl ≠ 0 → 1 ≤ body.length → body.length ≤ 256 →
    ((s.mbox k c).state = 0 ∨ (s.mbox k c).state = 3) → s.running = true → s.gloveF.peerUp = true →
    exec (.f2hBodyWrite lvl node ch body) s = .next (s.ended (((s.modMbox k c (fun _ => x)).gloveSend .field 0x10
      (mbxPayload k c x)).emit (.object (mbxIndex ch true) (match ch with | .host _ => 2 | .thread _ => 6) 0)))) ∧
  (∀ (s : State) (id : BitVec 16) (x : Option (BitVec 20)) (c : Fin 64) (code : Word),
    let u := s.rxPosted 4
    u.barOpen = true → u.powered 95 = true → (u.mbox 1 c.val).full = true → u.gloveH.peerUp = true →
    exec (.f2hAck (.pcie id x) (.host c) code) s = .next (s.ended ((u.modMbox 1 c.val (fun m => { m with
      full := false, held := false })).gloveSend .host 0x11 (mbxAckPayload 1 c.val (code.setWidth 16)))))

/-! Chapter 15: the Usnan bus. -/

/-- R381 to R383: objects are read and written whole; a request of an object bound to the main die crosses the glove, and
the session's next requests, whatever they ask for, wait for its answer. -/
def Obligations.ObjectAccessCompletes : Prop :=
  (∀ (s v : State) (dt l typ : Nat) (h : BusHdr) (p val : List Byte),
    let off := beAt p 4 4
    let w := v.serveLater
    (s.advance dt).busTake 0x01 h p = (some l, v) → h.dst ≠ 255 → w.sessBusy h = false → p.length = 8 →
    w.readObject l (beAt p 0 2) (beAt p 2 1) = (0, typ, val) →
    ((findObj (beAt p 0 2) (beAt p 2 1)).any (fun r => r.main) = true → exec (.objRead dt h p) s =
      .next (s.ended (w.askMain { kind := .read, hdr := h, lvl := l, data := p, flashOk := true } p))) ∧
    ((findObj (beAt p 0 2) (beAt p 2 1)).any (fun r => r.main) = false → off ≤ val.length →
      exec (.objRead dt h p) s = .next (s.ended (w.busSend 0x02 h.src h.tid h.session
        (p.take 3 ++ beBytes 1 typ ++ beBytes 4 off ++ beBytes 4 val.length ++ slice val off 1024) h.sent)))) ∧
  (∀ (s v x : State) (dt l : Nat) (h : BusHdr) (p : List Byte),
    let idx := beAt p 0 2
    let sub := beAt p 2 1
    let data := p.drop 12
    let y := v.serveLater
    let w := y.setPart h.session (objKey idx sub) none
    (s.advance dt).busTake 0x03 h p = (some l, v) → h.dst ≠ 255 → y.sessBusy h = false →
    12 ≤ p.length → data.length ≤ 1024 → beAt p 4 4 = 0 →
    beAt p 8 4 = data.length → y.writeCheck l idx sub data.length none = 0 →
    w.writeCheck l idx sub data.length (some data) = 0 →
    ((findObj idx sub).any (fun r => r.main) = true → exec (.objWrite dt h p true) s = .next (s.ended
      (w.askMain { kind := .write, hdr := h, lvl := l, data := p, flashOk := true } (wholeWrite idx sub data)))) ∧
    ((findObj idx sub).any (fun r => r.main) = false → w.objEffect l h idx sub data = (0, x) →
      exec (.objWrite dt h p true) s =
        .next (s.ended ((w.objWriteRsp h idx sub data.length).objEffect l h idx sub data).2))) ∧
  (∀ (s v : State) (dt l : Nat) (h : BusHdr) (p : List Byte) (ok : Bool), let w := v.serveLater
    let u := s.advance dt
    let waits := fun (k : BusKind) (d : List Byte) (f : Bool) => s.ended { w with field := { w.field with
      later := w.field.later ++ [{ kind := k, hdr := h, lvl := l, data := d, flashOk := f }] } }
    w.sessBusy h = true →
    (h.dst ≠ 255 →
      (u.busTake 0x01 h p = (some l, v) → exec (.objRead dt h p) s = .next (waits .read p true)) ∧
      (u.busTake 0x03 h p = (some l, v) → exec (.objWrite dt h p ok) s = .next (waits .write p ok)) ∧
      (u.busTake 0x40 h p = (some l, v) → exec (.imgOpen dt h p) s = .next (waits .imgOpen p true)) ∧
      (u.busTake 0x41 h p = (some l, v) → exec (.imgData dt h p) s = .next (waits .imgData p true)) ∧
      (u.busTake 0x42 h [] = (some l, v) → exec (.imgClose dt h ok) s = .next (waits .imgClose [] ok))) ∧
    (u.busTake 0x14 h [] = (some l, v) → h.session ≠ 0 → exec (.logout dt h) s = .next (waits .logout [] true)))

/-- R384, R385: logins begin, open sessions and end; sessions end; a lockout ends. -/
def Obligations.LoginCommandsComplete : Prop :=
  (∀ (s v : State) (dt l : Nat) (h : BusHdr) (p : List Byte),
    let w := v.drawn
    let x := w.drawn
    let sid := v.newSid
    let nd := w.freeBytes 16
    let g : Login :=
      { sid := sid, lvl := 1, nc := slice p 1 16, nd := nd, node := h.src, key := ecPrivate x.freeNext, at_ := x.clock }
    (s.advance dt).busTake 0x10 h p = (some l, v) → h.dst ≠ 255 → v.field.recovery = false → p.length = 17 →
    beAt p 0 1 = 1 → v.field.sessions.length < 4 → v.lockedOut 1 = false → v.levelOpens 1 = true →
    exec (.loginReq dt h p) s = .next (s.ended ({ x with field := { x.field with
      logins := x.field.logins ++ [g] } }.busSend 0x11 h.src h.tid 0
      ([BitVec.ofNat 8 1] ++ nd ++ beBytes 4 sid.toNat) h.sent))) ∧
  (∀ (s v : State) (dt l : Nat) (h : BusHdr) (p : List Byte),
    let lvl := beAt p 0 1
    let w := v.drawn
    let x := w.drawn
    let sid := v.newSid
    let nd := w.freeBytes 16
    let key := ecPrivate x.freeNext
    let g : Login := { sid := sid, lvl := lvl, nc := slice p 1 16, nd := nd, node := h.src, key := key, at_ := x.clock }
    let y : State := { x.drawn with field := { x.field with logins := x.field.logins ++ [g] } }
    let sign := y.aliasSign (ascii "USNAN-CHAL" ++ beBytes 4 sid.toNat ++ g.nc ++ nd ++ ecPublic key ++
      beBytes 8 Config.serial.toNat ++ [BitVec.ofNat 8 lvl])
    (s.advance dt).busTake 0x10 h p = (some l, v) → h.dst ≠ 255 → v.field.recovery = false → p.length = 17 →
    (lvl = 2 ∨ lvl = 3) → v.field.sessions.length < 4 → v.lockedOut lvl = false → v.levelOpens lvl = true →
    exec (.loginReq dt h p) s = .next (s.ended (sign.2.busSend 0x11 h.src h.tid 0
      ([BitVec.ofNat 8 lvl] ++ nd ++ beBytes 4 sid.toNat ++ ecPublic key ++ sign.1) h.sent))) ∧
  (∀ (s v : State) (dt l : Nat) (h : BusHdr) (p : List Byte) (g : Login),
    let sid := BitVec.ofNat 32 (beAt p 0 4)
    let kl := v.loginKey g
    let w := v.dropLogin sid
    let x : Session := { sid := sid, lvl := g.lvl, ks := hmac256 kl (ascii "USNAN-SESSION" ++ beBytes 4 sid.toNat ++ g.nc ++ g.nd)
                         rx := 0, tx := 0, node := h.src, at_ := w.clock }
    (s.advance dt).busTake 0x12 h p = (some l, v) → h.dst ≠ 255 → 
    v.field.logins.find? (fun x => decide (x.sid = sid) && !v.due x.at_ (secs 1)) = some g →
    p.length = 36 → g.node = h.src → slice p 4 32 = loginProofOf kl "USNAN-LOGIN" g h.dst h.src →
    v.field.sessions.length < 4 →
    exec (.loginProof dt h p) s = .next (s.ended ({ w with field := { w.field with
      sessions := w.field.sessions ++ [x], wrong := Map.del w.field.wrong g.lvl } }.busSend 0x13 h.src h.tid 0
      (loginProofOf kl "USNAN-ACCEPT" g h.src w.field.node) h.sent))) ∧
  (∀ (s : State) (dt : Nat) (g : Login), let u := s.advance dt
    g ∈ u.field.logins → u.due g.at_ (secs 1) = true →
    Completes (.loginTimeout dt g.sid) s (fun t => ∀ x, x ∈ t.field.logins ↔ x ∈ s.field.logins ∧ x.sid ≠ g.sid)) ∧
  (∀ (s : State) (dt x : Nat) (lvl : Fin 4), let u := s.advance dt
    Map.get u.field.lockout lvl.val = some x → u.due x (secs 60) = true →
    exec (.loginLockoutEnd dt lvl) s =
      .next (s.ended { u with field := { u.field with lockout := Map.del u.field.lockout lvl.val } })) ∧
  (∀ (s v : State) (dt l : Nat) (h : BusHdr), (s.advance dt).busTake 0x14 h [] = (some l, v) → h.session ≠ 0 →
    v.serveLater.sessBusy h = false →
    Completes (.logout dt h) s (fun t => ∀ x, x ∈ t.field.sessions ↔ x ∈ v.serveLater.field.sessions ∧ x.sid ≠ h.session)) ∧
  (∀ (s : State) (dt : Nat) (x : Session), let u := s.advance dt
    x ∈ u.field.sessions → u.due x.at_ (secs (u.objNat 0x1010 4)) = true →
    Completes (.sessionIdleExpire dt x.sid) s (fun t => ∀ y, y ∈ t.field.sessions ↔ y ∈ s.field.sessions ∧ y.sid ≠ x.sid))

/-- R375 to R378, R388: the hat line, foreign frames and event notices on the bus. -/
def Obligations.BusNodeCommandsComplete : Prop :=
  (∀ (s : State) (dt : Nat), let u := s.advance dt
    u.field.up = true →
    exec (.hatReset dt) s = .next (s.ended { u with field := { u.field with
      node := 0, hatOut := false, hatHeld := false, hatSince := u.clock, sessions := [], logins := []
      asked := [], later := [], rxFrames := u.field.rxFrames + 1 } })) ∧
  (∀ (s : State) (dt : Nat), let u := s.advance dt
    u.field.up = true → u.field.node = 0 → u.due u.field.hatSince (msec 1) = true →
    exec (.hatHeld dt) s = .next (s.ended { u with field := { u.field with hatIn := true, hatHeld := true } })) ∧
  (∀ (s : State) (dt : Nat), let u := s.advance dt
    exec (.hatInLow dt) s =
      .next (s.ended { u with field := { u.field with hatIn := false, hatHeld := false, hatSince := u.clock } })) ∧
  (∀ (s : State) (dt : Nat) (h : BusHdr) (p : List Byte), let u := s.advance dt
    let a := beAt p 0 1
    let v : State := { u with field := { u.field with
      rxFrames := u.field.rxFrames + 1, node := BitVec.ofNat 8 a, hatOut := true, hatHeld := false } }
    u.field.up = true → h.dst = 255 → u.field.node = 0 → u.field.hatHeld = true → p.length = 5 → a ≠ 0 → a ≠ 255 →
    h.session = 0 →
    exec (.hatAssign dt h p true) s = .next (s.ended (v.busSend 0x32 h.src h.tid 0
      (slice p 1 4 ++ beBytes 8 Config.serial.toNat ++ v.objBytes 0x1000 2 ++ v.objBytes 0x1000 3)))) ∧
  (∀ (s : State) (e : BitVec 16) (version src : Byte),
    let u : State := { s with field := { s.field with rxFrames := s.field.rxFrames + 1 } }
    s.field.up = true →
    (e ≠ 0x88B5 → exec (.foreignEthertypeFrame e version src) s = .next (s.ended (u.fieldCount 0x11))) ∧
    (e = 0x88B5 → version ≠ 1 → exec (.foreignEthertypeFrame e version src) s = .next (s.ended u)) ∧
    (e = 0x88B5 → version = 1 → s.field.node ≠ 0 → src = s.field.node →
      exec (.foreignEthertypeFrame e version src) s = .next (s.ended (u.fieldCount 6)))) ∧
  (∀ (s v : State) (l : Nat) (h : BusHdr) (p : List Byte), s.busTake 0x21 h p = (some l, v) → p.length = 4 →
    Completes (.eventAck h p) s (fun t => ∀ n, n ∈ t.field.waiting ↔ n ∈ v.field.waiting ∧ n.seq.toNat ≠ beAt p 0 4)) ∧
  (∀ (s : State) (dt : Nat) (n : Notice), let u := s.advance dt
    let dst := u.objNat 0x1010 3
    u.field.up = true → u.field.recovery = false → dst ≠ 0 → u.field.node ≠ 0 → u.field.waiting = [n] →
    u.due n.sentAt (secs 1) = true →
    let v := u.busEvent (BitVec.ofNat 8 dst) (eventPayload n.seq.toNat n.code n.unit n.time.toNat n.detail)
    exec (.eventResend dt) s =
      .next (s.ended { v with field := { v.field with waiting := [{ n with sentAt := u.clock }] } }))

/-- R387, R402, R405: an image transfer opens, takes its bytes and closes. -/
def Obligations.ImageCommandsComplete : Prop :=
  (∀ (s v : State) (dt l : Nat) (h : BusHdr) (p : List Byte),
    let target := beAt p 0 1
    let len := beAt p 1 4
    let w := v.serveLater
    (s.advance dt).busTake 0x40 h p = (some l, v) → h.dst ≠ 255 → w.sessBusy h = false → w.mayLoad l = true →
    p.length = 5 → (target ≤ 1 ∨ 16 ≤ target ∧ target ≤ 23 ∧ (w.service (target - 16)).state ≠ 2) →
    (w.field.recovery = true → target = 0) → w.field.transfer = none → len ≤ w.imageRoom target →
    exec (.imgOpen dt h p) s = .next (s.ended ({ w with field := { w.field with
      transfer := some { target := BitVec.ofNat 8 target, length := len, data := [] }, imgState := 1 } }.imgAnswer h 0))) ∧
  (∀ (s v : State) (dt l : Nat) (h : BusHdr) (p : List Byte) (x : Transfer),
    let d := p.drop 4
    let w := v.serveLater
    (s.advance dt).busTake 0x41 h p = (some l, v) → h.dst ≠ 255 → w.sessBusy h = false → w.mayLoad l = true →
    w.field.transfer = some x → 4 ≤ p.length → d.length ≤ 1024 → beAt p 0 4 = x.data.length → x.data.length + d.length ≤ x.length →
    exec (.imgData dt h p) s = .next (s.ended
      ({ w with field := { w.field with transfer := some { x with data := x.data ++ d } } }.imgAnswer h 0))) ∧
  (∀ (s v : State) (dt l : Nat) (h : BusHdr) (x : Transfer), let w := v.serveLater
    (s.advance dt).busTake 0x42 h [] = (some l, v) → h.dst ≠ 255 → w.sessBusy h = false → w.mayLoad l = true →
    w.field.recovery = false → w.field.transfer = some x → x.data.length = x.length →
    w.imageResult x.data x.target.toNat = 0 →
    (x.target = 0 → exec (.imgClose dt h true) s = .next (s.ended ((w.storeFirmware false x.data).imgEnd h 0))) ∧
    (x.target = 1 → exec (.imgClose dt h true) s = .next (s.ended ((w.storeFirmware true x.data).imgEnd h 0))) ∧
    (16 ≤ x.target.toNat → (w.service (x.target.toNat - 16)).state ≠ 2 → exec (.imgClose dt h true) s =
      .next (s.ended ((w.storeService (x.target.toNat - 16) x.data).imgEnd h 0))))

/-! Chapters 15 and 16: security. -/

/-- R398, R407 to R409, R413: each of these commands completes, and leaves what its rule says: with the main die off and no
image transfer open, ENROL of a good package, ENROLMENT_DONE, RELEASE_OWNER of an owned device, DECOMMISSION, and PROVISION
in MANUFACTURE, each at the level that its rule asks for; PASSWORD_CHANGE in a request of a session with a level that no
earlier request of it holds up; and OWNER_CHAIN_WRITE of at most 4,096 bytes at level 2. -/
def Obligations.OwnershipCommandsComplete : Prop :=
  (∀ (s : State) (dt : Nat) (lvl : Fin 4), let u := s.advance dt
    u.objTaken = true → lvl ≠ 0 → u.field.transfer = none → u.field.enrolling = false → u.field.life = 1 →
    u.field.mainSt = 0 → badPackage u.field.ownerPkg = false →
    exec (.enrol dt lvl) s = .next (s.ended ({ u with field := { u.field with enrolling := true, enrolStat := 1 } }.emit
      (.object 0x2F20 2 0)))) ∧
  (∀ (s : State) (dt : Nat), let u := s.advance dt
    u.field.up = true → u.field.enrolling = true →
    Completes (.enrolmentDone dt) s (fun t => t.field.life = 2 ∧ t.field.enrolling = false ∧ t.field.enrolStat = 2 ∧
      t.field.owner = s.field.ownerPkg ∧ t.field.ownerPkg = [] ∧ t.field.kop = s.field.pkgKop ∧
      t.field.salt = slice s.field.ownerPkg 258 16 ∧ t.field.iter = beAt s.field.ownerPkg 274 4 ∧ t.field.sealKeys = true ∧
      t.field.leaf = 0)) ∧
  (∀ (s : State) (lvl : Fin 4), s.objTaken = true → 2 ≤ lvl.val → s.field.transfer = none → s.field.life = 2 →
    s.field.mainSt = 0 →
    Completes (.releaseOwner lvl) s (fun t => t.field.life = 1 ∧ t.field.owner = [] ∧ t.field.sealKeys = false ∧
      t.field.kop = [] ∧ t.field.services = [] ∧ t.objSays 0x2F20 2 0)) ∧
  (∀ (s : State) (lvl : Fin 4), s.objTaken = true → (if s.field.life = 2 then 2 else 3) ≤ lvl.val →
    s.field.transfer = none → s.field.enrolling = false → s.field.life ≠ 3 → s.field.mainSt = 0 →
    Completes (.decommission lvl) s (fun t => t.field.life = 3 ∧ t.field.owner = [] ∧ t.field.sealKeys = false ∧
      t.field.kop = List.replicate 32 0 ∧ t.objSays 0x2F20 2 0)) ∧
  (∀ (s : State) (lvl : Fin 4), s.objTaken = true → lvl = 3 → s.field.transfer = none → s.field.life = 0 →
    Completes (.provision lvl) s (fun t => t.field.life = 1 ∧ t.field.owner = s.field.owner ∧ t.objSays 0x2F20 2 0)) ∧
  (∀ (s v : State) (l : Nat) (h : BusHdr) (x : List Byte),
    let z := v.serveLater
    let w := z.setPart h.session (objKey 0x2F31 1) none
    let y := w.objWriteRsp h 0x2F31 1 52
    s.busTake 0x03 h (wholeWrite 0x2F31 1 x) = (some l, v) → h.dst ≠ 255 → z.sessBusy h = false → 1 ≤ l → x.length = 52 →
    z.writeCheck l 0x2F31 1 52 none = 0 → w.writeCheck l 0x2F31 1 52 (some x) = 0 →
    exec (.passwordChange h x) s = .next (s.ended { y with field := { y.field with
      kop := y.unwrap h.session h.counter (slice x 20 32), salt := slice x 0 16, iter := beAt x 16 4 } })) ∧
  (∀ (s : State) (lvl : Fin 4) (c : List Byte), s.objTaken = true → 2 ≤ lvl.val → c.length ≤ 4096 →
    exec (.ownerChainWrite lvl c) s =
      .next (s.ended ({ s with field := { s.field with ownerChain := c } }.emit (.object 0x2F32 3 0))))

/-- R411, R412, R415, R416: doors, quotes, SPDM signatures and the TAP. -/
def Obligations.SecurityCommandsComplete : Prop :=
  (∀ (s : State) (lvl : Fin 4) (node v : Byte),
    let w := s.setObj 0x2F40 1 [v]
    let x := if w.running = true then w.gloveSend .field 0x01 (wholeWrite 0x2F40 1 [v]) else w
    s.objTaken = true → lvl ≠ 0 → s.field.life ≠ 0 → v.toNat < 16 →
    bit s.doors 2 = false → v.getLsbD 2 = true → (∀ d < 4, d ≠ 2 → bit s.doors d = v.getLsbD d) →
    exec (.lockWrite lvl node v) s = .next (s.ended ((x.drawn.fieldEvent (x.freeNext % 65536) 15 0
      [BitVec.ofNat 8 lvl.val, node]).emit (.object 0x2F40 1 0)))) ∧
  (∀ (s : State) (lvl : Fin 4) (node v : Byte),
    s.objTaken = true → s.field.life ≠ 0 → v.toNat < 16 → (∃ d < 4, bit s.doors d = false ∧ v.getLsbD d = true) → lvl = 0 →
    exec (.lockWrite lvl node v) s = .next (s.ended (s.emit (.object 0x2F40 1 3)))) ∧
  (∀ (s v : State) (n sig : List Byte),
    s.objTaken = true → n.length = 32 → s.field.life ≠ 3 → s.aliasSign (s.quoteBody n) = (sig, v) →
    exec (.quoteNonceWrite n) s = .next (s.ended ({ v with field := { v.field with quote := s.quoteBody n ++ sig } }.emit
      (.object 0x2F50 1 0)))) ∧
  (∀ (s v : State) (x sig : List Byte),
    s.objTaken = true → x.length = 49 → (beAt x 0 1 = 1 ∨ beAt x 0 1 = 2) → s.field.life ≠ 3 →
    s.aliasSign (spdmContext (beAt x 0 1) ++ x.drop 1) = (sig, v) →
    exec (.spdmSignRequest true x) s =
      .next (s.ended ({ v with field := { v.field with spdmSig := sig } }.emit (.object 0x2F60 1 0)))) ∧
  (∀ (s : State) (x : List Byte), s.objTaken = true →
    exec (.spdmSignRequest false x) s = .next (s.ended (s.emit (.object 0x2F60 1 1)))) ∧
  (∀ (s : State) (tms tdi : Bool), s.powered 0 = true →
    exec (.jtagTapOperation false tms tdi) s =
      .next (s.ended { s with pwr := { s.pwr with tap := 15, tapIr := 2, tapShift := 0 } })) ∧
  (∀ (s : State) (tms tdi : Bool), s.powered 0 = true → s.pwr.tap = 3 → s.tapInstr = 2 →
    let v := s.pwr.tapShift.toNat
    exec (.jtagTapOperation true tms tdi) s = .next (s.ended
      { s.emit (.tdo (bit v 0)) with pwr := { s.pwr with
        tap := tapNext 3 tms, tapShift := BitVec.ofNat 32 (v / 2 + (if tdi then 1 else 0) * 2 ^ 31) } }))

/-! Chapter 17: power. -/

/-- R394, R403 to R405, R431: the field side stops and starts; an image confirms its counter. -/
def Obligations.FieldSideCommandsComplete : Prop :=
  (∀ (s : State) (dt : Nat), let u := s.advance dt
    u.field.up = true →
    exec (.fieldSideRestart dt .lockstep) s = .next (s.ended ((u.fieldCount 9).stopField 1)) ∧
    exec (.fieldSideRestart dt .watchdog) s = .next (s.ended (u.stopField 2)) ∧
    exec (.fieldSideRestart dt .command) s = .next (s.ended (u.stopField 3))) ∧
  (∀ (s : State) (dt : Nat) (lost : Bool), let u := s.advance dt
    Completes (.fieldColdStart dt lost) s (fun t => t.field.up = false ∧ t.field.node = 0 ∧ t.field.hatOut = false ∧
      t.field.hatHeld = false ∧ t.field.hatSince = u.clock ∧ t.field.sessions = [] ∧ t.field.logins = [] ∧
      t.field.cause = (if lost then 5 else 4) ∧ t.field.trips = (if lost then 0 else s.field.trips))) ∧
  (∀ (s : State) (dt : Nat), let u := s.advance dt
    u.field.up = false → u.pwr.por = false → u.imageResult (u.bank (if u.field.prefField then 1 else 0)) 0 = 0 →
    Completes (.fieldBoot dt) s (fun t => t.field.up = true ∧ t.field.recovery = false ∧ t.field.startAt = u.clock ∧
      t.field.runField = s.field.prefField)) ∧
  (∀ (s : State) (dt : Nat), let u := s.advance dt
    u.field.up = false → (∀ b, u.imageResult (u.bank (if b = true then 1 else 0)) 0 ≠ 0) →
    Completes (.fieldBoot dt) s (fun t => t.field.up = true ∧ t.field.recovery = true)) ∧
  (∀ (s : State) (dt : Nat), let u := s.advance dt
    (u.field.up = true → u.field.recovery = false → u.due u.field.startAt (secs 60) = true →
      exec (.antiRollbackConfirm dt .field) s =
        let v := u.raiseCounter u.fieldImage
        .next (s.ended { v with field := { v.field with confirmed := true, tries := 0 } })) ∧
    (u.running = true → exec (.antiRollbackConfirm dt .main) s = .next (s.ended (u.raiseCounter u.mainImage))) ∧
    (∀ slot : Fin 8, (u.service slot.val).state = 2 →
      exec (.antiRollbackConfirm dt (.service slot)) s = .next (s.ended (u.raiseCounter (u.service slot.val).file))))

/-- R396, R404, R405, R432: the main die is brought up, watched, reset and powered down. -/
def Obligations.MainDieCommandsComplete : Prop :=
  (∀ (s : State) (dt x : Nat), let u := s.advance dt
    let v := u.mainReset
    u.field.bootAt = some x → u.field.mainSt = 1 → u.due x (secs 2) = true →
    exec (.mainFirmwareTimeout dt) s = .next (s.ended
      { v with field := { v.field with fellBack := u.field.fellBack, mainSt := 1 } }.fallBackMain)) ∧
  (∀ (s : State) (dt : Nat), let u := s.advance dt
    let v := { u with field := { u.field with mainSt := 4 } }.fieldEvent 8 15 0 []
    u.field.up = true → u.running = true → u.due u.gloveF.heardAt (msec (u.objNat 0x2000 4)) = true →
    exec (.mainDieWatchdogExpire dt) s = .next (s.ended (if v.objNat 0x2000 5 = 1 then (if v.field.life = 3 then v.mainReset else v.resetMain)
      else v))) ∧
  (∀ (s : State) (dt : Nat) (lvl : Fin 4), let u := s.advance dt
    u.objTaken = true → lvl ≠ 0 → u.field.life ≠ 3 → u.pwr.tripped = false → u.pwr.por = true → u.field.mainSt = 0 →
    exec (.mainDieBringUpCommand dt lvl) s = .next (s.ended (((u.switchDomains
      (fixedDomains.foldl (fun (m : BitVec 96) d => m ||| BitVec.ofNat 96 (2 ^ d)) 0)).beginMain).emit
      (.object 0x2000 2 0)))) ∧
  (∀ (s : State) (dt : Nat) (lvl : Fin 4), let u := s.advance dt
    let v := fun (down : Bool) => ({ u with field := { u.field with endAt := some (u.clock, down) } } : State)
    u.objTaken = true → lvl ≠ 0 → u.pwr.tripped = false → u.field.mainSt ≠ 0 → u.field.endAt = none → u.sql.runEnd = none →
    exec (.mainDieResetCommand dt lvl) s =
      .next (s.ended (((v false).gloveSend .field 0x40 (powerPayload 1 0)).emit (.object 0x2000 2 0))) ∧
    exec (.mainDiePowerDown dt lvl) s =
      .next (s.ended (((v true).gloveSend .field 0x40 (powerPayload 2 0)).emit (.object 0x2000 2 0)))) ∧
  (∀ (s u : State) (dt : Nat) (p : List Byte) (down : Bool),
    let v := u.gloveSend .host 0x41 (beBytes 2 0 ++ List.replicate 6 0)
    let x := v.repTime 38
    let w := (v.closeBlock 5 x).askSeal (BitVec.ofNat 64 x)
    (s.advance dt).takeMsg .host 0x40 = some (p, u) → beAt p 0 1 = (if down = true then 2 else 1) →
    (v.running = true → v.sqlOn = true → v.sql.open_ = true → exec (.powerMsg dt) s =
      .next (s.ended { w with sql := { w.sql with runEnd := some (w.clock, down), open_ := false } })) ∧
    (v.sql.open_ = false → exec (.powerMsg dt) s = .next (s.ended (
      if down = true then { v.mainOff with field := { v.mainOff.field with offCmd := true } } else v.resetMain)))) ∧
  (∀ (s : State) (dt x : Nat), let u := s.advance dt
    u.due x (msec 100) = true →
    (u.field.endAt = some (x, false) ∨ u.field.endAt = none ∧ u.sql.runEnd = some (x, false) → exec (.runEndSealTimeout dt) s = .next (s.ended u.resetMain)) ∧
    (u.field.endAt = some (x, true) ∨ u.field.endAt = none ∧ u.sql.runEnd = some (x, true) → exec (.runEndSealTimeout dt) s =
      .next (s.ended { u.mainOff with field := { u.mainOff.field with offCmd := true } })))

/-- R434: the steps of bring-up, each after the one before; DESIGN CHOICE (log 110): the main die takes the bound objects
at steps 4 and 8. -/
def Obligations.BringUpCompletes : Prop :=
  ∀ (s : State) (dt : Nat) (k : Fin 9) (ok : Bool), let u := s.advance dt
    let v : State := { u with pwr := { u.pwr with step := k.val } }
    u.pwr.fw = true → u.field.mainSt = 1 → u.pwr.step + 1 = k.val →
    (k = 1 → exec (.bringUp dt k ok) s =
      .next (s.ended { v with pwr := { v.pwr with avsThere := ok, setpoint := 850 } })) ∧
    (k = 2 → exec (.bringUp dt k ok) s = .next (s.ended (
      let req := BitVec.ofNat 96 (v.objNat 0x2010 1)
      if v.objBool 0x2000 3 = false ∧ ok = true ∧ req.getLsbD 6 = true ∧ req.getLsbD 7 = true ∧ req.getLsbD 8 = true then
        let w := ((v.powerOn 8).powerOn 6).powerOn 7
        { w with mem := { w.mem with trained := true } }
      else { v with mem := { v.mem with reduced := true } }.setReg (QIM + 0x050) 16384))) ∧
    (k = 3 → exec (.bringUp dt k ok) s = .next (s.ended (
      let w : State := { v with pwr := { v.pwr with jtagUp := bit v.doors 3 } }
      let req := BitVec.ofNat 96 (w.objNat 0x2010 1)
      if ok = true then w.switchDomains (w.target req (w.powered 8))
      else w.drawn.switchDomains (w.target (req &&& BitVec.ofNat 96 w.freeNext) (w.powered 8))))) ∧
    (k = 4 → exec (.bringUp dt k ok) s = .next (s.ended v.bringUp4)) ∧
    (k = 5 → exec (.bringUp dt k ok) s = .next (s.ended ((v.startCore .A).startCore .B))) ∧
    (k = 6 → exec (.bringUp dt k ok) s = .next (s.ended v.startRun)) ∧
    (k = 7 → (∀ n < 8, v.objBool (0x2100 + n) 3 = false) → exec (.bringUp dt k ok) s = .next (s.ended v)) ∧
    (k = 7 → exec (.bringUp dt k ok) s = .next (s.ended ((List.range 8).foldl (fun (w : State) n =>
      if w.objBool (0x2100 + n) 3 = true ∧ w.field.life = 2 then (w.startChecked n).2 else w) v))) ∧
    (k = 8 → exec (.bringUp dt k ok) s = .next (s.ended { v with
      hep := { v.hep with crs := false }, bound := v.field.objs.filter (fun e => objTold (e.1 / 256))
      field := { v.field with mainSt := 2, bootAt := none, debugOpen := bit v.doors 2
                              jtagOpen := v.field.jtagOpen && bit v.doors 3 } }.deliverHeld))

/-- R423, R424, R426 to R430, R437: domains, supplies, temperatures, the core voltage and the flash. -/
def Obligations.PowerCommandsComplete : Prop :=
  (∀ (s : State) (dt : Nat) (lvl : Fin 4) (v : BitVec 96), let u := s.advance dt
    let w := u.setObj 0x2010 1 (beBytes 12 v.toNat)
    let old := BitVec.ofNat 96 (u.objNat 0x2010 1)
    let stay := u.target v (u.powered 8)
    u.objTaken = true → lvl ≠ 0 →
    (u.running = false → exec (.powerDomainRequest dt lvl v) s = .next (s.ended (w.emit (.object 0x2010 1 0)))) ∧
    (u.running = true → (∀ d ∈ domainOrder, u.powered d = true → (stay.getLsbD d = false ∨ old.getLsbD d = true ∧
        v.getLsbD d = false ∧ d ∉ fixedDomains ∧ (d < 6 ∨ 8 < d) ∧ d ≠ 94) → u.mayRemove stay d = true) →
      exec (.powerDomainRequest dt lvl v) s =
        .next (s.ended ((w.gloveSend .field 0x40 (powerPayload 0 v.toNat)).emit (.object 0x2010 1 0))))) ∧
  (∀ (s : State) (dt : Nat), let u := s.advance dt
    let v := { u with pwr := { u.pwr with por := true, tripped := false } }.mainReset
    let w : State := { v with field := { v.field with offCmd := false } }
    u.pwr.por = false →
    exec (.powerOnReset dt) s = .next (s.ended (
      if w.field.up = true ∧ w.field.recovery = false ∧ w.field.life ≠ 3 then w.beginMain else w))) ∧
  (∀ (s : State) (dt : Nat) (rail : Fin 6), let u := s.advance dt
    let v := { u with pwr := { u.pwr with por := false } }.mainReset
    u.pwr.por = true → u.field.up = true →
    exec (.supplyOutOfTolerance dt rail) s = .next (s.ended
      ({ v with field := { v.field with mainSt := 3 } }.fieldEvent 0xD 15 0 [BitVec.ofNat 8 rail.val]))) ∧
  (∀ (s : State) (dt : Nat) (sensor : Fin 24) (x : Int), let u := s.advance dt
    let v := u.mainOff
    u.pwr.por = true → u.pwr.tripped = false → 1250 ≤ x → u.field.up = true →
    exec (.thermalTrip dt sensor x) s = .next (s.ended ({ v with
      pwr := { v.pwr with tripped := true }, field := { v.field with trips := v.field.trips + 1 } }.fieldEvent 0xC 15 0
      [BitVec.ofNat 8 sensor.val]))) ∧
  (∀ (s : State) (dt : Nat) (m h f : Int) (c : Word), let u := s.advance dt
    u.objTaken = true → u.due u.field.sampleAt (msec (u.objNat 0xF020 6)) = true →
    max m h < 10 * (u.objNat 0xF020 7 : Int) →
    Completes (.telemetrySample dt m h f c) s (fun t => t.field.tempMain = m ∧ t.field.tempHbm = h ∧ t.field.tempField = f ∧
      t.field.sampleAt = u.clock ∧ t.field.current = (if s.pwr.avsThere then c else 0) ∧
      t.field.warned = (s.field.warned && decide (10 * (u.objNat 0xF020 7 : Int) - 50 < m)) ∧
      t.field.warnedHbm = (s.field.warnedHbm && decide (10 * (u.objNat 0xF020 7 : Int) - 50 < h)))) ∧
  (∀ (s : State) (dt : Nat) (x : Int), let u := s.advance dt
    let g := max 650 (min 850 (Config.vddCurve x))
    u.pwr.por = true → u.pwr.avsThere = true → u.due u.pwr.stepAt (msec 1) = true →
    Completes (.avsSetpointStep dt x) s (fun t => t.pwr.stepAt = u.clock ∧
      t.pwr.setpoint = if s.pwr.setpoint ≤ g then min g (s.pwr.setpoint + 10) else max g (s.pwr.setpoint - 10))) ∧
  (∀ (s : State) (sector : Nat), s.field.up = true →
    exec (.flashWearLevelling sector false) s = .next (s.ended
      { s with field := { s.field with rotated := Map.upd s.field.rotated sector 0 (· + 1) } }))

/-! Chapter 12: the admin queue. -/

/-- R281, R284, R305, R308: admin commands for instances end with the status that the spec gives them. -/
def Obligations.InstanceAdminCompletes : Prop :=
  ∀ (s v : State) (dt : Nat) (e : List Byte), (s.advance dt).takesAdmin e v →
    let i := entInst e
    let x := instOf e { st := .active, gen := (v.inst i).gen, made := slice e 8 36 }
    let y := instOf e (v.inst i)
    let ends := fun (t : State) (st d : Nat) => Host.Outcome.next (s.ended (t.adminDone (entTag e) st d))
    (leAt e 1 1 = 0 → exec (.adminNop dt e) s = ends v 0 0) ∧
    ((v.inst i).st = .free → x.badArg = false → i < v.instCap → i < v.regBits (QIM + 0x050) 16 0 →
      x.qbase + x.qcount ≤ v.queueCap → v.instOverlaps i x = false →
      exec (.instCreate dt e) s = ends (v.modInst i (fun _ => x)) 0 i) ∧
    ((v.inst i).st ≠ .free → exec (.instCreate dt e) s = ends v 0x84 i) ∧
    ((v.inst i).st ≠ .free → y.badArg = false → y.qbase + y.qcount ≤ v.queueCap → v.allDisabled i = true →
      v.qim.queue.any (fun (q : Nat × Queue) => decide (q.2.owner = some (BitVec.ofNat 16 i)) && decide (y.qcount ≤ q.2.local_))
        = false → v.instOverlaps i y = false →
      exec (.instModify dt e) s =
        ends (((v.modInst i (fun _ => y)).moveQueues i (v.inst i).qbase y.qbase).checkInst i) 0 i) ∧
    ((v.inst i).st = .active ∨ (v.inst i).st = .error →
      exec (.instReset dt e) s = .next (s.ended (v.resetInst i false (some (entTag e, 0))))) ∧
    ((v.inst i).st = .free → exec (.instReset dt e) s = ends v 0x83 i ∧ exec (.instDestroy dt e) s = ends v 0x83 i) ∧
    (((v.inst i).st = .active ∨ (v.inst i).st = .error) → v.sessUsed i = 0 →
      v.qim.queue.any (fun (q : Nat × Queue) => decide (q.2.owner = some (BitVec.ofNat 16 i)) && q.2.st ≠ .none) = false →
      exec (.instDestroy dt e) s = .next (s.ended (v.resetInst i true (some (entTag e, 0))))) ∧
    (∀ w, (v.inst i).st ≠ .free → entClr e = false → v.unitPut 6 none (leAt e 16 8) (slicePad (List.replicate 8 0 ++
        slicePad (v.inst i).made 0 36 ++ [BitVec.ofNat 8 (v.inst i).st.code, (v.inst i).gen, if v.overQuota i then 1 else 0, 0] ++
        leBytes 4 (v.inst i).err ++ leBytes 4 (kib (v.instBacklog i))) 0 64) = (some true, w) →
      exec (.instQuery dt e) s = ends w 0 i) ∧
    ((v.inst i).st ≠ .free → (v.inst i).gen.toNat = leAt e 13 1 → (v.inst i).busy = true →
      exec (.medRespond dt e) s = ends (((v.medEnd i (e.getD 12 0)).modInst i (fun x => { x with
        response := (slicePad e 16 32).zipIdx.foldl (fun (m : Map Byte) (b : Byte × Nat) => Map.set m b.2 b.1 0) [] })).fireInst i 0)
        0 i)

/-- R289, R290, R304, R308: admin commands for queues. -/
def Obligations.QueueAdminCompletes : Prop :=
  ∀ (s v : State) (dt : Nat) (e : List Byte) (owner : Option (BitVec 16)) (base count : Nat),
    (s.advance dt).takesAdmin e v → v.ownerOf e = some (owner, base, count) →
    let x := queueOfEntry e owner base
    let g := base + entLocal e
    let z := v.settleSends
    let ends := fun (t : State) (st d : Nat) => Host.Outcome.next (s.ended (t.adminDone (entTag e) st d))
    (v.badQueue x count (leAt e 32 2) = false → (x.kind = 1 → leAt e 36 4 < 2 ^ 20) → g < v.queueCap → (v.queue g).st = .none → (x.kind = 7 ∨ (v.queue x.cq).st ≠ .none) →
      v.ownerRuns x = true →
      exec (.qCreate dt e) s = if v.offered x = true then ends (v.modQueue g (fun _ => x)) 0 g else ends v.unavailable 0x87 g) ∧
    (entLocal e < count →
      ((v.queue g).st = .disabled → exec (.qEnable dt e) s =
        ends (v.modQueue g (fun x => { x with st := .enabled, stopped := false })) 0 g) ∧
      ((v.queue g).st = .none → exec (.qEnable dt e) s = ends v 0x83 g ∧ exec (.qDisable dt e) s = ends v 0x83 g ∧
        exec (.qDestroy dt e) s = ends v 0x83 g) ∧
      ((v.queue g).st ≠ .none → (z.queue g).st ≠ .disabled → (z.queue g).kind = 7 → exec (.qDisable dt e) s =
        ends (z.modQueue g (fun x => { x with st := .disabled })) 0 g) ∧
      ((v.queue g).st ≠ .none → (z.queue g).st ≠ .disabled → (z.queue g).kind ≠ 7 →
        ((z.queue g).kind = 4 → ∀ n, z.sessionOf g = some n → (z.sess n).st ≠ 1) → exec (.qDisable dt e) s =
        let stop := fun (y : Entry) => if ((z.queue g).kind = 3 ∨ (z.queue g).kind = 6) ∧ y.st = .waiting then
          { y with st := .finished 0, len := 0 } else y
        .next (s.ended ((z.modQueue g (fun x => { x with
          fetched := [], ents := x.ents.map stop, disabling := some (entTag e, 0), st := .disabled })).tryDisable g))) ∧
      ((v.queue g).st = .disabled → ((v.queue g).kind ≠ 7 ∨ v.boundTo g = []) → (v.queue g).back = [] →
        exec (.qDestroy dt e) s = ends (match (v.queue g).owner with
          | some i => (v.modQueue g (fun _ => {})).checkInst i.toNat
          | none => v.modQueue g (fun _ => {})) 0 g) ∧
      (∀ w, (v.queue g).kind = 7 → (v.queue g).st ≠ .none → entClr e = false →
        v.unitPut 6 none (leAt e 16 8) (slicePad (leBytes 1 7 ++ leBytes 1 (v.queue g).st.code ++
          leBytes 2 ((if (v.queue g).cqBack = [] then 0 else 1) + (if (v.queue g).armed then 2 else 0)) ++
          leBytes 4 (v.queue g).head.toNat ++ leBytes 4 (v.queue g).tail.toNat ++ leBytes 4 (v.queue g).pub.toNat ++
          leBytes 4 (v.queue g).prod.toNat ++ leBytes 4 (v.queue g).cons.toNat ++ leBytes 4 (kib (v.backlog g)) ++
          leBytes 4 (v.queue g).rxDrop) 0 64) = (some true, w) →
        exec (.qQuery dt e) s = ends w 0 g))

/-- R23, R216, R308, R310: admin commands for sessions, while the transport engine is powered, a creation while every
service's units are too; otherwise they are UNAVAILABLE. -/
def Obligations.SessionAdminCompletes : Prop :=
  ∀ (s v : State) (dt : Nat) (e : List Byte), (s.advance dt).takesAdmin e v →
    (v.inst (entInst e)).st ≠ .free →
    let n := leAt e 12 4
    let ends := fun (t : State) (st d : Nat) => Host.Outcome.next (s.ended (t.adminDone (entTag e) st d))
    ((v.offersAny && v.trnPowered) = false → ∀ b, exec (.sessCreate dt e b) s = ends v.unavailable 0x87 n) ∧
    (v.trnPowered = false → ∀ b, exec (.sessRead dt e) s = ends v.unavailable 0x87 n ∧ exec (.sessModify dt e b) s = ends v.unavailable 0x87 n ∧
      exec (.sessDestroy dt e) s = ends v.unavailable 0x87 n) ∧
    (v.trnPowered = true →
      (∀ (b : List Byte) (w : State), v.unitRead none (leAt e 16 8) 296 (.ok b) = (some (some b), w) →
        let c := BitVec.ofNat 2048 (leNat (slicePad b 0 256))
        ({ ctx := c : Sess }).owner = entInst e →
        (v.offersAny = true → ∀ st d x, w.sessCreate c (BitVec.ofNat 320 (beNat (slicePad b 256 40))) = (st, d, x) →
          exec (.sessCreate dt e (.ok b)) s = ends x (0xC0 + st) d) ∧
        (∀ st x, w.otherSess e = false → w.sessModify n c = (st, x) →
          exec (.sessModify dt e (.ok b)) s = ends x (0xC0 + st) n)) ∧
      (v.otherSess e = true → exec (.sessRead dt e) s = ends v 0x81 n ∧ exec (.sessDestroy dt e) s = ends v 0x81 n) ∧
      (v.otherSess e = false →
        (∀ c x w, v.sessRead n (entClr e) = (0, c, x) → x.unitPut 6 none (leAt e 16 8) (leBytes 256 c.toNat) = (some true, w) →
          exec (.sessRead dt e) s = ends w 0xC0 n) ∧
        (∀ st x, v.sessDestroy n = (st, x) → exec (.sessDestroy dt e) s = ends x (0xC0 + st) n)))

/-! The machine as a whole. -/

/-- A step takes the command at the front of the queue and runs it with the queue's rest; on an empty queue one 0.25 ns
unit passes, and no word spells a command: both are the model's own (notes/assumptions/1.md, 4.md and 5.md). -/
def Obligations.StepRunsTheFrontCommand : Prop :=
  (∀ (s : State) (c : Instr) (q : List Instr), s.pending = c :: q → step s = exec c { s with pending := q }) ∧
  (∀ s : State, s.pending = [] → step s = .next { s with clock := s.clock + 1 }) ∧
  (∀ (s : State) (n w : Nat), s.withFetchWord n w = s)

/-- Every command completes: from any state exec answers a next state that leaves the queue as it was, but for an admin
command whose entry is not 64 bytes, which its interface cannot carry (notes/assumptions/10.md). -/
def Obligations.EveryWellFormedCommandCompletes : Prop :=
  (∀ (c : Instr) (s : State), c.wf = true → ∃ t, exec c s = .next t ∧ t.pending = s.pending) ∧
  (∀ (s : State) (dt : Nat) (e : List Byte), e.length ≠ 64 → exec (.adminNop dt e) s = .fault .illFormed ∧
    exec (.qCreate dt e) s = .fault .illFormed ∧ exec (.instCreate dt e) s = .fault .illFormed) ∧
  (∀ (c : Instr) (s t : State), exec c s = .next t → t.pending = s.pending)

/-- R272: INTA stands exactly while MSI-X Enable and Interrupt Disable are 0 and a cause of vectors 0 to 15 is pending;
every step keeps that. -/
def Obligations.IntaFollowsItsCauses : Prop :=
  ∀ s t : State, s.intaHolds → step s = .next t → t.intaHolds

/-- R41, R42, R43, R272: what power-on reset leaves: INTA follows its causes, every register stands at its PoR value, no
SAT bit, armed guard, latch, staging word or guard lock is set; threads, queues, instances and DMA channels are free.
Where the spec gives no reset value the model's stands (notes/assumptions/6.md, 8.md and 9.md). -/
def Obligations.ResetState : Prop :=
  State.reset.intaHolds ∧ State.reset.hep.inta = false ∧ (∀ a, State.reset.getReg a = porOf a) ∧ State.reset.sat = [] ∧
  State.reset.arms = [] ∧ State.reset.latches = [] ∧ State.reset.staging = [] ∧ State.reset.guardLock = 0 ∧
  (∀ t, (State.reset.thread t).st = .free) ∧ (∀ q, (State.reset.queue q).st = .none) ∧
  (∀ i, (State.reset.inst i).st = .free) ∧ (∀ c, (State.reset.chan c).st = .idle) ∧ State.reset.gloveH.peerUp = false ∧
  State.reset.pending = [] ∧ Memory.wf State.reset.mem.cells

/-- R28: an offset that no register occupies, of any access of 1, 2, 4 or 8 bytes: a read returns zeros, a write is
ignored, and either sets GLB_ACCERR.UNMAP and writes no register but GLB_ACCERR, its offset word and what its event
raises (R43, R271). -/
def Obligations.UnmappedOffsets : Prop :=
  (∀ (s : State) (a n : Nat), (n = 1 ∨ n = 2 ∨ n = 4) → a % n = 0 → unmapped (a / 4 * 4) →
    s.regRead a n = (List.replicate n 0, s.accErr errUnmap a)) ∧
  (∀ (s : State) (a : Nat), a % 8 = 0 → unmapped a → unmapped (a + 4) →
    s.regRead a 8 = (List.replicate 8 0, (s.accErr errUnmap a).accErr errUnmap (a + 4))) ∧
  (∀ (s : State) (req : Requester) (a : Nat) (d : List Byte), (d.length = 1 ∨ d.length = 2 ∨ d.length = 4) →
    a % d.length = 0 → unmapped (a / 4 * 4) → State.regWrite State.opDbgCmd s req a d = s.accErr errUnmap a) ∧
  (∀ (s : State) (req : Requester) (a : Nat) (d : List Byte), d.length = 8 → a % 8 = 0 → unmapped a → unmapped (a + 4) →
    State.regWrite State.opDbgCmd s req a d = (s.accErr errUnmap a).accErr errUnmap (a + 4)) ∧
  (∀ (s : State) (a : Nat), ((s.accErr errUnmap a).getReg (GLB + 0x10)).getLsbD 6 = true ∧
    ∃ r h o, s.accErr errUnmap a = { s with regs := r, hep := h, out := o } ∧
      ∀ x, x ≠ GLB + 0x10 → x ≠ GLB + 0x14 → x ≠ intrSent → x ≠ intrSent + 4 → x ≠ statTxTlp → x ≠ statTxTlp + 4 →
        (s.accErr errUnmap a).getReg x = s.getReg x) ∧
  unmapped 0x0F00000 ∧ unmapped 0x0000F00

/-- R46: at power-on a core's count starts one unit after END of the most recent seal in field flash, or at zero. -/
def Obligations.CoreCountAtPowerOn : Prop :=
  ∀ (s : State) (dt : Nat) (ok : Bool), let u := s.advance dt
    u.pwr.fw = true → u.field.mainSt = 1 → u.pwr.step = 4 →
    Completes (.bringUp dt 5 ok) s (fun t =>
      ∀ c : CoreId, u.powered c.dom = true → t.coreCount c = (match s.field.sealEnd with
        | some e => 256 * (e.toNat + 1)
        | none => 0))

/-- Frame: commands of the field side change nothing but the field side (and what leaves the device, and INTA), a LOGOUT
where no other request waits, PROVISION while the main die does not run; a step of the VDD setpoint changes nothing but
the power unit. -/
def Obligations.FieldCommandsFrame : Prop :=
  ∀ (s t : State) (dt : Nat) (sid : Word) (lvl : Fin 4) (h : BusHdr) (p : List Byte) (m b f : Int) (c : Word) (n : Int),
    (exec (.loginTimeout dt sid) s = .next t → s.onlyField t) ∧ (s.field.later = [] → exec (.logout dt h) s = .next t → s.onlyField t) ∧
    (exec (.loginLockoutEnd dt lvl) s = .next t → s.onlyField t) ∧
    (exec (.sessionIdleExpire dt sid) s = .next t → s.onlyField t) ∧ (exec (.eventAck h p) s = .next t → s.onlyField t) ∧
    (exec (.enrol dt lvl) s = .next t → s.onlyField t) ∧ (exec (.enrolmentDone dt) s = .next t → s.onlyField t) ∧
    (exec (.releaseOwner lvl) s = .next t → s.onlyField t) ∧ (exec (.decommission lvl) s = .next t → s.onlyField t) ∧
    (s.running = false → exec (.provision lvl) s = .next t → s.onlyField t) ∧
    (exec (.telemetrySample dt m b f c) s = .next t → s.onlyField t) ∧
    (exec (.avsSetpointStep dt n) s = .next t →
      t = { s with clock := t.clock, out := t.out, pwr := t.pwr, hep := { s.hep with inta := t.hep.inta } })

/-- Frame: what the time cores do on their own leaves every other unit, and every byte of memory, as it was. -/
def Obligations.TimeCommandsFrame : Prop :=
  ∀ (s t : State) (dt : Nat) (c : CoreId) (r : Fin 40),
    (exec (.holdoverEntry dt c) s = .next t ∨ exec (.holdoverLimitExpire dt c) s = .next t ∨
      exec (.revertToPrimary dt c) s = .next t ∨ exec (.trefLoss dt c) s = .next t ∨ exec (.corePllUnlock dt c) s = .next t ∨
      exec (.boundTakeoverTimer dt) s = .next t ∨ exec (.stroke dt c) s = .next t ∨ exec (.takeoverNotice dt r) s = .next t ∨
      exec (.ppsOut dt) s = .next t ∨ exec (.timeQualityReport dt) s = .next t) →
    t.pcl = s.pcl ∧ t.fwt = s.fwt ∧ t.rwc = s.rwc ∧ t.trn = s.trn ∧ t.tmg = s.tmg ∧ t.qim = s.qim ∧ t.dma = s.dma ∧
    t.tha = s.tha ∧ t.prt = s.prt ∧ t.pwr = s.pwr ∧ t.mem = s.mem ∧ t.arms = s.arms ∧ t.guardLock = s.guardLock ∧
    ∀ a, t.readByte a = s.readByte a
end

