-- ==== Sys2Proof/Laws/Map.lean ====
section
/-! SUPPORT. Sparse tables: what a read sees after each operation, and that each keeps the canonical form. -/

namespace Sys2Proof

variable {α : Type}

/-- Every key of the table lies above k. -/
def Map.Above (k : Nat) (m : Map α) : Prop := ∀ e ∈ m, k < e.1

theorem Map.rising_cons (j : Nat) (a : α) (t : Map α) :
    Map.rising ((j, a) :: t) = true ↔ Map.Above j t ∧ Map.rising t = true := by
  induction t generalizing j a with
  | nil => simp [Map.rising, Map.Above]
  | cons e t ih =>
    obtain ⟨k, b⟩ := e
    simp only [Map.rising, Bool.and_eq_true, decide_eq_true_eq]
    constructor
    · rintro ⟨h, r⟩
      refine ⟨?_, r⟩
      intro e he
      rcases List.mem_cons.1 he with rfl | he
      · exact h
      · exact Nat.lt_trans h (((ih k b).1 r).1 e he)
    · rintro ⟨h, r⟩
      exact ⟨h _ (List.mem_cons_self ..), r⟩

theorem Map.get_of_above {k : Nat} {m : Map α} (h : Map.Above k m) {j : Nat} (hj : j ≤ k) : Map.get m j = none := by
  induction m with
  | nil => rfl
  | cons e t ih =>
    have h1 := h e (List.mem_cons_self ..)
    rw [Map.get, if_neg (by omega)]
    exact ih (fun x hx => h x (List.mem_cons_of_mem _ hx))

@[simp] theorem Map.get_put_same (m : Map α) (k : Nat) (v : α) : Map.get (Map.put m k v) k = some v := by
  induction m with
  | nil => simp [Map.put, Map.get]
  | cons e t ih =>
    simp only [Map.put]
    split
    · simp [Map.get]
    · split
      · simp [Map.get]
      · rename_i h _; simp [Map.get, h, ih]

theorem Map.get_put_other (m : Map α) {k j : Nat} (v : α) (h : j ≠ k) : Map.get (Map.put m k v) j = Map.get m j := by
  induction m with
  | nil => simp [Map.put, Map.get, h.symm]
  | cons e t ih =>
    simp only [Map.put]
    split
    · rename_i h1; subst h1; simp [Map.get, h.symm]
    · split
      · simp [Map.get, h.symm]
      · simp only [Map.get, ih]

theorem Map.get_del_other (m : Map α) {k j : Nat} (h : j ≠ k) : Map.get (Map.del m k) j = Map.get m j := by
  induction m with
  | nil => rfl
  | cons e t ih =>
    simp only [Map.del]
    split
    · rename_i h1; subst h1; simp [Map.get, h.symm]
    · split
      · rfl
      · simp only [Map.get, ih]

theorem Map.get_del_same {m : Map α} (r : Map.rising m = true) (k : Nat) : Map.get (Map.del m k) k = none := by
  induction m with
  | nil => rfl
  | cons e t ih =>
    obtain ⟨j, a⟩ := e
    have ⟨ha, hr⟩ := (Map.rising_cons j a t).1 r
    simp only [Map.del]
    split
    · rename_i h; exact Map.get_of_above ha (by omega)
    · rename_i h
      split
      · rename_i hlt
        simp only [Map.get, if_neg h]
        exact Map.get_of_above ha (by omega)
      · simp only [Map.get, if_neg h]; exact ih hr

theorem Map.Above.put {n k : Nat} {m : Map α} (h : Map.Above n m) (hk : n < k) (v : α) :
    Map.Above n (Map.put m k v) := by
  induction m with
  | nil => intro e he; simp [Map.put] at he; subst he; exact hk
  | cons e t ih =>
    have ht : Map.Above n t := fun x hx => h x (List.mem_cons_of_mem _ hx)
    have he := h e (List.mem_cons_self ..)
    simp only [Map.put]
    split
    · intro x hx; rcases List.mem_cons.1 hx with rfl | hx; exacts [hk, ht x hx]
    · split
      · intro x hx; rcases List.mem_cons.1 hx with rfl | hx; exacts [hk, h x hx]
      · intro x hx; rcases List.mem_cons.1 hx with rfl | hx; exacts [he, ih ht x hx]

theorem Map.Above.del {n : Nat} {m : Map α} (h : Map.Above n m) (k : Nat) : Map.Above n (Map.del m k) := by
  induction m with
  | nil => exact h
  | cons e t ih =>
    have ht : Map.Above n t := fun x hx => h x (List.mem_cons_of_mem _ hx)
    simp only [Map.del]
    split
    · exact ht
    · split
      · exact h
      · intro x hx; rcases List.mem_cons.1 hx with rfl | hx; exacts [h _ (List.mem_cons_self ..), ih ht x hx]

theorem Map.rising_put {m : Map α} (r : Map.rising m = true) (k : Nat) (v : α) : Map.rising (Map.put m k v) = true := by
  induction m with
  | nil => rfl
  | cons e t ih =>
    obtain ⟨j, a⟩ := e
    have ⟨ha, hr⟩ := (Map.rising_cons j a t).1 r
    simp only [Map.put]
    split
    · rename_i h; subst h; exact (Map.rising_cons ..).2 ⟨ha, hr⟩
    · rename_i h
      split
      · rename_i hlt
        refine (Map.rising_cons ..).2 ⟨?_, r⟩
        intro x hx
        rcases List.mem_cons.1 hx with rfl | hx
        · exact hlt
        · exact Nat.lt_trans hlt (ha x hx)
      · exact (Map.rising_cons ..).2 ⟨ha.put (by omega) v, ih hr⟩

theorem Map.rising_del {m : Map α} (r : Map.rising m = true) (k : Nat) : Map.rising (Map.del m k) = true := by
  induction m with
  | nil => rfl
  | cons e t ih =>
    obtain ⟨j, a⟩ := e
    have ⟨ha, hr⟩ := (Map.rising_cons j a t).1 r
    simp only [Map.del]
    split
    · exact hr
    · split
      · exact r
      · exact (Map.rising_cons ..).2 ⟨ha.del k, ih hr⟩

theorem Map.rising_filter {m : Map α} (r : Map.rising m = true) (p : Nat × α → Bool) :
    Map.rising (m.filter p) = true := by
  induction m with
  | nil => rfl
  | cons e t ih =>
    obtain ⟨j, a⟩ := e
    have ⟨ha, hr⟩ := (Map.rising_cons j a t).1 r
    rw [List.filter_cons]
    split
    · exact (Map.rising_cons ..).2 ⟨fun x hx => ha x (List.mem_filter.1 hx).1, ih hr⟩
    · exact ih hr

theorem Map.mem_put {m : Map α} {k : Nat} {v : α} {e : Nat × α} (h : e ∈ Map.put m k v) : e = (k, v) ∨ e ∈ m := by
  induction m with
  | nil => simpa [Map.put] using h
  | cons x t ih =>
    simp only [Map.put] at h
    split at h
    · rcases List.mem_cons.1 h with h | h
      exacts [.inl h, .inr (List.mem_cons_of_mem _ h)]
    · split at h
      · rcases List.mem_cons.1 h with h | h
        exacts [.inl h, .inr h]
      · rcases List.mem_cons.1 h with h | h
        · exact .inr (h ▸ List.mem_cons_self ..)
        · exact (ih h).imp_right (List.mem_cons_of_mem _)

theorem Map.mem_del {m : Map α} {k : Nat} {e : Nat × α} (h : e ∈ Map.del m k) : e ∈ m := by
  induction m with
  | nil => exact h
  | cons x t ih =>
    simp only [Map.del] at h
    split at h
    · exact List.mem_cons_of_mem _ h
    · split at h
      · exact h
      · rcases List.mem_cons.1 h with h | h
        · exact h ▸ List.mem_cons_self ..
        · exact List.mem_cons_of_mem _ (ih h)

variable [DecidableEq α]

theorem Map.wf_iff (m : Map α) (d : α) : Map.wf m d = true ↔ Map.rising m = true ∧ ∀ e ∈ m, e.2 ≠ d := by
  simp [Map.wf]

theorem Map.wf_set {m : Map α} {d : α} (h : Map.wf m d = true) (k : Nat) (v : α) : Map.wf (Map.set m k v d) d = true := by
  have ⟨r, n⟩ := (Map.wf_iff m d).1 h
  refine (Map.wf_iff ..).2 ?_
  unfold Map.set
  split
  · exact ⟨Map.rising_del r k, fun e he => n e (Map.mem_del he)⟩
  · rename_i hv
    refine ⟨Map.rising_put r k v, fun e he => ?_⟩
    rcases Map.mem_put he with rfl | he
    exacts [hv, n e he]

theorem Map.wf_filter {m : Map α} {d : α} (h : Map.wf m d = true) (p : Nat × α → Bool) :
    Map.wf (m.filter p) d = true := by
  have ⟨r, n⟩ := (Map.wf_iff m d).1 h
  exact (Map.wf_iff ..).2 ⟨Map.rising_filter r p, fun e he => n e (List.mem_filter.1 he).1⟩

/-- A read after a write of another key gives what it gave. -/
theorem Map.at_set_other (m : Map α) {k j : Nat} (v d x : α) (h : j ≠ k) :
    Map.at_ (Map.set m k v d) j x = Map.at_ m j x := by
  unfold Map.at_ Map.set
  split
  · rw [Map.get_del_other m h]
  · rw [Map.get_put_other m v h]

/-- A read after a write of the same key gives the value written. -/
theorem Map.at_set_same {m : Map α} (r : Map.rising m = true) (k : Nat) (v d : α) : Map.at_ (Map.set m k v d) k d = v := by
  unfold Map.at_ Map.set
  split
  · rename_i h; rw [Map.get_del_same r]; exact h.symm
  · rw [Map.get_put_same]; rfl

/-- A value that differs from the default reads back whatever the table's form. -/
theorem Map.at_set_ne (m : Map α) (k : Nat) {v d : α} (x : α) (h : v ≠ d) : Map.at_ (Map.set m k v d) k x = v := by
  unfold Map.at_ Map.set
  rw [if_neg h, Map.get_put_same]; rfl

end Sys2Proof
end

