-- ==== Sys2Proof/Laws/State.lean ====
section
/-! SUPPORT. What each update of the state leaves as it was: one lemma per field, true by the update's own form. -/

namespace Sys2Proof.Machine

variable (s : State)

@[simp] theorem State.emit_pending (o : Out) : (s.emit o).pending = s.pending := rfl
@[simp] theorem State.emit_clock (o : Out) : (s.emit o).clock = s.clock := rfl
@[simp] theorem State.emit_fresh (o : Out) : (s.emit o).fresh = s.fresh := rfl
@[simp] theorem State.emit_regs (o : Out) : (s.emit o).regs = s.regs := rfl
@[simp] theorem State.emit_sat (o : Out) : (s.emit o).sat = s.sat := rfl
@[simp] theorem State.emit_arms (o : Out) : (s.emit o).arms = s.arms := rfl
@[simp] theorem State.emit_latches (o : Out) : (s.emit o).latches = s.latches := rfl
@[simp] theorem State.emit_nowLatch (o : Out) : (s.emit o).nowLatch = s.nowLatch := rfl
@[simp] theorem State.emit_staging (o : Out) : (s.emit o).staging = s.staging := rfl
@[simp] theorem State.emit_guardStyle (o : Out) : (s.emit o).guardStyle = s.guardStyle := rfl
@[simp] theorem State.emit_guardLock (o : Out) : (s.emit o).guardLock = s.guardLock := rfl
@[simp] theorem State.emit_tim (o : Out) : (s.emit o).tim = s.tim := rfl
@[simp] theorem State.emit_sql (o : Out) : (s.emit o).sql = s.sql := rfl
@[simp] theorem State.emit_prt (o : Out) : (s.emit o).prt = s.prt := rfl
@[simp] theorem State.emit_pcl (o : Out) : (s.emit o).pcl = s.pcl := rfl
@[simp] theorem State.emit_fwt (o : Out) : (s.emit o).fwt = s.fwt := rfl
@[simp] theorem State.emit_rwc (o : Out) : (s.emit o).rwc = s.rwc := rfl
@[simp] theorem State.emit_trn (o : Out) : (s.emit o).trn = s.trn := rfl
@[simp] theorem State.emit_tmg (o : Out) : (s.emit o).tmg = s.tmg := rfl
@[simp] theorem State.emit_hep (o : Out) : (s.emit o).hep = s.hep := rfl
@[simp] theorem State.emit_qim (o : Out) : (s.emit o).qim = s.qim := rfl
@[simp] theorem State.emit_dma (o : Out) : (s.emit o).dma = s.dma := rfl
@[simp] theorem State.emit_mem (o : Out) : (s.emit o).mem = s.mem := rfl
@[simp] theorem State.emit_tha (o : Out) : (s.emit o).tha = s.tha := rfl
@[simp] theorem State.emit_gloveH (o : Out) : (s.emit o).gloveH = s.gloveH := rfl
@[simp] theorem State.emit_gloveF (o : Out) : (s.emit o).gloveF = s.gloveF := rfl
@[simp] theorem State.emit_field (o : Out) : (s.emit o).field = s.field := rfl
@[simp] theorem State.emit_pwr (o : Out) : (s.emit o).pwr = s.pwr := rfl

@[simp] theorem State.emitAll_pending (o : List Out) : (s.emitAll o).pending = s.pending := rfl
@[simp] theorem State.emitAll_clock (o : List Out) : (s.emitAll o).clock = s.clock := rfl
@[simp] theorem State.emitAll_fresh (o : List Out) : (s.emitAll o).fresh = s.fresh := rfl
@[simp] theorem State.emitAll_regs (o : List Out) : (s.emitAll o).regs = s.regs := rfl
@[simp] theorem State.emitAll_sat (o : List Out) : (s.emitAll o).sat = s.sat := rfl
@[simp] theorem State.emitAll_arms (o : List Out) : (s.emitAll o).arms = s.arms := rfl
@[simp] theorem State.emitAll_latches (o : List Out) : (s.emitAll o).latches = s.latches := rfl
@[simp] theorem State.emitAll_nowLatch (o : List Out) : (s.emitAll o).nowLatch = s.nowLatch := rfl
@[simp] theorem State.emitAll_staging (o : List Out) : (s.emitAll o).staging = s.staging := rfl
@[simp] theorem State.emitAll_guardStyle (o : List Out) : (s.emitAll o).guardStyle = s.guardStyle := rfl
@[simp] theorem State.emitAll_guardLock (o : List Out) : (s.emitAll o).guardLock = s.guardLock := rfl
@[simp] theorem State.emitAll_tim (o : List Out) : (s.emitAll o).tim = s.tim := rfl
@[simp] theorem State.emitAll_sql (o : List Out) : (s.emitAll o).sql = s.sql := rfl
@[simp] theorem State.emitAll_prt (o : List Out) : (s.emitAll o).prt = s.prt := rfl
@[simp] theorem State.emitAll_pcl (o : List Out) : (s.emitAll o).pcl = s.pcl := rfl
@[simp] theorem State.emitAll_fwt (o : List Out) : (s.emitAll o).fwt = s.fwt := rfl
@[simp] theorem State.emitAll_rwc (o : List Out) : (s.emitAll o).rwc = s.rwc := rfl
@[simp] theorem State.emitAll_trn (o : List Out) : (s.emitAll o).trn = s.trn := rfl
@[simp] theorem State.emitAll_tmg (o : List Out) : (s.emitAll o).tmg = s.tmg := rfl
@[simp] theorem State.emitAll_hep (o : List Out) : (s.emitAll o).hep = s.hep := rfl
@[simp] theorem State.emitAll_qim (o : List Out) : (s.emitAll o).qim = s.qim := rfl
@[simp] theorem State.emitAll_dma (o : List Out) : (s.emitAll o).dma = s.dma := rfl
@[simp] theorem State.emitAll_mem (o : List Out) : (s.emitAll o).mem = s.mem := rfl
@[simp] theorem State.emitAll_tha (o : List Out) : (s.emitAll o).tha = s.tha := rfl
@[simp] theorem State.emitAll_gloveH (o : List Out) : (s.emitAll o).gloveH = s.gloveH := rfl
@[simp] theorem State.emitAll_gloveF (o : List Out) : (s.emitAll o).gloveF = s.gloveF := rfl
@[simp] theorem State.emitAll_field (o : List Out) : (s.emitAll o).field = s.field := rfl
@[simp] theorem State.emitAll_pwr (o : List Out) : (s.emitAll o).pwr = s.pwr := rfl

@[simp] theorem State.drawn_pending : (s.drawn).pending = s.pending := rfl
@[simp] theorem State.drawn_clock : (s.drawn).clock = s.clock := rfl
@[simp] theorem State.drawn_out : (s.drawn).out = s.out := rfl
@[simp] theorem State.drawn_regs : (s.drawn).regs = s.regs := rfl
@[simp] theorem State.drawn_sat : (s.drawn).sat = s.sat := rfl
@[simp] theorem State.drawn_arms : (s.drawn).arms = s.arms := rfl
@[simp] theorem State.drawn_latches : (s.drawn).latches = s.latches := rfl
@[simp] theorem State.drawn_nowLatch : (s.drawn).nowLatch = s.nowLatch := rfl
@[simp] theorem State.drawn_staging : (s.drawn).staging = s.staging := rfl
@[simp] theorem State.drawn_guardStyle : (s.drawn).guardStyle = s.guardStyle := rfl
@[simp] theorem State.drawn_guardLock : (s.drawn).guardLock = s.guardLock := rfl
@[simp] theorem State.drawn_tim : (s.drawn).tim = s.tim := rfl
@[simp] theorem State.drawn_sql : (s.drawn).sql = s.sql := rfl
@[simp] theorem State.drawn_prt : (s.drawn).prt = s.prt := rfl
@[simp] theorem State.drawn_pcl : (s.drawn).pcl = s.pcl := rfl
@[simp] theorem State.drawn_fwt : (s.drawn).fwt = s.fwt := rfl
@[simp] theorem State.drawn_rwc : (s.drawn).rwc = s.rwc := rfl
@[simp] theorem State.drawn_trn : (s.drawn).trn = s.trn := rfl
@[simp] theorem State.drawn_tmg : (s.drawn).tmg = s.tmg := rfl
@[simp] theorem State.drawn_hep : (s.drawn).hep = s.hep := rfl
@[simp] theorem State.drawn_qim : (s.drawn).qim = s.qim := rfl
@[simp] theorem State.drawn_dma : (s.drawn).dma = s.dma := rfl
@[simp] theorem State.drawn_mem : (s.drawn).mem = s.mem := rfl
@[simp] theorem State.drawn_tha : (s.drawn).tha = s.tha := rfl
@[simp] theorem State.drawn_gloveH : (s.drawn).gloveH = s.gloveH := rfl
@[simp] theorem State.drawn_gloveF : (s.drawn).gloveF = s.gloveF := rfl
@[simp] theorem State.drawn_field : (s.drawn).field = s.field := rfl
@[simp] theorem State.drawn_pwr : (s.drawn).pwr = s.pwr := rfl

@[simp] theorem State.advance_pending (dt : Nat) : (s.advance dt).pending = s.pending := rfl
@[simp] theorem State.advance_fresh (dt : Nat) : (s.advance dt).fresh = s.fresh := rfl
@[simp] theorem State.advance_out (dt : Nat) : (s.advance dt).out = s.out := rfl
@[simp] theorem State.advance_regs (dt : Nat) : (s.advance dt).regs = s.regs := rfl
@[simp] theorem State.advance_sat (dt : Nat) : (s.advance dt).sat = s.sat := rfl
@[simp] theorem State.advance_arms (dt : Nat) : (s.advance dt).arms = s.arms := rfl
@[simp] theorem State.advance_latches (dt : Nat) : (s.advance dt).latches = s.latches := rfl
@[simp] theorem State.advance_nowLatch (dt : Nat) : (s.advance dt).nowLatch = s.nowLatch := rfl
@[simp] theorem State.advance_staging (dt : Nat) : (s.advance dt).staging = s.staging := rfl
@[simp] theorem State.advance_guardStyle (dt : Nat) : (s.advance dt).guardStyle = s.guardStyle := rfl
@[simp] theorem State.advance_guardLock (dt : Nat) : (s.advance dt).guardLock = s.guardLock := rfl
@[simp] theorem State.advance_tim (dt : Nat) : (s.advance dt).tim = s.tim := rfl
@[simp] theorem State.advance_sql (dt : Nat) : (s.advance dt).sql = s.sql := rfl
@[simp] theorem State.advance_prt (dt : Nat) : (s.advance dt).prt = s.prt := rfl
@[simp] theorem State.advance_pcl (dt : Nat) : (s.advance dt).pcl = s.pcl := rfl
@[simp] theorem State.advance_fwt (dt : Nat) : (s.advance dt).fwt = s.fwt := rfl
@[simp] theorem State.advance_rwc (dt : Nat) : (s.advance dt).rwc = s.rwc := rfl
@[simp] theorem State.advance_trn (dt : Nat) : (s.advance dt).trn = s.trn := rfl
@[simp] theorem State.advance_tmg (dt : Nat) : (s.advance dt).tmg = s.tmg := rfl
@[simp] theorem State.advance_hep (dt : Nat) : (s.advance dt).hep = s.hep := rfl
@[simp] theorem State.advance_qim (dt : Nat) : (s.advance dt).qim = s.qim := rfl
@[simp] theorem State.advance_dma (dt : Nat) : (s.advance dt).dma = s.dma := rfl
@[simp] theorem State.advance_mem (dt : Nat) : (s.advance dt).mem = s.mem := rfl
@[simp] theorem State.advance_tha (dt : Nat) : (s.advance dt).tha = s.tha := rfl
@[simp] theorem State.advance_gloveH (dt : Nat) : (s.advance dt).gloveH = s.gloveH := rfl
@[simp] theorem State.advance_gloveF (dt : Nat) : (s.advance dt).gloveF = s.gloveF := rfl
@[simp] theorem State.advance_field (dt : Nat) : (s.advance dt).field = s.field := rfl
@[simp] theorem State.advance_pwr (dt : Nat) : (s.advance dt).pwr = s.pwr := rfl

@[simp] theorem State.writeByte_pending (a : Nat) (b : Byte) : (s.writeByte a b).pending = s.pending := rfl
@[simp] theorem State.writeByte_clock (a : Nat) (b : Byte) : (s.writeByte a b).clock = s.clock := rfl
@[simp] theorem State.writeByte_fresh (a : Nat) (b : Byte) : (s.writeByte a b).fresh = s.fresh := rfl
@[simp] theorem State.writeByte_out (a : Nat) (b : Byte) : (s.writeByte a b).out = s.out := rfl
@[simp] theorem State.writeByte_regs (a : Nat) (b : Byte) : (s.writeByte a b).regs = s.regs := rfl
@[simp] theorem State.writeByte_sat (a : Nat) (b : Byte) : (s.writeByte a b).sat = s.sat := rfl
@[simp] theorem State.writeByte_arms (a : Nat) (b : Byte) : (s.writeByte a b).arms = s.arms := rfl
@[simp] theorem State.writeByte_latches (a : Nat) (b : Byte) : (s.writeByte a b).latches = s.latches := rfl
@[simp] theorem State.writeByte_nowLatch (a : Nat) (b : Byte) : (s.writeByte a b).nowLatch = s.nowLatch := rfl
@[simp] theorem State.writeByte_staging (a : Nat) (b : Byte) : (s.writeByte a b).staging = s.staging := rfl
@[simp] theorem State.writeByte_guardStyle (a : Nat) (b : Byte) : (s.writeByte a b).guardStyle = s.guardStyle := rfl
@[simp] theorem State.writeByte_guardLock (a : Nat) (b : Byte) : (s.writeByte a b).guardLock = s.guardLock := rfl
@[simp] theorem State.writeByte_tim (a : Nat) (b : Byte) : (s.writeByte a b).tim = s.tim := rfl
@[simp] theorem State.writeByte_sql (a : Nat) (b : Byte) : (s.writeByte a b).sql = s.sql := rfl
@[simp] theorem State.writeByte_prt (a : Nat) (b : Byte) : (s.writeByte a b).prt = s.prt := rfl
@[simp] theorem State.writeByte_pcl (a : Nat) (b : Byte) : (s.writeByte a b).pcl = s.pcl := rfl
@[simp] theorem State.writeByte_fwt (a : Nat) (b : Byte) : (s.writeByte a b).fwt = s.fwt := rfl
@[simp] theorem State.writeByte_rwc (a : Nat) (b : Byte) : (s.writeByte a b).rwc = s.rwc := rfl
@[simp] theorem State.writeByte_trn (a : Nat) (b : Byte) : (s.writeByte a b).trn = s.trn := rfl
@[simp] theorem State.writeByte_tmg (a : Nat) (b : Byte) : (s.writeByte a b).tmg = s.tmg := rfl
@[simp] theorem State.writeByte_hep (a : Nat) (b : Byte) : (s.writeByte a b).hep = s.hep := rfl
@[simp] theorem State.writeByte_qim (a : Nat) (b : Byte) : (s.writeByte a b).qim = s.qim := rfl
@[simp] theorem State.writeByte_dma (a : Nat) (b : Byte) : (s.writeByte a b).dma = s.dma := rfl
@[simp] theorem State.writeByte_tha (a : Nat) (b : Byte) : (s.writeByte a b).tha = s.tha := rfl
@[simp] theorem State.writeByte_gloveH (a : Nat) (b : Byte) : (s.writeByte a b).gloveH = s.gloveH := rfl
@[simp] theorem State.writeByte_gloveF (a : Nat) (b : Byte) : (s.writeByte a b).gloveF = s.gloveF := rfl
@[simp] theorem State.writeByte_field (a : Nat) (b : Byte) : (s.writeByte a b).field = s.field := rfl
@[simp] theorem State.writeByte_pwr (a : Nat) (b : Byte) : (s.writeByte a b).pwr = s.pwr := rfl

@[simp] theorem State.cleanse_pending (a n : Nat) : (s.cleanse a n).pending = s.pending := rfl
@[simp] theorem State.cleanse_clock (a n : Nat) : (s.cleanse a n).clock = s.clock := rfl
@[simp] theorem State.cleanse_fresh (a n : Nat) : (s.cleanse a n).fresh = s.fresh := rfl
@[simp] theorem State.cleanse_out (a n : Nat) : (s.cleanse a n).out = s.out := rfl
@[simp] theorem State.cleanse_regs (a n : Nat) : (s.cleanse a n).regs = s.regs := rfl
@[simp] theorem State.cleanse_sat (a n : Nat) : (s.cleanse a n).sat = s.sat := rfl
@[simp] theorem State.cleanse_arms (a n : Nat) : (s.cleanse a n).arms = s.arms := rfl
@[simp] theorem State.cleanse_latches (a n : Nat) : (s.cleanse a n).latches = s.latches := rfl
@[simp] theorem State.cleanse_nowLatch (a n : Nat) : (s.cleanse a n).nowLatch = s.nowLatch := rfl
@[simp] theorem State.cleanse_staging (a n : Nat) : (s.cleanse a n).staging = s.staging := rfl
@[simp] theorem State.cleanse_guardStyle (a n : Nat) : (s.cleanse a n).guardStyle = s.guardStyle := rfl
@[simp] theorem State.cleanse_guardLock (a n : Nat) : (s.cleanse a n).guardLock = s.guardLock := rfl
@[simp] theorem State.cleanse_tim (a n : Nat) : (s.cleanse a n).tim = s.tim := rfl
@[simp] theorem State.cleanse_sql (a n : Nat) : (s.cleanse a n).sql = s.sql := rfl
@[simp] theorem State.cleanse_prt (a n : Nat) : (s.cleanse a n).prt = s.prt := rfl
@[simp] theorem State.cleanse_pcl (a n : Nat) : (s.cleanse a n).pcl = s.pcl := rfl
@[simp] theorem State.cleanse_fwt (a n : Nat) : (s.cleanse a n).fwt = s.fwt := rfl
@[simp] theorem State.cleanse_rwc (a n : Nat) : (s.cleanse a n).rwc = s.rwc := rfl
@[simp] theorem State.cleanse_trn (a n : Nat) : (s.cleanse a n).trn = s.trn := rfl
@[simp] theorem State.cleanse_tmg (a n : Nat) : (s.cleanse a n).tmg = s.tmg := rfl
@[simp] theorem State.cleanse_hep (a n : Nat) : (s.cleanse a n).hep = s.hep := rfl
@[simp] theorem State.cleanse_qim (a n : Nat) : (s.cleanse a n).qim = s.qim := rfl
@[simp] theorem State.cleanse_dma (a n : Nat) : (s.cleanse a n).dma = s.dma := rfl
@[simp] theorem State.cleanse_tha (a n : Nat) : (s.cleanse a n).tha = s.tha := rfl
@[simp] theorem State.cleanse_gloveH (a n : Nat) : (s.cleanse a n).gloveH = s.gloveH := rfl
@[simp] theorem State.cleanse_gloveF (a n : Nat) : (s.cleanse a n).gloveF = s.gloveF := rfl
@[simp] theorem State.cleanse_field (a n : Nat) : (s.cleanse a n).field = s.field := rfl
@[simp] theorem State.cleanse_pwr (a n : Nat) : (s.cleanse a n).pwr = s.pwr := rfl

@[simp] theorem State.zeroMem_pending (lo hi : Nat) : (s.zeroMem lo hi).pending = s.pending := rfl
@[simp] theorem State.zeroMem_clock (lo hi : Nat) : (s.zeroMem lo hi).clock = s.clock := rfl
@[simp] theorem State.zeroMem_fresh (lo hi : Nat) : (s.zeroMem lo hi).fresh = s.fresh := rfl
@[simp] theorem State.zeroMem_out (lo hi : Nat) : (s.zeroMem lo hi).out = s.out := rfl
@[simp] theorem State.zeroMem_regs (lo hi : Nat) : (s.zeroMem lo hi).regs = s.regs := rfl
@[simp] theorem State.zeroMem_sat (lo hi : Nat) : (s.zeroMem lo hi).sat = s.sat := rfl
@[simp] theorem State.zeroMem_arms (lo hi : Nat) : (s.zeroMem lo hi).arms = s.arms := rfl
@[simp] theorem State.zeroMem_latches (lo hi : Nat) : (s.zeroMem lo hi).latches = s.latches := rfl
@[simp] theorem State.zeroMem_nowLatch (lo hi : Nat) : (s.zeroMem lo hi).nowLatch = s.nowLatch := rfl
@[simp] theorem State.zeroMem_staging (lo hi : Nat) : (s.zeroMem lo hi).staging = s.staging := rfl
@[simp] theorem State.zeroMem_guardStyle (lo hi : Nat) : (s.zeroMem lo hi).guardStyle = s.guardStyle := rfl
@[simp] theorem State.zeroMem_guardLock (lo hi : Nat) : (s.zeroMem lo hi).guardLock = s.guardLock := rfl
@[simp] theorem State.zeroMem_tim (lo hi : Nat) : (s.zeroMem lo hi).tim = s.tim := rfl
@[simp] theorem State.zeroMem_sql (lo hi : Nat) : (s.zeroMem lo hi).sql = s.sql := rfl
@[simp] theorem State.zeroMem_prt (lo hi : Nat) : (s.zeroMem lo hi).prt = s.prt := rfl
@[simp] theorem State.zeroMem_pcl (lo hi : Nat) : (s.zeroMem lo hi).pcl = s.pcl := rfl
@[simp] theorem State.zeroMem_fwt (lo hi : Nat) : (s.zeroMem lo hi).fwt = s.fwt := rfl
@[simp] theorem State.zeroMem_rwc (lo hi : Nat) : (s.zeroMem lo hi).rwc = s.rwc := rfl
@[simp] theorem State.zeroMem_trn (lo hi : Nat) : (s.zeroMem lo hi).trn = s.trn := rfl
@[simp] theorem State.zeroMem_tmg (lo hi : Nat) : (s.zeroMem lo hi).tmg = s.tmg := rfl
@[simp] theorem State.zeroMem_hep (lo hi : Nat) : (s.zeroMem lo hi).hep = s.hep := rfl
@[simp] theorem State.zeroMem_qim (lo hi : Nat) : (s.zeroMem lo hi).qim = s.qim := rfl
@[simp] theorem State.zeroMem_dma (lo hi : Nat) : (s.zeroMem lo hi).dma = s.dma := rfl
@[simp] theorem State.zeroMem_tha (lo hi : Nat) : (s.zeroMem lo hi).tha = s.tha := rfl
@[simp] theorem State.zeroMem_gloveH (lo hi : Nat) : (s.zeroMem lo hi).gloveH = s.gloveH := rfl
@[simp] theorem State.zeroMem_gloveF (lo hi : Nat) : (s.zeroMem lo hi).gloveF = s.gloveF := rfl
@[simp] theorem State.zeroMem_field (lo hi : Nat) : (s.zeroMem lo hi).field = s.field := rfl
@[simp] theorem State.zeroMem_pwr (lo hi : Nat) : (s.zeroMem lo hi).pwr = s.pwr := rfl

@[simp] theorem State.zeroRegion_pending (base size : Nat) : (s.zeroRegion base size).pending = s.pending := rfl
@[simp] theorem State.zeroRegion_clock (base size : Nat) : (s.zeroRegion base size).clock = s.clock := rfl
@[simp] theorem State.zeroRegion_fresh (base size : Nat) : (s.zeroRegion base size).fresh = s.fresh := rfl
@[simp] theorem State.zeroRegion_out (base size : Nat) : (s.zeroRegion base size).out = s.out := rfl
@[simp] theorem State.zeroRegion_regs (base size : Nat) : (s.zeroRegion base size).regs = s.regs := rfl
@[simp] theorem State.zeroRegion_sat (base size : Nat) : (s.zeroRegion base size).sat = s.sat := rfl
@[simp] theorem State.zeroRegion_arms (base size : Nat) : (s.zeroRegion base size).arms = s.arms := rfl
@[simp] theorem State.zeroRegion_latches (base size : Nat) : (s.zeroRegion base size).latches = s.latches := rfl
@[simp] theorem State.zeroRegion_nowLatch (base size : Nat) : (s.zeroRegion base size).nowLatch = s.nowLatch := rfl
@[simp] theorem State.zeroRegion_staging (base size : Nat) : (s.zeroRegion base size).staging = s.staging := rfl
@[simp] theorem State.zeroRegion_guardStyle (base size : Nat) : (s.zeroRegion base size).guardStyle = s.guardStyle := rfl
@[simp] theorem State.zeroRegion_guardLock (base size : Nat) : (s.zeroRegion base size).guardLock = s.guardLock := rfl
@[simp] theorem State.zeroRegion_tim (base size : Nat) : (s.zeroRegion base size).tim = s.tim := rfl
@[simp] theorem State.zeroRegion_sql (base size : Nat) : (s.zeroRegion base size).sql = s.sql := rfl
@[simp] theorem State.zeroRegion_prt (base size : Nat) : (s.zeroRegion base size).prt = s.prt := rfl
@[simp] theorem State.zeroRegion_pcl (base size : Nat) : (s.zeroRegion base size).pcl = s.pcl := rfl
@[simp] theorem State.zeroRegion_fwt (base size : Nat) : (s.zeroRegion base size).fwt = s.fwt := rfl
@[simp] theorem State.zeroRegion_rwc (base size : Nat) : (s.zeroRegion base size).rwc = s.rwc := rfl
@[simp] theorem State.zeroRegion_trn (base size : Nat) : (s.zeroRegion base size).trn = s.trn := rfl
@[simp] theorem State.zeroRegion_tmg (base size : Nat) : (s.zeroRegion base size).tmg = s.tmg := rfl
@[simp] theorem State.zeroRegion_hep (base size : Nat) : (s.zeroRegion base size).hep = s.hep := rfl
@[simp] theorem State.zeroRegion_qim (base size : Nat) : (s.zeroRegion base size).qim = s.qim := rfl
@[simp] theorem State.zeroRegion_dma (base size : Nat) : (s.zeroRegion base size).dma = s.dma := rfl
@[simp] theorem State.zeroRegion_tha (base size : Nat) : (s.zeroRegion base size).tha = s.tha := rfl
@[simp] theorem State.zeroRegion_gloveH (base size : Nat) : (s.zeroRegion base size).gloveH = s.gloveH := rfl
@[simp] theorem State.zeroRegion_gloveF (base size : Nat) : (s.zeroRegion base size).gloveF = s.gloveF := rfl
@[simp] theorem State.zeroRegion_field (base size : Nat) : (s.zeroRegion base size).field = s.field := rfl
@[simp] theorem State.zeroRegion_pwr (base size : Nat) : (s.zeroRegion base size).pwr = s.pwr := rfl

@[simp] theorem State.setReg_pending (a : Nat) (v : Word) : (s.setReg a v).pending = s.pending := rfl
@[simp] theorem State.setReg_clock (a : Nat) (v : Word) : (s.setReg a v).clock = s.clock := rfl
@[simp] theorem State.setReg_fresh (a : Nat) (v : Word) : (s.setReg a v).fresh = s.fresh := rfl
@[simp] theorem State.setReg_out (a : Nat) (v : Word) : (s.setReg a v).out = s.out := rfl
@[simp] theorem State.setReg_sat (a : Nat) (v : Word) : (s.setReg a v).sat = s.sat := rfl
@[simp] theorem State.setReg_arms (a : Nat) (v : Word) : (s.setReg a v).arms = s.arms := rfl
@[simp] theorem State.setReg_latches (a : Nat) (v : Word) : (s.setReg a v).latches = s.latches := rfl
@[simp] theorem State.setReg_nowLatch (a : Nat) (v : Word) : (s.setReg a v).nowLatch = s.nowLatch := rfl
@[simp] theorem State.setReg_staging (a : Nat) (v : Word) : (s.setReg a v).staging = s.staging := rfl
@[simp] theorem State.setReg_guardStyle (a : Nat) (v : Word) : (s.setReg a v).guardStyle = s.guardStyle := rfl
@[simp] theorem State.setReg_guardLock (a : Nat) (v : Word) : (s.setReg a v).guardLock = s.guardLock := rfl
@[simp] theorem State.setReg_tim (a : Nat) (v : Word) : (s.setReg a v).tim = s.tim := rfl
@[simp] theorem State.setReg_sql (a : Nat) (v : Word) : (s.setReg a v).sql = s.sql := rfl
@[simp] theorem State.setReg_prt (a : Nat) (v : Word) : (s.setReg a v).prt = s.prt := rfl
@[simp] theorem State.setReg_pcl (a : Nat) (v : Word) : (s.setReg a v).pcl = s.pcl := rfl
@[simp] theorem State.setReg_fwt (a : Nat) (v : Word) : (s.setReg a v).fwt = s.fwt := rfl
@[simp] theorem State.setReg_rwc (a : Nat) (v : Word) : (s.setReg a v).rwc = s.rwc := rfl
@[simp] theorem State.setReg_trn (a : Nat) (v : Word) : (s.setReg a v).trn = s.trn := rfl
@[simp] theorem State.setReg_tmg (a : Nat) (v : Word) : (s.setReg a v).tmg = s.tmg := rfl
@[simp] theorem State.setReg_hep (a : Nat) (v : Word) : (s.setReg a v).hep = s.hep := rfl
@[simp] theorem State.setReg_qim (a : Nat) (v : Word) : (s.setReg a v).qim = s.qim := rfl
@[simp] theorem State.setReg_dma (a : Nat) (v : Word) : (s.setReg a v).dma = s.dma := rfl
@[simp] theorem State.setReg_mem (a : Nat) (v : Word) : (s.setReg a v).mem = s.mem := rfl
@[simp] theorem State.setReg_tha (a : Nat) (v : Word) : (s.setReg a v).tha = s.tha := rfl
@[simp] theorem State.setReg_gloveH (a : Nat) (v : Word) : (s.setReg a v).gloveH = s.gloveH := rfl
@[simp] theorem State.setReg_gloveF (a : Nat) (v : Word) : (s.setReg a v).gloveF = s.gloveF := rfl
@[simp] theorem State.setReg_field (a : Nat) (v : Word) : (s.setReg a v).field = s.field := rfl
@[simp] theorem State.setReg_pwr (a : Nat) (v : Word) : (s.setReg a v).pwr = s.pwr := rfl

@[simp] theorem State.setIv_pending (n : Nat) (e : BitVec 128) : (s.setIv n e).pending = s.pending := rfl
@[simp] theorem State.setIv_clock (n : Nat) (e : BitVec 128) : (s.setIv n e).clock = s.clock := rfl
@[simp] theorem State.setIv_fresh (n : Nat) (e : BitVec 128) : (s.setIv n e).fresh = s.fresh := rfl
@[simp] theorem State.setIv_out (n : Nat) (e : BitVec 128) : (s.setIv n e).out = s.out := rfl
@[simp] theorem State.setIv_regs (n : Nat) (e : BitVec 128) : (s.setIv n e).regs = s.regs := rfl
@[simp] theorem State.setIv_sat (n : Nat) (e : BitVec 128) : (s.setIv n e).sat = s.sat := rfl
@[simp] theorem State.setIv_arms (n : Nat) (e : BitVec 128) : (s.setIv n e).arms = s.arms := rfl
@[simp] theorem State.setIv_latches (n : Nat) (e : BitVec 128) : (s.setIv n e).latches = s.latches := rfl
@[simp] theorem State.setIv_nowLatch (n : Nat) (e : BitVec 128) : (s.setIv n e).nowLatch = s.nowLatch := rfl
@[simp] theorem State.setIv_staging (n : Nat) (e : BitVec 128) : (s.setIv n e).staging = s.staging := rfl
@[simp] theorem State.setIv_guardStyle (n : Nat) (e : BitVec 128) : (s.setIv n e).guardStyle = s.guardStyle := rfl
@[simp] theorem State.setIv_guardLock (n : Nat) (e : BitVec 128) : (s.setIv n e).guardLock = s.guardLock := rfl
@[simp] theorem State.setIv_tim (n : Nat) (e : BitVec 128) : (s.setIv n e).tim = s.tim := rfl
@[simp] theorem State.setIv_sql (n : Nat) (e : BitVec 128) : (s.setIv n e).sql = s.sql := rfl
@[simp] theorem State.setIv_prt (n : Nat) (e : BitVec 128) : (s.setIv n e).prt = s.prt := rfl
@[simp] theorem State.setIv_pcl (n : Nat) (e : BitVec 128) : (s.setIv n e).pcl = s.pcl := rfl
@[simp] theorem State.setIv_fwt (n : Nat) (e : BitVec 128) : (s.setIv n e).fwt = s.fwt := rfl
@[simp] theorem State.setIv_rwc (n : Nat) (e : BitVec 128) : (s.setIv n e).rwc = s.rwc := rfl
@[simp] theorem State.setIv_trn (n : Nat) (e : BitVec 128) : (s.setIv n e).trn = s.trn := rfl
@[simp] theorem State.setIv_tmg (n : Nat) (e : BitVec 128) : (s.setIv n e).tmg = s.tmg := rfl
@[simp] theorem State.setIv_qim (n : Nat) (e : BitVec 128) : (s.setIv n e).qim = s.qim := rfl
@[simp] theorem State.setIv_dma (n : Nat) (e : BitVec 128) : (s.setIv n e).dma = s.dma := rfl
@[simp] theorem State.setIv_mem (n : Nat) (e : BitVec 128) : (s.setIv n e).mem = s.mem := rfl
@[simp] theorem State.setIv_tha (n : Nat) (e : BitVec 128) : (s.setIv n e).tha = s.tha := rfl
@[simp] theorem State.setIv_gloveH (n : Nat) (e : BitVec 128) : (s.setIv n e).gloveH = s.gloveH := rfl
@[simp] theorem State.setIv_gloveF (n : Nat) (e : BitVec 128) : (s.setIv n e).gloveF = s.gloveF := rfl
@[simp] theorem State.setIv_field (n : Nat) (e : BitVec 128) : (s.setIv n e).field = s.field := rfl
@[simp] theorem State.setIv_pwr (n : Nat) (e : BitVec 128) : (s.setIv n e).pwr = s.pwr := rfl

@[simp] theorem State.modMac_pending (m : Nat) (f : Mac → Mac) : (s.modMac m f).pending = s.pending := rfl
@[simp] theorem State.modMac_clock (m : Nat) (f : Mac → Mac) : (s.modMac m f).clock = s.clock := rfl
@[simp] theorem State.modMac_fresh (m : Nat) (f : Mac → Mac) : (s.modMac m f).fresh = s.fresh := rfl
@[simp] theorem State.modMac_out (m : Nat) (f : Mac → Mac) : (s.modMac m f).out = s.out := rfl
@[simp] theorem State.modMac_regs (m : Nat) (f : Mac → Mac) : (s.modMac m f).regs = s.regs := rfl
@[simp] theorem State.modMac_sat (m : Nat) (f : Mac → Mac) : (s.modMac m f).sat = s.sat := rfl
@[simp] theorem State.modMac_arms (m : Nat) (f : Mac → Mac) : (s.modMac m f).arms = s.arms := rfl
@[simp] theorem State.modMac_latches (m : Nat) (f : Mac → Mac) : (s.modMac m f).latches = s.latches := rfl
@[simp] theorem State.modMac_nowLatch (m : Nat) (f : Mac → Mac) : (s.modMac m f).nowLatch = s.nowLatch := rfl
@[simp] theorem State.modMac_staging (m : Nat) (f : Mac → Mac) : (s.modMac m f).staging = s.staging := rfl
@[simp] theorem State.modMac_guardStyle (m : Nat) (f : Mac → Mac) : (s.modMac m f).guardStyle = s.guardStyle := rfl
@[simp] theorem State.modMac_guardLock (m : Nat) (f : Mac → Mac) : (s.modMac m f).guardLock = s.guardLock := rfl
@[simp] theorem State.modMac_tim (m : Nat) (f : Mac → Mac) : (s.modMac m f).tim = s.tim := rfl
@[simp] theorem State.modMac_sql (m : Nat) (f : Mac → Mac) : (s.modMac m f).sql = s.sql := rfl
@[simp] theorem State.modMac_pcl (m : Nat) (f : Mac → Mac) : (s.modMac m f).pcl = s.pcl := rfl
@[simp] theorem State.modMac_fwt (m : Nat) (f : Mac → Mac) : (s.modMac m f).fwt = s.fwt := rfl
@[simp] theorem State.modMac_rwc (m : Nat) (f : Mac → Mac) : (s.modMac m f).rwc = s.rwc := rfl
@[simp] theorem State.modMac_trn (m : Nat) (f : Mac → Mac) : (s.modMac m f).trn = s.trn := rfl
@[simp] theorem State.modMac_tmg (m : Nat) (f : Mac → Mac) : (s.modMac m f).tmg = s.tmg := rfl
@[simp] theorem State.modMac_hep (m : Nat) (f : Mac → Mac) : (s.modMac m f).hep = s.hep := rfl
@[simp] theorem State.modMac_qim (m : Nat) (f : Mac → Mac) : (s.modMac m f).qim = s.qim := rfl
@[simp] theorem State.modMac_dma (m : Nat) (f : Mac → Mac) : (s.modMac m f).dma = s.dma := rfl
@[simp] theorem State.modMac_mem (m : Nat) (f : Mac → Mac) : (s.modMac m f).mem = s.mem := rfl
@[simp] theorem State.modMac_tha (m : Nat) (f : Mac → Mac) : (s.modMac m f).tha = s.tha := rfl
@[simp] theorem State.modMac_gloveH (m : Nat) (f : Mac → Mac) : (s.modMac m f).gloveH = s.gloveH := rfl
@[simp] theorem State.modMac_gloveF (m : Nat) (f : Mac → Mac) : (s.modMac m f).gloveF = s.gloveF := rfl
@[simp] theorem State.modMac_field (m : Nat) (f : Mac → Mac) : (s.modMac m f).field = s.field := rfl
@[simp] theorem State.modMac_pwr (m : Nat) (f : Mac → Mac) : (s.modMac m f).pwr = s.pwr := rfl

@[simp] theorem State.modPool_pending (p : Nat) (f : Pool → Pool) : (s.modPool p f).pending = s.pending := rfl
@[simp] theorem State.modPool_clock (p : Nat) (f : Pool → Pool) : (s.modPool p f).clock = s.clock := rfl
@[simp] theorem State.modPool_fresh (p : Nat) (f : Pool → Pool) : (s.modPool p f).fresh = s.fresh := rfl
@[simp] theorem State.modPool_out (p : Nat) (f : Pool → Pool) : (s.modPool p f).out = s.out := rfl
@[simp] theorem State.modPool_regs (p : Nat) (f : Pool → Pool) : (s.modPool p f).regs = s.regs := rfl
@[simp] theorem State.modPool_sat (p : Nat) (f : Pool → Pool) : (s.modPool p f).sat = s.sat := rfl
@[simp] theorem State.modPool_arms (p : Nat) (f : Pool → Pool) : (s.modPool p f).arms = s.arms := rfl
@[simp] theorem State.modPool_latches (p : Nat) (f : Pool → Pool) : (s.modPool p f).latches = s.latches := rfl
@[simp] theorem State.modPool_nowLatch (p : Nat) (f : Pool → Pool) : (s.modPool p f).nowLatch = s.nowLatch := rfl
@[simp] theorem State.modPool_staging (p : Nat) (f : Pool → Pool) : (s.modPool p f).staging = s.staging := rfl
@[simp] theorem State.modPool_guardStyle (p : Nat) (f : Pool → Pool) : (s.modPool p f).guardStyle = s.guardStyle := rfl
@[simp] theorem State.modPool_guardLock (p : Nat) (f : Pool → Pool) : (s.modPool p f).guardLock = s.guardLock := rfl
@[simp] theorem State.modPool_tim (p : Nat) (f : Pool → Pool) : (s.modPool p f).tim = s.tim := rfl
@[simp] theorem State.modPool_sql (p : Nat) (f : Pool → Pool) : (s.modPool p f).sql = s.sql := rfl
@[simp] theorem State.modPool_prt (p : Nat) (f : Pool → Pool) : (s.modPool p f).prt = s.prt := rfl
@[simp] theorem State.modPool_pcl (p : Nat) (f : Pool → Pool) : (s.modPool p f).pcl = s.pcl := rfl
@[simp] theorem State.modPool_fwt (p : Nat) (f : Pool → Pool) : (s.modPool p f).fwt = s.fwt := rfl
@[simp] theorem State.modPool_rwc (p : Nat) (f : Pool → Pool) : (s.modPool p f).rwc = s.rwc := rfl
@[simp] theorem State.modPool_trn (p : Nat) (f : Pool → Pool) : (s.modPool p f).trn = s.trn := rfl
@[simp] theorem State.modPool_tmg (p : Nat) (f : Pool → Pool) : (s.modPool p f).tmg = s.tmg := rfl
@[simp] theorem State.modPool_hep (p : Nat) (f : Pool → Pool) : (s.modPool p f).hep = s.hep := rfl
@[simp] theorem State.modPool_qim (p : Nat) (f : Pool → Pool) : (s.modPool p f).qim = s.qim := rfl
@[simp] theorem State.modPool_dma (p : Nat) (f : Pool → Pool) : (s.modPool p f).dma = s.dma := rfl
@[simp] theorem State.modPool_tha (p : Nat) (f : Pool → Pool) : (s.modPool p f).tha = s.tha := rfl
@[simp] theorem State.modPool_gloveH (p : Nat) (f : Pool → Pool) : (s.modPool p f).gloveH = s.gloveH := rfl
@[simp] theorem State.modPool_gloveF (p : Nat) (f : Pool → Pool) : (s.modPool p f).gloveF = s.gloveF := rfl
@[simp] theorem State.modPool_field (p : Nat) (f : Pool → Pool) : (s.modPool p f).field = s.field := rfl
@[simp] theorem State.modPool_pwr (p : Nat) (f : Pool → Pool) : (s.modPool p f).pwr = s.pwr := rfl

@[simp] theorem State.modChan_pending (c : Nat) (f : Chan → Chan) : (s.modChan c f).pending = s.pending := rfl
@[simp] theorem State.modChan_clock (c : Nat) (f : Chan → Chan) : (s.modChan c f).clock = s.clock := rfl
@[simp] theorem State.modChan_fresh (c : Nat) (f : Chan → Chan) : (s.modChan c f).fresh = s.fresh := rfl
@[simp] theorem State.modChan_out (c : Nat) (f : Chan → Chan) : (s.modChan c f).out = s.out := rfl
@[simp] theorem State.modChan_regs (c : Nat) (f : Chan → Chan) : (s.modChan c f).regs = s.regs := rfl
@[simp] theorem State.modChan_sat (c : Nat) (f : Chan → Chan) : (s.modChan c f).sat = s.sat := rfl
@[simp] theorem State.modChan_arms (c : Nat) (f : Chan → Chan) : (s.modChan c f).arms = s.arms := rfl
@[simp] theorem State.modChan_latches (c : Nat) (f : Chan → Chan) : (s.modChan c f).latches = s.latches := rfl
@[simp] theorem State.modChan_nowLatch (c : Nat) (f : Chan → Chan) : (s.modChan c f).nowLatch = s.nowLatch := rfl
@[simp] theorem State.modChan_staging (c : Nat) (f : Chan → Chan) : (s.modChan c f).staging = s.staging := rfl
@[simp] theorem State.modChan_guardStyle (c : Nat) (f : Chan → Chan) : (s.modChan c f).guardStyle = s.guardStyle := rfl
@[simp] theorem State.modChan_guardLock (c : Nat) (f : Chan → Chan) : (s.modChan c f).guardLock = s.guardLock := rfl
@[simp] theorem State.modChan_tim (c : Nat) (f : Chan → Chan) : (s.modChan c f).tim = s.tim := rfl
@[simp] theorem State.modChan_sql (c : Nat) (f : Chan → Chan) : (s.modChan c f).sql = s.sql := rfl
@[simp] theorem State.modChan_prt (c : Nat) (f : Chan → Chan) : (s.modChan c f).prt = s.prt := rfl
@[simp] theorem State.modChan_pcl (c : Nat) (f : Chan → Chan) : (s.modChan c f).pcl = s.pcl := rfl
@[simp] theorem State.modChan_fwt (c : Nat) (f : Chan → Chan) : (s.modChan c f).fwt = s.fwt := rfl
@[simp] theorem State.modChan_rwc (c : Nat) (f : Chan → Chan) : (s.modChan c f).rwc = s.rwc := rfl
@[simp] theorem State.modChan_trn (c : Nat) (f : Chan → Chan) : (s.modChan c f).trn = s.trn := rfl
@[simp] theorem State.modChan_tmg (c : Nat) (f : Chan → Chan) : (s.modChan c f).tmg = s.tmg := rfl
@[simp] theorem State.modChan_hep (c : Nat) (f : Chan → Chan) : (s.modChan c f).hep = s.hep := rfl
@[simp] theorem State.modChan_qim (c : Nat) (f : Chan → Chan) : (s.modChan c f).qim = s.qim := rfl
@[simp] theorem State.modChan_mem (c : Nat) (f : Chan → Chan) : (s.modChan c f).mem = s.mem := rfl
@[simp] theorem State.modChan_tha (c : Nat) (f : Chan → Chan) : (s.modChan c f).tha = s.tha := rfl
@[simp] theorem State.modChan_gloveH (c : Nat) (f : Chan → Chan) : (s.modChan c f).gloveH = s.gloveH := rfl
@[simp] theorem State.modChan_gloveF (c : Nat) (f : Chan → Chan) : (s.modChan c f).gloveF = s.gloveF := rfl
@[simp] theorem State.modChan_field (c : Nat) (f : Chan → Chan) : (s.modChan c f).field = s.field := rfl
@[simp] theorem State.modChan_pwr (c : Nat) (f : Chan → Chan) : (s.modChan c f).pwr = s.pwr := rfl

@[simp] theorem State.modStream_pending (n : Nat) (f : StreamSt → StreamSt) : (s.modStream n f).pending = s.pending := rfl
@[simp] theorem State.modStream_clock (n : Nat) (f : StreamSt → StreamSt) : (s.modStream n f).clock = s.clock := rfl
@[simp] theorem State.modStream_fresh (n : Nat) (f : StreamSt → StreamSt) : (s.modStream n f).fresh = s.fresh := rfl
@[simp] theorem State.modStream_out (n : Nat) (f : StreamSt → StreamSt) : (s.modStream n f).out = s.out := rfl
@[simp] theorem State.modStream_regs (n : Nat) (f : StreamSt → StreamSt) : (s.modStream n f).regs = s.regs := rfl
@[simp] theorem State.modStream_sat (n : Nat) (f : StreamSt → StreamSt) : (s.modStream n f).sat = s.sat := rfl
@[simp] theorem State.modStream_arms (n : Nat) (f : StreamSt → StreamSt) : (s.modStream n f).arms = s.arms := rfl
@[simp] theorem State.modStream_latches (n : Nat) (f : StreamSt → StreamSt) : (s.modStream n f).latches = s.latches := rfl
@[simp] theorem State.modStream_nowLatch (n : Nat) (f : StreamSt → StreamSt) : (s.modStream n f).nowLatch = s.nowLatch := rfl
@[simp] theorem State.modStream_staging (n : Nat) (f : StreamSt → StreamSt) : (s.modStream n f).staging = s.staging := rfl
@[simp] theorem State.modStream_guardStyle (n : Nat) (f : StreamSt → StreamSt) : (s.modStream n f).guardStyle = s.guardStyle := rfl
@[simp] theorem State.modStream_guardLock (n : Nat) (f : StreamSt → StreamSt) : (s.modStream n f).guardLock = s.guardLock := rfl
@[simp] theorem State.modStream_tim (n : Nat) (f : StreamSt → StreamSt) : (s.modStream n f).tim = s.tim := rfl
@[simp] theorem State.modStream_prt (n : Nat) (f : StreamSt → StreamSt) : (s.modStream n f).prt = s.prt := rfl
@[simp] theorem State.modStream_pcl (n : Nat) (f : StreamSt → StreamSt) : (s.modStream n f).pcl = s.pcl := rfl
@[simp] theorem State.modStream_fwt (n : Nat) (f : StreamSt → StreamSt) : (s.modStream n f).fwt = s.fwt := rfl
@[simp] theorem State.modStream_rwc (n : Nat) (f : StreamSt → StreamSt) : (s.modStream n f).rwc = s.rwc := rfl
@[simp] theorem State.modStream_trn (n : Nat) (f : StreamSt → StreamSt) : (s.modStream n f).trn = s.trn := rfl
@[simp] theorem State.modStream_tmg (n : Nat) (f : StreamSt → StreamSt) : (s.modStream n f).tmg = s.tmg := rfl
@[simp] theorem State.modStream_hep (n : Nat) (f : StreamSt → StreamSt) : (s.modStream n f).hep = s.hep := rfl
@[simp] theorem State.modStream_qim (n : Nat) (f : StreamSt → StreamSt) : (s.modStream n f).qim = s.qim := rfl
@[simp] theorem State.modStream_dma (n : Nat) (f : StreamSt → StreamSt) : (s.modStream n f).dma = s.dma := rfl
@[simp] theorem State.modStream_mem (n : Nat) (f : StreamSt → StreamSt) : (s.modStream n f).mem = s.mem := rfl
@[simp] theorem State.modStream_tha (n : Nat) (f : StreamSt → StreamSt) : (s.modStream n f).tha = s.tha := rfl
@[simp] theorem State.modStream_gloveH (n : Nat) (f : StreamSt → StreamSt) : (s.modStream n f).gloveH = s.gloveH := rfl
@[simp] theorem State.modStream_gloveF (n : Nat) (f : StreamSt → StreamSt) : (s.modStream n f).gloveF = s.gloveF := rfl
@[simp] theorem State.modStream_field (n : Nat) (f : StreamSt → StreamSt) : (s.modStream n f).field = s.field := rfl
@[simp] theorem State.modStream_pwr (n : Nat) (f : StreamSt → StreamSt) : (s.modStream n f).pwr = s.pwr := rfl

@[simp] theorem State.modPipe_pending (p : Nat) (f : Pipe → Pipe) : (s.modPipe p f).pending = s.pending := rfl
@[simp] theorem State.modPipe_clock (p : Nat) (f : Pipe → Pipe) : (s.modPipe p f).clock = s.clock := rfl
@[simp] theorem State.modPipe_fresh (p : Nat) (f : Pipe → Pipe) : (s.modPipe p f).fresh = s.fresh := rfl
@[simp] theorem State.modPipe_out (p : Nat) (f : Pipe → Pipe) : (s.modPipe p f).out = s.out := rfl
@[simp] theorem State.modPipe_regs (p : Nat) (f : Pipe → Pipe) : (s.modPipe p f).regs = s.regs := rfl
@[simp] theorem State.modPipe_sat (p : Nat) (f : Pipe → Pipe) : (s.modPipe p f).sat = s.sat := rfl
@[simp] theorem State.modPipe_arms (p : Nat) (f : Pipe → Pipe) : (s.modPipe p f).arms = s.arms := rfl
@[simp] theorem State.modPipe_latches (p : Nat) (f : Pipe → Pipe) : (s.modPipe p f).latches = s.latches := rfl
@[simp] theorem State.modPipe_nowLatch (p : Nat) (f : Pipe → Pipe) : (s.modPipe p f).nowLatch = s.nowLatch := rfl
@[simp] theorem State.modPipe_staging (p : Nat) (f : Pipe → Pipe) : (s.modPipe p f).staging = s.staging := rfl
@[simp] theorem State.modPipe_guardStyle (p : Nat) (f : Pipe → Pipe) : (s.modPipe p f).guardStyle = s.guardStyle := rfl
@[simp] theorem State.modPipe_guardLock (p : Nat) (f : Pipe → Pipe) : (s.modPipe p f).guardLock = s.guardLock := rfl
@[simp] theorem State.modPipe_tim (p : Nat) (f : Pipe → Pipe) : (s.modPipe p f).tim = s.tim := rfl
@[simp] theorem State.modPipe_sql (p : Nat) (f : Pipe → Pipe) : (s.modPipe p f).sql = s.sql := rfl
@[simp] theorem State.modPipe_prt (p : Nat) (f : Pipe → Pipe) : (s.modPipe p f).prt = s.prt := rfl
@[simp] theorem State.modPipe_fwt (p : Nat) (f : Pipe → Pipe) : (s.modPipe p f).fwt = s.fwt := rfl
@[simp] theorem State.modPipe_rwc (p : Nat) (f : Pipe → Pipe) : (s.modPipe p f).rwc = s.rwc := rfl
@[simp] theorem State.modPipe_trn (p : Nat) (f : Pipe → Pipe) : (s.modPipe p f).trn = s.trn := rfl
@[simp] theorem State.modPipe_tmg (p : Nat) (f : Pipe → Pipe) : (s.modPipe p f).tmg = s.tmg := rfl
@[simp] theorem State.modPipe_hep (p : Nat) (f : Pipe → Pipe) : (s.modPipe p f).hep = s.hep := rfl
@[simp] theorem State.modPipe_qim (p : Nat) (f : Pipe → Pipe) : (s.modPipe p f).qim = s.qim := rfl
@[simp] theorem State.modPipe_dma (p : Nat) (f : Pipe → Pipe) : (s.modPipe p f).dma = s.dma := rfl
@[simp] theorem State.modPipe_mem (p : Nat) (f : Pipe → Pipe) : (s.modPipe p f).mem = s.mem := rfl
@[simp] theorem State.modPipe_tha (p : Nat) (f : Pipe → Pipe) : (s.modPipe p f).tha = s.tha := rfl
@[simp] theorem State.modPipe_gloveH (p : Nat) (f : Pipe → Pipe) : (s.modPipe p f).gloveH = s.gloveH := rfl
@[simp] theorem State.modPipe_gloveF (p : Nat) (f : Pipe → Pipe) : (s.modPipe p f).gloveF = s.gloveF := rfl
@[simp] theorem State.modPipe_field (p : Nat) (f : Pipe → Pipe) : (s.modPipe p f).field = s.field := rfl
@[simp] theorem State.modPipe_pwr (p : Nat) (f : Pipe → Pipe) : (s.modPipe p f).pwr = s.pwr := rfl

@[simp] theorem State.modQueue_pending (q : Nat) (f : Queue → Queue) : (s.modQueue q f).pending = s.pending := rfl
@[simp] theorem State.modQueue_clock (q : Nat) (f : Queue → Queue) : (s.modQueue q f).clock = s.clock := rfl
@[simp] theorem State.modQueue_fresh (q : Nat) (f : Queue → Queue) : (s.modQueue q f).fresh = s.fresh := rfl
@[simp] theorem State.modQueue_out (q : Nat) (f : Queue → Queue) : (s.modQueue q f).out = s.out := rfl
@[simp] theorem State.modQueue_regs (q : Nat) (f : Queue → Queue) : (s.modQueue q f).regs = s.regs := rfl
@[simp] theorem State.modQueue_sat (q : Nat) (f : Queue → Queue) : (s.modQueue q f).sat = s.sat := rfl
@[simp] theorem State.modQueue_arms (q : Nat) (f : Queue → Queue) : (s.modQueue q f).arms = s.arms := rfl
@[simp] theorem State.modQueue_latches (q : Nat) (f : Queue → Queue) : (s.modQueue q f).latches = s.latches := rfl
@[simp] theorem State.modQueue_nowLatch (q : Nat) (f : Queue → Queue) : (s.modQueue q f).nowLatch = s.nowLatch := rfl
@[simp] theorem State.modQueue_staging (q : Nat) (f : Queue → Queue) : (s.modQueue q f).staging = s.staging := rfl
@[simp] theorem State.modQueue_guardStyle (q : Nat) (f : Queue → Queue) : (s.modQueue q f).guardStyle = s.guardStyle := rfl
@[simp] theorem State.modQueue_guardLock (q : Nat) (f : Queue → Queue) : (s.modQueue q f).guardLock = s.guardLock := rfl
@[simp] theorem State.modQueue_tim (q : Nat) (f : Queue → Queue) : (s.modQueue q f).tim = s.tim := rfl
@[simp] theorem State.modQueue_sql (q : Nat) (f : Queue → Queue) : (s.modQueue q f).sql = s.sql := rfl
@[simp] theorem State.modQueue_prt (q : Nat) (f : Queue → Queue) : (s.modQueue q f).prt = s.prt := rfl
@[simp] theorem State.modQueue_pcl (q : Nat) (f : Queue → Queue) : (s.modQueue q f).pcl = s.pcl := rfl
@[simp] theorem State.modQueue_fwt (q : Nat) (f : Queue → Queue) : (s.modQueue q f).fwt = s.fwt := rfl
@[simp] theorem State.modQueue_rwc (q : Nat) (f : Queue → Queue) : (s.modQueue q f).rwc = s.rwc := rfl
@[simp] theorem State.modQueue_trn (q : Nat) (f : Queue → Queue) : (s.modQueue q f).trn = s.trn := rfl
@[simp] theorem State.modQueue_tmg (q : Nat) (f : Queue → Queue) : (s.modQueue q f).tmg = s.tmg := rfl
@[simp] theorem State.modQueue_hep (q : Nat) (f : Queue → Queue) : (s.modQueue q f).hep = s.hep := rfl
@[simp] theorem State.modQueue_dma (q : Nat) (f : Queue → Queue) : (s.modQueue q f).dma = s.dma := rfl
@[simp] theorem State.modQueue_mem (q : Nat) (f : Queue → Queue) : (s.modQueue q f).mem = s.mem := rfl
@[simp] theorem State.modQueue_tha (q : Nat) (f : Queue → Queue) : (s.modQueue q f).tha = s.tha := rfl
@[simp] theorem State.modQueue_gloveH (q : Nat) (f : Queue → Queue) : (s.modQueue q f).gloveH = s.gloveH := rfl
@[simp] theorem State.modQueue_gloveF (q : Nat) (f : Queue → Queue) : (s.modQueue q f).gloveF = s.gloveF := rfl
@[simp] theorem State.modQueue_field (q : Nat) (f : Queue → Queue) : (s.modQueue q f).field = s.field := rfl
@[simp] theorem State.modQueue_pwr (q : Nat) (f : Queue → Queue) : (s.modQueue q f).pwr = s.pwr := rfl

@[simp] theorem State.modInst_pending (i : Nat) (f : Inst → Inst) : (s.modInst i f).pending = s.pending := rfl
@[simp] theorem State.modInst_clock (i : Nat) (f : Inst → Inst) : (s.modInst i f).clock = s.clock := rfl
@[simp] theorem State.modInst_fresh (i : Nat) (f : Inst → Inst) : (s.modInst i f).fresh = s.fresh := rfl
@[simp] theorem State.modInst_out (i : Nat) (f : Inst → Inst) : (s.modInst i f).out = s.out := rfl
@[simp] theorem State.modInst_regs (i : Nat) (f : Inst → Inst) : (s.modInst i f).regs = s.regs := rfl
@[simp] theorem State.modInst_sat (i : Nat) (f : Inst → Inst) : (s.modInst i f).sat = s.sat := rfl
@[simp] theorem State.modInst_arms (i : Nat) (f : Inst → Inst) : (s.modInst i f).arms = s.arms := rfl
@[simp] theorem State.modInst_latches (i : Nat) (f : Inst → Inst) : (s.modInst i f).latches = s.latches := rfl
@[simp] theorem State.modInst_nowLatch (i : Nat) (f : Inst → Inst) : (s.modInst i f).nowLatch = s.nowLatch := rfl
@[simp] theorem State.modInst_staging (i : Nat) (f : Inst → Inst) : (s.modInst i f).staging = s.staging := rfl
@[simp] theorem State.modInst_guardStyle (i : Nat) (f : Inst → Inst) : (s.modInst i f).guardStyle = s.guardStyle := rfl
@[simp] theorem State.modInst_guardLock (i : Nat) (f : Inst → Inst) : (s.modInst i f).guardLock = s.guardLock := rfl
@[simp] theorem State.modInst_tim (i : Nat) (f : Inst → Inst) : (s.modInst i f).tim = s.tim := rfl
@[simp] theorem State.modInst_sql (i : Nat) (f : Inst → Inst) : (s.modInst i f).sql = s.sql := rfl
@[simp] theorem State.modInst_prt (i : Nat) (f : Inst → Inst) : (s.modInst i f).prt = s.prt := rfl
@[simp] theorem State.modInst_pcl (i : Nat) (f : Inst → Inst) : (s.modInst i f).pcl = s.pcl := rfl
@[simp] theorem State.modInst_fwt (i : Nat) (f : Inst → Inst) : (s.modInst i f).fwt = s.fwt := rfl
@[simp] theorem State.modInst_rwc (i : Nat) (f : Inst → Inst) : (s.modInst i f).rwc = s.rwc := rfl
@[simp] theorem State.modInst_trn (i : Nat) (f : Inst → Inst) : (s.modInst i f).trn = s.trn := rfl
@[simp] theorem State.modInst_tmg (i : Nat) (f : Inst → Inst) : (s.modInst i f).tmg = s.tmg := rfl
@[simp] theorem State.modInst_hep (i : Nat) (f : Inst → Inst) : (s.modInst i f).hep = s.hep := rfl
@[simp] theorem State.modInst_dma (i : Nat) (f : Inst → Inst) : (s.modInst i f).dma = s.dma := rfl
@[simp] theorem State.modInst_mem (i : Nat) (f : Inst → Inst) : (s.modInst i f).mem = s.mem := rfl
@[simp] theorem State.modInst_tha (i : Nat) (f : Inst → Inst) : (s.modInst i f).tha = s.tha := rfl
@[simp] theorem State.modInst_gloveH (i : Nat) (f : Inst → Inst) : (s.modInst i f).gloveH = s.gloveH := rfl
@[simp] theorem State.modInst_gloveF (i : Nat) (f : Inst → Inst) : (s.modInst i f).gloveF = s.gloveF := rfl
@[simp] theorem State.modInst_field (i : Nat) (f : Inst → Inst) : (s.modInst i f).field = s.field := rfl
@[simp] theorem State.modInst_pwr (i : Nat) (f : Inst → Inst) : (s.modInst i f).pwr = s.pwr := rfl

@[simp] theorem State.modSa_pending (n : Nat) (f : Sa → Sa) : (s.modSa n f).pending = s.pending := rfl
@[simp] theorem State.modSa_clock (n : Nat) (f : Sa → Sa) : (s.modSa n f).clock = s.clock := rfl
@[simp] theorem State.modSa_fresh (n : Nat) (f : Sa → Sa) : (s.modSa n f).fresh = s.fresh := rfl
@[simp] theorem State.modSa_out (n : Nat) (f : Sa → Sa) : (s.modSa n f).out = s.out := rfl
@[simp] theorem State.modSa_regs (n : Nat) (f : Sa → Sa) : (s.modSa n f).regs = s.regs := rfl
@[simp] theorem State.modSa_sat (n : Nat) (f : Sa → Sa) : (s.modSa n f).sat = s.sat := rfl
@[simp] theorem State.modSa_arms (n : Nat) (f : Sa → Sa) : (s.modSa n f).arms = s.arms := rfl
@[simp] theorem State.modSa_latches (n : Nat) (f : Sa → Sa) : (s.modSa n f).latches = s.latches := rfl
@[simp] theorem State.modSa_nowLatch (n : Nat) (f : Sa → Sa) : (s.modSa n f).nowLatch = s.nowLatch := rfl
@[simp] theorem State.modSa_staging (n : Nat) (f : Sa → Sa) : (s.modSa n f).staging = s.staging := rfl
@[simp] theorem State.modSa_guardStyle (n : Nat) (f : Sa → Sa) : (s.modSa n f).guardStyle = s.guardStyle := rfl
@[simp] theorem State.modSa_guardLock (n : Nat) (f : Sa → Sa) : (s.modSa n f).guardLock = s.guardLock := rfl
@[simp] theorem State.modSa_tim (n : Nat) (f : Sa → Sa) : (s.modSa n f).tim = s.tim := rfl
@[simp] theorem State.modSa_sql (n : Nat) (f : Sa → Sa) : (s.modSa n f).sql = s.sql := rfl
@[simp] theorem State.modSa_prt (n : Nat) (f : Sa → Sa) : (s.modSa n f).prt = s.prt := rfl
@[simp] theorem State.modSa_pcl (n : Nat) (f : Sa → Sa) : (s.modSa n f).pcl = s.pcl := rfl
@[simp] theorem State.modSa_fwt (n : Nat) (f : Sa → Sa) : (s.modSa n f).fwt = s.fwt := rfl
@[simp] theorem State.modSa_trn (n : Nat) (f : Sa → Sa) : (s.modSa n f).trn = s.trn := rfl
@[simp] theorem State.modSa_tmg (n : Nat) (f : Sa → Sa) : (s.modSa n f).tmg = s.tmg := rfl
@[simp] theorem State.modSa_hep (n : Nat) (f : Sa → Sa) : (s.modSa n f).hep = s.hep := rfl
@[simp] theorem State.modSa_qim (n : Nat) (f : Sa → Sa) : (s.modSa n f).qim = s.qim := rfl
@[simp] theorem State.modSa_dma (n : Nat) (f : Sa → Sa) : (s.modSa n f).dma = s.dma := rfl
@[simp] theorem State.modSa_mem (n : Nat) (f : Sa → Sa) : (s.modSa n f).mem = s.mem := rfl
@[simp] theorem State.modSa_tha (n : Nat) (f : Sa → Sa) : (s.modSa n f).tha = s.tha := rfl
@[simp] theorem State.modSa_gloveH (n : Nat) (f : Sa → Sa) : (s.modSa n f).gloveH = s.gloveH := rfl
@[simp] theorem State.modSa_gloveF (n : Nat) (f : Sa → Sa) : (s.modSa n f).gloveF = s.gloveF := rfl
@[simp] theorem State.modSa_field (n : Nat) (f : Sa → Sa) : (s.modSa n f).field = s.field := rfl
@[simp] theorem State.modSa_pwr (n : Nat) (f : Sa → Sa) : (s.modSa n f).pwr = s.pwr := rfl

@[simp] theorem State.modSess_pending (n : Nat) (f : Sess → Sess) : (s.modSess n f).pending = s.pending := rfl
@[simp] theorem State.modSess_clock (n : Nat) (f : Sess → Sess) : (s.modSess n f).clock = s.clock := rfl
@[simp] theorem State.modSess_fresh (n : Nat) (f : Sess → Sess) : (s.modSess n f).fresh = s.fresh := rfl
@[simp] theorem State.modSess_out (n : Nat) (f : Sess → Sess) : (s.modSess n f).out = s.out := rfl
@[simp] theorem State.modSess_regs (n : Nat) (f : Sess → Sess) : (s.modSess n f).regs = s.regs := rfl
@[simp] theorem State.modSess_sat (n : Nat) (f : Sess → Sess) : (s.modSess n f).sat = s.sat := rfl
@[simp] theorem State.modSess_arms (n : Nat) (f : Sess → Sess) : (s.modSess n f).arms = s.arms := rfl
@[simp] theorem State.modSess_latches (n : Nat) (f : Sess → Sess) : (s.modSess n f).latches = s.latches := rfl
@[simp] theorem State.modSess_nowLatch (n : Nat) (f : Sess → Sess) : (s.modSess n f).nowLatch = s.nowLatch := rfl
@[simp] theorem State.modSess_staging (n : Nat) (f : Sess → Sess) : (s.modSess n f).staging = s.staging := rfl
@[simp] theorem State.modSess_guardStyle (n : Nat) (f : Sess → Sess) : (s.modSess n f).guardStyle = s.guardStyle := rfl
@[simp] theorem State.modSess_guardLock (n : Nat) (f : Sess → Sess) : (s.modSess n f).guardLock = s.guardLock := rfl
@[simp] theorem State.modSess_tim (n : Nat) (f : Sess → Sess) : (s.modSess n f).tim = s.tim := rfl
@[simp] theorem State.modSess_sql (n : Nat) (f : Sess → Sess) : (s.modSess n f).sql = s.sql := rfl
@[simp] theorem State.modSess_prt (n : Nat) (f : Sess → Sess) : (s.modSess n f).prt = s.prt := rfl
@[simp] theorem State.modSess_pcl (n : Nat) (f : Sess → Sess) : (s.modSess n f).pcl = s.pcl := rfl
@[simp] theorem State.modSess_fwt (n : Nat) (f : Sess → Sess) : (s.modSess n f).fwt = s.fwt := rfl
@[simp] theorem State.modSess_rwc (n : Nat) (f : Sess → Sess) : (s.modSess n f).rwc = s.rwc := rfl
@[simp] theorem State.modSess_tmg (n : Nat) (f : Sess → Sess) : (s.modSess n f).tmg = s.tmg := rfl
@[simp] theorem State.modSess_hep (n : Nat) (f : Sess → Sess) : (s.modSess n f).hep = s.hep := rfl
@[simp] theorem State.modSess_qim (n : Nat) (f : Sess → Sess) : (s.modSess n f).qim = s.qim := rfl
@[simp] theorem State.modSess_dma (n : Nat) (f : Sess → Sess) : (s.modSess n f).dma = s.dma := rfl
@[simp] theorem State.modSess_mem (n : Nat) (f : Sess → Sess) : (s.modSess n f).mem = s.mem := rfl
@[simp] theorem State.modSess_tha (n : Nat) (f : Sess → Sess) : (s.modSess n f).tha = s.tha := rfl
@[simp] theorem State.modSess_gloveH (n : Nat) (f : Sess → Sess) : (s.modSess n f).gloveH = s.gloveH := rfl
@[simp] theorem State.modSess_gloveF (n : Nat) (f : Sess → Sess) : (s.modSess n f).gloveF = s.gloveF := rfl
@[simp] theorem State.modSess_field (n : Nat) (f : Sess → Sess) : (s.modSess n f).field = s.field := rfl
@[simp] theorem State.modSess_pwr (n : Nat) (f : Sess → Sess) : (s.modSess n f).pwr = s.pwr := rfl

@[simp] theorem State.modThread_pending (t : Nat) (f : Thread → Thread) : (s.modThread t f).pending = s.pending := rfl
@[simp] theorem State.modThread_clock (t : Nat) (f : Thread → Thread) : (s.modThread t f).clock = s.clock := rfl
@[simp] theorem State.modThread_fresh (t : Nat) (f : Thread → Thread) : (s.modThread t f).fresh = s.fresh := rfl
@[simp] theorem State.modThread_out (t : Nat) (f : Thread → Thread) : (s.modThread t f).out = s.out := rfl
@[simp] theorem State.modThread_regs (t : Nat) (f : Thread → Thread) : (s.modThread t f).regs = s.regs := rfl
@[simp] theorem State.modThread_sat (t : Nat) (f : Thread → Thread) : (s.modThread t f).sat = s.sat := rfl
@[simp] theorem State.modThread_arms (t : Nat) (f : Thread → Thread) : (s.modThread t f).arms = s.arms := rfl
@[simp] theorem State.modThread_latches (t : Nat) (f : Thread → Thread) : (s.modThread t f).latches = s.latches := rfl
@[simp] theorem State.modThread_nowLatch (t : Nat) (f : Thread → Thread) : (s.modThread t f).nowLatch = s.nowLatch := rfl
@[simp] theorem State.modThread_staging (t : Nat) (f : Thread → Thread) : (s.modThread t f).staging = s.staging := rfl
@[simp] theorem State.modThread_guardStyle (t : Nat) (f : Thread → Thread) : (s.modThread t f).guardStyle = s.guardStyle := rfl
@[simp] theorem State.modThread_guardLock (t : Nat) (f : Thread → Thread) : (s.modThread t f).guardLock = s.guardLock := rfl
@[simp] theorem State.modThread_tim (t : Nat) (f : Thread → Thread) : (s.modThread t f).tim = s.tim := rfl
@[simp] theorem State.modThread_sql (t : Nat) (f : Thread → Thread) : (s.modThread t f).sql = s.sql := rfl
@[simp] theorem State.modThread_prt (t : Nat) (f : Thread → Thread) : (s.modThread t f).prt = s.prt := rfl
@[simp] theorem State.modThread_pcl (t : Nat) (f : Thread → Thread) : (s.modThread t f).pcl = s.pcl := rfl
@[simp] theorem State.modThread_fwt (t : Nat) (f : Thread → Thread) : (s.modThread t f).fwt = s.fwt := rfl
@[simp] theorem State.modThread_rwc (t : Nat) (f : Thread → Thread) : (s.modThread t f).rwc = s.rwc := rfl
@[simp] theorem State.modThread_trn (t : Nat) (f : Thread → Thread) : (s.modThread t f).trn = s.trn := rfl
@[simp] theorem State.modThread_tmg (t : Nat) (f : Thread → Thread) : (s.modThread t f).tmg = s.tmg := rfl
@[simp] theorem State.modThread_hep (t : Nat) (f : Thread → Thread) : (s.modThread t f).hep = s.hep := rfl
@[simp] theorem State.modThread_qim (t : Nat) (f : Thread → Thread) : (s.modThread t f).qim = s.qim := rfl
@[simp] theorem State.modThread_dma (t : Nat) (f : Thread → Thread) : (s.modThread t f).dma = s.dma := rfl
@[simp] theorem State.modThread_mem (t : Nat) (f : Thread → Thread) : (s.modThread t f).mem = s.mem := rfl
@[simp] theorem State.modThread_gloveH (t : Nat) (f : Thread → Thread) : (s.modThread t f).gloveH = s.gloveH := rfl
@[simp] theorem State.modThread_gloveF (t : Nat) (f : Thread → Thread) : (s.modThread t f).gloveF = s.gloveF := rfl
@[simp] theorem State.modThread_field (t : Nat) (f : Thread → Thread) : (s.modThread t f).field = s.field := rfl
@[simp] theorem State.modThread_pwr (t : Nat) (f : Thread → Thread) : (s.modThread t f).pwr = s.pwr := rfl

@[simp] theorem State.modCluster_pending (k : Nat) (f : Cluster → Cluster) : (s.modCluster k f).pending = s.pending := rfl
@[simp] theorem State.modCluster_clock (k : Nat) (f : Cluster → Cluster) : (s.modCluster k f).clock = s.clock := rfl
@[simp] theorem State.modCluster_fresh (k : Nat) (f : Cluster → Cluster) : (s.modCluster k f).fresh = s.fresh := rfl
@[simp] theorem State.modCluster_out (k : Nat) (f : Cluster → Cluster) : (s.modCluster k f).out = s.out := rfl
@[simp] theorem State.modCluster_regs (k : Nat) (f : Cluster → Cluster) : (s.modCluster k f).regs = s.regs := rfl
@[simp] theorem State.modCluster_sat (k : Nat) (f : Cluster → Cluster) : (s.modCluster k f).sat = s.sat := rfl
@[simp] theorem State.modCluster_arms (k : Nat) (f : Cluster → Cluster) : (s.modCluster k f).arms = s.arms := rfl
@[simp] theorem State.modCluster_latches (k : Nat) (f : Cluster → Cluster) : (s.modCluster k f).latches = s.latches := rfl
@[simp] theorem State.modCluster_nowLatch (k : Nat) (f : Cluster → Cluster) : (s.modCluster k f).nowLatch = s.nowLatch := rfl
@[simp] theorem State.modCluster_staging (k : Nat) (f : Cluster → Cluster) : (s.modCluster k f).staging = s.staging := rfl
@[simp] theorem State.modCluster_guardStyle (k : Nat) (f : Cluster → Cluster) : (s.modCluster k f).guardStyle = s.guardStyle := rfl
@[simp] theorem State.modCluster_guardLock (k : Nat) (f : Cluster → Cluster) : (s.modCluster k f).guardLock = s.guardLock := rfl
@[simp] theorem State.modCluster_tim (k : Nat) (f : Cluster → Cluster) : (s.modCluster k f).tim = s.tim := rfl
@[simp] theorem State.modCluster_sql (k : Nat) (f : Cluster → Cluster) : (s.modCluster k f).sql = s.sql := rfl
@[simp] theorem State.modCluster_prt (k : Nat) (f : Cluster → Cluster) : (s.modCluster k f).prt = s.prt := rfl
@[simp] theorem State.modCluster_pcl (k : Nat) (f : Cluster → Cluster) : (s.modCluster k f).pcl = s.pcl := rfl
@[simp] theorem State.modCluster_fwt (k : Nat) (f : Cluster → Cluster) : (s.modCluster k f).fwt = s.fwt := rfl
@[simp] theorem State.modCluster_rwc (k : Nat) (f : Cluster → Cluster) : (s.modCluster k f).rwc = s.rwc := rfl
@[simp] theorem State.modCluster_trn (k : Nat) (f : Cluster → Cluster) : (s.modCluster k f).trn = s.trn := rfl
@[simp] theorem State.modCluster_tmg (k : Nat) (f : Cluster → Cluster) : (s.modCluster k f).tmg = s.tmg := rfl
@[simp] theorem State.modCluster_hep (k : Nat) (f : Cluster → Cluster) : (s.modCluster k f).hep = s.hep := rfl
@[simp] theorem State.modCluster_qim (k : Nat) (f : Cluster → Cluster) : (s.modCluster k f).qim = s.qim := rfl
@[simp] theorem State.modCluster_dma (k : Nat) (f : Cluster → Cluster) : (s.modCluster k f).dma = s.dma := rfl
@[simp] theorem State.modCluster_mem (k : Nat) (f : Cluster → Cluster) : (s.modCluster k f).mem = s.mem := rfl
@[simp] theorem State.modCluster_gloveH (k : Nat) (f : Cluster → Cluster) : (s.modCluster k f).gloveH = s.gloveH := rfl
@[simp] theorem State.modCluster_gloveF (k : Nat) (f : Cluster → Cluster) : (s.modCluster k f).gloveF = s.gloveF := rfl
@[simp] theorem State.modCluster_field (k : Nat) (f : Cluster → Cluster) : (s.modCluster k f).field = s.field := rfl
@[simp] theorem State.modCluster_pwr (k : Nat) (f : Cluster → Cluster) : (s.modCluster k f).pwr = s.pwr := rfl

@[simp] theorem State.modService_pending (n : Nat) (f : Service → Service) : (s.modService n f).pending = s.pending := rfl
@[simp] theorem State.modService_clock (n : Nat) (f : Service → Service) : (s.modService n f).clock = s.clock := rfl
@[simp] theorem State.modService_fresh (n : Nat) (f : Service → Service) : (s.modService n f).fresh = s.fresh := rfl
@[simp] theorem State.modService_out (n : Nat) (f : Service → Service) : (s.modService n f).out = s.out := rfl
@[simp] theorem State.modService_regs (n : Nat) (f : Service → Service) : (s.modService n f).regs = s.regs := rfl
@[simp] theorem State.modService_sat (n : Nat) (f : Service → Service) : (s.modService n f).sat = s.sat := rfl
@[simp] theorem State.modService_arms (n : Nat) (f : Service → Service) : (s.modService n f).arms = s.arms := rfl
@[simp] theorem State.modService_latches (n : Nat) (f : Service → Service) : (s.modService n f).latches = s.latches := rfl
@[simp] theorem State.modService_nowLatch (n : Nat) (f : Service → Service) : (s.modService n f).nowLatch = s.nowLatch := rfl
@[simp] theorem State.modService_staging (n : Nat) (f : Service → Service) : (s.modService n f).staging = s.staging := rfl
@[simp] theorem State.modService_guardStyle (n : Nat) (f : Service → Service) : (s.modService n f).guardStyle = s.guardStyle := rfl
@[simp] theorem State.modService_guardLock (n : Nat) (f : Service → Service) : (s.modService n f).guardLock = s.guardLock := rfl
@[simp] theorem State.modService_tim (n : Nat) (f : Service → Service) : (s.modService n f).tim = s.tim := rfl
@[simp] theorem State.modService_sql (n : Nat) (f : Service → Service) : (s.modService n f).sql = s.sql := rfl
@[simp] theorem State.modService_prt (n : Nat) (f : Service → Service) : (s.modService n f).prt = s.prt := rfl
@[simp] theorem State.modService_pcl (n : Nat) (f : Service → Service) : (s.modService n f).pcl = s.pcl := rfl
@[simp] theorem State.modService_fwt (n : Nat) (f : Service → Service) : (s.modService n f).fwt = s.fwt := rfl
@[simp] theorem State.modService_rwc (n : Nat) (f : Service → Service) : (s.modService n f).rwc = s.rwc := rfl
@[simp] theorem State.modService_trn (n : Nat) (f : Service → Service) : (s.modService n f).trn = s.trn := rfl
@[simp] theorem State.modService_tmg (n : Nat) (f : Service → Service) : (s.modService n f).tmg = s.tmg := rfl
@[simp] theorem State.modService_hep (n : Nat) (f : Service → Service) : (s.modService n f).hep = s.hep := rfl
@[simp] theorem State.modService_qim (n : Nat) (f : Service → Service) : (s.modService n f).qim = s.qim := rfl
@[simp] theorem State.modService_dma (n : Nat) (f : Service → Service) : (s.modService n f).dma = s.dma := rfl
@[simp] theorem State.modService_mem (n : Nat) (f : Service → Service) : (s.modService n f).mem = s.mem := rfl
@[simp] theorem State.modService_tha (n : Nat) (f : Service → Service) : (s.modService n f).tha = s.tha := rfl
@[simp] theorem State.modService_gloveH (n : Nat) (f : Service → Service) : (s.modService n f).gloveH = s.gloveH := rfl
@[simp] theorem State.modService_gloveF (n : Nat) (f : Service → Service) : (s.modService n f).gloveF = s.gloveF := rfl
@[simp] theorem State.modService_pwr (n : Nat) (f : Service → Service) : (s.modService n f).pwr = s.pwr := rfl

@[simp] theorem State.modSession_pending (sid : Word) (f : Session → Session) : (s.modSession sid f).pending = s.pending := rfl
@[simp] theorem State.modSession_clock (sid : Word) (f : Session → Session) : (s.modSession sid f).clock = s.clock := rfl
@[simp] theorem State.modSession_fresh (sid : Word) (f : Session → Session) : (s.modSession sid f).fresh = s.fresh := rfl
@[simp] theorem State.modSession_out (sid : Word) (f : Session → Session) : (s.modSession sid f).out = s.out := rfl
@[simp] theorem State.modSession_regs (sid : Word) (f : Session → Session) : (s.modSession sid f).regs = s.regs := rfl
@[simp] theorem State.modSession_sat (sid : Word) (f : Session → Session) : (s.modSession sid f).sat = s.sat := rfl
@[simp] theorem State.modSession_arms (sid : Word) (f : Session → Session) : (s.modSession sid f).arms = s.arms := rfl
@[simp] theorem State.modSession_latches (sid : Word) (f : Session → Session) : (s.modSession sid f).latches = s.latches := rfl
@[simp] theorem State.modSession_nowLatch (sid : Word) (f : Session → Session) : (s.modSession sid f).nowLatch = s.nowLatch := rfl
@[simp] theorem State.modSession_staging (sid : Word) (f : Session → Session) : (s.modSession sid f).staging = s.staging := rfl
@[simp] theorem State.modSession_guardStyle (sid : Word) (f : Session → Session) : (s.modSession sid f).guardStyle = s.guardStyle := rfl
@[simp] theorem State.modSession_guardLock (sid : Word) (f : Session → Session) : (s.modSession sid f).guardLock = s.guardLock := rfl
@[simp] theorem State.modSession_tim (sid : Word) (f : Session → Session) : (s.modSession sid f).tim = s.tim := rfl
@[simp] theorem State.modSession_sql (sid : Word) (f : Session → Session) : (s.modSession sid f).sql = s.sql := rfl
@[simp] theorem State.modSession_prt (sid : Word) (f : Session → Session) : (s.modSession sid f).prt = s.prt := rfl
@[simp] theorem State.modSession_pcl (sid : Word) (f : Session → Session) : (s.modSession sid f).pcl = s.pcl := rfl
@[simp] theorem State.modSession_fwt (sid : Word) (f : Session → Session) : (s.modSession sid f).fwt = s.fwt := rfl
@[simp] theorem State.modSession_rwc (sid : Word) (f : Session → Session) : (s.modSession sid f).rwc = s.rwc := rfl
@[simp] theorem State.modSession_trn (sid : Word) (f : Session → Session) : (s.modSession sid f).trn = s.trn := rfl
@[simp] theorem State.modSession_tmg (sid : Word) (f : Session → Session) : (s.modSession sid f).tmg = s.tmg := rfl
@[simp] theorem State.modSession_hep (sid : Word) (f : Session → Session) : (s.modSession sid f).hep = s.hep := rfl
@[simp] theorem State.modSession_qim (sid : Word) (f : Session → Session) : (s.modSession sid f).qim = s.qim := rfl
@[simp] theorem State.modSession_dma (sid : Word) (f : Session → Session) : (s.modSession sid f).dma = s.dma := rfl
@[simp] theorem State.modSession_mem (sid : Word) (f : Session → Session) : (s.modSession sid f).mem = s.mem := rfl
@[simp] theorem State.modSession_tha (sid : Word) (f : Session → Session) : (s.modSession sid f).tha = s.tha := rfl
@[simp] theorem State.modSession_gloveH (sid : Word) (f : Session → Session) : (s.modSession sid f).gloveH = s.gloveH := rfl
@[simp] theorem State.modSession_gloveF (sid : Word) (f : Session → Session) : (s.modSession sid f).gloveF = s.gloveF := rfl
@[simp] theorem State.modSession_pwr (sid : Word) (f : Session → Session) : (s.modSession sid f).pwr = s.pwr := rfl

@[simp] theorem State.setObj_pending (idx sub : Nat) (v : List Byte) : (s.setObj idx sub v).pending = s.pending := rfl
@[simp] theorem State.setObj_clock (idx sub : Nat) (v : List Byte) : (s.setObj idx sub v).clock = s.clock := rfl
@[simp] theorem State.setObj_fresh (idx sub : Nat) (v : List Byte) : (s.setObj idx sub v).fresh = s.fresh := rfl
@[simp] theorem State.setObj_out (idx sub : Nat) (v : List Byte) : (s.setObj idx sub v).out = s.out := rfl
@[simp] theorem State.setObj_regs (idx sub : Nat) (v : List Byte) : (s.setObj idx sub v).regs = s.regs := rfl
@[simp] theorem State.setObj_sat (idx sub : Nat) (v : List Byte) : (s.setObj idx sub v).sat = s.sat := rfl
@[simp] theorem State.setObj_arms (idx sub : Nat) (v : List Byte) : (s.setObj idx sub v).arms = s.arms := rfl
@[simp] theorem State.setObj_latches (idx sub : Nat) (v : List Byte) : (s.setObj idx sub v).latches = s.latches := rfl
@[simp] theorem State.setObj_nowLatch (idx sub : Nat) (v : List Byte) : (s.setObj idx sub v).nowLatch = s.nowLatch := rfl
@[simp] theorem State.setObj_staging (idx sub : Nat) (v : List Byte) : (s.setObj idx sub v).staging = s.staging := rfl
@[simp] theorem State.setObj_guardStyle (idx sub : Nat) (v : List Byte) : (s.setObj idx sub v).guardStyle = s.guardStyle := rfl
@[simp] theorem State.setObj_guardLock (idx sub : Nat) (v : List Byte) : (s.setObj idx sub v).guardLock = s.guardLock := rfl
@[simp] theorem State.setObj_tim (idx sub : Nat) (v : List Byte) : (s.setObj idx sub v).tim = s.tim := rfl
@[simp] theorem State.setObj_sql (idx sub : Nat) (v : List Byte) : (s.setObj idx sub v).sql = s.sql := rfl
@[simp] theorem State.setObj_prt (idx sub : Nat) (v : List Byte) : (s.setObj idx sub v).prt = s.prt := rfl
@[simp] theorem State.setObj_pcl (idx sub : Nat) (v : List Byte) : (s.setObj idx sub v).pcl = s.pcl := rfl
@[simp] theorem State.setObj_fwt (idx sub : Nat) (v : List Byte) : (s.setObj idx sub v).fwt = s.fwt := rfl
@[simp] theorem State.setObj_rwc (idx sub : Nat) (v : List Byte) : (s.setObj idx sub v).rwc = s.rwc := rfl
@[simp] theorem State.setObj_trn (idx sub : Nat) (v : List Byte) : (s.setObj idx sub v).trn = s.trn := rfl
@[simp] theorem State.setObj_tmg (idx sub : Nat) (v : List Byte) : (s.setObj idx sub v).tmg = s.tmg := rfl
@[simp] theorem State.setObj_hep (idx sub : Nat) (v : List Byte) : (s.setObj idx sub v).hep = s.hep := rfl
@[simp] theorem State.setObj_qim (idx sub : Nat) (v : List Byte) : (s.setObj idx sub v).qim = s.qim := rfl
@[simp] theorem State.setObj_dma (idx sub : Nat) (v : List Byte) : (s.setObj idx sub v).dma = s.dma := rfl
@[simp] theorem State.setObj_mem (idx sub : Nat) (v : List Byte) : (s.setObj idx sub v).mem = s.mem := rfl
@[simp] theorem State.setObj_tha (idx sub : Nat) (v : List Byte) : (s.setObj idx sub v).tha = s.tha := rfl
@[simp] theorem State.setObj_gloveH (idx sub : Nat) (v : List Byte) : (s.setObj idx sub v).gloveH = s.gloveH := rfl
@[simp] theorem State.setObj_gloveF (idx sub : Nat) (v : List Byte) : (s.setObj idx sub v).gloveF = s.gloveF := rfl
@[simp] theorem State.setObj_pwr (idx sub : Nat) (v : List Byte) : (s.setObj idx sub v).pwr = s.pwr := rfl

@[simp] theorem State.fieldCount_pending (sub : Nat) : (s.fieldCount sub).pending = s.pending := rfl
@[simp] theorem State.fieldCount_clock (sub : Nat) : (s.fieldCount sub).clock = s.clock := rfl
@[simp] theorem State.fieldCount_fresh (sub : Nat) : (s.fieldCount sub).fresh = s.fresh := rfl
@[simp] theorem State.fieldCount_out (sub : Nat) : (s.fieldCount sub).out = s.out := rfl
@[simp] theorem State.fieldCount_regs (sub : Nat) : (s.fieldCount sub).regs = s.regs := rfl
@[simp] theorem State.fieldCount_sat (sub : Nat) : (s.fieldCount sub).sat = s.sat := rfl
@[simp] theorem State.fieldCount_arms (sub : Nat) : (s.fieldCount sub).arms = s.arms := rfl
@[simp] theorem State.fieldCount_latches (sub : Nat) : (s.fieldCount sub).latches = s.latches := rfl
@[simp] theorem State.fieldCount_nowLatch (sub : Nat) : (s.fieldCount sub).nowLatch = s.nowLatch := rfl
@[simp] theorem State.fieldCount_staging (sub : Nat) : (s.fieldCount sub).staging = s.staging := rfl
@[simp] theorem State.fieldCount_guardStyle (sub : Nat) : (s.fieldCount sub).guardStyle = s.guardStyle := rfl
@[simp] theorem State.fieldCount_guardLock (sub : Nat) : (s.fieldCount sub).guardLock = s.guardLock := rfl
@[simp] theorem State.fieldCount_tim (sub : Nat) : (s.fieldCount sub).tim = s.tim := rfl
@[simp] theorem State.fieldCount_sql (sub : Nat) : (s.fieldCount sub).sql = s.sql := rfl
@[simp] theorem State.fieldCount_prt (sub : Nat) : (s.fieldCount sub).prt = s.prt := rfl
@[simp] theorem State.fieldCount_pcl (sub : Nat) : (s.fieldCount sub).pcl = s.pcl := rfl
@[simp] theorem State.fieldCount_fwt (sub : Nat) : (s.fieldCount sub).fwt = s.fwt := rfl
@[simp] theorem State.fieldCount_rwc (sub : Nat) : (s.fieldCount sub).rwc = s.rwc := rfl
@[simp] theorem State.fieldCount_trn (sub : Nat) : (s.fieldCount sub).trn = s.trn := rfl
@[simp] theorem State.fieldCount_tmg (sub : Nat) : (s.fieldCount sub).tmg = s.tmg := rfl
@[simp] theorem State.fieldCount_hep (sub : Nat) : (s.fieldCount sub).hep = s.hep := rfl
@[simp] theorem State.fieldCount_qim (sub : Nat) : (s.fieldCount sub).qim = s.qim := rfl
@[simp] theorem State.fieldCount_dma (sub : Nat) : (s.fieldCount sub).dma = s.dma := rfl
@[simp] theorem State.fieldCount_mem (sub : Nat) : (s.fieldCount sub).mem = s.mem := rfl
@[simp] theorem State.fieldCount_tha (sub : Nat) : (s.fieldCount sub).tha = s.tha := rfl
@[simp] theorem State.fieldCount_gloveH (sub : Nat) : (s.fieldCount sub).gloveH = s.gloveH := rfl
@[simp] theorem State.fieldCount_gloveF (sub : Nat) : (s.fieldCount sub).gloveF = s.gloveF := rfl
@[simp] theorem State.fieldCount_pwr (sub : Nat) : (s.fieldCount sub).pwr = s.pwr := rfl

@[simp] theorem State.setRep_pending (r : Nat) (x : Replica) : (s.setRep r x).pending = s.pending := rfl
@[simp] theorem State.setRep_clock (r : Nat) (x : Replica) : (s.setRep r x).clock = s.clock := rfl
@[simp] theorem State.setRep_fresh (r : Nat) (x : Replica) : (s.setRep r x).fresh = s.fresh := rfl
@[simp] theorem State.setRep_out (r : Nat) (x : Replica) : (s.setRep r x).out = s.out := rfl
@[simp] theorem State.setRep_regs (r : Nat) (x : Replica) : (s.setRep r x).regs = s.regs := rfl
@[simp] theorem State.setRep_sat (r : Nat) (x : Replica) : (s.setRep r x).sat = s.sat := rfl
@[simp] theorem State.setRep_arms (r : Nat) (x : Replica) : (s.setRep r x).arms = s.arms := rfl
@[simp] theorem State.setRep_latches (r : Nat) (x : Replica) : (s.setRep r x).latches = s.latches := rfl
@[simp] theorem State.setRep_nowLatch (r : Nat) (x : Replica) : (s.setRep r x).nowLatch = s.nowLatch := rfl
@[simp] theorem State.setRep_staging (r : Nat) (x : Replica) : (s.setRep r x).staging = s.staging := rfl
@[simp] theorem State.setRep_guardStyle (r : Nat) (x : Replica) : (s.setRep r x).guardStyle = s.guardStyle := rfl
@[simp] theorem State.setRep_guardLock (r : Nat) (x : Replica) : (s.setRep r x).guardLock = s.guardLock := rfl
@[simp] theorem State.setRep_sql (r : Nat) (x : Replica) : (s.setRep r x).sql = s.sql := rfl
@[simp] theorem State.setRep_prt (r : Nat) (x : Replica) : (s.setRep r x).prt = s.prt := rfl
@[simp] theorem State.setRep_pcl (r : Nat) (x : Replica) : (s.setRep r x).pcl = s.pcl := rfl
@[simp] theorem State.setRep_fwt (r : Nat) (x : Replica) : (s.setRep r x).fwt = s.fwt := rfl
@[simp] theorem State.setRep_rwc (r : Nat) (x : Replica) : (s.setRep r x).rwc = s.rwc := rfl
@[simp] theorem State.setRep_trn (r : Nat) (x : Replica) : (s.setRep r x).trn = s.trn := rfl
@[simp] theorem State.setRep_tmg (r : Nat) (x : Replica) : (s.setRep r x).tmg = s.tmg := rfl
@[simp] theorem State.setRep_hep (r : Nat) (x : Replica) : (s.setRep r x).hep = s.hep := rfl
@[simp] theorem State.setRep_qim (r : Nat) (x : Replica) : (s.setRep r x).qim = s.qim := rfl
@[simp] theorem State.setRep_dma (r : Nat) (x : Replica) : (s.setRep r x).dma = s.dma := rfl
@[simp] theorem State.setRep_mem (r : Nat) (x : Replica) : (s.setRep r x).mem = s.mem := rfl
@[simp] theorem State.setRep_tha (r : Nat) (x : Replica) : (s.setRep r x).tha = s.tha := rfl
@[simp] theorem State.setRep_gloveH (r : Nat) (x : Replica) : (s.setRep r x).gloveH = s.gloveH := rfl
@[simp] theorem State.setRep_gloveF (r : Nat) (x : Replica) : (s.setRep r x).gloveF = s.gloveF := rfl
@[simp] theorem State.setRep_field (r : Nat) (x : Replica) : (s.setRep r x).field = s.field := rfl
@[simp] theorem State.setRep_pwr (r : Nat) (x : Replica) : (s.setRep r x).pwr = s.pwr := rfl

@[simp] theorem State.dropRep_pending (r : Nat) : (s.dropRep r).pending = s.pending := rfl
@[simp] theorem State.dropRep_clock (r : Nat) : (s.dropRep r).clock = s.clock := rfl
@[simp] theorem State.dropRep_fresh (r : Nat) : (s.dropRep r).fresh = s.fresh := rfl
@[simp] theorem State.dropRep_out (r : Nat) : (s.dropRep r).out = s.out := rfl
@[simp] theorem State.dropRep_regs (r : Nat) : (s.dropRep r).regs = s.regs := rfl
@[simp] theorem State.dropRep_sat (r : Nat) : (s.dropRep r).sat = s.sat := rfl
@[simp] theorem State.dropRep_arms (r : Nat) : (s.dropRep r).arms = s.arms := rfl
@[simp] theorem State.dropRep_latches (r : Nat) : (s.dropRep r).latches = s.latches := rfl
@[simp] theorem State.dropRep_nowLatch (r : Nat) : (s.dropRep r).nowLatch = s.nowLatch := rfl
@[simp] theorem State.dropRep_staging (r : Nat) : (s.dropRep r).staging = s.staging := rfl
@[simp] theorem State.dropRep_guardStyle (r : Nat) : (s.dropRep r).guardStyle = s.guardStyle := rfl
@[simp] theorem State.dropRep_guardLock (r : Nat) : (s.dropRep r).guardLock = s.guardLock := rfl
@[simp] theorem State.dropRep_sql (r : Nat) : (s.dropRep r).sql = s.sql := rfl
@[simp] theorem State.dropRep_prt (r : Nat) : (s.dropRep r).prt = s.prt := rfl
@[simp] theorem State.dropRep_pcl (r : Nat) : (s.dropRep r).pcl = s.pcl := rfl
@[simp] theorem State.dropRep_fwt (r : Nat) : (s.dropRep r).fwt = s.fwt := rfl
@[simp] theorem State.dropRep_rwc (r : Nat) : (s.dropRep r).rwc = s.rwc := rfl
@[simp] theorem State.dropRep_trn (r : Nat) : (s.dropRep r).trn = s.trn := rfl
@[simp] theorem State.dropRep_tmg (r : Nat) : (s.dropRep r).tmg = s.tmg := rfl
@[simp] theorem State.dropRep_hep (r : Nat) : (s.dropRep r).hep = s.hep := rfl
@[simp] theorem State.dropRep_qim (r : Nat) : (s.dropRep r).qim = s.qim := rfl
@[simp] theorem State.dropRep_dma (r : Nat) : (s.dropRep r).dma = s.dma := rfl
@[simp] theorem State.dropRep_mem (r : Nat) : (s.dropRep r).mem = s.mem := rfl
@[simp] theorem State.dropRep_tha (r : Nat) : (s.dropRep r).tha = s.tha := rfl
@[simp] theorem State.dropRep_gloveH (r : Nat) : (s.dropRep r).gloveH = s.gloveH := rfl
@[simp] theorem State.dropRep_gloveF (r : Nat) : (s.dropRep r).gloveF = s.gloveF := rfl
@[simp] theorem State.dropRep_field (r : Nat) : (s.dropRep r).field = s.field := rfl
@[simp] theorem State.dropRep_pwr (r : Nat) : (s.dropRep r).pwr = s.pwr := rfl

@[simp] theorem State.aerLog_pending (e : AerErr) : (s.aerLog e).pending = s.pending := rfl
@[simp] theorem State.aerLog_clock (e : AerErr) : (s.aerLog e).clock = s.clock := rfl
@[simp] theorem State.aerLog_fresh (e : AerErr) : (s.aerLog e).fresh = s.fresh := rfl
@[simp] theorem State.aerLog_regs (e : AerErr) : (s.aerLog e).regs = s.regs := rfl
@[simp] theorem State.aerLog_sat (e : AerErr) : (s.aerLog e).sat = s.sat := rfl
@[simp] theorem State.aerLog_arms (e : AerErr) : (s.aerLog e).arms = s.arms := rfl
@[simp] theorem State.aerLog_latches (e : AerErr) : (s.aerLog e).latches = s.latches := rfl
@[simp] theorem State.aerLog_nowLatch (e : AerErr) : (s.aerLog e).nowLatch = s.nowLatch := rfl
@[simp] theorem State.aerLog_staging (e : AerErr) : (s.aerLog e).staging = s.staging := rfl
@[simp] theorem State.aerLog_guardStyle (e : AerErr) : (s.aerLog e).guardStyle = s.guardStyle := rfl
@[simp] theorem State.aerLog_guardLock (e : AerErr) : (s.aerLog e).guardLock = s.guardLock := rfl
@[simp] theorem State.aerLog_tim (e : AerErr) : (s.aerLog e).tim = s.tim := rfl
@[simp] theorem State.aerLog_sql (e : AerErr) : (s.aerLog e).sql = s.sql := rfl
@[simp] theorem State.aerLog_prt (e : AerErr) : (s.aerLog e).prt = s.prt := rfl
@[simp] theorem State.aerLog_pcl (e : AerErr) : (s.aerLog e).pcl = s.pcl := rfl
@[simp] theorem State.aerLog_fwt (e : AerErr) : (s.aerLog e).fwt = s.fwt := rfl
@[simp] theorem State.aerLog_rwc (e : AerErr) : (s.aerLog e).rwc = s.rwc := rfl
@[simp] theorem State.aerLog_trn (e : AerErr) : (s.aerLog e).trn = s.trn := rfl
@[simp] theorem State.aerLog_tmg (e : AerErr) : (s.aerLog e).tmg = s.tmg := rfl
@[simp] theorem State.aerLog_qim (e : AerErr) : (s.aerLog e).qim = s.qim := rfl
@[simp] theorem State.aerLog_dma (e : AerErr) : (s.aerLog e).dma = s.dma := rfl
@[simp] theorem State.aerLog_mem (e : AerErr) : (s.aerLog e).mem = s.mem := rfl
@[simp] theorem State.aerLog_tha (e : AerErr) : (s.aerLog e).tha = s.tha := rfl
@[simp] theorem State.aerLog_gloveH (e : AerErr) : (s.aerLog e).gloveH = s.gloveH := rfl
@[simp] theorem State.aerLog_gloveF (e : AerErr) : (s.aerLog e).gloveF = s.gloveF := rfl
@[simp] theorem State.aerLog_field (e : AerErr) : (s.aerLog e).field = s.field := rfl
@[simp] theorem State.aerLog_pwr (e : AerErr) : (s.aerLog e).pwr = s.pwr := rfl

@[simp] theorem State.setCore_pending (c : CoreId) (x : TimeCore) : (s.setCore c x).pending = s.pending := by cases c <;> rfl
@[simp] theorem State.setCore_clock (c : CoreId) (x : TimeCore) : (s.setCore c x).clock = s.clock := by cases c <;> rfl
@[simp] theorem State.setCore_fresh (c : CoreId) (x : TimeCore) : (s.setCore c x).fresh = s.fresh := by cases c <;> rfl
@[simp] theorem State.setCore_out (c : CoreId) (x : TimeCore) : (s.setCore c x).out = s.out := by cases c <;> rfl
@[simp] theorem State.setCore_regs (c : CoreId) (x : TimeCore) : (s.setCore c x).regs = s.regs := by cases c <;> rfl
@[simp] theorem State.setCore_sat (c : CoreId) (x : TimeCore) : (s.setCore c x).sat = s.sat := by cases c <;> rfl
@[simp] theorem State.setCore_arms (c : CoreId) (x : TimeCore) : (s.setCore c x).arms = s.arms := by cases c <;> rfl
@[simp] theorem State.setCore_latches (c : CoreId) (x : TimeCore) : (s.setCore c x).latches = s.latches := by cases c <;> rfl
@[simp] theorem State.setCore_nowLatch (c : CoreId) (x : TimeCore) : (s.setCore c x).nowLatch = s.nowLatch := by cases c <;> rfl
@[simp] theorem State.setCore_staging (c : CoreId) (x : TimeCore) : (s.setCore c x).staging = s.staging := by cases c <;> rfl
@[simp] theorem State.setCore_guardStyle (c : CoreId) (x : TimeCore) : (s.setCore c x).guardStyle = s.guardStyle := by cases c <;> rfl
@[simp] theorem State.setCore_guardLock (c : CoreId) (x : TimeCore) : (s.setCore c x).guardLock = s.guardLock := by cases c <;> rfl
@[simp] theorem State.setCore_sql (c : CoreId) (x : TimeCore) : (s.setCore c x).sql = s.sql := by cases c <;> rfl
@[simp] theorem State.setCore_prt (c : CoreId) (x : TimeCore) : (s.setCore c x).prt = s.prt := by cases c <;> rfl
@[simp] theorem State.setCore_pcl (c : CoreId) (x : TimeCore) : (s.setCore c x).pcl = s.pcl := by cases c <;> rfl
@[simp] theorem State.setCore_fwt (c : CoreId) (x : TimeCore) : (s.setCore c x).fwt = s.fwt := by cases c <;> rfl
@[simp] theorem State.setCore_rwc (c : CoreId) (x : TimeCore) : (s.setCore c x).rwc = s.rwc := by cases c <;> rfl
@[simp] theorem State.setCore_trn (c : CoreId) (x : TimeCore) : (s.setCore c x).trn = s.trn := by cases c <;> rfl
@[simp] theorem State.setCore_tmg (c : CoreId) (x : TimeCore) : (s.setCore c x).tmg = s.tmg := by cases c <;> rfl
@[simp] theorem State.setCore_hep (c : CoreId) (x : TimeCore) : (s.setCore c x).hep = s.hep := by cases c <;> rfl
@[simp] theorem State.setCore_qim (c : CoreId) (x : TimeCore) : (s.setCore c x).qim = s.qim := by cases c <;> rfl
@[simp] theorem State.setCore_dma (c : CoreId) (x : TimeCore) : (s.setCore c x).dma = s.dma := by cases c <;> rfl
@[simp] theorem State.setCore_mem (c : CoreId) (x : TimeCore) : (s.setCore c x).mem = s.mem := by cases c <;> rfl
@[simp] theorem State.setCore_tha (c : CoreId) (x : TimeCore) : (s.setCore c x).tha = s.tha := by cases c <;> rfl
@[simp] theorem State.setCore_gloveH (c : CoreId) (x : TimeCore) : (s.setCore c x).gloveH = s.gloveH := by cases c <;> rfl
@[simp] theorem State.setCore_gloveF (c : CoreId) (x : TimeCore) : (s.setCore c x).gloveF = s.gloveF := by cases c <;> rfl
@[simp] theorem State.setCore_field (c : CoreId) (x : TimeCore) : (s.setCore c x).field = s.field := by cases c <;> rfl
@[simp] theorem State.setCore_pwr (c : CoreId) (x : TimeCore) : (s.setCore c x).pwr = s.pwr := by cases c <;> rfl

@[simp] theorem State.modCore_pending (c : CoreId) (f : TimeCore → TimeCore) : (s.modCore c f).pending = s.pending := by cases c <;> rfl
@[simp] theorem State.modCore_clock (c : CoreId) (f : TimeCore → TimeCore) : (s.modCore c f).clock = s.clock := by cases c <;> rfl
@[simp] theorem State.modCore_fresh (c : CoreId) (f : TimeCore → TimeCore) : (s.modCore c f).fresh = s.fresh := by cases c <;> rfl
@[simp] theorem State.modCore_out (c : CoreId) (f : TimeCore → TimeCore) : (s.modCore c f).out = s.out := by cases c <;> rfl
@[simp] theorem State.modCore_regs (c : CoreId) (f : TimeCore → TimeCore) : (s.modCore c f).regs = s.regs := by cases c <;> rfl
@[simp] theorem State.modCore_sat (c : CoreId) (f : TimeCore → TimeCore) : (s.modCore c f).sat = s.sat := by cases c <;> rfl
@[simp] theorem State.modCore_arms (c : CoreId) (f : TimeCore → TimeCore) : (s.modCore c f).arms = s.arms := by cases c <;> rfl
@[simp] theorem State.modCore_latches (c : CoreId) (f : TimeCore → TimeCore) : (s.modCore c f).latches = s.latches := by cases c <;> rfl
@[simp] theorem State.modCore_nowLatch (c : CoreId) (f : TimeCore → TimeCore) : (s.modCore c f).nowLatch = s.nowLatch := by cases c <;> rfl
@[simp] theorem State.modCore_staging (c : CoreId) (f : TimeCore → TimeCore) : (s.modCore c f).staging = s.staging := by cases c <;> rfl
@[simp] theorem State.modCore_guardStyle (c : CoreId) (f : TimeCore → TimeCore) : (s.modCore c f).guardStyle = s.guardStyle := by cases c <;> rfl
@[simp] theorem State.modCore_guardLock (c : CoreId) (f : TimeCore → TimeCore) : (s.modCore c f).guardLock = s.guardLock := by cases c <;> rfl
@[simp] theorem State.modCore_sql (c : CoreId) (f : TimeCore → TimeCore) : (s.modCore c f).sql = s.sql := by cases c <;> rfl
@[simp] theorem State.modCore_prt (c : CoreId) (f : TimeCore → TimeCore) : (s.modCore c f).prt = s.prt := by cases c <;> rfl
@[simp] theorem State.modCore_pcl (c : CoreId) (f : TimeCore → TimeCore) : (s.modCore c f).pcl = s.pcl := by cases c <;> rfl
@[simp] theorem State.modCore_fwt (c : CoreId) (f : TimeCore → TimeCore) : (s.modCore c f).fwt = s.fwt := by cases c <;> rfl
@[simp] theorem State.modCore_rwc (c : CoreId) (f : TimeCore → TimeCore) : (s.modCore c f).rwc = s.rwc := by cases c <;> rfl
@[simp] theorem State.modCore_trn (c : CoreId) (f : TimeCore → TimeCore) : (s.modCore c f).trn = s.trn := by cases c <;> rfl
@[simp] theorem State.modCore_tmg (c : CoreId) (f : TimeCore → TimeCore) : (s.modCore c f).tmg = s.tmg := by cases c <;> rfl
@[simp] theorem State.modCore_hep (c : CoreId) (f : TimeCore → TimeCore) : (s.modCore c f).hep = s.hep := by cases c <;> rfl
@[simp] theorem State.modCore_qim (c : CoreId) (f : TimeCore → TimeCore) : (s.modCore c f).qim = s.qim := by cases c <;> rfl
@[simp] theorem State.modCore_dma (c : CoreId) (f : TimeCore → TimeCore) : (s.modCore c f).dma = s.dma := by cases c <;> rfl
@[simp] theorem State.modCore_mem (c : CoreId) (f : TimeCore → TimeCore) : (s.modCore c f).mem = s.mem := by cases c <;> rfl
@[simp] theorem State.modCore_tha (c : CoreId) (f : TimeCore → TimeCore) : (s.modCore c f).tha = s.tha := by cases c <;> rfl
@[simp] theorem State.modCore_gloveH (c : CoreId) (f : TimeCore → TimeCore) : (s.modCore c f).gloveH = s.gloveH := by cases c <;> rfl
@[simp] theorem State.modCore_gloveF (c : CoreId) (f : TimeCore → TimeCore) : (s.modCore c f).gloveF = s.gloveF := by cases c <;> rfl
@[simp] theorem State.modCore_field (c : CoreId) (f : TimeCore → TimeCore) : (s.modCore c f).field = s.field := by cases c <;> rfl
@[simp] theorem State.modCore_pwr (c : CoreId) (f : TimeCore → TimeCore) : (s.modCore c f).pwr = s.pwr := by cases c <;> rfl

/-! What the updates write. -/

@[simp] theorem State.emit_out (o : Out) : (s.emit o).out = s.out ++ [o] := rfl
@[simp] theorem State.emitAll_out (o : List Out) : (s.emitAll o).out = s.out ++ o := rfl
@[simp] theorem State.drawn_fresh : s.drawn.fresh = s.fresh + 1 := rfl
@[simp] theorem State.advance_clock (dt : Nat) : (s.advance dt).clock = s.clock + dt := rfl
@[simp] theorem State.setReg_regs (a : Nat) (v : Word) : (s.setReg a v).regs = Map.set s.regs a v (porOf a) := rfl
@[simp] theorem State.aerLog_aer (e : AerErr) : (s.aerLog e).hep.aer = s.hep.aer ++ [e] := rfl
@[simp] theorem State.advance_zero : s.advance 0 = s := rfl

end Sys2Proof.Machine
end

