-- ==== Sys2Proof/Laws/Memory.lean ====
section
/-! SUPPORT. The internal memory and the stored registers: what a read sees after a write, and that every operation on
the bytes of memory keeps the canonical form. -/

namespace Sys2Proof.Machine

variable (s : State)

/-! Bytes. -/

theorem State.readByte_writeByte_other {a c : Nat} (b : Byte) (h : c ≠ a) :
    (s.writeByte a b).readByte c = s.readByte c := Map.at_set_other _ _ _ _ h

theorem State.readByte_writeByte_same (a : Nat) (b : Byte) (h : Memory.wf s.mem.cells) :
    (s.writeByte a b).readByte a = b := Map.at_set_same ((Map.wf_iff _ _).1 h).1 _ _ _

theorem State.writeByte_wf (a : Nat) (b : Byte) (h : Memory.wf s.mem.cells) : Memory.wf (s.writeByte a b).mem.cells :=
  Map.wf_set h _ _

/-- Everything that a write of bytes can change. -/
theorem State.writeBytes_mem (a : Nat) (d : List Byte) :
    ∃ c, s.writeBytes a d = { s with mem := { s.mem with cells := c } } := by
  induction d generalizing s a with
  | nil => exact ⟨_, rfl⟩
  | cons b t ih => obtain ⟨c, h⟩ := ih (s.writeByte a b) (a + 1); exact ⟨c, h⟩

theorem State.readByte_writeBytes_outside {a c : Nat} (d : List Byte) (h : c < a ∨ a + d.length ≤ c) :
    (s.writeBytes a d).readByte c = s.readByte c := by
  induction d generalizing s a with
  | nil => rfl
  | cons b t ih =>
    rw [List.length_cons] at h
    rw [State.writeBytes, ih (s.writeByte a b) (by omega), s.readByte_writeByte_other b (by omega)]

theorem State.writeBytes_wf (a : Nat) (d : List Byte) (h : Memory.wf s.mem.cells) :
    Memory.wf (s.writeBytes a d).mem.cells := by
  induction d generalizing s a with
  | nil => exact h
  | cons b t ih => exact ih _ _ (s.writeByte_wf a b h)

theorem State.readByte_writeBytes_inside {a c : Nat} (d : List Byte) (h : Memory.wf s.mem.cells) (h1 : a ≤ c)
    (h2 : c < a + d.length) : (s.writeBytes a d).readByte c = d.getD (c - a) 0 := by
  induction d generalizing s a with
  | nil => rw [List.length_nil] at h2; omega
  | cons b t ih =>
    rw [List.length_cons] at h2
    rw [State.writeBytes]
    by_cases e : c = a
    · subst e
      rw [State.readByte_writeBytes_outside _ _ (by omega), s.readByte_writeByte_same _ _ h]; simp
    · rw [ih _ (s.writeByte_wf a b h) (by omega) (by omega), show c - a = (c - (a + 1)) + 1 by omega]; simp

@[simp] theorem State.cleanse_cells (a n : Nat) : (s.cleanse a n).mem.cells = s.mem.cells := rfl

theorem State.readByte_land_outside {a c : Nat} (d : List Byte) (h : c < a ∨ a + d.length ≤ c) :
    (s.land a d).readByte c = s.readByte c := State.readByte_writeBytes_outside _ d h

theorem State.land_wf (a : Nat) (d : List Byte) (h : Memory.wf s.mem.cells) : Memory.wf (s.land a d).mem.cells :=
  State.writeBytes_wf _ a d h

/-- Everything that bytes which land can change. -/
theorem State.land_mem (a : Nat) (d : List Byte) :
    ∃ c p, s.land a d = { s with mem := { s.mem with cells := c, poison := p } } := by
  obtain ⟨c, h⟩ := (s.cleanse a d.length).writeBytes_mem a d
  exact ⟨c, _, h⟩

theorem State.zeroMem_wf (lo hi : Nat) (h : Memory.wf s.mem.cells) : Memory.wf (s.zeroMem lo hi).mem.cells :=
  Map.wf_filter h _

theorem State.zeroRegion_wf (base size : Nat) (h : Memory.wf s.mem.cells) :
    Memory.wf (s.zeroRegion base size).mem.cells := Map.wf_filter h _

theorem State.foldl_wf {α : Type} (f : State → α → State)
    (hf : ∀ s x, Memory.wf s.mem.cells → Memory.wf (f s x).mem.cells) (l : List α) (s : State)
    (h : Memory.wf s.mem.cells) : Memory.wf (l.foldl f s).mem.cells := by
  induction l generalizing s with
  | nil => exact h
  | cons x t ih => exact ih _ (hf s x h)

theorem State.loadCluster_wf (slot k : Nat) (h : Memory.wf s.mem.cells) : Memory.wf (s.loadCluster slot k).mem.cells := by
  unfold State.loadCluster
  refine State.foldl_wf _ (fun s j hs => State.foldl_wf _ (fun s c hs => ?_) _ _ hs) _ _ (Map.wf_filter h _)
  split
  · exact s.writeBytes_wf _ _ hs
  · exact hs

/-! Stored registers. -/

theorem State.getReg_setReg_other {a b : Nat} (v : Word) (h : b ≠ a) : (s.setReg a v).getReg b = s.getReg b :=
  Map.at_set_other _ v _ _ h

theorem State.getReg_setReg_same (a : Nat) (v : Word) (h : Map.rising s.regs = true) : (s.setReg a v).getReg a = v :=
  Map.at_set_same h _ _ _

theorem State.getReg_setReg_ne (a : Nat) {v : Word} (h : v ≠ porOf a) : (s.setReg a v).getReg a = v :=
  Map.at_set_ne _ _ _ h

theorem State.setReg_rising (a : Nat) (v : Word) (h : Map.rising s.regs = true) :
    Map.rising (s.setReg a v).regs = true := by
  rw [State.setReg_regs]
  unfold Map.set
  split
  · exact Map.rising_del h _
  · exact Map.rising_put h _ _

end Sys2Proof.Machine
end

