-- ==== Sys2Proof/Laws/Ops.lean ====
section
/-! SUPPORT. Everything that each shared operation can do: counters, events, vectors, access errors, notices, requests
of the endpoint, and the end of a command. -/

namespace Sys2Proof.Machine

/-- What counters, events, interrupts, notices and requests can change: registers and their SAT bits, the endpoint, the
glove's host end, what leaves the device, and the free values drawn. -/
def Reports (s t : State) : Prop :=
  t = { s with fresh := t.fresh, out := t.out, regs := t.regs, sat := t.sat, hep := t.hep, gloveH := t.gloveH }

theorem Reports.refl (s : State) : Reports s s := rfl

theorem Reports.trans {s t u : State} (h : Reports s t) (k : Reports t u) : Reports s u := by
  unfold Reports at *
  rw [k, h]

/-- What reports leave as it was. -/
theorem Reports.rest {s t : State} (h : Reports s t) : t.rest = s.rest := by
  unfold Reports at h
  rw [h]; rfl

theorem Reports.mem {s t : State} (h : Reports s t) : t.mem = s.mem := by unfold Reports at h; rw [h]
theorem Reports.qim {s t : State} (h : Reports s t) : t.qim = s.qim := by unfold Reports at h; rw [h]
theorem Reports.tha {s t : State} (h : Reports s t) : t.tha = s.tha := by unfold Reports at h; rw [h]
theorem Reports.tim {s t : State} (h : Reports s t) : t.tim = s.tim := by unfold Reports at h; rw [h]
theorem Reports.field {s t : State} (h : Reports s t) : t.field = s.field := by unfold Reports at h; rw [h]
theorem Reports.pwr {s t : State} (h : Reports s t) : t.pwr = s.pwr := by unfold Reports at h; rw [h]
theorem Reports.clock {s t : State} (h : Reports s t) : t.clock = s.clock := by unfold Reports at h; rw [h]
theorem Reports.pending {s t : State} (h : Reports s t) : t.pending = s.pending := by unfold Reports at h; rw [h]

theorem Reports.readByte {s t : State} (h : Reports s t) (a : Nat) : t.readByte a = s.readByte a := by
  unfold State.readByte; rw [h.mem]

theorem Reports.foldl {α : Type} (f : State → α → State) (hf : ∀ s x, Reports s (f s x)) (l : List α) (s : State) :
    Reports s (l.foldl f s) := by
  induction l generalizing s with
  | nil => exact .refl s
  | cons x t ih => exact (hf s x).trans (ih _)

variable (s : State)

theorem State.emit_reports (o : Out) : Reports s (s.emit o) := rfl
theorem State.emitAll_reports (o : List Out) : Reports s (s.emitAll o) := rfl
theorem State.drawn_reports : Reports s s.drawn := rfl
theorem State.setReg_reports (a : Nat) (v : Word) : Reports s (s.setReg a v) := rfl
theorem State.setReg64_reports (a : Nat) (v : BitVec 64) : Reports s (s.setReg64 a v) := rfl
theorem State.statN_reports (a n : Nat) : Reports s (s.statN a n) := rfl
theorem State.stat_reports (a : Nat) : Reports s (s.stat a) := rfl
theorem State.aerLog_reports (e : AerErr) : Reports s (s.aerLog e) := rfl
theorem State.setIv_reports (n : Nat) (e : BitVec 128) : Reports s (s.setIv n e) := rfl

theorem State.countTlp_reports (r k a n : Nat) : Reports s (s.countTlp r k a n) := by
  unfold State.countTlp
  dsimp only
  split
  · rfl
  · rfl

/-- A counter changes its register and its SAT bit. -/
theorem State.countN_regs (a n : Nat) : ∃ r x, s.countN a n = { s with regs := r, sat := x } := by
  unfold State.countN
  dsimp only
  by_cases h : n = 0
  · rw [if_pos h]; exact ⟨_, _, rfl⟩
  · rw [if_neg h]
    by_cases k : s.regNat a + n ≤ 0xFFFFFFFF
    · rw [if_pos k]; exact ⟨_, _, rfl⟩
    · rw [if_neg k]; exact ⟨_, _, rfl⟩

theorem State.countN_reports (a n : Nat) : Reports s (s.countN a n) := by
  obtain ⟨r, x, h⟩ := s.countN_regs a n
  rw [h]; rfl

theorem State.count_reports (a : Nat) : Reports s (s.count a) := s.countN_reports a 1

/-- A statistic changes its two words. -/
theorem State.statN_regs (a n : Nat) : ∃ r, s.statN a n = { s with regs := r } := ⟨_, rfl⟩

/-- A vector that fires sends its message and counts it, or sets its pending bit. -/
theorem State.fireVector_parts (v : Nat) : ∃ r h o, s.fireVector v = { s with regs := r, hep := h, out := o } := by
  unfold State.fireVector
  split
  · exact ⟨_, _, _, rfl⟩
  · split
    · exact ⟨_, _, _, rfl⟩
    · exact ⟨_, _, _, rfl⟩

theorem State.fireVector_reports (v : Nat) : Reports s (s.fireVector v) := by
  obtain ⟨r, h, o, e⟩ := s.fireVector_parts v
  rw [e]; rfl

/-- An event changes registers and the endpoint, and may send a message. -/
theorem State.setEvt_parts (a v : Nat) (m : Word) :
    ∃ r h o, s.setEvt a v m = { s with regs := r, hep := h, out := o } := by
  unfold State.setEvt
  dsimp only
  split
  · exact ⟨_, _, _, rfl⟩
  · split
    · exact ⟨_, _, _, rfl⟩
    · obtain ⟨r, h, o, e⟩ := State.fireVector_parts
        { s.setReg a (s.getReg a ||| m) with hep := { s.hep with raised := s.hep.raised ++ [v] } } v
      exact ⟨r, h, o, e⟩

theorem State.setEvt_reports (a v : Nat) (m : Word) : Reports s (s.setEvt a v m) := by
  obtain ⟨r, h, o, e⟩ := s.setEvt_parts a v m
  rw [e]; rfl

/-- An access error changes registers and the endpoint, and may send a message. -/
theorem State.accErr_parts (f o : Nat) : ∃ r h x, s.accErr f o = { s with regs := r, hep := h, out := x } := by
  unfold State.accErr
  dsimp only
  generalize hs : (if _ = 0xFFFF then s else _ : State) = t
  have ht : ∃ r, t = { s with regs := r } := by subst hs; split <;> exact ⟨_, rfl⟩
  generalize hu : (if (t.getReg (GLB + 0x14)).getLsbD 31 = true then t else _ : State) = u
  have hu' : ∃ r, u = { t with regs := r } := by subst hu; split <;> exact ⟨_, rfl⟩
  obtain ⟨r, h, x, e⟩ := u.setEvt_parts (GLB + 0x10) 1
    (if bits (s.regNat (GLB + 0x10)) 31 16 = 0xFFFF then BitVec.ofNat 32 (2 ^ f + 2 ^ 7) else BitVec.ofNat 32 (2 ^ f))
  obtain ⟨r1, rfl⟩ := ht
  obtain ⟨r2, rfl⟩ := hu'
  exact ⟨r, h, x, e⟩

theorem State.accErr_reports (f o : Nat) : Reports s (s.accErr f o) := by
  obtain ⟨r, h, x, e⟩ := s.accErr_parts f o
  rw [e]; rfl

/-- INTA follows its condition, and goes out when it changes. -/
theorem State.intxUpdate_parts : ∃ b o, s.intxUpdate = { s with hep := { s.hep with inta := b }, out := o } := by
  unfold State.intxUpdate
  dsimp only
  split
  · exact ⟨_, _, rfl⟩
  · exact ⟨_, _, rfl⟩

theorem State.intxUpdate_reports : Reports s s.intxUpdate := by
  obtain ⟨b, o, e⟩ := s.intxUpdate_parts
  rw [e]; rfl

theorem State.intxUpdate_inta :
    s.intxUpdate.hep.inta = (!s.hep.msix && !s.hep.intxDis && s.intxCause) := by
  unfold State.intxUpdate
  dsimp only
  split
  · rename_i h; exact h.symm
  · rfl

/-! Notices and the glove. -/

theorem State.gloveSend_host (typ : Nat) (p : List Byte) :
    ∃ g o, s.gloveSend .host typ p = { s with gloveH := g, out := o } := ⟨_, _, rfl⟩

theorem State.gloveSend_field (typ : Nat) (p : List Byte) :
    ∃ g o, s.gloveSend .field typ p = { s with gloveF := g, out := o } := ⟨_, _, rfl⟩

theorem State.mainEvent_reports (c u t : Nat) (d : List Byte) : Reports s (s.mainEvent c u t d) := by
  unfold State.mainEvent
  dsimp only
  split
  · rfl
  · split
    · rfl
    · exact s.count_reports _

/-- A frame leaves, or its discard is counted. -/
theorem State.busOut_parts (ok : Bool) (dst : Byte) (b : List Byte) :
    ∃ f o, s.busOut ok dst b = { s with field := f, out := o } := by
  unfold State.busOut
  split
  · exact ⟨_, _, rfl⟩
  · exact ⟨_, _, rfl⟩

/-- A notice of the field side changes the field side, draws a free value, and may send a frame. -/
theorem State.fieldEvent_parts (c u t : Nat) (d : List Byte) :
    ∃ f o n, s.fieldEvent c u t d = { s with field := f, out := o, fresh := n } := by
  unfold State.fieldEvent
  dsimp only
  split
  · exact ⟨_, _, _, rfl⟩
  · split <;> split <;>
      first
      | exact ⟨_, _, _, rfl⟩
      | (unfold State.busEvent
         obtain ⟨f, o, e⟩ := State.busOut_parts _ _ _ _
         rw [e]; exact ⟨_, _, _, rfl⟩)

/-- A frame that the node sends changes its session and goes out. -/
theorem State.busSend_parts (typ : Nat) (dst : Byte) (tid : BitVec 16) (sid : Word) (p : List Byte) (ok : Bool) :
    ∃ f o, s.busSend typ dst tid sid p ok = { s with field := f, out := o } := by
  unfold State.busSend
  dsimp only
  split
  · exact ⟨_, _, rfl⟩
  · split
    · exact s.busOut_parts _ _ _
    · split
      · exact ⟨_, _, rfl⟩
      · obtain ⟨f, o, e⟩ := State.busOut_parts _ _ _ _
        rw [e]; exact ⟨_, _, rfl⟩

/-! Requests of the endpoint. -/

/-- R276: a lookup of translations changes the endpoint, counts, and may send a request. -/
theorem State.xlate_reports (who : Option (BitVec 16)) (a n c : Nat) : Reports s (s.xlate who a n c).2 := by
  unfold State.xlate
  split
  · exact .refl s
  · dsimp only
    split
    · exact .refl s
    · split
      · rfl
      · split
        · exact .refl s
        · rfl

theorem State.writePieces_reports (p : Option (BitVec 20)) (r : ReqAttr) (l : List (Bool × Nat × Nat)) (d : List Byte) :
    Reports s (s.writePieces p r l d) := by
  induction l generalizing s d with
  | nil => exact .refl s
  | cons x t ih => exact ((State.emit_reports s _).trans (State.countTlp_reports _ _ _ _ _)).trans (ih _ _)

/-- R265: a posted write changes no state of another unit. -/
theorem State.putOrdered_reports (b : Bool) (who : Option (BitVec 16)) (a : Nat) (d : List Byte) :
    Reports s (s.putOrdered b who a d).2 := by
  unfold State.putOrdered
  split
  · exact .refl s
  · have h := s.xlate_reports who a d.length 4096
    split <;> rename_i e <;> rw [e] at h
    · exact h.trans (State.writePieces_reports _ _ _ _ _)
    · exact h
    · exact h

theorem State.hostPut_reports (who : Option (BitVec 16)) (a : Nat) (d : List Byte) : Reports s (s.hostPut who a d).2 :=
  s.putOrdered_reports false who a d

theorem State.putPf0_reports (a : Nat) (d : List Byte) : Reports s (s.putPf0 a d) := s.hostPut_reports none a d

theorem State.hostReady_reports (who : Option (BitVec 16)) (l : List (Nat × Nat)) :
    Reports s (s.hostReady who l).2 := by
  induction l generalizing s with
  | nil => exact .refl s
  | cons x t ih =>
    obtain ⟨a, n⟩ := x
    have h := s.xlate_reports who a n 4096
    unfold State.hostReady
    split <;> rename_i e <;> rw [e] at h
    · exact h.trans (ih _)
    · exact h
    · exact h

/-- R266: a read with a tag, when there is a tag for it. -/
theorem State.issueRead_reports (p : Option (BitVec 20)) (u : TagUse) (x : Bool × Nat × Nat) (b : Bool) (t : State)
    (h : s.issueRead p u x b = some t) : Reports s t := by
  unfold State.issueRead at h
  obtain ⟨n, -, rfl⟩ := Option.map_eq_some_iff.1 h
  rfl

theorem State.rxCpl_reports (a n : Nat) : Reports s (s.rxCpl a n) := by
  have h := s.countTlp_reports statRxTlp 64 a n
  unfold State.rxCpl
  generalize s.countTlp statRxTlp 64 a n = t at h
  exact h.trans rfl

theorem State.timedOut_reports : Reports s s.timedOut :=
  ((s.aerLog_reports _).trans (State.count_reports _ _)).trans (State.setEvt_reports _ _ _ _)

theorem State.sendRead_reports (p : Option (BitVec 20)) (f : Nat) (s : State) (x : Bool × Nat × Nat) (t : State)
    (h : State.sendRead f s p x = some t) : Reports s t := by
  induction f generalizing s x with
  | zero => cases h; exact .refl _
  | succ f ih =>
    obtain ⟨b, a, n⟩ := x
    unfold State.sendRead at h
    dsimp only at h
    split at h
    · cases h
    · rename_i u e
      have k : Reports s u := by
        unfold State.briefRead at e
        obtain ⟨n, -, rfl⟩ := Option.map_eq_some_iff.1 e
        rfl
      split at h
      · cases h; exact k
      · exact k.trans (ih u _ h)

theorem State.sendReads_reports (p : Option (BitVec 20)) (l : List (Bool × Nat × Nat)) (t : State)
    (h : s.sendReads p l = some t) : Reports s t := by
  induction l generalizing s with
  | nil => cases h; exact .refl _
  | cons x l ih =>
    unfold State.sendReads at h
    split at h
    · rename_i u e; exact (State.sendRead_reports p _ _ x u e).trans (ih _ h)
    · cases h

/-- R265 to R267, R275: a read of a unit changes no state of another unit. -/
theorem State.readFor_reports (who : Option (BitVec 16)) (a n : Nat) (r : ReadData) :
    Reports s (s.readFor who a n r).2 := by
  unfold State.readFor
  split
  · exact .refl s
  · have h := s.xlate_reports who a n 4096
    split <;> rename_i e <;> rw [e] at h
    · exact h
    · exact h
    · split
      · exact h
      · rename_i u k
        have g := h.trans (State.sendReads_reports _ _ _ _ k)
        cases r with
        | ok d => exact g.trans (u.rxCpl_reports a n)
        | error => exact g.trans (u.rxCpl_reports 0 0)
        | poisoned => exact (g.trans (u.rxCpl_reports a n)).trans (State.aerLog_reports _ .poisoned)
        | badEcrc => exact ((g.trans (u.rxCpl_reports a n)).trans (State.aerLog_reports _ .ecrc)).trans (State.timedOut_reports _)
        | timeout => exact g.trans u.timedOut_reports

/-! Commands. -/

/-- R34, R42: a command write whose register is there and powered has its effect. -/
theorem State.onCmd_taken {a : Nat} (f : State → State) (h : s.cmdTaken a = true) : s.onCmd a false f = f s := by
  unfold State.cmdTaken at h
  unfold State.onCmd
  split at h
  · rename_i r i j e; rw [e]; simp [h]
  · exact absurd h (by decide)

/-- R34, R42: what a command write does: its effect, or an access error. -/
theorem State.onCmd_cases (a : Nat) (b : Bool) (f : State → State) :
    s.onCmd a b f = f s ∨ ∃ e, s.onCmd a b f = s.accErr e a := by
  unfold State.onCmd
  split
  · exact .inr ⟨_, rfl⟩
  · split
    · exact .inr ⟨_, rfl⟩
    · split
      · exact .inr ⟨_, rfl⟩
      · exact .inl rfl

theorem done_ended (t : State) : done s t = .next (s.ended t) := rfl

@[simp] theorem State.ended_pending (t : State) : (s.ended t).pending = s.pending := rfl

/-- The end of a command changes INTA, and the output with it. -/
theorem State.ended_parts (t : State) :
    ∃ b o, s.ended t = { t with pending := s.pending, hep := { t.hep with inta := b }, out := o } := by
  obtain ⟨b, o, e⟩ := t.intxUpdate_parts
  exact ⟨b, o, by unfold State.ended; rw [e]⟩

@[simp] theorem State.ended_rest (t : State) : (s.ended t).rest = t.rest := by
  obtain ⟨b, o, e⟩ := s.ended_parts t
  rw [e]; rfl

@[simp] theorem State.ended_regs (t : State) : (s.ended t).regs = t.regs := by
  obtain ⟨b, o, e⟩ := s.ended_parts t; rw [e]
@[simp] theorem State.ended_clock (t : State) : (s.ended t).clock = t.clock := by
  obtain ⟨b, o, e⟩ := s.ended_parts t; rw [e]
@[simp] theorem State.ended_fresh (t : State) : (s.ended t).fresh = t.fresh := by
  obtain ⟨b, o, e⟩ := s.ended_parts t; rw [e]
@[simp] theorem State.ended_sat (t : State) : (s.ended t).sat = t.sat := by
  obtain ⟨b, o, e⟩ := s.ended_parts t; rw [e]
@[simp] theorem State.ended_tim (t : State) : (s.ended t).tim = t.tim := by
  obtain ⟨b, o, e⟩ := s.ended_parts t; rw [e]
@[simp] theorem State.ended_qim (t : State) : (s.ended t).qim = t.qim := by
  obtain ⟨b, o, e⟩ := s.ended_parts t; rw [e]
@[simp] theorem State.ended_mem (t : State) : (s.ended t).mem = t.mem := by
  obtain ⟨b, o, e⟩ := s.ended_parts t; rw [e]
@[simp] theorem State.ended_tha (t : State) : (s.ended t).tha = t.tha := by
  obtain ⟨b, o, e⟩ := s.ended_parts t; rw [e]
@[simp] theorem State.ended_field (t : State) : (s.ended t).field = t.field := by
  obtain ⟨b, o, e⟩ := s.ended_parts t; rw [e]
@[simp] theorem State.ended_pwr (t : State) : (s.ended t).pwr = t.pwr := by
  obtain ⟨b, o, e⟩ := s.ended_parts t; rw [e]
@[simp] theorem State.ended_gloveH (t : State) : (s.ended t).gloveH = t.gloveH := by
  obtain ⟨b, o, e⟩ := s.ended_parts t; rw [e]
@[simp] theorem State.ended_gloveF (t : State) : (s.ended t).gloveF = t.gloveF := by
  obtain ⟨b, o, e⟩ := s.ended_parts t; rw [e]

/-- After a command INTA follows its condition. -/
theorem State.ended_inta (t : State) :
    (s.ended t).hep.inta = (!t.hep.msix && !t.hep.intxDis && t.intxCause) := t.intxUpdate_inta

/-- What has left the device stays, after the end of a command too. -/
theorem State.ended_out {t : State} {o : Out} (h : o ∈ t.out) : o ∈ (s.ended t).out := by
  show o ∈ t.intxUpdate.out
  unfold State.intxUpdate
  dsimp only
  split
  · exact h
  · exact List.mem_append_left _ h

end Sys2Proof.Machine
end

