-- ==== Sys2Proof/Laws/Tables.lean ====
section
/-! SUPPORT. What a read of a unit's table sees after a change of one of its entries. -/

namespace Sys2Proof.Machine

variable (s : State)

theorem State.queue_modQueue_other {k j : Nat} (f : Queue → Queue) (h : j ≠ k) : (s.modQueue k f).queue j = s.queue j :=
  Map.at_set_other _ _ _ _ h

theorem State.queue_modQueue_same (k : Nat) (f : Queue → Queue) (h : Map.rising s.qim.queue = true) :
    (s.modQueue k f).queue k = f (s.queue k) := Map.at_set_same h _ _ _

theorem State.queue_modQueue_ne (k : Nat) (f : Queue → Queue) (h : f (s.queue k) ≠ {}) : (s.modQueue k f).queue k = f (s.queue k) :=
  Map.at_set_ne _ _ _ h

theorem State.inst_modInst_other {k j : Nat} (f : Inst → Inst) (h : j ≠ k) : (s.modInst k f).inst j = s.inst j :=
  Map.at_set_other _ _ _ _ h

theorem State.inst_modInst_same (k : Nat) (f : Inst → Inst) (h : Map.rising s.qim.inst = true) :
    (s.modInst k f).inst k = f (s.inst k) := Map.at_set_same h _ _ _

theorem State.inst_modInst_ne (k : Nat) (f : Inst → Inst) (h : f (s.inst k) ≠ {}) : (s.modInst k f).inst k = f (s.inst k) :=
  Map.at_set_ne _ _ _ h

theorem State.chan_modChan_other {k j : Nat} (f : Chan → Chan) (h : j ≠ k) : (s.modChan k f).chan j = s.chan j :=
  Map.at_set_other _ _ _ _ h

theorem State.chan_modChan_same (k : Nat) (f : Chan → Chan) (h : Map.rising s.dma.ch = true) :
    (s.modChan k f).chan k = f (s.chan k) := Map.at_set_same h _ _ _

theorem State.chan_modChan_ne (k : Nat) (f : Chan → Chan) (h : f (s.chan k) ≠ {}) : (s.modChan k f).chan k = f (s.chan k) :=
  Map.at_set_ne _ _ _ h

theorem State.thread_modThread_other {k j : Nat} (f : Thread → Thread) (h : j ≠ k) : (s.modThread k f).thread j = s.thread j :=
  Map.at_set_other _ _ _ _ h

theorem State.thread_modThread_same (k : Nat) (f : Thread → Thread) (h : Map.rising s.tha.threads = true) :
    (s.modThread k f).thread k = f (s.thread k) := Map.at_set_same h _ _ _

theorem State.thread_modThread_ne (k : Nat) (f : Thread → Thread) (h : f (s.thread k) ≠ {}) : (s.modThread k f).thread k = f (s.thread k) :=
  Map.at_set_ne _ _ _ h

theorem State.cluster_modCluster_other {k j : Nat} (f : Cluster → Cluster) (h : j ≠ k) : (s.modCluster k f).cluster j = s.cluster j :=
  Map.at_set_other _ _ _ _ h

theorem State.cluster_modCluster_same (k : Nat) (f : Cluster → Cluster) (h : Map.rising s.tha.clusters = true) :
    (s.modCluster k f).cluster k = f (s.cluster k) := Map.at_set_same h _ _ _

theorem State.cluster_modCluster_ne (k : Nat) (f : Cluster → Cluster) (h : f (s.cluster k) ≠ {}) : (s.modCluster k f).cluster k = f (s.cluster k) :=
  Map.at_set_ne _ _ _ h

theorem State.pipe_modPipe_other {k j : Nat} (f : Pipe → Pipe) (h : j ≠ k) : (s.modPipe k f).pipe j = s.pipe j :=
  Map.at_set_other _ _ _ _ h

theorem State.pipe_modPipe_same (k : Nat) (f : Pipe → Pipe) (h : Map.rising s.pcl = true) :
    (s.modPipe k f).pipe k = f (s.pipe k) := Map.at_set_same h _ _ _

theorem State.pipe_modPipe_ne (k : Nat) (f : Pipe → Pipe) (h : f (s.pipe k) ≠ {}) : (s.modPipe k f).pipe k = f (s.pipe k) :=
  Map.at_set_ne _ _ _ h

theorem State.mac_modMac_other {k j : Nat} (f : Mac → Mac) (h : j ≠ k) : (s.modMac k f).mac j = s.mac j :=
  Map.at_set_other _ _ _ _ h

theorem State.mac_modMac_same (k : Nat) (f : Mac → Mac) (h : Map.rising s.prt.macs = true) :
    (s.modMac k f).mac k = f (s.mac k) := Map.at_set_same h _ _ _

theorem State.mac_modMac_ne (k : Nat) (f : Mac → Mac) (h : f (s.mac k) ≠ {}) : (s.modMac k f).mac k = f (s.mac k) :=
  Map.at_set_ne _ _ _ h

theorem State.pool_modPool_other {k j : Nat} (f : Pool → Pool) (h : j ≠ k) : (s.modPool k f).pool j = s.pool j :=
  Map.at_set_other _ _ _ _ h

theorem State.pool_modPool_same (k : Nat) (f : Pool → Pool) (h : Map.rising s.mem.pools = true) :
    (s.modPool k f).pool k = f (s.pool k) := Map.at_set_same h _ _ _

theorem State.pool_modPool_ne (k : Nat) (f : Pool → Pool) (h : f (s.pool k) ≠ {}) : (s.modPool k f).pool k = f (s.pool k) :=
  Map.at_set_ne _ _ _ h

theorem State.stream_modStream_other {k j : Nat} (f : StreamSt → StreamSt) (h : j ≠ k) : (s.modStream k f).stream j = s.stream j :=
  Map.at_set_other _ _ _ _ h

theorem State.stream_modStream_same (k : Nat) (f : StreamSt → StreamSt) (h : Map.rising s.sql.streams = true) :
    (s.modStream k f).stream k = f (s.stream k) := Map.at_set_same h _ _ _

theorem State.stream_modStream_ne (k : Nat) (f : StreamSt → StreamSt) (h : f (s.stream k) ≠ {}) : (s.modStream k f).stream k = f (s.stream k) :=
  Map.at_set_ne _ _ _ h

theorem State.sa_modSa_other {k j : Nat} (f : Sa → Sa) (h : j ≠ k) : (s.modSa k f).sa j = s.sa j :=
  Map.at_set_other _ _ _ _ h

theorem State.sa_modSa_same (k : Nat) (f : Sa → Sa) (h : Map.rising s.rwc.sas = true) :
    (s.modSa k f).sa k = f (s.sa k) := Map.at_set_same h _ _ _

theorem State.sa_modSa_ne (k : Nat) (f : Sa → Sa) (h : f (s.sa k) ≠ {}) : (s.modSa k f).sa k = f (s.sa k) :=
  Map.at_set_ne _ _ _ h

theorem State.sess_modSess_other {k j : Nat} (f : Sess → Sess) (h : j ≠ k) : (s.modSess k f).sess j = s.sess j :=
  Map.at_set_other _ _ _ _ h

theorem State.sess_modSess_same (k : Nat) (f : Sess → Sess) (h : Map.rising s.trn.sess = true) :
    (s.modSess k f).sess k = f (s.sess k) := Map.at_set_same h _ _ _

theorem State.sess_modSess_ne (k : Nat) (f : Sess → Sess) (h : f (s.sess k) ≠ {}) : (s.modSess k f).sess k = f (s.sess k) :=
  Map.at_set_ne _ _ _ h

theorem State.service_modService_other {k j : Nat} (f : Service → Service) (h : j ≠ k) : (s.modService k f).service j = s.service j :=
  Map.at_set_other _ _ _ _ h

theorem State.service_modService_same (k : Nat) (f : Service → Service) (h : Map.rising s.field.services = true) :
    (s.modService k f).service k = f (s.service k) := Map.at_set_same h _ _ _

theorem State.service_modService_ne (k : Nat) (f : Service → Service) (h : f (s.service k) ≠ {}) : (s.modService k f).service k = f (s.service k) :=
  Map.at_set_ne _ _ _ h

theorem State.core_setCore (c : CoreId) (x : TimeCore) : (s.setCore c x).core c = x := by cases c <;> rfl

theorem State.core_setCore_other (c : CoreId) (x : TimeCore) : (s.setCore c x).core c.other = s.core c.other := by
  cases c <;> rfl

theorem State.rep_setRep_other {k j : Nat} (x : Replica) (h : j ≠ k) : (s.setRep k x).rep j = s.rep j :=
  Map.at_set_other _ _ _ _ h

theorem State.rep_setRep_same (k : Nat) (x : Replica) (h : Map.rising s.tim.reps = true) : (s.setRep k x).rep k = x :=
  Map.at_set_same h _ _ _

theorem State.rep_setRep_ne (k : Nat) (x : Replica) (h : x ≠ {}) : (s.setRep k x).rep k = x := Map.at_set_ne _ _ _ h

end Sys2Proof.Machine
end

