-- ==== Sys2Proof/Laws/Buffers.lean ====
section
/-! SUPPORT. Free handles: any handle that is counted can be taken, whichever the open choice names. -/

namespace Sys2Proof.Machine

theorem foldl_runs (l : List (Nat × Nat)) (n : Nat) :
    l.foldl (fun n r => n + r.2) n = n + runCount l := by
  induction l generalizing n with
  | nil => rfl
  | cons r t ih =>
    have h : runCount (r :: t) = r.2 + runCount t := by
      show t.foldl (fun n r => n + r.2) (0 + r.2) = _
      rw [ih]; omega
    rw [List.foldl_cons, ih, h]; omega

@[simp] theorem runCount_cons (r : Nat × Nat) (t : List (Nat × Nat)) : runCount (r :: t) = r.2 + runCount t := by
  rw [runCount, List.foldl_cons, foldl_runs]; omega

/-- A handle below the count of free handles is there to be taken. -/
theorem takeNth_some (l : List (Nat × Nat)) (n : Nat) (h : n < runCount l) : ∃ x c, takeNth l n = some (x, c) := by
  induction l generalizing n with
  | nil => exact absurd h (Nat.not_lt_zero n)
  | cons r t ih =>
    obtain ⟨a, k⟩ := r
    rw [runCount_cons] at h
    unfold takeNth
    split
    · exact ⟨_, _, rfl⟩
    · obtain ⟨x, c, e⟩ := ih (n - k) (by dsimp only at h; omega)
      rw [e]; exact ⟨_, _, rfl⟩

/-- R336: a cache that holds a handle takes no refill. -/
theorem State.fillCache_held (s : State) (n p : Nat) (h : 0 < runCount (s.pool p).cache) :
    State.fillCache n s p = s := by
  cases n with
  | zero => rfl
  | succ n =>
    unfold State.fillCache
    rw [decide_eq_false (Nat.ne_of_gt h)]
    rfl

/-- A pool whose cache holds a handle grants one, whichever it is. -/
theorem State.grant_some (s : State) (r i : Nat) (hbm : Bool) (size : Nat) (occ : Option (Nat × Nat))
    (h : 0 < runCount (s.pool ((if hbm then 4 else 0) + size)).cache) :
    ∃ x t, s.grant r i hbm size occ = (some x, t) := by
  unfold State.grant
  dsimp only
  rw [s.fillCache_held _ _ h]
  obtain ⟨x, c, e⟩ := takeNth_some (s.pool ((if hbm then 4 else 0) + size)).cache
    (s.freeNext % max 1 (runCount (s.pool ((if hbm then 4 else 0) + size)).cache))
    (by rw [Nat.max_eq_right h]; exact Nat.mod_lt _ h)
  rw [e]
  exact ⟨_, _, rfl⟩

/-- R334: a request with quota left, that nothing waits before, is granted. -/
theorem State.alloc_granted (s : State) (r i : Nat) (hbm : Bool) (size : Nat) (occ : Option (Nat × Nat))
    (w : (reqWaits r && s.mem.waits.any (fun w => w.requester = r)) = false) (q : s.quotaOk r i hbm size = true)
    (e : s.poolEn ((if hbm then 4 else 0) + size) = true)
    (h : 0 < runCount (s.pool ((if hbm then 4 else 0) + size)).cache) :
    ∃ x t, s.alloc r i hbm size occ = (.granted x, t) ∧ s.grant r i hbm size occ = (some x, t) := by
  obtain ⟨x, t, g⟩ := s.grant_some r i hbm size occ h
  have p : s.poolHas ((if hbm then 4 else 0) + size) = true := by
    unfold State.poolHas
    rw [e, Bool.true_and, decide_eq_true_eq]; omega
  refine ⟨x, t, ?_, g⟩
  unfold State.alloc
  dsimp only
  rw [w, q, p, g]
  rfl

/-- R334: a request by length that its size grants is granted, and the bytes that fill the buffer are written. -/
theorem State.allocLen_granted (s t : State) (r i : Nat) (hbm : Bool) (n c : Nat) (occ : Option (Nat × Nat)) (x : Word)
    (z : n ≠ 0) (e : sizeFor n = some c) (g : s.alloc r i hbm c occ = (.granted x, t)) :
    s.allocLen r i hbm n occ = (.granted x, t.fillBufs [x] n) := by
  unfold State.allocLen
  rw [if_neg z, e]
  dsimp only
  rw [g]

end Sys2Proof.Machine
end

