-- ==== Sys2Proof/Tests/Slice0.lean ====
section
/-! SUPPORT. The model's own tests: ill-formed commands, single commands on small states, and for every statement with
hypotheses a concrete state and operands that meet them, clause by clause. -/

set_option Elab.async false

namespace Sys2Proof.Tests

open Sys2Proof.Machine

/-- A machine that runs: powered, its firmware running, the field side up, the link up and the function open. -/
def up : State := { State.reset with
  clock := 400000000000
  pwr := { por := true, domains := BitVec.allOnes 96, step := 8, fw := true }
  hep := { up := true, mse := true, bme := true, crs := false }
  gloveH := { peerUp := true }, gloveF := { peerUp := true }
  field := { up := true, mainSt := 2, life := 2 } }

/-! Ill-formed commands, one for each check of `Instr.wf` (R27, R308), and commands at the edge that are well-formed. -/

theorem test_address_beyond_bar0 : (Instr.registerWrite 0 ⟨.pcie 0 none, true, .good⟩ 0x4000000 [1]).wf = false := by decide
theorem test_last_byte_of_bar0 : (Instr.registerWrite 0 ⟨.pcie 0 none, true, .good⟩ 0x3FFFFFF [1]).wf = true := by decide
theorem test_empty_write : (Instr.registerWrite 0 ⟨.pcie 0 none, true, .good⟩ 0 []).wf = false := by decide
theorem test_empty_read : (Instr.rcRegisterRead ⟨.pcie 0 none, true, .good⟩ 0 0).wf = false := by decide
theorem test_short_admin_entry : (Instr.adminNop 0 (List.replicate 63 0)).wf = false := by decide
theorem test_full_admin_entry : (Instr.adminNop 0 (List.replicate 64 0)).wf = true := by decide
theorem test_empty_frame : (Instr.macReceiveFrame 0 0 [] ⟨⟨0, 0, 0⟩, .good⟩).wf = false := by decide
theorem test_offset_beyond_page : (Instr.instancePageAccess 0 4096 (.read 4)).wf = false := by decide
theorem test_zero_width_crossing : (Instr.islandCrossingTimeout 0 (.pcie 0 none) 0 ⟨0, false⟩).wf = false := by decide

/-- Published check values: SHA-256 of nothing (FIPS 180-4), CRC-32C and CRC-32 of "123456789". -/
theorem test_sha256_empty : (sha256 []).take 4 = [0xE3, 0xB0, 0xC4, 0x42] := by decide +kernel
theorem test_crc32c : crc32c [0x31, 0x32, 0x33, 0x34, 0x35, 0x36, 0x37, 0x38, 0x39] = 0xE3069283 := by decide +kernel
theorem test_crc32 : crc32 [0x31, 0x32, 0x33, 0x34, 0x35, 0x36, 0x37, 0x38, 0x39] = 0xCBF43926 := by decide +kernel

/-- FIPS 197, appendix C: the AES-256 example; FIPS 180-4: SHA-384 of nothing; the GCM paper's test case 14. -/
theorem test_aes256 : aesBlock (aesKeys ((List.range 32).map (BitVec.ofNat 8 ·)))
    ((List.range 16).map (fun i => BitVec.ofNat 8 (17 * i))) =
    [0x8E, 0xA2, 0xB7, 0xCA, 0x51, 0x67, 0x45, 0xBF, 0xEA, 0xFC, 0x49, 0x90, 0x4B, 0x49, 0x60, 0x89] := by decide +kernel
theorem test_sha384_empty : (sha384 []).take 4 = [0x38, 0xB0, 0x60, 0xA7] := by decide +kernel
theorem test_gcm_zero : gcmSeal (List.replicate 32 0) (List.replicate 12 0) [] (List.replicate 16 0) =
    ([0xCE, 0xA7, 0x40, 0x3D, 0x4D, 0x60, 0x6B, 0x6E, 0x07, 0x4E, 0xC5, 0xD3, 0xBA, 0xF3, 0x9D, 0x18],
     [0xD0, 0xD1, 0xC8, 0xA7, 0x99, 0x99, 0x6B, 0xF0, 0x26, 0x5B, 0x98, 0xB5, 0xD4, 0x8A, 0xB9, 0x19]) := by decide +kernel
/-- P-384: the double of the base point, as the published point multiplication examples give it. -/
theorem test_p384_double : (ecAdd (some (ecGx, ecGy)) (some (ecGx, ecGy))).map (·.1) =
    some 0x08D999057BA3D2D969260045C55B97F089025959A6F434D651D207D19FB96E9E4FE0E86EBE0E64F85B96A9C75295DF61 := by decide +kernel

/-- R28: an offset where no register lies reads as zero and raises UNMAP. -/
theorem test_unmapped_read : (State.reset.regRead 0x0F00000 4).1 = [0, 0, 0, 0] ∧
    ((State.reset.regRead 0x0F00000 4).2.getReg (GLB + 0x10)).getLsbD 6 = true := by decide +kernel

/-- No word spells a command: the table gives its rows no bits. -/
theorem test_no_bits : decodeTableWord 32 0 = none := rfl

/-- Services, threads: slot 0 holds cluster 0, its descriptor grants everything, and thread 5 runs. -/
def thr : State := { up with
  tha := { threads := [(5, { st := .running })], clusters := [(0, { slot := some 0 })] }
  field := { up.field with services := [(0, { state := 2, image := List.replicate 1024 0xFF })] } }

/-- A stroke on its way to every replica. -/
def stroke : Stroke :=
  { time := 0, st := .locked, term := some 1, takeover := false, step := false, sentAt := 0, due := BitVec.allOnes 40, parity := false }

/-- The endpoint checks ECRC. -/
def ecrc : State := { up with hep := { up.hep with cfg := [(0x118, 0x100)] } }

/-- The row of the register table at an address. -/
def rowAt (a : Nat) : RegRow × Nat × Nat × Nat :=
  match findReg a with
  | some r => r
  | none => ({ base := 0, acc := .ro, loc := .one 0 0 }, 0, 0, 0)

/-- An ACTIVE instance 3 with queue 0 (a transmit queue), queue 1 (a completion queue) and queue 2 (a receive queue). -/
def inst : State := { up with qim := {
  inst := [(3, { st := .active, gen := 1, qbase := 0, qcount := 4, vbase := 0, vcount := 2 })]
  queue := [(0, { kind := 1, st := .enabled, owner := some 3, local_ := 0, cq := 1 }),
            (1, { kind := 7, st := .enabled, owner := some 3, local_ := 1, log2 := 4 }),
            (2, { kind := 3, st := .enabled, owner := some 3, local_ := 2, cq := 1 })] } }

/-- A message of source 7 on stream 0. -/
def msg : Msg := { stream := 0, src := 7, tag := {}, data := [1] }

/-- MAC 0 in mode 1, its link up and enabled. -/
def mac : State := { up.setReg (macReg 0 0) 0x80000000 with
  prt := { mode0 := 1, macs := [(0, { link := true })] }, tim := { reps := [(3, { run := true })] } }

/-- MAC 0, with a buffer for a frame. -/
def frm : State := { (mac.setReg (bpmPoolCfg 1) 0x80000008).setReg (bpmReqSram 16) 0x1000 with
  mem := { pools := [(1, { cache := [(0, 1)] })] } }

/-- An item without metadata. -/
def item : Item := { frame := List.replicate 64 0 }

/-- The TPL and SA regions are enabled. -/
def ciph : State := (up.setReg rwcTplBase 0x80000000).setReg rwcSaBase 0x80000000

/-- The transport engine: its regions are enabled; instance 3 may hold a session. -/
def trn : State := { ((up.setReg trnCtxBase 0x80000000).setReg trnIdxBase 0x80000000).setReg (sessQuota 3) 1 with
  qim := { inst := [(3, { st := .active, qcount := 4 })] } }

/-- A session of a kind in ESTABLISHED. -/
def sess (kind : Nat) : Sess := { ctx := BitVec.ofNat 2048 (2 ^ 29 + kind * 2 ^ 26) }

/-- A packet of an RC session: IPv4, UDP, BTH, ICRC. -/
def rpkt (op : Byte) (body : List Byte) : List Byte :=
  let f := List.replicate 12 0 ++ [8, 0, 0x45, 0, 0, BitVec.ofNat 8 (44 + body.length), 0, 0, 0, 0, 0, 17, 0, 0] ++
    List.replicate 16 0 ++ [op] ++ List.replicate 11 0 ++ body
  f ++ icrcOf f 14 34 42 (54 + body.length)

/-- A TCP segment of one byte. -/
def seg : Item := { frame := List.replicate 12 0 ++ [8, 0, 0x45, 0, 0, 41, 0, 0, 0, 0, 0, 6, 0, 0] ++ List.replicate 20 0 ++
  [0x50] ++ List.replicate 7 0 ++ [7] }

/-- The transport engine with an ACTIVE session 0 and an item for it. -/
def trnItem (kind : Nat) (i : Item) : State := { trn with trn := { input := [i], sess := [(0, sess kind)] } }

/-- A C2HData PDU of four bytes, and the placement entry of its tag. -/
def c2h : Pdu := { session := 0, seq := 0, data := [7, 0, 24, 24, 28] ++ List.replicate 11 0 ++ [4, 0, 0, 0, 0, 0, 0, 0, 1, 2, 3, 4]
                   tag := {}, mac := none, stream := 0, lclass := 0, final := true }
def placeEnt : List Byte := [0, 0, 0x80] ++ List.replicate 13 0 ++ [4] ++ List.replicate 15 0

/-- A work queue 0 of kind 4 with one entry in its ring, and a completion queue 1. -/
def work : State := { up with qim := { queue := [(0, { kind := 4, st := .enabled, cq := 1, tail := 2 }), (1, { kind := 7, st := .enabled })] } }

/-- A head slot: one slot of phase 1, with an opcode. -/
def slot (op : Nat) : List Byte := [0x81, BitVec.ofNat 8 op] ++ List.replicate 14 0

/-- A head slot of two slots. -/
def head2 : List Byte := [0x82, 1] ++ List.replicate 14 0

/-- A transmit queue 0 with an entry of 16 bytes within itself, and a buffer for it. -/
def txHead : List Byte := [0x82, 2] ++ List.replicate 6 0 ++ 16 :: List.replicate 7 0
def txw : State := { (up.setReg (bpmPoolCfg 0) 0x80000008).setReg (bpmReqSram 34) 0x1000 with
  mem := { pools := [(0, { cache := [(0, 1)] })] }
  qim := { queue := [(0, { kind := 1, st := .enabled, cq := 1, tail := 4, fetched := [txHead, slot 0] }), (1, { kind := 7, st := .enabled })] } }
def txB : List Byte := txHead ++ slot 0
def txX : Queue := (txw.advance 0).settleSends.queue 0
def txV : State := ((txw.advance 0).settleSends.place 0).2
def txR : State := (txV.entryRead txX txB .error).2
def txZ : State := (txR.passHead 0 2 true).2

/-- A delivery for receive queue 2. -/
def deliv : Delivery := { queue := 2, data := [7], stamp := none, detail := 0, flags := 0 }

/-- A receive entry that waits, of a buffer of 256 bytes. -/
def rxEnt : Entry := { no := 0, cb := true, op := 1, utag := 0, slots := slicePad (List.replicate 17 0 ++ [1]) 0 32, st := .waiting }

/-- Receive queue 2 with a buffer, and a delivery that comes next. -/
def rxq : State := { up with qim := { deliv := [deliv]
                                      queue := [(1, { kind := 7, st := .enabled }), (2, { kind := 3, st := .enabled, cq := 1, ents := [rxEnt] })] } }

/-- Receive queue 2 with a buffer, and a backlog. -/
def backq : State := { up with qim := {
  queue := [(1, { kind := 7, st := .enabled }), (2, { kind := 3, st := .enabled, cq := 1, ents := [rxEnt], back := [deliv] })] } }

/-- A channel of the manager whose program is one instruction. -/
def chan (op : Nat) (rest : List Byte) : Chan :=
  { st := .running, prog := List.replicate 32 0 ++ slicePad (BitVec.ofNat 8 op :: rest) 0 32 }

/-- Pool 1 of packet SRAM is enabled and its cache holds a handle; requester 0 has a quota. -/
def pool : State := { (up.setReg (bpmPoolCfg 1) 0x80000008).setReg (bpmReqSram 0) 0x1000 with
  mem := { pools := [(1, { ring := [(1, 4)], cache := [(0, 1)] })] } }

/-- `thr` with registers x1 and x2 of thread 5. -/
def thrX (a b : BitVec 64) : State := { thr with tha := { thr.tha with threads := [(5, { st := .running, regs := [(1, a), (2, b)] })] } }

/-- Thread 5 is about to load a word of BAR0. -/
def lwBar : State := { (thrX 0x200000000 0).modThread 5 (fun x => { x with pc := 0x100 }) with
  mem := ((thrX 0 0).writeBytes (localBase 0 + 0x100) (leBytes 4 0x0000A183)).mem }

/-- `thrX` with thread 6 beside thread 5. -/
def thr6 (a b : BitVec 64) (x : Thread) : State :=
  { thr with tha := { thr.tha with threads := [(5, { st := .running, regs := [(1, a), (2, b)] }), (6, x)] } }

/-- `thrX` with channel 3 of cluster 0. -/
def thrC (a b : BitVec 64) (c : Channel) : State :=
  { thrX a b with tha := { (thrX a b).tha with clusters := [(0, { slot := some 0, chans := [(3, c)] })] } }

/-- A message thread 5 holds with handle 9. -/
def held : ChMsg := { st := .reserved, slots := 1, body := List.replicate 16 0, th := 5, handle := 9 }

/-- The supervisor of cluster 0 runs. -/
def sup (l : Map Thread) : State :=
  { thr with tha := { thr.tha with threads := (0, { st := .running }) :: l } }

/-- A frame of 14 bytes to be sent. -/
def foutMsg : ChMsg := { held with st := .committed, body := [0, 0, 14, 0] ++ List.replicate 26 0 }

/-- Cluster 2 holds a channel of frame-out with it, and pool 0 a buffer. -/
def fout : State := ({ up with mem := { pools := [(0, { cache := [(0, 1)] })] }
                               tha := { clusters := [(2, { slot := some 0, chans := [(3, { kind := 1, msgs := [foutMsg] })] })] } }.setReg
    (bpmPoolCfg 0) 0x80000008).setReg (bpmReqSram 35) 0x1000

/-- A debugged thread 5: debug open, the thread number and ARG set. -/
def dbg (st : ThSt) (arg : BitVec 64) : State :=
  (({ thr with field := { thr.field with debugOpen := true }
               tha := { thr.tha with threads := [(5, { st := st })]
                                     clusters := [(0, { slot := some 0, breaks := [(0, 4)], chans := [(3, { scope := 1, msgs := [held] })] })] } } :
    State).setReg (THA + 0x1004) 5).setReg64 thaDbgArg arg

/-- A message of the glove waits at a side. -/
def inbox (d : Side) (typ : Byte) (p : List Byte) : State :=
  up.setGlove d { peerUp := true, inbox := [{ typ := typ, seq := 1, payload := p }] }

/-- A header to node 2 from node 1, outside a session. -/
def hdr : BusHdr := { dst := 2, src := 1, tid := 0, session := 0, counter := 0, tag := [] }

/-- A read that the main die has yet to answer. -/
def asked : BusReq := { kind := .read, hdr := hdr, lvl := 0, data := [0x20, 0x80, 2, 0, 0, 0, 0, 0], flashOk := true }

/-- The node has address 2. -/
def node : State := { up with field := { up.field with node := 2 } }

/-- A login at level 1. -/
def lg : Login := { sid := 5, lvl := 1, nc := List.replicate 16 1, nd := List.replicate 16 2, node := 1, key := 0, at_ := 400000000000 }

/-- An image of the services, unsigned but for its form. -/
def svcImage : List Byte :=
  beBytes 4 0x43494D01 ++ [0x10, 1] ++ beBytes 2 8 ++ List.replicate 216 0

/-- Signatures are verified by constants without a value: an image of the right form is accepted where they hold. -/
theorem svcImage_accepted (s : State) (h : imgSigned svcImage s.ownerKeys.1 s.ownerKeys.2 = true) (l : s.field.life = 2)
    (c : s.counterOf 8 = 0) : s.imageResult svcImage 0x10 = 0 := by
  have a : imgArb svcImage = 8 := by decide +kernel
  have n : imgSvn svcImage = 0 := by decide +kernel
  have f : (imgFormat svcImage ≠ 0x43494D01 || imgTarget svcImage ≠ 0x10 || decide (1 < imgSigner svcImage) ||
      decide (63 < imgArb svcImage) || decide (255 < imgSvn svcImage) || imgLength svcImage ≠ svcImage.length) = false := by
    decide +kernel
  have g : (imgSigner svcImage ≠ 1 || decide (imgArb svcImage < 8)) = false := by decide +kernel
  simp [State.imageResult, h, l, a, n, c] at f g ⊢
  simp [f, g]
theorem length_leBytes (n v : Nat) : (leBytes n v).length = n := by
  induction n generalizing v with
  | zero => rfl
  | succ n ih => simp [leBytes, ih]
theorem length_sha256 (m : List Byte) : (sha256 m).length = 32 := by simp [sha256, beBytes, length_leBytes]
theorem length_loginProofOf (k : List Byte) (s : String) (l : Login) (d c : Byte) : (loginProofOf k s l d c).length = 32 :=
  length_sha256 _

/-- A login is open. -/
def loggedIn : State := { node with field := { node.field with logins := [lg] } }

/-- A session is open. -/
def inSession : State := { node with field := { node.field with
  sessions := [{ sid := 5, lvl := 1, ks := [], rx := 0, tx := 0, node := 1, at_ := 400000000000 }] } }

/-- A frame of it with a payload. -/
def inHdr (typ : Nat) (p : List Byte) : BusHdr :=
  { dst := 2, src := 1, tid := 0, session := 5, counter := 1, tag := busTag [] (busHeader typ 2 1 0 p.length 5 1) p }

/-- A firmware image of the right form for a target. -/
def fwImage (t : Nat) : List Byte := beBytes 4 0x43494D01 ++ beBytes 1 t ++ [0] ++ beBytes 2 t ++ List.replicate 216 0

/-- An image's signatures are verified by constants without a value: one of the right form is accepted where they hold. -/
theorem fwImage_accepted (s : State) (t : Nat) (e : t = 0 ∨ t = 1)
    (h : imgSigned (fwImage t) Config.someoxEcdsa Config.someoxHss = true) (c : s.counterOf t = 0) :
    s.imageResult (fwImage t) t = 0 := by
  have a : imgArb (fwImage t) = t := by obtain rfl | rfl := e <;> decide +kernel
  have n : imgSvn (fwImage t) = 0 := by obtain rfl | rfl := e <;> decide +kernel
  have g : imgSigner (fwImage t) = 0 := by obtain rfl | rfl := e <;> decide +kernel
  have f : (imgFormat (fwImage t) ≠ 0x43494D01 || imgTarget (fwImage t) ≠ t || decide (1 < imgSigner (fwImage t)) ||
      decide (63 < imgArb (fwImage t)) || decide (255 < imgSvn (fwImage t)) ||
      imgLength (fwImage t) ≠ (fwImage t).length) = false := by obtain rfl | rfl := e <;> decide +kernel
  obtain rfl | rfl := e <;> (simp [State.imageResult, h, a, n, c, g] at f ⊢; simp [f])

/-- A transfer of an image is complete. -/
def xfer (t : Nat) (f : List Byte) : State :=
  { inSession with field := { inSession.field with transfer := some { target := BitVec.ofNat 8 t, length := f.length, data := f } } }

/-- An owner package of the right form. -/
def package : List Byte := beBytes 4 0x4F574E01 ++ ecBytes (some (ecGx, ecGy)) ++ ecBytes (some (ecGx, ecGy)) ++
  List.replicate 76 0 ++ beBytes 4 10000 ++ List.replicate 32 0

theorem pair_eta {α β : Type} (p : α × β) : p = (p.1, p.2) := rfl

/-- A field side in a lifecycle state, the main die off. -/
def fieldIn (life : Nat) : State := { up with field := { up.field with life := life, mainSt := 0 } }

theorem svcImage_signed (s : State) (k : List Byte × List Byte) (e : s.ownerKeys = k) (h : imgSigned svcImage k.1 k.2 = true)
    (l : s.field.life = 2) (c : s.counterOf 8 = 0) : s.imageResult svcImage 0x10 = 0 :=
  svcImage_accepted s (e ▸ h) l c

/-- The state in which an admin command runs. -/
def taken (s : State) (e : List Byte) : State :=
  let w := (s.unitRead none (s.aqBase + 16 * (s.qim.aqHead.toNat % 2 ^ s.regBits qimAqCfg 4 0)) 64 (.ok e)).2
  { w with qim := { w.qim with aqHead := s.qim.aqHead + 4, aqBusy := true } }.stat statEntries

theorem taken_admin (s : State) (e : List Byte)
    (h : e.length = 64 ∧ s.aqReady = true ∧ (e.getD 0 0).toNat / 128 = phaseOf s.qim.aqHead (s.regBits qimAqCfg 4 0) ∧
      (e.getD 0 0).toNat % 16 = 4 ∧
      (s.unitRead none (s.aqBase + 16 * (s.qim.aqHead.toNat % 2 ^ s.regBits qimAqCfg 4 0)) 64 (.ok e)).1 = some (some e)) :
    s.takesAdmin e (taken s e) :=
  ⟨h.1, h.2.1, h.2.2.1, h.2.2.2.1, _, Prod.ext h.2.2.2.2 rfl, rfl⟩

/-- One admin entry waits. -/
def adm (s : State) : State := (s.setReg qimAqCfg 0x80000004).setReg qimAqTail 4

/-- An admin entry: opcode, instance, local queue and its bytes from 12 on. -/
def ent (op i q : Nat) (l : List Byte) : List Byte :=
  slicePad ([0x84, BitVec.ofNat 8 op, 0, 0, 9, 0, 0, 0] ++ leBytes 2 i ++ leBytes 2 q ++ l) 0 64

/-- Ranges of an instance: QBASE, QCOUNT, VBASE, VCOUNT. -/
def ranges (q c v n : Nat) : List Byte :=
  leBytes 4 q ++ List.replicate 8 0 ++ leBytes 2 c ++ [0, 0] ++ leBytes 4 v ++ leBytes 2 n

/-- `inst` with its queues in other states. -/
def instQ (a b : QSt) (more : Inst → Inst) : State := { inst with qim := { inst.qim with
  inst := [(3, more { st := .active, gen := 1, qbase := 0, qcount := 4, vbase := 0, vcount := 2 })]
  queue := [(0, { kind := 1, st := a, owner := some 3, local_ := 0, cq := 1 }),
            (1, { kind := 7, st := b, owner := some 3, local_ := 1, log2 := 4 })] } }

/-- The statistics that taking an admin entry advances. -/
def admStats : List Nat := [statTxTlp, statRxTlp, statPrograms, statHostRd, statEntries].flatMap (fun a => [a, a + 4])

/-- Two states agree on every register but those statistics. -/
def SameRegs (s t : State) : Prop := ∀ a, a ∉ admStats → t.getReg a = s.getReg a

theorem statN_sameRegs (s : State) (r n : Nat) (h : r ∈ admStats ∧ r + 4 ∈ admStats) : SameRegs s (s.statN r n) := by
  intro a g
  unfold State.statN State.setReg64
  rw [State.getReg_setReg_other _ _ (by rintro rfl; exact g h.2), State.getReg_setReg_other _ _ (by rintro rfl; exact g h.1)]

theorem SameRegs.trans {s t u : State} (h : SameRegs s t) (k : SameRegs t u) : SameRegs s u :=
  fun a g => (k a g).trans (h a g)

theorem sendRead_sameRegs (p : Option (BitVec 20)) (f : Nat) (s : State) (x : Bool × Nat × Nat) (t : State)
    (h : State.sendRead f s p x = some t) : SameRegs s t := by
  induction f generalizing s x with
  | zero => cases h; exact fun _ _ => rfl
  | succ f ih =>
    obtain ⟨b, a, n⟩ := x
    unfold State.sendRead at h
    dsimp only at h
    split at h
    · cases h
    · rename_i u e
      have k : SameRegs s u := by
        unfold State.briefRead at e
        obtain ⟨n, -, rfl⟩ := Option.map_eq_some_iff.1 e
        exact statN_sameRegs (s.drawn.emit _) statTxTlp 1 (by decide)
      split at h
      · cases h; exact k
      · exact k.trans (ih u _ h)

theorem sendReads_sameRegs (s : State) (p : Option (BitVec 20)) (l : List (Bool × Nat × Nat)) (t : State)
    (h : s.sendReads p l = some t) : SameRegs s t := by
  induction l generalizing s with
  | nil => cases h; exact fun _ _ => rfl
  | cons x l ih =>
    unfold State.sendReads at h
    split at h
    · rename_i u e; exact (sendRead_sameRegs p _ _ x u e).trans (ih _ h)
    · cases h

theorem rxCpl_sameRegs (s : State) (a n : Nat) : SameRegs s (s.rxCpl a n) := by
  unfold State.rxCpl State.countTlp
  dsimp only
  split <;> exact statN_sameRegs s statRxTlp _ (by decide)

theorem readFor_sameRegs (s : State) (x n : Nat) (e : List Byte) : SameRegs s (s.readFor none x n (.ok e)).2 := by
  unfold State.readFor
  split
  · exact fun _ _ => rfl
  · have e : s.xlate none x n 4096 = (.pieces [(false, x % 2 ^ 64, n)] [], s) := rfl
    rw [e]
    dsimp only
    split
    · exact fun _ _ => rfl
    · rename_i u k; exact (sendReads_sameRegs _ _ _ _ k).trans (rxCpl_sameRegs u _ _)

theorem devChan_sameRegs (s : State) (p n : Nat) : SameRegs s (s.devChan p n false) := by
  unfold State.devChan State.stat
  exact (statN_sameRegs _ statPrograms 1 (by decide)).trans (statN_sameRegs _ statHostRd n (by decide))

theorem unitRead_sameRegs (s : State) (x n : Nat) (e : List Byte) : SameRegs s (s.unitRead none x n (.ok e)).2 := by
  have h := readFor_sameRegs s x n e
  unfold State.unitRead
  split
  · rename_i k; rw [k] at h; exact h.trans (devChan_sameRegs _ 6 n)
  · exact h

/-- Taking an admin entry writes no register but these statistics. -/
theorem taken_getReg (s : State) (e : List Byte) (a : Nat) (h : a ∉ admStats) : (taken s e).getReg a = s.getReg a := by
  unfold taken State.stat
  exact (statN_sameRegs _ statEntries 1 (by decide) a h).trans (unitRead_sameRegs s _ _ e a h)

theorem taken_regBits (s : State) (e : List Byte) (a hi lo : Nat) (h : a ∉ admStats) :
    (taken s e).regBits a hi lo = s.regBits a hi lo := by
  unfold State.regBits State.regNat; rw [taken_getReg _ _ _ h]

theorem unitRead_parts (s : State) (x n : Nat) (e : List Byte) : let w := (s.unitRead none x n (.ok e)).2
    w.pwr = s.pwr ∧ w.mem = s.mem ∧ w.trn = s.trn ∧ w.qim = s.qim := by
  have h := State.readFor_reports (s := s) none x n (.ok e)
  unfold State.unitRead
  split
  · rename_i k; rw [k] at h; dsimp only at h ⊢; rw [h]; exact ⟨rfl, rfl, rfl, rfl⟩
  · dsimp only; rw [h]; exact ⟨rfl, rfl, rfl, rfl⟩

theorem taken_parts (s : State) (e : List Byte) : (taken s e).pwr = s.pwr ∧ (taken s e).mem = s.mem ∧
    (taken s e).trn = s.trn ∧ (taken s e).qim.inst = s.qim.inst :=
  have h := unitRead_parts s (s.aqBase + 16 * (s.qim.aqHead.toNat % 2 ^ s.regBits qimAqCfg 4 0)) 64 e
  ⟨h.1, h.2.1, h.2.2.1, show (State.unitRead s none _ 64 _).2.qim.inst = _ from congrArg Qim.inst h.2.2.2⟩

theorem taken_instOverlaps (s : State) (e : List Byte) (i : Nat) (x : Inst) :
    (taken s e).instOverlaps i x = s.instOverlaps i x := by
  unfold State.instOverlaps
  rw [(taken_parts s e).2.2.2, taken_regBits _ _ _ _ _ (by decide), taken_regBits _ _ _ _ _ (by decide)]

theorem taken_sessRead (s : State) (e : List Byte) (n : Nat) (c : Bool) (o : s.trnOn = true) (k : n < s.sessCap) :
    ((taken s e).sessRead n c).1 = 0 := by
  obtain ⟨p, m, t, -⟩ := taken_parts s e
  have a : (taken s e).trnOn = true := by
    unfold State.trnOn State.powered at o ⊢
    rw [p, t, taken_getReg _ _ _ (by decide), taken_getReg _ _ _ (by decide)]
    exact o
  have b : ¬ (taken s e).sessCap ≤ n := by
    unfold State.sessCap at k ⊢
    rw [m]; omega
  unfold State.sessRead
  rw [a, if_neg (by decide), if_neg b]

theorem modSess_hep (s : State) (n : Nat) (f : Sess → Sess) : (s.modSess n f).hep = s.hep := rfl

theorem healSess_hep (s : State) (n : Nat) : (s.healSess n).hep = s.hep := by
  unfold State.healSess
  dsimp only
  split
  · exact modSess_hep s n _
  · rfl

/-- A read of a session's context leaves the endpoint as it was. -/
theorem sessRead_hep (s : State) (n : Nat) (c : Bool) : (s.sessRead n c).2.2.hep = s.hep := by
  have key : ∀ (b : Bool) f, (if b = true then (s.healSess n).modSess n f else s.healSess n).hep = s.hep := by
    intro b f
    cases b
    · exact healSess_hep s n
    · exact (modSess_hep _ n f).trans (healSess_hep s n)
  unfold State.sessRead
  split
  · rfl
  split
  · rfl
  exact key _ _

theorem unitPut_bme (s : State) (a : Nat) (d : List Byte) (h : s.bmeOn = true) : (s.unitPut 6 none a d).1 = some true := by
  unfold State.unitPut State.putOrdered
  rw [h]; rfl

theorem unitPut_read (s : State) (n : Nat) (c : Bool) (a : Nat) (d : List Byte)
    (h : (s.hep.bme && !s.hep.d3 && s.hep.flrAt.isNone && s.hep.up) = true) :
    ((s.sessRead n c).2.2.unitPut 6 none a d).1 = some true :=
  unitPut_bme _ _ _ (by unfold State.bmeOn; rw [sessRead_hep]; exact h)

/-- A session of an instance. -/
def trnOf (i : Nat) : State := { trn with trn := { sess := [(0, { ctx := BitVec.ofNat 2048 (i + 2 ^ 29) })] } }

theorem unmapped_last : unmapped 0x0FFFFFC := ⟨by decide +kernel, by decide +kernel, by decide +kernel⟩
theorem unmapped_gap : unmapped 0x0F00000 := ⟨by decide +kernel, by decide +kernel, by decide +kernel⟩
theorem unmapped_gap4 : unmapped 0x0F00004 := ⟨by decide +kernel, by decide +kernel, by decide +kernel⟩

/-- `ciph` with a key in SA 0 and an SA to be written. -/
def ciph2 : State := { ciph.setReg (rwcSaData 0) 0x80000000 with rwc := { ciph.rwc with sas := [(0, { words := BitVec.ofNat 512 (2 ^ 21) })] } }

/-- `trnOf` without an instance: a live session 0. -/
def trnLive : State := { trn with trn := { sess := [(0, { ctx := BitVec.ofNat 2048 (2 ^ 29) })] } }

theorem witness_ReferenceCommandsComplete :
    (∃ (s : State) (dt : Nat) (c : CoreId) (p : BitVec 64),
    let u := s.advance dt
    let now := u.coreTime c
    (u.core c).st ≠ .off ∧ (u.core c).ppsLast = some p ∧ ppsSpacing (now - p.toNat) = true ∧ u.measValid c (BitVec.ofNat 64 now) = true ∧ (u.refs c).1 = 1 ∧ (u.core c).ref = 1 ∧ (u.core c).st ≠ .slaved) ∧
    (∃ (s : State) (dt : Nat) (c : CoreId),
    let u := s.advance dt
    (u.core c).st ≠ .off ∧ (match (u.core c).ppsLast with | some p => ppsSpacing (u.coreTime c - p.toNat) | none => false) = false) ∧
    (∃ (s : State) (dt : Nat) (c : CoreId),
    let u := s.advance dt
    (u.core c).ppsOk = true ∧ u.due (u.core c).ppsLastAt (secs 1 + usec 1) = true) ∧
    (∃ (s : State) (dt : Nat) (c : CoreId),
    let u := s.advance dt
    (u.core c).ptpOk = true ∧ u.due (u.core c).ptpLastAt (secs 2) = true) ∧
    (∃ (s : State) (dt : Nat) (c : CoreId),
    let u := s.advance dt
    (u.core c).st = .locked ∧ u.due (u.core c).validAt (secs 2) = true) ∧
    (∃ (s : State) (dt : Nat) (c : CoreId) (x : Nat),
    let u := s.advance dt
    (u.core c).primSince = some x ∧ (u.core c).present (u.refs c).1 = true ∧ (u.core c).ref ≠ (u.refs c).1 ∧ (u.core c).st ≠ .slaved ∧ u.due x (secs (u.mainNat c.obj 8)) = true) ∧
    (∃ (s : State) (dt : Nat) (c : CoreId),
    let u := s.advance dt
    (u.core c).st = .holdover ∧ u.ownTerm c = none) :=
  ⟨⟨{ up with tim := { coreA := { st := .locked, ref := 1, count := 256 * 400000000000, countAt := 400000000000, ppsLast := some 396000000000 } } }, 0, .A, 396000000000, by decide +kernel⟩,
   ⟨up, 0, .A, by decide +kernel⟩,
   ⟨{ up with tim := { coreA := { ppsOk := true } } }, 0, .A, by decide +kernel⟩,
   ⟨{ up with tim := { coreB := { ptpOk := true } } }, 0, .B, by decide +kernel⟩,
   ⟨{ up with tim := { coreA := { st := .locked } } }, 0, .A, by decide +kernel⟩,
   ⟨{ up with tim := { coreA := { st := .holdover, primSince := some 0, ppsOk := true, ref := 2 } } }, secs 1000, .A, 0, by decide +kernel⟩,
   ⟨{ up with tim := { coreA := { st := .holdover } } }, 0, .A, by decide +kernel⟩⟩

theorem witness_TimeWritesComplete :
    (∃ (s : State) (dt : Nat) (th : BitVec 10) (c : CoreId) (hi : Word),
    let u := s.advance dt
    let v := u.setReg (c.ptpReg + 12) hi
    u.thRuns th.toNat = true ∧ u.regGranted th.toNat (c.ptpReg + 12) = true ∧ u.cmdTaken (c.ptpReg + 12) = true ∧ v.mainBool 0xA060 2 = true ∧ th.toNat = v.mainNat 0xA060 1 ∧ v.measValid c (v.getReg64 (c.ptpReg + 8)) = true ∧ (v.core c).st ≠ .off) ∧
    (∃ (s : State) (lvl : Fin 4) (c : CoreId),
    s.objTaken = true ∧ 1 ≤ lvl.val ∧ s.running = true ∧ s.powered c.dom = true) ∧
    (∃ (s : State) (dt : Nat) (v : Word),
    let u := (s.advance dt).rxPosted 4
    u.barOpen = true ∧ u.mainBool 0xA051 1 = true ∧ u.cmdTaken timPcorrCmd = true ∧ u.tim.pcorrWait = none ∧ v.getLsbD 0 = true ∧ u.repTime 0 + usec 10 ≤ (u.getReg64 timPcorrTime).toNat ∧ (u.getReg64 timPcorrTime).toNat ≤ u.repTime 0 + secs 60) ∧
    (∃ (s : State) (dt : Nat) (lvl : Fin 4) (time : BitVec 64),
    let u := s.advance dt
    u.objTaken = true ∧ 1 ≤ lvl.val ∧ u.timThere = true ∧ u.tim.pcorrWait = none ∧ u.repTime 0 + usec 10 ≤ time.toNat ∧ time.toNat ≤ u.repTime 0 + secs 60) ∧
    (∃ (s : State) (dt : Nat) (w : PcorrCommit),
    let u := s.advance dt
    u.tim.pcorrWait = some w ∧ (∀ r, r < 38 → (u.rep r).run = false ∨ w.time.toNat ≤ u.repTime r)) ∧
    (∃ (s : State) (dt : Nat),
    let u := s.advance dt
    u.tim.tqrDue = true ∨ u.tim.tqrAt = none) ∧
    (∃ (s : State) (dt : Nat),
    let u := s.advance dt
    u.ppsDriven = true ∧ u.mainBool 0xA040 1 = true ∧ (∀ x, u.tim.ppsAt = some x → u.due x (msec 500) = true) ∧ ((u.coreTime u.ppsCore : Int) + u.mainInt 0xA040 3 + 8) % 4000000000 ≤ 16) ∧
    (∃ (s : State) (dt : Nat),
    let u := (s.advance dt).rxRequest
    u.barOpen = true ∧ (u.powered 79 || u.powered 80) = true) :=
  ⟨⟨{ (thr.setMain 0xA060 2 [1]).setMain 0xA060 1 (beBytes 2 5) with clock := 100 }, 0, 5, .A, 0, by decide +kernel⟩,
   ⟨up, 2, .A, by decide +kernel⟩,
   ⟨((up.setMain 0xA051 1 [1]).setReg timPcorrTime 100000), 0, 1, by decide +kernel⟩,
   ⟨up, 0, 2, 100000, by decide +kernel⟩,
   ⟨{ up with tim := { pcorrWait := some { time := 5, next := [] } } }, 0, { time := 5, next := [] }, by decide +kernel⟩,
   ⟨up, 0, by decide +kernel⟩,
   ⟨{ up.setMain 0xA040 1 [1] with tim := { coreA := { st := .locked, countAt := 400000000000 } } }, 0, by decide +kernel, by decide +kernel, fun x h => (by cases (show (none : Option Nat) = some x from h)), by decide +kernel⟩,
   ⟨up, 0, by decide +kernel⟩⟩

theorem witness_StrokeCommandsComplete :
    (∃ (s : State) (dt : Nat) (c : CoreId),
    let u := s.advance dt
    let at_ := (u.coreTime c - c.phase) / 4000 * 4000 + c.phase
    (u.core c).running = true ∧ (u.core c).st ≠ .off ∧ (u.core c).st ≠ .fault ∧ c.phase ≤ u.coreTime c ∧ (∀ x, (u.core c).strokeAt = some x → x < at_)) ∧
    (∃ (s : State) (dt : Nat) (r : Fin 40) (c : CoreId) (k : Stroke),
    let u := s.advance dt
    (match c with | .A => u.tim.strokeA | .B => u.tim.strokeB) = some k ∧ k.due.getLsbD r.val = true) :=
  ⟨(by refine ⟨{ up with tim := { coreA := { running := true } } }, 0, .A, ?_, ?_, ?_, ?_, fun x h => by cases (show (none : Option Nat) = some x from h)⟩ <;> decide +kernel),
   ⟨{ up with tim := { strokeA := some stroke } }, 0, 3, .A, stroke, by decide +kernel⟩⟩

theorem witness_CoreCommandsComplete :
    (∃ (s : State) (c : CoreId),
    (s.core c).st ≠ .off ∧ (s.core c).st ≠ .fault) ∧
    (∃ (s : State) (c : CoreId),
    (s.core c).st = .fault) ∧
    (∃ (s : State) (dt : Nat) (c : CoreId),
    let u := s.advance dt
    u.powered c.dom = true ∧ (u.core c).st = .off ∧ (u.core c).trefIn = true) ∧
    (∃ (s : State) (dt : Nat) (c : CoreId),
    let u := s.advance dt
    u.powered c.dom = true ∧ (u.core c).st = .off ∧ (u.core c).trefIn = false) ∧
    (∃ (s : State) (dt : Nat) (x : Nat) (k : Nat) (l : Nat),
    let u := s.advance dt
    u.mainBool 0xA030 2 = true ∧ u.indep u.tim.active.other = true ∧ u.term u.tim.active = some k ∧ u.term u.tim.active.other = some l ∧ 64 * u.mainNat 0xA030 3 < k ∧ l ≤ 64 * u.mainNat 0xA030 3 ∧ u.tim.overSince = some x ∧ u.due x (msec 1) = true ∧ u.tim.tko = none) ∧
    (∃ (s : State) (dt : Nat) (lvl : Fin 4) (c : CoreId),
    let u := s.advance dt
    u.objTaken = true ∧ 1 ≤ lvl.val ∧ u.timThere = true ∧ c ≠ u.tim.active ∧ ((u.core c).st = .locked ∨ (u.core c).st = .slaved) ∧ u.term c ≠ none ∧ u.tim.tko = none) ∧
    (∃ (s : State) (r : Fin 40) (w : Takeover),
    s.tim.tko = some w ∧ w.left.getLsbD r.val = true) ∧
    (∃ (s : State) (w : Takeover),
    s.tim.tko = some w ∧ w.left = 0) :=
  ⟨⟨up, .A, by decide +kernel⟩,
   ⟨{ up with tim := { coreA := { st := .fault } } }, .A, by decide +kernel⟩,
   ⟨{ up with tim := { coreA := { st := .off } } }, 0, .A, by decide +kernel⟩,
   ⟨{ up with tim := { coreA := { st := .off, trefIn := false } } }, 0, .A, by decide +kernel⟩,
   ⟨{ (up.setMain 0xA030 2 [1]).setMain 0xA011 9 [0] with tim := { overSince := some 0, coreA := { st := .locked, measAt := some 400000000000, unc := 1000000 }, coreB := { st := .locked, measAt := some 400000000000 } } }, 0, 0, 1000001, 1, by decide +kernel⟩,
   ⟨{ up with tim := { coreB := { st := .slaved, slaveTerm := some 1, slaveAt := 400000000000 } } }, 0, 2, .B, by decide +kernel⟩,
   ⟨{ up with tim := { tko := some { outgoing := .A, tk := 0, step := 0, left := 1 } } }, 0, { outgoing := .A, tk := 0, step := 0, left := 1 }, by decide +kernel⟩,
   ⟨{ up with tim := { tko := some { outgoing := .A, tk := 0, step := 0, left := 0 } } }, { outgoing := .A, tk := 0, step := 0, left := 0 }, by decide +kernel⟩⟩

theorem witness_RegisterAccessComplete :
    (∃ (s : State) (dt : Nat) (a : Nat) (d : List Byte),
    let u := (s.advance dt).rxPosted d.length
    u.barOpen = true ∧ barForm a d.length = true) ∧
    (∃ (s : State) (dt : Nat) (th : BitVec 10) (a : Nat) (d : List Byte),
    let u := s.advance dt
    u.thRuns th.toNat = true ∧ (State.thStore State.opDbgCmd u th.toNat (0x200000000 + a) d).isRight = true) ∧
    (∃ (s : State) (dt : Nat) (d : List Byte),
    let u := (s.advance dt).rxPosted d.length
    u.barOpen = true) ∧
    (∃ (s : State) (dt : Nat),
    (s.advance dt).ecrcOn = true) ∧
    (∃ (s : State) (v : List Byte) (th : BitVec 10) (a : Nat) (n : Nat),
    s.thRuns th.toNat = true ∧ (s.thLoad th.toNat (0x200000000 + a) n).1 = .inr v) ∧
    (∃ (s : State) (a : Nat) (n : Nat),
    let u := s.rxRequest
    u.barOpen = true ∧ barForm a n = true) ∧
    (∃ (s : State) (a : Nat),
    let u := s.rxRequest
    u.barOpen = true ∧ barForm a 4 = true) ∧
    (∃ (s : State) (dt : Nat) (a : Nat) (n : Nat),
    let u := (s.advance dt).rxRequest
    u.barOpen = true ∧ barForm a n = true) ∧
    (∃ (s : State) (dt : Nat) (th : BitVec 10) (a : Nat) (f : Fetched),
    let u := s.advance dt
    let t := th.toNat
    let n := (f.word.getD 0).toNat
    let x := u.thread t
    u.thRuns t = true ∧ u.atBreak t = false ∧ u.fetchInstr t = .inr f ∧ bits n 6 0 = 0x03 ∧ bits n 14 12 = 2 ∧ (x.reg (bits n 19 15) + sx 12 (bits n 31 20)).toNat = 0x200000000 + a ∧ u.regGranted t a = true ∧ barForm a 4 = true) :=
  ⟨⟨up, 0, 0, [1, 0, 0, 0], by decide +kernel⟩,
   ⟨thr, 0, 5, 0, [0, 0, 0, 0], by decide +kernel⟩,
   ⟨up, 0, [1, 0, 0, 0], by decide +kernel⟩,
   ⟨ecrc, 0, by decide +kernel⟩,
   ⟨thr, [0, 0xB1, 0, 0x16], 5, 0, 4, by decide +kernel⟩,
   ⟨up, 0, 4, by decide +kernel⟩,
   ⟨up, 0x200000, by decide +kernel⟩,
   ⟨up, 0, 0, 4, by decide +kernel⟩,
   ⟨lwBar, 0, 5, 0, { raw := 0x0000A183, word := some 0x0000A183, len := 4 }, by decide +kernel⟩⟩

theorem witness_GuardCommandsComplete :
    (∃ (s : State) (dt : Nat) (rid : BitVec 16) (pasid : Option (BitVec 20)) (a : Nat) (d : List Byte) (r : RegRow) (i : Nat) (j : Nat),
    let v := (s.advance dt).rxPosted 4
    let u := if a / 0x100000 = 7 then v.fwtSettle else v
    v.barOpen = true ∧ barForm a 4 = true ∧ d.length = 4 ∧ u.guardBusy a = false ∧ satWord a = none ∧ findReg a = some (r, i, j, 0) ∧ r.acc = .rwg ∧ u.rowPowered r i = true ∧ u.writeLocked (.pcie rid pasid) r a = false ∧ u.lockStyle r.grp = false ∧ (Map.get u.arms r.grp) = none) ∧
    (∃ (s : State) (dt : Nat) (rid : BitVec 16) (pasid : Option (BitVec 20)) (a : Nat) (d : List Byte) (r : RegRow) (i : Nat) (j : Nat),
    let v := (s.advance dt).rxPosted 4
    let u := if a / 0x100000 = 7 then v.fwtSettle else v
    v.barOpen = true ∧ barForm a 4 = true ∧ d.length = 4 ∧ u.guardBusy a = false ∧ satWord a = none ∧ findReg a = some (r, i, j, 0) ∧ r.acc = .rwg ∧ u.rowPowered r i = true ∧ u.writeLocked (.pcie rid pasid) r a = false ∧ u.lockStyle r.grp = true ∧ (Map.get u.arms r.grp) = none ∧ (u.applyGuarded r i a (mergeWord 0 0 d)).isSome = true) ∧
    (∃ (s : State) (dt : Nat) (rid : BitVec 16) (pasid : Option (BitVec 20)) (a : Nat) (r : RegRow) (i : Nat),
    let w := (s.advance dt).rxPosted 8
    let u := if a / 0x100000 = 7 then w.fwtSettle else w
    w.barOpen = true ∧ barForm a 8 = true ∧ u.guardBusy a = false ∧ wholePair a = some (r, i) ∧ r.acc = .rwg ∧ u.rowPowered r i = true ∧ u.writeLocked (.pcie rid pasid) r a = false ∧ u.lockStyle r.grp = false ∧ (Map.get u.arms r.grp) = none) ∧
    (∃ (s : State) (dt : Nat) (rid : BitVec 16) (pasid : Option (BitVec 20)) (a : Nat) (d : List Byte) (r : RegRow) (r' : RegRow) (i : Nat) (j : Nat) (m : Arm),
    let v := (s.advance dt).rxPosted 4
    let u := if (a + 4) / 0x100000 = 7 then v.fwtSettle else v
    v.barOpen = true ∧ barForm (a + 4) 4 = true ∧ d.length = 4 ∧ u.guardBusy a = false ∧ satWord (a + 4) = none ∧ findReg (a + 4) = none ∧ complementOf (a + 4) = some r ∧ findReg a = some (r', i, j, 0) ∧ u.rowPowered r i = true ∧ u.writeLocked (.pcie rid pasid) r a = false ∧ u.lockStyle r.grp = false ∧ Map.get u.arms r.grp = some m ∧ m.req = .pcie rid pasid ∧ m.addr = a ∧ mergeWord 0 0 d = ~~~m.value ∧ u.clock ≤ m.at_ + usec 10) ∧
    (∃ (s : State) (dt : Nat) (g : Fin 16) (m : Arm),
    let u := s.advance dt
    Map.get u.arms g.val = some m ∧ m.at_ + usec 10 ≤ u.clock) ∧
    (∃ (s : State),
    s.cmdTaken (GLB + 0x44) = true) :=
  ⟨⟨{ up with guardStyle := 0 }, 0, 0, none, (MEM + 0x100), [1, 0, 0, 0], (rowAt (MEM + 0x100)).1, (rowAt (MEM + 0x100)).2.1, (rowAt (MEM + 0x100)).2.2.1, by decide +kernel⟩,
   ⟨{ up with guardStyle := 0xFFFF }, 0, 0, none, (MEM + 0x100), [1, 0, 0, 0], (rowAt (MEM + 0x100)).1, (rowAt (MEM + 0x100)).2.1, (rowAt (MEM + 0x100)).2.2.1, by decide +kernel⟩,
   ⟨{ up with guardStyle := 0 }, 0, 0, none, (MEM + 0x100), (rowAt (MEM + 0x100)).1, (rowAt (MEM + 0x100)).2.1, by decide +kernel⟩,
   ⟨{ up with arms := [((rowAt (MEM + 0x100)).1.grp, { req := .pcie 0 none, addr := (MEM + 0x100), value := 1, at_ := 400000000000 })] }, 0, 0, none, (MEM + 0x100), [0xFE, 0xFF, 0xFF, 0xFF], (rowAt (MEM + 0x100)).1, (rowAt (MEM + 0x100)).1, (rowAt (MEM + 0x100)).2.1, (rowAt (MEM + 0x100)).2.2.1, { req := .pcie 0 none, addr := (MEM + 0x100), value := 1, at_ := 400000000000 }, by decide +kernel⟩,
   ⟨{ up with arms := [(2, { req := .pcie 0 none, addr := 4, value := 1, at_ := 0 })] }, 0, 2, { req := .pcie 0 none, addr := 4, value := 1, at_ := 0 }, by decide +kernel⟩,
   ⟨up, by decide +kernel⟩⟩

theorem witness_PageCommandsComplete :
    (∃ (s : State) (i : BitVec 16),
    let u := s.rxPosted 8
    u.barOpen = true ∧ (u.inst i.toNat).st = .active ∧ Map.get u.staging i.toNat = none) ∧
    (∃ (s : State),
    let u := s.rxPosted 8
    u.barOpen = true ∧ u.cmdTaken (QIM + 0x078) = true ∧ Map.get u.staging 65536 = none) ∧
    (∃ (s : State) (dt : Nat) (i : BitVec 16) (v : BitVec 64) (q : Nat),
    let u := (s.advance dt).rxPosted 8
    u.barOpen = true ∧ (u.inst i.toNat).st = .active ∧ u.globalOf (.inst i) (bits v.toNat 61 48) = some q ∧ (u.queue q).st ≠ .none ∧ (u.queue q).kind ≠ 7 ∧ v.getLsbD 62 = false ∧ 0 ≤ (v.extractLsb' 0 32 - (u.queue q).tail).toInt ∧ (v.extractLsb' 0 32 - (u.queue q).head).toNat ≤ (u.queue q).size) ∧
    (∃ (s : State) (dt : Nat) (i : BitVec 16) (v : BitVec 64) (q : Nat),
    let u := (s.advance dt).rxPosted 8
    u.barOpen = true ∧ (u.inst i.toNat).st = .active ∧ u.globalOf (.inst i) (bits v.toNat 61 48) = some q ∧ (u.queue q).st ≠ .none ∧ (u.queue q).kind = 7 ∧ v.getLsbD 62 = true ∧ (v.extractLsb' 0 32 - (u.queue q).cons).toNat ≤ ((u.queue q).prod - (u.queue q).cons).toNat) ∧
    (∃ (s : State) (dt : Nat) (i : BitVec 16) (l : Word),
    let u := (s.advance dt).rxPosted 8
    u.barOpen = true ∧ (u.inst i.toNat).st = .active ∧ Map.get u.staging i.toNat = some l) ∧
    (∃ (s : State) (i : BitVec 16) (o : Nat) (n : Nat),
    let u := s.rxRequest
    u.barOpen = true ∧ (u.inst i.toNat).st ≠ .free ∧ o + n ≤ 4096) ∧
    (∃ (s : State) (i : BitVec 16),
    let u := s.rxPosted 8
    u.barOpen = true ∧ (u.inst i.toNat).st = .active) ∧
    (∃ (s : State) (i : BitVec 16),
    let u := s.rxPosted 8
    u.barOpen = true ∧ (u.inst i.toNat).st = .active ∧ (u.inst i.toNat).busy = false ∧ (u.getReg qimMedCfg).getLsbD 31 = true ∧ u.bmeOn = true ∧ (u.qim.medProd - u.getReg (QIM + 0x090)).toNat + 4 ≤ 2 ^ bits (u.getReg qimMedCfg).toNat 4 0) :=
  ⟨⟨inst, 3, by decide +kernel⟩,
   ⟨up, by decide +kernel⟩,
   ⟨inst, 0, 3, 1, 0, by decide +kernel⟩,
   ⟨inst, 0, 3, 0x4001000000000000, 1, by decide +kernel⟩,
   ⟨{ inst with staging := [(3, 5)] }, 0, 3, 5, by decide +kernel⟩,
   ⟨inst, 3, 16, 4, by decide +kernel⟩,
   ⟨inst, 3, by decide +kernel⟩,
   ⟨(inst.setReg qimMedCfg 0x80000004), 3, by decide +kernel⟩⟩

theorem witness_PresentationCompletes :
    (∃ (s : State) (dt : Nat) (m : Msg) (l : List Msg),
    let u := s.advance dt
    let v : State := { u with sql := { u.sql with inbox := l } }
    let w := match m.mac with | some c => if m.keep then v else v.retireToken c.val m.tag.raw.time | none => v
    u.sql.inbox = m :: l ∧ w.sqlOn = true ∧ w.waitsOverlap m.tag = false ∧ (w.stream m.stream.toNat).en = true ∧ w.isMember m (w.keyOf m.tag) = true ∧ w.isLate m (w.keyOf m.tag) = false) ∧
    (∃ (s : State) (dt : Nat) (m : Msg) (l : List Msg),
    let u := s.advance dt
    let v : State := { u with sql := { u.sql with inbox := l } }
    let w := match m.mac with | some c => if m.keep then v else v.retireToken c.val m.tag.raw.time | none => v
    u.sql.inbox = m :: l ∧ w.sqlOn = true ∧ w.waitsOverlap m.tag = false ∧ (w.stream m.stream.toNat).en = false ∨ w.isMember m (w.keyOf m.tag) = false) ∧
    (∃ (s : State) (dt : Nat) (m : Msg) (l : List Msg),
    let u := s.advance dt
    let v : State := { u with sql := { u.sql with inbox := l } }
    let w := match m.mac with | some c => if m.keep then v else v.retireToken c.val m.tag.raw.time | none => v
    u.sql.inbox = m :: l ∧ w.sqlOn = true ∧ w.waitsOverlap m.tag = false ∧ (w.stream m.stream.toNat).en = true ∧ w.isMember m (w.keyOf m.tag) = true ∧ w.isLate m (w.keyOf m.tag) = true) ∧
    (∃ (s : State) (dt : Nat) (m : Msg) (l : List Msg),
    let u := s.advance dt
    let v : State := { u with sql := { u.sql with inbox := l } }
    let w := match m.mac with | some c => if m.keep then v else v.retireToken c.val m.tag.raw.time | none => v
    u.sql.inbox = m :: l ∧ w.sqlOn = true ∧ w.waitsOverlap m.tag = true) ∧
    (∃ (s : State) (dt : Nat) (k : Fin 8),
    let u := s.advance dt
    u.portOldest k.val = none ∧ u.powered (71 + k.val) = true) :=
  ⟨⟨{ up with sql := { inbox := [msg], streams := [(0, { cfg := 0x80000000 })], members := [(5, (0x80000007, 0))] } }, 0, msg, [], by decide +kernel⟩,
   ⟨{ up with sql := { inbox := [msg] } }, 0, msg, [], by decide +kernel⟩,
   ⟨{ up with sql := { inbox := [msg], streams := [(0, { cfg := 0x80000000, horizon := some (2 ^ 60, 0) })], members := [(5, (0x80000007, 0))] } }, 0, msg, [], by decide +kernel⟩,
   ⟨{ up with sql := { inbox := [msg] }, tim := { tko := some { outgoing := .B, tk := 0, step := 0, left := 0 } } }, 0, msg, [], by decide +kernel⟩,
   ⟨up, 0, 2, by decide +kernel⟩⟩

theorem witness_ReleaseCompletes :
    (∃ (s : State) (dt : Nat) (n : Fin 64) (h : Held) (l : List Held),
    let u := s.advance dt
    (u.stream n.val).held = h :: l ∧ u.blockers n.val h.key = [] ∧ u.sqlOn = true ∧ (u.classOn (u.stream n.val).cls && !u.lenient (u.stream n.val).cls && u.unrecordable (u.stream n.val).cls h.skipped) = false) ∧
    (∃ (s : State) (dt : Nat) (i : BitVec 16) (b : Nat),
    let u := s.advance dt
    u.oldestBell i.toNat = some b ∧ b + usec (u.mainNat 0xA150 2) < u.repTime 0 ∧ u.sql.fetchExp.contains (i.toNat, BitVec.ofNat 64 b) = false) ∧
    (∃ (s : State) (dt : Nat) (n : Fin 64) (h : Held) (k : Nat),
    let u := s.advance dt
    longestHeld (u.stream n.val).held = some (h, k) ∧ u.sqlOn = true ∧ u.islandDue 38 h.since (u.holdLimit n.val) = true) ∧
    (∃ (s : State) (dt : Nat) (i : Fin 131072) (w : Word × Word),
    let u := s.advance dt
    let n := bits w.1.toNat 29 24
    Map.get u.sql.members i.val = some w ∧ (u.stream n).laggards.contains i.val = true ∧ (∀ k r, (u.stream n).horizon = some (k, r) → (k.toNat : Int) < u.safeTime w)) :=
  ⟨⟨{ up with sql := { streams := [(0, { held := [{ msg := msg, key := 5, no := 0, since := 0, skipped := false, engine := none }] })] } }, 0, 0, { msg := msg, key := 5, no := 0, since := 0, skipped := false, engine := none }, [], by decide +kernel⟩,
   ⟨{ inst with qim := { inst.qim with queue := [(0, { kind := 1, st := .enabled, owner := some 3, stream := some 0, asInst := 3, bells := [(1, {}, 0)] })] }, tim := { reps := [(0, { run := true, scaleA := some { value := 256 * 400000000000, since := 400000000000 } })] } }, 0, 3, 0, by decide +kernel⟩,
   ⟨{ up with sql := { streams := [(0, { held := [{ msg := msg, key := 5, no := 0, since := 0, skipped := false, engine := none }] })] } }, 0, 0, { msg := msg, key := 5, no := 0, since := 0, skipped := false, engine := none }, 0, by decide +kernel⟩,
   ⟨{ up with sql := { members := [(5, (0x80000000, 0))], streams := [(0, { laggards := [5] })] } }, 0, 5, (0x80000000, 0), by decide +kernel, by decide +kernel, fun k r h => by cases (show none = some (k, r) from h)⟩⟩

theorem witness_MembershipCompletes :
    (∃ (s : State) (dt : Nat) (d : StepNote) (l : List StepNote),
    let u := s.advance dt
    u.sql.steps = d :: l ∧ u.sqlOn = true) ∧
    (∃ (s : State) (dt : Nat) (v : Word),
    let u := (s.advance dt).rxPosted 4
    u.barOpen = true ∧ u.cmdTaken sqlMembCmd = true ∧ u.sql.membWait = none ∧ v.getLsbD 0 = true ∧ u.repTime 0 + usec 10 ≤ (u.getReg64 sqlMembTime).toNat ∧ (u.getReg64 sqlMembTime).toNat ≤ u.repTime 0 + secs 60) ∧
    (∃ (s : State) (dt : Nat) (v : Word),
    let u := (s.advance dt).rxPosted 4
    u.barOpen = true ∧ u.cmdTaken sqlMembCmd = true ∧ u.sql.membWait = none ∧ v.getLsbD 0 = true ∧ (u.getReg64 sqlMembTime).toNat < u.repTime 0 + usec 10) ∧
    (∃ (s : State) (dt : Nat) (w : MembCommit),
    let u := s.advance dt
    u.sql.membWait = some w ∧ w.time.toNat ≤ u.repTime 38 ∧ u.sqlOn = true) :=
  ⟨⟨{ up with sql := { steps := [{ size := 3, first := 5, core := .A }], streams := [(4, { held := [{ msg := msg, key := 5, no := 0, since := 0, skipped := false, engine := none }, { msg := msg, key := 5, no := 0, since := 0, skipped := false, engine := none }] })] } }, 0, { size := 3, first := 5, core := .A }, [], by decide +kernel⟩,
   ⟨up.setReg sqlMembTime 100000, 0, 1, by decide +kernel⟩,
   ⟨up, 0, 1, by decide +kernel⟩,
   ⟨{ up with sql := { membWait := some { time := 0, members := [], streams := [] } } }, 0, { time := 0, members := [], streams := [] }, by decide +kernel⟩⟩

theorem witness_LedgerCommandsComplete :
    (∃ (s : State) (dt : Nat) (idx : Nat) (e : RecWait) (d : List Byte),
    let u := s.advance dt
    u.sql.recq[idx]? = some e ∧ e.data = some d) ∧
    (∃ (s : State) (dt : Nat) (idx : Nat) (n : Nat) (h : Held),
    let u := s.advance dt
    u.sql.recq[idx]? = none ∧ u.hashing[idx - u.sql.recq.length]? = some (n, h)) ∧
    (∃ (s : State) (dt : Nat) (n : Fin 64),
    let u := s.advance dt
    n ≠ 0 ∧ u.sqlOn = true ∧ u.areaRoom 64 = true ∧ u.sql.recq.length < 65536) ∧
    (∃ (s : State) (dt : Nat),
    let u := s.advance dt
    u.sqlOn = true ∧ u.sql.open_ = true ∧ u.islandDue 38 u.sql.block.openAt (usec u.sql.intervalUs) = true) ∧
    (∃ (s : State) (dt : Nat),
    let u := s.advance dt
    let len := msec u.sql.epochMs
    let e := u.repTime 38 / len * len
    0 < len ∧ u.sqlOn = true ∧ u.sql.open_ = true ∧ u.sql.lastEpoch.toNat < e) ∧
    (∃ (s : State) (dt : Nat) (e : Entry) (x : ExpUnit),
    let u := s.advance dt
    let q := u.regBits sqlExpq 19 0
    (u.queue q).ents.find? (fun e => e.st = .waiting) = some e ∧ u.sql.units[u.unitsOut]? = some x ∧ (u.getReg sqlExpq).getLsbD 31 = true ∧ (u.queue q).kind = 6 ∧ u.bmeOn = true ∧ u.sqlOn = true ∧ leAt e.slots 16 4 < x.needs u.sql.recLimit) ∧
    (∃ (s : State) (dt : Nat) (e : Entry) (x : ExpUnit),
    let u := s.advance dt
    let q := u.regBits sqlExpq 19 0
    let v := (u.unitPut 1 none (leAt e.slots 8 8) x.bytes).2
    (u.queue q).ents.find? (fun e => e.st = .waiting) = some e ∧ u.sql.units[u.unitsOut]? = some x ∧ (u.getReg sqlExpq).getLsbD 31 = true ∧ (u.queue q).kind = 6 ∧ u.bmeOn = true ∧ u.sqlOn = true ∧ x.needs u.sql.recLimit ≤ leAt e.slots 16 4 ∧ (u.unitPut 1 none (leAt e.slots 8 8) x.bytes).1 = some true ∧ v.unitBad x = false) :=
  ⟨⟨{ up with sql := { recq := [{ record := [], comp := none, data := some [1], engine := none, stream := 0 }] } }, 0, 0, { record := [], comp := none, data := some [1], engine := none, stream := 0 }, [1], by decide +kernel⟩,
   ⟨{ up with sql := { streams := [(4, { held := [{ msg := msg, key := 5, no := 0, since := 0, skipped := false, engine := some 0 }] })] } }, 0, 0, 4, { msg := msg, key := 5, no := 0, since := 0, skipped := false, engine := some 0 }, by decide +kernel⟩,
   ⟨up, 0, 1, by decide +kernel⟩,
   ⟨{ up with sql := { open_ := true } }, 0, by decide +kernel⟩,
   ⟨{ up with sql := { open_ := true }, tim := { reps := [(38, { run := true, scaleA := some { value := 256 * 400000000000, since := 400000000000 } })] } }, 0, by decide +kernel⟩,
   ⟨{ (inst.setReg sqlExpq 0x80000009) with sql := { units := [.seal [1]] }, qim := { queue := [(9, { kind := 6, st := .enabled, ents := [{ no := 0, cb := true, op := 0, utag := 0, slots := [], st := .waiting }] })] } }, 0, { no := 0, cb := true, op := 0, utag := 0, slots := [], st := .waiting }, .seal [1], by decide +kernel⟩,
   ⟨{ (inst.setReg sqlExpq 0x80000009) with sql := { units := [.seal [1]] }, qim := { queue := [(9, { kind := 6, st := .enabled, ents := [{ no := 0, cb := true, op := 0, utag := 0, slots := List.replicate 64 1, st := .waiting }] })] } }, 0, { no := 0, cb := true, op := 0, utag := 0, slots := List.replicate 64 1, st := .waiting }, .seal [1], by decide +kernel⟩⟩

theorem witness_LinkCommandsComplete :
    (∃ (s : State) (g : Fin 2) (v : Word),
    s.cmdTaken (prtGrpMode g.val) = true ∧ s.grpBusy g.val = false ∧ (∀ k, k < 8 → s.macEn (8 * g.val + k) = false) ∧ bits v.toNat 2 0 ≤ 4 ∧ s.laneMapOk g.val (bits v.toNat 2 0) = true) ∧
    (∃ (s : State) (g : Fin 2),
    s.cmdTaken (prtGrpMode g.val) = true ∧ s.grpBusy g.val = false ∧ (∃ k, k < 8 ∧ s.macEn (8 * g.val + k) = true)) ∧
    (∃ (s : State) (g : Fin 2),
    s.grpBusy g.val = true) ∧
    (∃ (s : State) (dt : Nat) (m : Fin 16),
    let u := s.advance dt
    u.macThere m.val = true ∧ u.powered (33 + m.val) = true ∧ u.grpBusy (m.val / 8) = false ∧ (u.mac m.val).link = false) ∧
    (∃ (s : State) (dt : Nat) (m : Fin 16),
    let u := s.advance dt
    (u.mac m.val).link = true) :=
  ⟨⟨up, 0, 0, by decide +kernel⟩,
   ⟨up.setReg (macReg 0 0) 0x80000000, 0, by decide +kernel⟩,
   ⟨{ up with prt := { busy0 := true } }, 0, by decide +kernel⟩,
   ⟨{ up with prt := { mode0 := 1 } }, 0, 0, by decide +kernel⟩,
   ⟨mac, 0, 0, by decide +kernel⟩⟩

theorem witness_FrameCommandsComplete :
    (∃ (s : State) (dt : Nat) (m : Fin 16),
    let u := s.advance dt
    u.macEn m.val = false ∨ u.macPassing m.val = false) ∧
    (∃ (s : State) (dt : Nat) (m : Fin 16) (w : List Byte),
    let u := s.advance dt
    u.macEn m.val = true ∧ u.macPassing m.val = true ∧ w.length < 64) ∧
    (∃ (s v : State) (w : List Byte) (l : List Word), s.macEn 0 = true ∧ s.macPassing 0 = true ∧ 64 ≤ w.length ∧
      State.rxBuffers 0 (s.rxPrio 0 (w.take (w.length - 4))) ((min w.length (s.regBits (macReg 0 8) 13 0) + 2047) / 2048) s [] =
        (some l, v)) ∧
    (∃ (s : State) (dt : Nat) (m : Fin 16) (w : List Byte),
    let u := s.advance dt
    u.macEn m.val = true ∧ u.macPassing m.val = true ∧ 64 ≤ w.length ∧ (State.rxBuffers m.val (u.rxPrio m.val (w.take (w.length - 4))) ((min w.length (u.regBits (macReg m.val 8) 13 0) + 2047) / 2048) u []).1 = none) ∧
    (∃ (s : State) (dt : Nat) (m : Fin 16) (p : Fin 8),
    let u := s.advance dt
    u.paused m.val p.val = false) ∧
    (∃ (s : State) (dt : Nat) (m : Fin 16),
    let u := s.advance dt
    u.xoff m.val ≠ 0 ∧ u.due (u.mac m.val).pfcAt (4 * u.regBits (macReg m.val 0x24) 23 0) = true ∧ (u.mac m.val).link = true ∧ u.macEn m.val = true ∧ (u.mac m.val).pfcOwed = none ∧ (u.mac m.val).sendsTill ≤ u.clock) ∧
    (∃ (s : State) (dt : Nat) (m : Fin 16),
    let u := s.advance dt
    u.cmdTaken (macReg m.val 0) = true) ∧
    (∃ (s : State) (dt : Nat) (m : Fin 16),
    let u := s.advance dt
    u.storeRoom m.val = true ∧ u.macThere m.val = true ∧ u.prtShaped m.val = false) ∧
    (∃ (s : State) (dt : Nat) (m : Fin 16) (c : Fin 8) (leaf : Nat) (since : Nat),
    let u := s.advance dt
    let k := 8 * m.val + c.val
    u.storeRoom m.val = true ∧ u.macThere m.val = true ∧ u.prtShaped m.val = false ∧ (∀ h : Fin 8, c < h → u.sendable m.val h.val = false) ∧ u.sendable m.val c.val = true ∧ u.clsShaped k = false ∧ (u.gates m.val).getLsbD c.val = true ∧ Map.get u.tmg.head k = some (leaf, since) ∧ ((u.node 0 leaf).urgent = true ∨ u.openBudget m.val c.val = none)) ∧
    (∃ (s : State) (dt : Nat) (m : Fin 16) (i : Item) (l : List Item),
    let u := s.advance dt
    let v := (u.settleSend m.val).settlePfc m.val
    (u.mac m.val).link = true ∧ u.macEn m.val = true ∧ (u.mac m.val).sendEnd ≤ u.clock ∧ (v.mac m.val).sendsTill ≤ v.clock ∧ nextFrame (v.mac m.val).store (v.paused m.val) = some (i, l)) :=
  ⟨⟨up, 0, 0, by decide +kernel⟩,
   ⟨mac, 0, 0, [1], by decide +kernel⟩,
   by
    obtain ⟨x, t, h, -⟩ := frm.alloc_granted 16 0 false 1 (some (0, 0)) (by decide +kernel) (by decide +kernel)
      (by decide +kernel) (by decide +kernel)
    refine ⟨frm, t.fillBufs [x] 2048, List.replicate 64 0, [x], by decide +kernel, by decide +kernel, by decide +kernel, ?_⟩
    have a : frm.rxPrio 0 ((List.replicate 64 (0 : Byte)).take ((List.replicate 64 (0 : Byte)).length - 4)) = 0 := by decide +kernel
    have b : (min (List.replicate 64 (0 : Byte)).length (frm.regBits (macReg 0 8) 13 0) + 2047) / 2048 = 1 := by decide +kernel
    have c : (frm.getReg (macReg 0 0x20)).getLsbD (8 + 0) = false := by decide +kernel
    rw [a, b]
    unfold State.rxBuffers
    dsimp only
    rw [c, if_neg Bool.false_ne_true]
    rw [h]
    rfl,
   ⟨mac, 0, 0, List.replicate 64 0, by decide +kernel⟩,
   ⟨up, 0, 0, 0, by decide +kernel⟩,
   ⟨{ mac.setReg (macReg 0 0x20) 0xFFFF with prt := { mode0 := 1, macs := [(0, { link := true, xoff := 1 })] } }, 0, 0, by decide +kernel⟩,
   ⟨up, 0, 0, by decide +kernel⟩,
   ⟨mac, 0, 0, by decide +kernel⟩,
   ⟨{ mac with tmg := { head := [(7, (5, 0))], leaf := [(5, { frames := [{ item := item, flen := 64, enq := 0, ovf := false }] })] } }, 0, 0, 7, 5, 0, by decide +kernel⟩,
   ⟨{ mac with prt := { mode0 := 1, macs := [(0, { link := true, store := [item] })] } }, 0, 0, item, [], by decide +kernel⟩⟩

theorem witness_GateCommandsComplete :
    (∃ (s : State) (m : Fin 16) (v : Word),
    s.cmdTaken (macReg m.val 0x310) = true ∧ v.getLsbD 0 = true) ∧
    (∃ (s : State) (dt : Nat) (m : Fin 16) (v : Word),
    let u := s.advance dt
    let l := u.stagedGates m.val
    let from_ := u.repTime (3 + m.val) + usec 10
    let ta := if from_ ≤ l.base.toNat then l.base.toNat
      else l.base.toNat + (from_ - l.base.toNat + 4 * l.cycle - 1) / (4 * l.cycle) * (4 * l.cycle)
    u.cmdTaken (macReg m.val 0x218) = true ∧ (u.mac m.val).gateWait = none ∧ v.getLsbD 0 = true ∧ 1 ≤ u.regBits (macReg m.val 0x204) 8 0 ∧ u.regBits (macReg m.val 0x204) 8 0 ≤ 256 ∧ 1000 ≤ l.cycle ∧ l.cycle ≤ 1000000000 ∧ (∀ e ∈ l.entries, e.2 ≠ 0) ∧ ta ≤ u.repTime (3 + m.val) + secs 60) ∧
    (∃ (s : State) (dt : Nat) (m : Fin 16) (l : GateList),
    let u := s.advance dt
    (u.mac m.val).gateWait = some l ∧ l.base.toNat ≤ u.repTime (3 + m.val)) :=
  ⟨⟨up, 0, 1, by decide +kernel⟩,
   ⟨((up.setReg (macReg 0 0x204) 1).setReg (macReg 0 0x208) 4000).setReg (gateStaged 0 0) 4000, 0, 0, 1, by decide +kernel⟩,
   ⟨{ up with prt := { macs := [(0, { gateWait := some {} })] } }, 0, 0, {}, by decide +kernel⟩⟩

theorem witness_PipelineCommandsComplete :
    (∃ (s : State) (dt : Nat) (p : Fin 8) (i : Item) (x : Pipe),
    let u := s.advance dt
    u.powered (49 + p.val) = true ∧ (u.pipe p.val).next u.clock = some (i, x)) ∧
    (∃ (s : State) (dt : Nat) (p : Fin 8) (idx : Nat) (target : Nat) (key : Nat),
    let u := (s.advance dt).fwtSettle
    u.wanted p.val idx = some (target, key)) ∧
    (∃ (s : State) (dt : Nat) (p : Fin 8) (idx : Nat) (i : Item),
    let u := s.advance dt
    (u.pipe p.val).flight[idx]? = some i ∧ i.want ≠ none ∧ u.due i.wantAt (usec 2) = true) ∧
    (∃ (s : State) (dt : Nat) (p : Fin 4) (i : Item),
    let u := s.advance dt
    let j := fragRules i
    u.exitItem p.val = some i ∧ u.exitHeld p.val j = false ∧ refusedAt j = some 0x840) ∧
    (∃ (s : State) (dt : Nat) (p : Fin 4) (i : Item),
    let u := s.advance dt
    let j := fragRules i
    let v := ((u.leaveFlight p.val 0).storeFrag p.val j).learnAt p.val j
    let m := if j.fld fVERDICT = 1 ∧ bit (j.fld fMIRROR) 6 = true then v.mirrorCopy p.val j j.orig (j.fld fMIRROR % 64) else v
    let w := (m.countExit p.val j).exitToken j
    u.exitItem p.val = some i ∧ u.exitHeld p.val j = false ∧ refusedAt j = none ∧ bit (j.fld fPOLICER) 18 = true ∧ w.2.second = false) ∧
    (∃ (s : State) (dt : Nat) (p : Fin 4) (i : Item),
    let u := s.advance dt
    let j := fragRules i
    u.exitItem p.val = some i ∧ u.exitHeld p.val j = false ∧ refusedAt j = none ∧ bit (j.fld fPOLICER) 18 = false) ∧
    (∃ (s : State) (dt : Nat) (e : Fin 4) (i : Item),
    let u := s.advance dt
    let p := 4 + e.val
    let j := fragRules i
    let m := i.fld fDEST % 16
    let v := (u.leaveFlight p 0).storeFrag p j
    u.exitItem p = some i ∧ j.copy = false ∧ j.fld fVERDICT = 0 ∧ v.regBits (macReg m 8) 13 0 ≥ j.frame.length + 4 ∧ v.protects m j.frame = false) :=
  ⟨⟨{ up with pcl := [(0, { port := [item] })] }, 0, 0, item, {}, by decide +kernel⟩,
   ⟨{ up with pcl := [(0, { flight := [{ item with want := some 3 }] })] }, 0, 0, 0, 0, 3, by decide +kernel⟩,
   ⟨{ up with pcl := [(0, { flight := [{ item with want := some 3 }] })] }, 0, 0, 0, { item with want := some 3 }, by decide +kernel⟩,
   ⟨{ up with pcl := [(0, { flight := [{ item with stage := 16 }] })] }, 0, 0, { item with stage := 16 }, by decide +kernel⟩,
   ⟨{ up with pcl := [(0, { flight := [{ item with stage := 16, fields := [(fDESTKIND, 1), (fPOLICER, 0x40000)] }] })] }, 0, 0, { item with stage := 16, fields := [(fDESTKIND, 1), (fPOLICER, 0x40000)] }, by decide +kernel⟩,
   ⟨{ up with pcl := [(0, { flight := [{ item with stage := 16, fields := [(fDESTKIND, 1)] }] })] }, 0, 0, { item with stage := 16, fields := [(fDESTKIND, 1)] }, by decide +kernel⟩,
   ⟨{ up with pcl := [(4, { flight := [{ item with stage := 16 }] })] }, 0, 0, { item with stage := 16 }, by decide +kernel⟩⟩

theorem witness_FragmentTimersComplete :
    (∃ (s : State) (dt : Nat) (p : Fin 8) (i : Item) (x : Nat) (l : List (Item × Nat)),
    let u := s.advance dt
    (u.pipe p.val).early = (i, x) :: l ∧ x + msec 1 ≤ u.repTime (19 + p.val)) ∧
    (∃ (s : State) (dt : Nat) (p : Fin 8) (idx : Nat) (e : Frag),
    let u := s.advance dt
    (u.pipe p.val).frags[idx]? = some e ∧ u.due e.used (secs 2) = true) :=
  ⟨⟨{ { up with pcl := [(0, { early := [(item, 0)] })] } with tim := { reps := [(19, { run := true, scaleA := some { value := 256 * 400000000000, since := 400000000000 } })] } }, 0, 0, item, 0, [], by decide +kernel⟩,
   ⟨{ up with pcl := [(0, { frags := [{ key := [], dec := [], drop := false, total := none, sum := 0, used := 0 }] })] }, 0, 0, 0, { key := [], dec := [], drop := false, total := none, sum := 0, used := 0 }, by decide +kernel⟩⟩

theorem witness_BankCommandsComplete :
    (∃ (s : State) (dt : Nat) (p : Fin 8) (v : Word),
    let u := s.advance dt
    u.cmdTaken (pipeReg p.val 0x38) = true ∧ (u.pipe p.val).busy = false ∧ v.getLsbD 0 = true) ∧
    (∃ (s : State) (dt : Nat) (p : Fin 8) (m : BitVec 16),
    let u := s.advance dt
    (u.pipe p.val).copying = some m) ∧
    (∃ (s : State) (dt : Nat) (p : Fin 8) (v : Word),
    let u := s.advance dt
    let t := u.getReg64 (pipeReg p.val 0x10)
    let mask := u.regNat (pipeReg p.val 0x18)
    u.cmdTaken (pipeReg p.val 0x28) = true ∧ (u.pipe p.val).busy = false ∧ v.getLsbD 0 = true ∧ u.pipeTime p.val + usec 10 ≤ t.toNat ∧ t.toNat ≤ u.pipeTime p.val + secs 60 ∧ bit mask 16 = true ∧ (u.pipe p.val).verified = true) ∧
    (∃ (s : State) (dt : Nat) (p : Fin 8) (v : Word),
    let u := s.advance dt
    u.cmdTaken (pipeReg p.val 0x28) = true ∧ (u.pipe p.val).busy = false ∧ v.getLsbD 0 = true ∧ (u.getReg64 (pipeReg p.val 0x10)).toNat < u.pipeTime p.val + usec 10) ∧
    (∃ (s : State) (dt : Nat) (p : Fin 8),
    let u := s.advance dt
    u.cmdTaken (PCL + 8) = true ∧ u.powered (49 + p.val) = true ∧ (u.pipe p.val).busy = false) ∧
    (∃ (s : State) (dt : Nat) (p : Fin 8) (w : Swap),
    let u := s.advance dt
    (u.pipe p.val).swap = some w ∧ w.time.toNat ≤ u.pipeTime p.val) ∧
    (∃ (s : State) (dt : Nat) (p : Fin 8) (w : Swap),
    let u := s.advance dt
    (u.pipe p.val).swap = some w ∧ w.settling = true ∧ w.mask.getLsbD 16 = true ∧ w.time.toNat + usec (u.regBits (pipeReg p.val 0x20) 9 0) ≤ u.pipeTime p.val) ∧
    (∃ (s : State) (dt : Nat) (p : Fin 8) (w : Swap),
    let u := s.advance dt
    (u.pipe p.val).swap = some w ∧ w.settling = true ∧ w.mask.getLsbD 16 = false ∧ w.time.toNat + usec (u.regBits (pipeReg p.val 0x20) 9 0) ≤ u.pipeTime p.val) ∧
    (∃ (s : State) (a : Nat) (p : Nat) (o : Nat),
    pclWindow a = some (p, o) ∧ s.powered (49 + p) = true ∧ (s.pipe p).busy = false ∧ 0x9000 ≤ o) ∧
    (∃ (s : State) (p : Fin 8) (v : Word),
    s.cmdTaken (pipeReg p.val 0x30) = true ∧ v.getLsbD 0 = true ∧ s.mainBool 0x2060 1 = true) :=
  ⟨⟨up, 0, 0, 1, by decide +kernel⟩,
   ⟨{ up with pcl := [(0, { copying := some 1 })] }, 0, 0, 1, by decide +kernel⟩,
   ⟨{ (up.setReg (pipeReg 0 0x10) 100000).setReg (pipeReg 0 0x18) 0x10000 with pcl := [(0, { verified := true })] }, 0, 0, 1, by decide +kernel⟩,
   ⟨up, 0, 0, 1, by decide +kernel⟩,
   ⟨up, 0, 0, by decide +kernel⟩,
   ⟨{ up with pcl := [(0, { swap := some { time := 0, mask := 1 } })] }, 0, 0, { time := 0, mask := 1 }, by decide +kernel⟩,
   ⟨{ { up with pcl := [(0, { swap := some { time := 0, mask := 0x10000, settling := true } })] } with tim := { reps := [(19, { run := true, scaleA := some { value := 256 * 400000000000, since := 400000000000 } })] } }, 0, 0, { time := 0, mask := 0x10000, settling := true }, by decide +kernel⟩,
   ⟨{ { up with pcl := [(0, { swap := some { time := 0, mask := 1, settling := true } })] } with tim := { reps := [(19, { run := true, scaleA := some { value := 256 * 400000000000, since := 400000000000 } })] } }, 0, 0, { time := 0, mask := 1, settling := true }, by decide +kernel⟩,
   ⟨up, 0x1100000, 0, 0x100000, by decide +kernel⟩,
   ⟨up.setObj 0x2060 1 [1], 0, 1, by decide +kernel⟩⟩

theorem witness_TableCommandsComplete :
    (∃ (s : State) (v : Word),
    let u := s.fwtSettle
    u.cmdTaken fwtEpBase = true ∧ (u.getReg fwtEpBase).getLsbD 31 = false ∧ v.getLsbD 31 = true) ∧
    (∃ (s : State) (k : Fin 4) (v : Word),
    let u := s.fwtSettle
    u.cmdTaken (fwtLrnBase k.val) = true ∧ (u.getReg (fwtLrnBase k.val)).getLsbD 31 = false ∧ v.getLsbD 31 = true) ∧
    (∃ (s : State) (dt : Nat) (k : Fin 4) (r : LearnReq) (l : List LearnReq),
    let u := (s.advance dt).fwtSettle
    u.lrnOn k.val = true ∧ Map.at_ u.fwt.reqs k.val [] = r :: l) ∧
    (∃ (s : State) (dt : Nat) (k : Fin 4) (i : Nat) (start : Nat) (period : Nat) (st : Nat) (p : Nat),
    let u := (s.advance dt).fwtSettle.rollPass
    u.fwt.pass = some (start, period) ∧ u.nextVisit k.val start period = (i, st, p) ∧ u.lrnOn k.val = true ∧ Map.at_ u.fwt.reqs k.val [] = [] ∧ i < u.lrnCap ∧ st + msec p * i / u.lrnCap ≤ u.sweepTime ∧ lrnCounts (u.lrnEntry k.val i) = true ∧ lrnHit (u.lrnEntry k.val i) = false ∧ lrnClear1 (u.lrnEntry k.val i) = true) ∧
    (∃ (s : State),
    s.cmdTaken fwtCmd = true ∧ s.fwt.run = none) :=
  ⟨⟨up, 0x80000001, by decide +kernel⟩,
   ⟨up, 2, 0x80000001, by decide +kernel⟩,
   ⟨{ up.setReg (fwtLrnBase 0) 0x80000000 with fwt := { reqs := [(0, [{ key := 1, ep := 2 }])] } }, 0, 0, { key := 1, ep := 2 }, [], by decide +kernel⟩,
   ⟨{ (up.setReg (fwtLrnBase 0) 0x80000000).setReg fwtSweepCfg 0x80000001 with fwt := { pass := some (400000000000, 1), sweep := [(0, 0, 400000000000, 1)], lrn := [(lrnSlot 0 0, BitVec.ofNat 256 (2 ^ 31 + 2 ^ 28))] } }, 0, 0, 0, 400000000000, 1, 400000000000, 1, by decide +kernel⟩,
   ⟨(up), by decide +kernel⟩⟩

theorem witness_CipherItemsComplete :
    (∃ (s : State) (dt : Nat) (p : Fin 4) (i : Item) (l : List (RwcPoint × Item)),
    let u := s.advance dt
    u.rwc.input = (.ingress p, i) :: l ∧ i.ready ≤ u.clock ∧ u.rwcHolds (.ingress p) i = false) ∧
    (∃ (s : State) (dt : Nat) (m : Fin 16) (i : Item) (l : List (RwcPoint × Item)),
    let u := s.advance dt
    let v : State := { u with rwc := { u.rwc with input := l } }
    let n := bits (i.fld fSA) 19 0
    u.rwc.input = (.macTx m, i) :: l ∧ i.ready ≤ u.clock ∧ u.rwcHolds (.macTx m) i = false ∧ bit (i.fld fSA) 20 = true ∧ v.saValid n = true ∧ (v.sa n).kind = 2 ∧ (v.sa n).dirIn = false ∧ (v.sa n).st ≠ 2) ∧
    (∃ (s : State) (dt : Nat) (m : Fin 16) (i : Item) (l : List (RwcPoint × Item)),
    let u := s.advance dt
    u.rwc.input = (.macRx m, i) :: l ∧ i.ready ≤ u.clock ∧ u.rwcHolds (.macRx m) i = false) ∧
    (∃ (s : State) (dt : Nat) (j : LaJob) (l : List LaJob),
    let u := s.advance dt
    u.rwc.jobs = j :: l ∧ u.queueGen j.queue = j.entry.gen ∧ u.saValid (bits (leAt j.slots 12 4) 19 0) = false) ∧
    (∃ (s : State) (dt : Nat) (j : LaJob) (l : List LaJob),
    let u := s.advance dt
    let n := bits (leAt j.slots 12 4) 19 0
    u.rwc.jobs = j :: l ∧ u.queueGen j.queue = j.entry.gen ∧ u.saValid n = true ∧ 3 ≤ (u.sa n).kind ∧ opSuits (u.sa n).kind (leAt j.slots 8 1) = true ∧ (u.queue j.queue).owner.map (fun (x : BitVec 16) => x.toNat) = some (u.sa n).instance_ ∧ (u.sa n).st ≠ 2 ∧ u.lanes = []) ∧
    (∃ (s : State) (dt : Nat) (d : List Byte) (j : LaJob) (l : List LaJob),
    let u := s.advance dt
    let n := bits (leAt j.slots 12 4) 19 0
    let len := bits (leAt j.slots 40 4) 23 0
    let who := (u.queue j.queue).owner
    let tag := (jobData (u.sa n) 2 [] (slicePad j.slots 48 16) (slicePad d 0 len) (leAt j.slots 9 1)).2
    let r := (u.pickLane.2.readFor who (leAt j.slots 16 8) len (.ok d)).2
    u.rwc.jobs = j :: l ∧ u.queueGen j.queue = j.entry.gen ∧ u.saValid n = true ∧ (u.sa n).kind = 9 ∧ leAt j.slots 8 1 = 2 ∧ 16 ≤ leAt j.slots 9 1 ∧ leAt j.slots 9 1 ≤ 32 ∧ who.map (fun (x : BitVec 16) => x.toNat) = some (u.sa n).instance_ ∧ (u.sa n).st ≠ 2 ∧ u.freeLanes ≠ [] ∧ u.bmeOn = true ∧ (u.pickLane.2.readFor who (leAt j.slots 16 8) len (.ok d)).1 = some (some d) ∧ (r.hostReady who [(leAt j.slots 32 8, tag.length)]).1 = some true) ∧
    (∃ (s : State) (dt : Nat) (a : BitVec 20),
    let u := s.advance dt
    (u.sa a.toNat).field 447 384 ≠ 0 ∧ (u.sa a.toNat).field 447 384 ≤ u.repTime 27 ∧ (u.sa a.toNat).st < 2) :=
  ⟨⟨{ up with rwc := { input := [(.ingress 1, item)] } }, 0, 1, item, [], by decide +kernel⟩,
   ⟨{ ciph with rwc := { input := [(.macTx 0, { item with fields := [(fSA, 0x100000)] })], sas := [(0, { words := BitVec.ofNat 512 (2 ^ 31 + 2 * 2 ^ 27), key := 5 })] } }, 0, 0, { item with fields := [(fSA, 0x100000)] }, [], by decide +kernel⟩,
   ⟨{ up with rwc := { input := [(.macRx 0, item)] } }, 0, 0, item, [], by decide +kernel⟩,
   ⟨{ up with rwc := { jobs := [{ queue := 0, entry := { queue := 0, no := 0, gen := 0 }, slots := [] }] } }, 0, { queue := 0, entry := { queue := 0, no := 0, gen := 0 }, slots := [] }, [], by decide +kernel⟩,
   ⟨{ ciph with rwc := { jobs := [{ queue := 0, entry := { queue := 0, no := 0, gen := 0 }, slots := slicePad [0, 0, 0, 0, 0, 0, 0, 0, 2, 16] 0 64 }], fenced := 0xFF, sas := [(0, { words := BitVec.ofNat 512 (2 ^ 31 + 9 * 2 ^ 27), key := 5 })] }, qim := { queue := [(0, { kind := 5, st := .enabled, owner := some 0 })] } }, 0, { queue := 0, entry := { queue := 0, no := 0, gen := 0 }, slots := slicePad [0, 0, 0, 0, 0, 0, 0, 0, 2, 16] 0 64 }, [], by decide +kernel⟩,
   ⟨{ ciph with rwc := { jobs := [{ queue := 0, entry := { queue := 0, no := 0, gen := 0 }, slots := slicePad [0, 0, 0, 0, 0, 0, 0, 0, 2, 16] 0 64 }], sas := [(0, { words := BitVec.ofNat 512 (2 ^ 31 + 9 * 2 ^ 27), key := 5 })] }, qim := { queue := [(0, { kind := 5, st := .enabled, owner := some 0 })] } }, 0, [1], { queue := 0, entry := { queue := 0, no := 0, gen := 0 }, slots := slicePad [0, 0, 0, 0, 0, 0, 0, 0, 2, 16] 0 64 }, [], by decide +kernel⟩,
   ⟨{ up with rwc := { sas := [(3, { words := BitVec.ofNat 512 (2 ^ 31 + 5 * 2 ^ 384) })] }, tim := { reps := [(27, { run := true, scaleA := some { value := 256 * 400000000000, since := 400000000000 } })] } }, 0, 3, by decide +kernel⟩⟩

theorem witness_CipherTablesComplete :
    (∃ (s : State) (v : Word),
    s.cmdTaken rwcTplBase = true ∧ (s.getReg rwcTplBase).getLsbD 31 = false ∧ v.getLsbD 31 = true) ∧
    (∃ (s : State) (v : Word),
    s.cmdTaken rwcSaBase = true ∧ (s.getReg rwcSaBase).getLsbD 31 = false ∧ v.getLsbD 31 = true) ∧
    (∃ (s : State) (v : Word),
    let u := fun (op : Nat) => s.setReg rwcSaCmd (BitVec.ofNat 32 (putBits v.toNat 3 0 op) &&& 0xF)
    let n := fun (op : Nat) => (u op).regBits rwcSaIndex 19 0
    s.cmdTaken rwcSaCmd = true ∧ (∀ op, (u op).saOn = true) ∧ (∀ op, n op < (u op).saCap) ∧ badSa (u 2).saData = false ∧ (u 2).saData.getLsbD 31 = true ∧ ((u 2).sa (n 2)).keyed = true ∧ ((u 3).sa (n 3)).valid = false) ∧
    (∃ (s : State),
    s.cmdTaken rwcTplCmd = true) ∧
    (∃ (s : State) (n : Nat),
    n = s.regBits rwcTplIndex 15 0 ∧ n < s.tplCap ∧ s.tplOn = true ∧ badTemplate (s.tplData.setWidth 1024) = false) ∧
    (∃ (s : State) (v : Word),
    s.cmdTaken (RWC + 0x304) = true ∧ v.getLsbD 0 = true) :=
  ⟨⟨up, 0x80000001, by decide +kernel⟩,
   ⟨up, 0x80000001, by decide +kernel⟩,
   ⟨ciph2, 1, by decide +kernel, fun op => by
      dsimp only [State.saOn]; rw [State.getReg_setReg_other _ _ (by decide), State.setReg_rwc]; decide +kernel, fun op => by
      dsimp only [State.regBits, State.regNat, State.saCap]
      rw [State.getReg_setReg_other _ _ (by decide), State.setReg_mem]; decide +kernel, by decide +kernel⟩,
   ⟨up, by decide +kernel⟩,
   ⟨ciph, 0, by decide +kernel⟩,
   ⟨up, 1, by decide +kernel⟩⟩

theorem witness_LaneTestsComplete :
    (∃ (s : State) (dt : Nat) (l : Fin 8),
    let u := s.advance dt
    u.testing l.val = true) ∧
    (∃ (s : State) (dt : Nat) (lvl : Fin 4),
    let u := s.advance dt
    u.objTaken = true ∧ 1 ≤ lvl.val ∧ u.running = true ∧ u.powered 95 = true ∧ u.gloveH.peerUp = true ∧ u.powered 57 = true ∨ u.powered 58 = true) :=
  ⟨⟨{ up with tim := { reps := [(27, { run := true, scaleA := some { value := 256 * 400000000000, since := 400000000000 } })] } }, 0, 0, by decide +kernel⟩,
   ⟨up, 0, 2, by decide +kernel⟩⟩

theorem witness_SessionCommandsComplete :
    (∃ (s : State) (v : Word),
    s.cmdTaken trnCtxBase = true ∧ (s.getReg trnCtxBase).getLsbD 31 = false ∧ v.getLsbD 31 = true ∧ bits v.toNat 13 0 % 512 = 0) ∧
    (∃ (s : State) (v : Word),
    s.cmdTaken trnIdxBase = true ∧ (s.getReg trnIdxBase).getLsbD 31 = false ∧ v.getLsbD 31 = true ∧ bits v.toNat 13 0 % 256 = 0) ∧
    (∃ (s : State) (v : Word),
    let u := fun (op : Nat) => s.setReg trnCmd (BitVec.ofNat 32 (putBits v.toNat 3 0 op) &&& 0x10F)
    let n := fun (op : Nat) => (u op).regBits trnSession 20 0
    s.cmdTaken trnCmd = true ∧ (∀ op, (u op).trnOn = true) ∧ n 2 < (u 2).sessCap ∧ (BitVec.ofNat 32 (putBits v.toNat 3 0 2)).getLsbD 8 = false ∧ n 4 < (u 4).sessCap ∧ 1 ≤ ((u 4).sess (n 4)).st ∧ ((u 4).sess (n 4)).st ≤ 3) ∧
    (∃ (s : State) (c : BitVec 2048) (key : BitVec 320) (k : Nat),
    let i := Sess.owner { ctx := c }
    s.trnOn = true ∧ s.badCtx c = false ∧ s.sessUsed i < s.regBits (sessQuota i) 21 0 ∧ s.trn.sess.length < s.sessCap ∧ s.idxFind key = none ∧ (s.idxSlots key).find? (fun k => (s.idxEntry k).isNone) = some k) ∧
    (∃ (s : State) (dt : Nat) (n : BitVec 21),
    let u := s.advance dt
    (u.sess n.toNat).st = 4 ∧ u.trnDue (u.sess n.toNat).quarAt (usec 100) = true) :=
  ⟨⟨up, 0x80000200, by decide +kernel⟩,
   ⟨up, 0x80000200, by decide +kernel⟩,
   ⟨trnLive, 1, by decide +kernel, fun op => by
      dsimp only [State.trnOn, State.powered]
      rw [State.getReg_setReg_other _ _ (by decide), State.getReg_setReg_other _ _ (by decide), State.setReg_trn, State.setReg_pwr]
      decide +kernel, by decide +kernel⟩,
   ⟨trn, BitVec.ofNat 2048 (3 + 2 ^ 544), 0, (trn.idxSlots 0).head?.getD 0, by decide +kernel⟩,
   ⟨{ up with trn := { sess := [(5, { ctx := BitVec.ofNat 2048 (2 ^ 31) })] } }, 0, 5, by decide +kernel⟩⟩

theorem witness_SessionTrafficCompletes :
    (∃ (s : State) (dt : Nat) (i : Item) (l : List Item),
    let u := (s.advance dt)
    let n := i.fld fSESSION % 2 ^ 21
    let v := u.healSess n
    let w : State := { v with trn := { v.trn with input := l } }
    (u.powered 67 && u.powered 68) = true ∧ u.trn.input = i :: l ∧ (v.sess n).kind ≠ 1 ∧ w.sessGate n i = none ∧ w.badBuf i.bufs i.frame.length = none) ∧
    (∃ (s : State) (n : Nat) (i : Item),
    let g := segOf i.frame
    g.tcp = true ∧ g.rst = false ∧ g.syn = false ∧ g.urg = false ∧ g.badOpt = false ∧ (s.sess n).tsOn = false ∧ g.seq = (s.sess n).rcvNxt ∧ g.data ≠ [] ∧ 0 < s.rcvWnd n ∧ (g.isAck = true → seqGap 32 (s.sess n).nxt g.ack ≤ 0)) ∧
    (∃ (s : State) (dt : Nat) (i : Item) (l : List Item),
    let u := (s.advance dt)
    let n := i.fld fSESSION % 2 ^ 21
    let v := u.healSess n
    let w : State := { v with trn := { v.trn with input := l } }
    let p := rpktOf i.frame
    (u.powered 67 && u.powered 68) = true ∧ u.trn.input = i :: l ∧ (v.sess n).kind = 1 ∧ w.sessGate n i = none ∧ w.badBuf i.bufs i.frame.length = none ∧ p.ok = true ∧ p.op = 0x81) ∧
    (∃ (s : State) (dt : Nat) (i : Item) (l : List Item),
    let u := (s.advance dt)
    let n := i.fld fSESSION % 2 ^ 21
    let v := u.healSess n
    let w : State := { v with trn := { v.trn with input := l } }
    let p := rpktOf i.frame
    (u.powered 67 && u.powered 68) = true ∧ u.trn.input = i :: l ∧ (v.sess n).kind = 1 ∧ w.sessGate n i = none ∧ w.badBuf i.bufs i.frame.length = none ∧ p.ok = true ∧ p.op = 0x11 ∧ p.ce = false) ∧
    (∃ (s : State) (dt : Nat) (i : Item) (l : List Item),
    let u := (s.advance dt)
    let n := i.fld fSESSION % 2 ^ 21
    let v := u.healSess n
    let w : State := { v with trn := { v.trn with input := l } }
    let p := rpktOf i.frame
    (u.powered 67 && u.powered 68) = true ∧ u.trn.input = i :: l ∧ (v.sess n).kind = 1 ∧ w.sessGate n i = none ∧ w.badBuf i.bufs i.frame.length = none ∧ p.ok = true ∧ p.op ≤ 5 ∧ p.ce = false ∧ seqGap 24 (w.sess n).rcvNxt p.psn = 0) ∧
    (∃ (s : State) (i : Item), (s.powered 67 && s.powered 68) = true ∧ s.trn.input = [i] ∧ (s.sess 0).kind = 1 ∧
      ({ s with trn := { s.trn with input := [] } } : State).sessGate 0 i = none ∧ s.badBuf i.bufs i.frame.length = none ∧
      (rpktOf i.frame).ok = true ∧
      (({ s with trn := { s.trn with input := [] } } : State).rdmaPacket 0 i .error).1.isSome = true) ∧
    (∃ (s : State) (dt : Nat) (p : Pdu) (l : List Pdu),
    let u := s.advance dt
    u.trn.pdus = p :: l ∧ ((u.sess p.session).st = 1 ∨ (u.sess p.session).st = 2) ∧ hdgstOk (u.sess p.session) p.data = true ∧ ddgstOk (u.sess p.session) p.data = true ∧ leAt p.data 0 1 ≠ 6 ∧ leAt p.data 0 1 ≠ 7) ∧
    (∃ (s : State) (dt : Nat) (e : List Byte) (p : Pdu) (l : List Pdu),
    let u := s.advance dt
    let v : State := { u with trn := { u.trn with pdus := l } }
    let x := u.sess p.session
    let who := some (BitVec.ofNat 16 x.owner)
    let body := slice p.data (pduData x p.data).1 (pduData x p.data).2
    let r := (v.unitRead who (Sess.f x 0x54 63 0 + 32 * (pduTag p.data % 2 ^ Sess.f x 0x50 20 16)) 32 (.ok e)).2
    u.trn.pdus = p :: l ∧ (x.st = 1 ∨ x.st = 2) ∧ hdgstOk x p.data = true ∧ ddgstOk x p.data = true ∧ (leAt p.data 0 1 = 6 ∨ leAt p.data 0 1 = 7) ∧ (v.unitRead who (Sess.f x 0x54 63 0 + 32 * (pduTag p.data % 2 ^ Sess.f x 0x50 20 16)) 32 (.ok e)).1 = some (some e) ∧ placeMiss x p.data e = none ∧ bit (leAt e 2 1) 6 = false ∧ body ≠ [] ∧ (r.unitPut 6 who (leAt e 8 8 + leAt p.data 12 4) body).1 = some true) ∧
    (∃ (s : State) (dt : Nat) (n : BitVec 21) (x : Nat),
    let u := s.advance dt
    (u.sess n.toNat).ackAt = some x ∧ (u.sess n.toNat).st = 1 ∧ u.trnOn = true ∧ u.trnDue x (usec (u.regBits (TRN + 0x204) 9 0)) = true) ∧
    (∃ (s : State) (dt : Nat) (n : BitVec 21),
    let u := (s.advance dt).healSess n.toNat
    u.trnOn = true ∧ (u.sess n.toNat).st = 1) ∧
    (∃ (s : State) (dt : Nat) (n : BitVec 21) (x : Nat),
    let u := s.advance dt
    (u.sess n.toNat).rtoAt = some x ∧ (u.sess n.toNat).st = 1 ∧ u.trnOn = true ∧ u.trnDue x (usec (u.rtoBound (u.sess n.toNat).rto)) = true ∧ (u.sess n.toNat).retries + 1 < u.regBits (TRN + 0x210) 4 0) :=
  ⟨⟨trnItem 0 item, 0, item, [], by decide +kernel⟩,
   ⟨{ trn with trn := { sess := [(0, { sess 0 with edge := 100 })] } }, 0, seg, by decide +kernel⟩,
   ⟨trnItem 1 { frame := rpkt 0x81 [] }, 0, { frame := rpkt 0x81 [] }, [], by decide +kernel⟩,
   ⟨trnItem 1 { frame := rpkt 0x11 [0, 0, 0, 0] }, 0, { frame := rpkt 0x11 [0, 0, 0, 0] }, [], by decide +kernel⟩,
   ⟨trnItem 1 { frame := rpkt 4 [] }, 0, { frame := rpkt 4 [] }, [], by decide +kernel⟩,
   ⟨trnItem 1 { frame := rpkt 0x81 [] }, { frame := rpkt 0x81 [] }, by decide +kernel⟩,
   ⟨{ up with trn := { pdus := [{ session := 0, seq := 0, data := [4], tag := {}, mac := none, stream := 0, lclass := 0, final := true }], sess := [(0, sess 0)] } }, 0, { session := 0, seq := 0, data := [4], tag := {}, mac := none, stream := 0, lclass := 0, final := true }, [], by decide +kernel⟩,
   ⟨{ trn with trn := { pdus := [c2h], sess := [(0, sess 0)] } }, 0, placeEnt, c2h, [], by decide +kernel⟩,
   ⟨{ trn with trn := { sess := [(0, { sess 0 with ackAt := some 0 })] } }, 0, 0, 0, by decide +kernel⟩,
   ⟨{ trn with trn := { sess := [(0, sess 0)] } }, 0, 0, by decide +kernel⟩,
   ⟨{ trn.setReg (TRN + 0x210) 5 with trn := { sess := [(0, { sess 0 with rtoAt := some 0 })] } }, 0, 0, 0, by decide +kernel⟩⟩

theorem witness_TrafficCommandsComplete :
    (∃ (s : State) (dt : Nat) (i : Item) (leaf : Nat) (l : List (Item × Nat)),
    let u := s.advance dt
    u.tmg.input = (i, leaf) :: l) ∧
    (∃ (s : State) (dt : Nat),
    let n := (s.advance dt).refillsDue
    n ≠ 0 ∧ s.tmg.pend = []) ∧
    (∃ (s : State) (dt : Nat),
    (s.advance dt).refillsDue = 0) ∧
    (∃ (s : State) (dt : Nat) (k : Fin 128) (leaf : Nat) (x : Nat) (f : TmFrame) (l : List TmFrame),
    let u := s.advance dt
    Map.get u.tmg.head k.val = some (leaf, x) ∧ u.regBits (TMG + 0xC04 + 8 * k.val) 15 0 ≠ 0 ∧ u.due x (msec (u.regBits (TMG + 0xC04 + 8 * k.val) 15 0)) = true ∧ (u.node 0 leaf).frames = f :: l) ∧
    (∃ (s : State),
    s.cmdTaken tmgCmd = true ∧ s.tmg.busy = false) ∧
    (∃ (s : State) (a : Nat) (v : Word) (r : RegRow) (i : Nat) (j : Nat),
    s.cmdTaken a = true ∧ findReg a = some (r, i, j, 0) ∧ TMG + 0x100 ≤ a ∧ a < TMG + 0xC00 ∧ r.acc = .rwg ∧ tmgRateOk a v = true) ∧
    (∃ (s : State) (dt : Nat) (i : Item) (p : Fin 4) (l : List (Item × Fin 4)),
    let u := s.advance dt
    let v : State := { u with tmg := { u.tmg with polIn := l } }
    let q := bits (i.fld fPOLICER) 17 0
    let need : Int := ((frameLen (i.fld fLEN) : Nat) + (v.node 3 q).overhead) * 8000
    u.tmg.polIn = (i, p) :: l ∧ q < v.nodeCap 3 ∧ (v.node 3 q).en = true ∧ need ≤ (v.node 3 q).level) :=
  ⟨⟨{ up with tmg := { input := [(item, 5)] } }, 0, item, 5, [], by decide +kernel⟩,
   ⟨up, 0, by decide +kernel⟩,
   ⟨{ up with tmg := { refillAt := 400000000000 } }, 0, by decide +kernel⟩,
   ⟨{ up.setReg (TMG + 0xC04) 1 with tmg := { head := [(0, (5, 0))], leaf := [(5, { frames := [{ item := item, flen := 64, enq := 0, ovf := false }] })] } }, 0, 0, 5, 0, { item := item, flen := 64, enq := 0, ovf := false }, [], by decide +kernel⟩,
   ⟨up, by decide +kernel⟩,
   ⟨up, TMG + 0x100, 1, (rowAt (TMG + 0x100)).1, (rowAt (TMG + 0x100)).2.1, (rowAt (TMG + 0x100)).2.2.1, by decide +kernel⟩,
   ⟨{ up with tmg := { polIn := [(item, 0)], pol := [(0, { words := 0x80000000, level := 1000000 })] } }, 0, item, 0, [], by decide +kernel⟩⟩

theorem witness_LinkStateCommandsComplete :
    (∃ (s : State) (w : BitVec 5) (r : BitVec 4) (f : Bool),
    s.hep.up = false ∧ linkOk w r f = true ∧ s.powered 1 = true ∧ s.powered 2 = true) ∧
    (∃ (s : State) (w : BitVec 5) (r : BitVec 4) (f : Bool),
    s.hep.up = true ∧ linkOk w r f = true) ∧
    (∃ (s : State),
    s.hep.up = true) ∧
    (∃ (s : State),
    s.hep.up = true) ∧
    (∃ (s : State),
    s.hep.up = true ∧ s.hep.crs = false ∧ s.hep.flrAt = none) ∧
    (∃ (s : State),
    s.hep.up = true ∧ s.hep.crs = false ∧ s.hep.flrAt = none) ∧
    (∃ (s : State),
    s.hep.up = true ∧ s.hep.crs = false ∧ s.hep.flrAt = none) ∧
    (∃ (s : State),
    s.hep.up = true ∧ s.hep.crs = true ∨ s.hep.flrAt ≠ none ∧ s.hep.crs = true) ∧
    (∃ (s : State),
    s.hep.up = true ∧ s.hep.crs = true ∨ s.hep.flrAt ≠ none ∧ s.hep.flrAt ≠ none) ∧
    (∃ (s : State),
    s.hep.up = true ∧ s.hep.crs = false ∧ s.hep.flrAt = none) ∧
    (∃ (s : State) (x : Nat),
    s.hep.flrAt = some x) ∧
    (∃ (s : State) (dt : Nat) (x : Nat) (n : Nat) (l : List Nat),
    (x, n, l) ∈ s.hep.quarAt ∧ x + n ≤ s.clock + dt) ∧
    (∃ (s : State),
    s.hep.up = true ∧ s.hep.crs = false ∧ s.hep.flrAt = none) ∧
    (∃ (s : State),
    s.hep.up = true ∧ s.hep.crs = false ∧ s.hep.flrAt = none ∧ s.hep.d3 = true) ∧
    (∃ (s : State),
    s.hep.up = true ∧ s.hep.crs = false ∧ s.hep.flrAt = none) ∧
    (∃ (s : State),
    s.hep.up = true ∧ s.hep.crs = false ∧ s.hep.flrAt = none) :=
  ⟨⟨{ up with hep := {} }, 16, 5, false, by decide +kernel⟩,
   ⟨up, 8, 4, true, by decide +kernel⟩,
   ⟨(up), by decide +kernel⟩,
   ⟨up, by decide +kernel⟩,
   ⟨up, by decide +kernel⟩,
   ⟨(up), by decide +kernel⟩,
   ⟨up, by decide +kernel⟩,
   ⟨{ up with hep := { up.hep with crs := true } }, by decide +kernel⟩,
   ⟨{ up with hep := { up.hep with flrAt := some 0 } }, by decide +kernel⟩,
   ⟨up, by decide +kernel⟩,
   ⟨{ up with hep := { flrAt := some 0 } }, 0, by decide +kernel⟩,
   ⟨{ up with hep := { quarAt := [(0, 1, [5])] } }, 0, 0, 1, [5], by decide +kernel⟩,
   ⟨(up), by decide +kernel⟩,
   ⟨{ up with hep := { up.hep with d3 := true } }, by decide +kernel⟩,
   ⟨up, by decide +kernel⟩,
   ⟨up, by decide +kernel⟩⟩

theorem witness_RequestCommandsComplete :
    (∃ (s : State) (rid : BitVec 16) (off : Nat) (n : Nat),
    let u := s.rxRequest
    let e := Map.at_ s.hep.win (off / 2 ^ 28) (0, 0)
    let a := e.2.toNat + off % 2 ^ 28
    u.barOpen = true ∧ closedWin e rid (off % 2 ^ 28) n false = false ∧ u.accessBad a n = false ∧ u.readBad a n = false) ∧
    (∃ (s : State) (rid : BitVec 16) (off : Nat) (d : List Byte),
    let u := s.rxPosted d.length
    let e := Map.at_ s.hep.win (off / 2 ^ 28) (0, 0)
    let a := e.2.toNat + off % 2 ^ 28
    u.barOpen = true ∧ closedWin e rid (off % 2 ^ 28) d.length true = false ∧ u.accessBad a d.length = false) ∧
    (∃ (s : State) (rid : BitVec 16) (off : Nat) (n : Nat),
    let u := s.rxRequest
    let e := Map.at_ s.hep.win (off / 2 ^ 28) (0, 0)
    u.barOpen = true ∧ closedWin e rid (off % 2 ^ 28) n false = true) ∧
    (∃ (s : State) (rid : BitVec 16) (off : Nat) (n : Nat),
    let u := s.rxRequest
    u.barOpen = true ∧ closedWin (Map.at_ s.hep.win (off / 2 ^ 28) (0, 0)) rid (off % 2 ^ 28) n false = false) ∧
    (∃ (s : State) (v : Word),
    s.cmdTaken hepWinCmd = true ∧ s.winBusy = false ∧ v.getLsbD 0 = true ∧ (∀ w, w < 256 → badWin (s.stagedWin w) = false)) ∧
    (∃ (s : State) (v : Word) (w : Nat),
    s.cmdTaken hepWinCmd = true ∧ s.winBusy = false ∧ v.getLsbD 0 = true ∧ w < 256 ∧ badWin (s.stagedWin w) = true) ∧
    (∃ (s : State) (dt : Nat) (tag : BitVec 14) (d : List Byte) (use : TagUse),
    let u := (s.advance dt).rxCpl 0 d.length
    Map.get u.hep.tags tag.toNat = some use) ∧
    (∃ (s : State) (dt : Nat) (tag : BitVec 14) (use : TagUse),
    let u := (s.advance dt).rxCpl 0 0
    Map.get u.hep.tags tag.toNat = some use) ∧
    (∃ (s : State) (dt : Nat),
    let u := (s.advance dt).rxCpl 0 0
    u.ecrcOn = true) ∧
    (∃ (s : State) (dt : Nat) (tag : BitVec 14) (use : TagUse),
    let u := s.advance dt
    Map.get u.hep.tags tag.toNat = some use) ∧
    (∃ (s : State) (v : BitVec 11),
    s.msixOpen v.toNat = true) ∧
    (∃ (s : State) (v : BitVec 11),
    s.msixOpen v.toNat = false) ∧
    (∃ (s : State) (v : BitVec 11),
    v.toNat ∈ s.hep.pend ∧ s.msixOpen v.toNat = true) ∧
    (∃ (s : State) (v : BitVec 18) (g : Byte) (i : Nat) (x : Inst),
    s.qim.inst.find? (fun e => decide (e.2.st ≠ .free ∧ e.2.vbase ≤ v.toNat ∧ v.toNat < e.2.vbase + e.2.vcount)) = some (i, x) ∧ x.gen = g) ∧
    (∃ (s : State),
    let n := s.regBits hepIvIndex 17 0
    let d : BitVec 128 := s.getReg (hepIvData 3) ++ s.getReg (hepIvData 2) ++ s.getReg (hepIvData 1) ++ s.getReg (hepIvData 0)
    let e := (d &&& ((0xC000FFFF <<< 96) ||| 0xFFFFFFFFFFFFFFFFFFFFFFFC)) ||| (s.iv n &&& (3 <<< 124))
    s.cmdTaken hepIvCmd = true ∧ (d.extractLsb' 96 16).toNat < s.instCap ∧ e.getLsbD 125 = false ∧ e ≠ s.hep.ivDflt) ∧
    (∃ (s : State) (p : Option (BitVec 20)) (page : Nat) (w : AtsWait),
    s.hep.ats = true ∧ w ∈ s.hep.atsWait ∧ w.pasid = p ∧ w.page = page ∧ (∀ i ∈ s.hep.inval, i.covers p page = false) ∧ s.hep.cache.length < 65536) ∧
    (∃ (s : State),
    s.hep.tags = [] ∧ s.hep.inval = [] ∧ (∀ e ∈ s.dma.ch, e.2.queue = [])) ∧
    (∃ (s : State) (r : List Byte),
    s.hep.up = true ∧ s.hep.crs = false ∧ s.hep.flrAt = none ∧ r.length ≤ 4088 ∧ s.hep.doe = none ∧ spdmKind r = 1) ∧
    (∃ (s : State) (r : List Byte),
    s.hep.up = true ∧ s.hep.crs = false ∧ s.hep.flrAt = none ∧ r.length ≤ 4088 ∧ s.hep.doe = none ∧ beAt r 0 1 = 0x12 ∧ s.hep.spdm ≠ 0 ∧ spdmKind r = 2) ∧
    (∃ (s : State) (r : List Byte),
    s.hep.up = true ∧ s.hep.crs = false ∧ s.hep.flrAt = none ∧ r.length ≤ 4088 ∧ s.hep.doe = none ∧ beAt r 0 1 = 0x12 ∧ s.hep.spdm ≠ 0 ∧ spdmKind r = 3) ∧
    (∃ (s : State) (dt : Nat) (r : List Byte),
    let u := (s.advance dt).rxRequest
    s.hep.up = true ∧ s.hep.crs = false ∧ s.hep.flrAt = none ∧ r.length ≤ 4088 ∧ s.hep.doe = none ∧ beAt r 0 1 = 0x12 ∧ s.hep.spdm ≠ 0 ∧ 3 ≤ s.hep.spdm ∧ spdmKind r = 7 ∧ s.field.life ≠ 3 ∧ measSigned r = false ∧ (u.measAnswer r (u.freeBytes 32)).isSome = true) ∧
    (∃ (s : State) (r : List Byte),
    s.hep.up = true ∧ s.hep.crs = false ∧ s.hep.flrAt = none ∧ r.length ≤ 4088 ∧ s.hep.doe = none ∧ beAt r 0 1 = 0x12 ∧ s.hep.spdm ≠ 0 ∧ 3 ≤ s.hep.spdm ∧ spdmKind r = 5 ∧ beAt r 2 1 % 16 ≤ 1 ∧ s.gloveH.peerUp = true) ∧
    (∃ (s : State) (r : List Byte),
    s.hep.up = true ∧ s.hep.crs = false ∧ s.hep.flrAt = none ∧ 4088 < r.length) :=
  ⟨⟨{ up with hep := { up.hep with win := [(0, (0xE0100000, 0x001000000000))] } }, 7, 16, 8, by decide +kernel⟩,
   ⟨{ up with hep := { up.hep with win := [(0, (0xE0100000, 0x001000000000))] } }, 7, 16, [1, 2, 3, 4], by decide +kernel⟩,
   ⟨up, 7, 16, 8, by decide +kernel⟩,
   ⟨{ up with hep := { up.hep with win := [(0, (0xE0100000, 0x001000000000))] } }, 7, 16, 8, by decide +kernel⟩,
   ⟨up, 1, by decide +kernel⟩,
   ⟨up.setReg (HEP + 0x10000) 0x80000000, 1, 0, by decide +kernel⟩,
   ⟨{ up with hep := { up.hep with tags := [(256, .flush 600 1 [])] } }, 0, 256, [1], .flush 600 1 [], by decide +kernel⟩,
   ⟨{ up with hep := { up.hep with tags := [(256, .flush 600 1 [])] } }, 0, 256, .flush 600 1 [], by decide +kernel⟩,
   ⟨ecrc, 0, by decide +kernel⟩,
   ⟨{ up with hep := { up.hep with tags := [(256, .flush 600 1 [])] } }, 0, 256, .flush 600 1 [], by decide +kernel⟩,
   ⟨{ up with hep := { up.hep with msix := true } }.setReg (msixEntry 5 + 12) 0, 5, by decide +kernel⟩,
   ⟨up, 5, by decide +kernel⟩,
   ⟨{ up with hep := { up.hep with msix := true, pend := [5] } }.setReg (msixEntry 5 + 12) 0, 5, by decide +kernel⟩,
   ⟨inst, 1, 1, 3, { st := .active, gen := 1, qbase := 0, qcount := 4, vbase := 0, vcount := 2 }, by decide +kernel⟩,
   ⟨up.setReg (hepIvData 0) 4, by decide +kernel⟩,
   ⟨{ up with hep := { up.hep with ats := true, atsWait := [{ pasid := some 1, page := 2, ch := 4096 }] } }, some 1, 2, { pasid := some 1, page := 2, ch := 4096 }, by decide +kernel⟩,
   ⟨(up), by decide +kernel⟩,
   ⟨up, [0x12, 0x84, 0, 0], by decide +kernel⟩,
   ⟨{ up with hep := { up.hep with spdm := 3 } }, [0x12, 0xE1, 0, 0], by decide +kernel⟩,
   ⟨{ up with hep := { up.hep with spdm := 3 } }, [0x12, 0xE3, 0, 0], by decide +kernel⟩,
   ⟨{ up with hep := { up.hep with spdm := 3 } }, 0, [0x12, 0xE0, 0, 0], by decide +kernel⟩,
   ⟨{ up with hep := { up.hep with spdm := 3 } }, [0x12, 0x82, 0, 0], by decide +kernel⟩,
   ⟨up, List.replicate 4089 0, by decide +kernel⟩⟩

theorem witness_QueueCommandsComplete :
    (∃ (s : State) (dt : Nat) (q : BitVec 20) (b : List Byte),
    let u := s.advance dt
    let x := u.queue q.toNat
    let at_ := x.head + BitVec.ofNat 32 x.fetched.length
    let room := min ((x.tail - x.head).toNat + 64 - x.fetched.length) (x.size - at_.toNat % x.size)
    let v := (u.place q.toNat).2
    u.mayFetch q.toNat = true ∧ x.stopped = false ∧ (u.place q.toNat).1 = true ∧ slotsOf room b ≠ [] ∧ (v.unitRead x.owner (x.ring.toNat + 16 * (at_.toNat % x.size)) (16 * (slotsOf room b).length) (.ok b)).1 = some (some b)) ∧
    (∃ (s : State) (dt : Nat) (q : BitVec 20) (h : List Byte) (l : List (List Byte)),
    let u := (s.advance dt).settleSends
    let x := u.queue q.toNat
    let n := x.taken x.head h
    u.pipeHolds x = false ∧ x.ents.find? (fun e => e.waits x.kind) = none ∧ x.fetched = h :: l ∧ u.mayFetch q.toNat = true ∧ n ≤ x.fetched.length ∧ n ≤ (x.tail - x.head).toNat ∧ entryLen h ≤ n ∧ leAt (x.fetched.take n).flatten 1 1 = 0 ∧ (u.passHead q.toNat n true).1 = true) ∧
    (∃ (s : State) (dt : Nat) (q : BitVec 20) (h : List Byte) (r : ReadData) (g : Option (List Byte)) (l : List (List Byte)),
    let u := (s.advance dt).settleSends
    let x := u.queue q.toNat
    let n := x.taken x.head h
    let b := (x.fetched.take n).flatten
    let v := (u.place q.toNat).2
    let w := (v.entryRead x b r).2
    x.ents.find? (fun e => e.waits x.kind) = none ∧ x.fetched = h :: l ∧ u.mayFetch q.toNat = true ∧ n ≤ x.fetched.length ∧ n ≤ (x.tail - x.head).toNat ∧ entryLen h ≤ n ∧ leAt b 1 1 ≠ 0 ∧ 2 < x.kind ∧ (u.place q.toNat).1 = true ∧ v.malformed q.toNat b false = false ∧ (v.entryRead x b r).1 = some g ∧ (w.passHead q.toNat n true).1 = true) ∧
    (∃ (s v w z y : State) (dt : Nat) (q : BitVec 20) (h : List Byte) (r : ReadData) (g : Option (List Byte))
    (l : List (List Byte)) (buf : Word),
    let u := (s.advance dt).settleSends
    let x := u.queue q.toNat
    let n := x.taken x.head h
    let b := (x.fetched.take n).flatten
    u.pipeHolds x = false ∧ x.ents.find? (fun e => e.waits x.kind) = none ∧ x.fetched = h :: l ∧ u.mayFetch q.toNat = true ∧ n ≤ x.fetched.length ∧ n ≤ (x.tail - x.head).toNat ∧ entryLen h ≤ n ∧ leAt b 1 1 ≠ 0 ∧ x.kind ≤ 2 ∧ u.txWaits x = false ∧ u.place q.toNat = (true, v) ∧ v.malformed q.toNat b false = false ∧ v.entryRead x b r = (some g, w) ∧ w.passHead q.toNat n true = (true, z) ∧ (z.addEntry q.toNat b x.stampAt).txBuffer x (entryBytes x.kind (leAt b 1 1) b) = (some buf, y)) ∧
    (∃ (s : State) (d : Delivery), s.qim.deliv = [d] ∧ d.gen = none ∧ (s.queue d.queue).kind = 3 ∧ (s.queue d.queue).st = .enabled ∧
      s.ownerRuns (s.queue d.queue) = true ∧ (s.queue d.queue).back = [] ∧
      (({ s with qim := { s.qim with deliv := [] } } : State).putItem d).1.isSome = true) ∧
    (∃ (s : State) (d : Delivery), s.qim.deliv = [d] ∧ d.gen = none ∧ (s.queue d.queue).kind = 3 ∧ (s.queue d.queue).st = .enabled ∧
      s.ownerRuns (s.queue d.queue) = true ∧ (s.queue d.queue).back = [] ∧
      (({ s with qim := { s.qim with deliv := [] } } : State).putItem d).1.isNone = true) ∧
    (∃ (s : State) (d : Delivery), (s.queue 2).back = [d] ∧ (s.queue 2).st = .enabled ∧ s.ownerRuns (s.queue 2) = true ∧
      (s.queue 2).owner = none ∧ (s.putItem d).1.isSome = true) ∧
    (∃ (s : State) (dt : Nat) (q : BitVec 20) (x : Nat) (i : BitVec 16),
    let u := s.advance dt
    (u.queue q.toNat).fullAt = some x ∧ (u.queue q.toNat).kind = 7 ∧ u.due x (msec (u.regBits qimCqStall 15 0)) = true ∧ (u.queue q.toNat).owner = some i ∧ (u.inst i.toNat).st = .active) ∧
    (∃ (s : State) (v : Word),
    s.cmdTaken qimAqTail = true ∧ 0 ≤ (v - s.getReg qimAqTail).toInt ∧ (v - s.qim.aqHead).toNat ≤ 2 ^ s.regBits qimAqCfg 4 0) ∧
    (∃ (s : State) (dt : Nat) (i : BitVec 16) (x : Nat) (b : Bool),
    let u := s.advance dt
    (u.inst i.toNat).resetAt = some (x, b) ∧ x + usec 2 ≤ u.clock) ∧
    (∃ (s : State) (v : Word),
    s.cmdTaken (QIM + 0xA8) = true ∧ v.getLsbD 0 = true) :=
  ⟨⟨work, 0, 0, slot 1 ++ slot 1, by decide +kernel⟩,
   ⟨{ work with qim := { queue := [(0, { kind := 4, st := .enabled, cq := 1, tail := 2, fetched := [slot 0] }), (1, { kind := 7, st := .enabled })] } }, 0, 0, slot 0, [], by decide +kernel⟩,
   ⟨{ work with qim := { queue := [(0, { kind := 6, st := .enabled, cq := 1, tail := 4, fetched := [head2, slot 0] }), (1, { kind := 7, st := .enabled })] } }, 0, 0, head2, .error, none, [slot 0], by decide +kernel⟩,
   by
    obtain ⟨x, t, g, -⟩ := (txZ.addEntry 0 txB txX.stampAt).alloc_granted 34 65536 false 0 none (by decide +kernel) (by decide +kernel)
      (by decide +kernel) (by decide +kernel)
    have k : (txZ.addEntry 0 txB txX.stampAt).txBuffer txX 16 = (some x, t.fillBufs [x] 16) := by
      unfold State.txBuffer
      rw [show txX.bufInst = 65536 from by decide +kernel, State.allocLen_granted _ _ _ _ _ 16 0 _ _ (by decide) (by decide) g]
    refine ⟨txw, txV, txR, txZ, t.fillBufs [x] 16, 0, 0, txHead, .error, none, [slot 0], x, ?_⟩
    and_intros <;> first | exact k | decide +kernel,
   ⟨rxq, deliv, by decide +kernel⟩,
   ⟨{ inst with qim := { inst.qim with deliv := [deliv] } }, deliv, by decide +kernel⟩,
   ⟨backq, deliv, by decide +kernel⟩,
   ⟨{ inst with qim := { inst.qim with queue := [(1, { kind := 7, st := .enabled, owner := some 3, fullAt := some 0 })] } }, 0, 1, 0, 3, by decide +kernel⟩,
   ⟨up.setReg qimAqCfg 0x80000004, 4, by decide +kernel⟩,
   ⟨{ up with qim := { inst := [(3, { st := .resetting, resetAt := some (0, false) })] } }, 0, 3, 0, false, by decide +kernel⟩,
   ⟨up, 1, by decide +kernel⟩⟩

theorem witness_ChannelCommandsComplete :
    (∃ (s : State) (dt : Nat) (c : BitVec 12) (v : Word),
    let u := s.advance dt
    u.cmdTaken (dmaCmd c.toNat) = true ∧ 512 ≤ c.toNat ∧ bits v.toNat 3 0 = 1 ∧ (u.chan c.toNat).st = .idle) ∧
    (∃ (s : State) (c : BitVec 12) (v : Word),
    s.cmdTaken (dmaCmd c.toNat) = true ∧ 512 ≤ c.toNat ∧ bits v.toNat 3 0 = 2 ∧ (s.chan c.toNat).st ≠ .idle) ∧
    (∃ (s : State) (c : BitVec 12) (v : Word),
    let x := s.chan c.toNat
    s.cmdTaken (dmaCmd c.toNat) = true ∧ 512 ≤ c.toNat ∧ bits v.toNat 3 0 = 3 ∧ x.st = .haltedBme ∧ s.bmeOn = true ∧ x.ending = none ∧ x.flush = 0 ∧ x.prog ≠ []) ∧
    (∃ (s : State) (dt : Nat) (c : BitVec 12),
    let u := s.advance dt
    u.chReady c.toNat (u.chan c.toNat) = true ∧ u.arbiter = some c.toNat) ∧
    (∃ (s : State) (dt : Nat) (c : BitVec 12),
    let u := s.advance dt
    let x := u.chan c.toNat
    x.active = true ∧ x.flush = 0 ∧ x.op = 2) ∧
    (∃ (s : State) (dt : Nat) (c : BitVec 12),
    let u := s.advance dt
    let x := u.chan c.toNat
    x.active = true ∧ x.flush = 0 ∧ x.op = 3) ∧
    (∃ (s : State) (c : BitVec 12),
    (s.chan c.toNat).st = .waiting ∧ s.waitMet ((s.chan c.toNat).instr (s.chan c.toNat).pc) = true) ∧
    (∃ (s : State) (dt : Nat) (c : BitVec 12),
    let u := s.advance dt
    let n := leAt ((u.chan c.toNat).instr (u.chan c.toNat).pc) 12 4
    (u.chan c.toNat).st = .waiting ∧ n ≠ 0 ∧ (u.chan c.toNat).waitAt + usec n ≤ u.repTime 2) ∧
    (∃ (s : State) (dt : Nat) (c : BitVec 12),
    let u := s.advance dt
    let x := u.chan c.toNat
    let b := x.instr x.pc
    x.active = true ∧ x.flush = 0 ∧ x.op = 4 ∧ x.queue = [] ∧ bit (leAt b 1 1) 0 = false) ∧
    (∃ (s : State) (dt : Nat) (c : BitVec 12),
    let u := s.advance dt
    (u.chan c.toNat).active = true ∧ (u.chan c.toNat).flush = 0 ∧ (u.chan c.toNat).op = 5) ∧
    (∃ (s : State) (dt : Nat) (c : BitVec 12),
    let u := s.advance dt
    let x := u.chan c.toNat
    x.flush = 2 ∧ x.st = .running ∧ x.ending = none) :=
  ⟨⟨up, 0, 600, 1, by decide +kernel⟩,
   ⟨{ up with dma := { ch := [(600, chan 5 [])] } }, 600, 2, by decide +kernel⟩,
   ⟨{ up with dma := { ch := [(600, { chan 1 [] with st := .haltedBme })] } }, 600, 3, by decide +kernel⟩,
   ⟨{ up with dma := { ch := [(600, chan 1 [])] } }, 0, 600, by decide +kernel⟩,
   ⟨{ up with dma := { ch := [(600, chan 2 [])] } }, 0, 600, by decide +kernel⟩,
   ⟨{ up with dma := { ch := [(600, chan 3 [])] } }, 0, 600, by decide +kernel⟩,
   ⟨{ up with dma := { ch := [(600, { chan 3 [] with st := .waiting })] } }, 600, by decide +kernel⟩,
   ⟨{ up with dma := { ch := [(600, { chan 3 [0, 0, 0, 0, 0, 0, 0, 0, 0, 0, 0, 1] with st := .waiting })] }, tim := { reps := [(2, { run := true, scaleA := some { value := 256 * 400000000000, since := 400000000000 } })] } }, 0, 600, by decide +kernel⟩,
   ⟨{ up with dma := { ch := [(600, chan 4 [])] } }, 0, 600, by decide +kernel⟩,
   ⟨{ up with dma := { ch := [(600, chan 5 [])] } }, 0, 600, by decide +kernel⟩,
   ⟨{ up with dma := { ch := [(600, { chan 1 [] with flush := 2 })] } }, 0, 600, by decide +kernel⟩⟩

theorem witness_MemoryErrorsComplete :
    (∃ (s : State),
    s.mem.hbmFail = false ∧ s.mem.reduced = false) ∧
    (∃ b c : Fin 72, b ≠ c) ∧
    (∃ (s : State) (dt : Nat) (a : Nat) (f : List (Fin 72)),
    let u := s.advance dt
    u.mem.reduced = false ∧ u.mem.hbmFail = false ∧ u.powered 6 = true ∧ a < 2 ^ 34 ∧ u.eccOf f = .good) ∧
    (∃ (s : State) (dt : Nat) (a : Nat) (f : List (Fin 72)),
    let u := s.advance dt
    u.mem.reduced = false ∧ u.mem.hbmFail = false ∧ u.powered 6 = true ∧ a < 2 ^ 34 ∧ u.eccOf f = .corrected) ∧
    (∃ (s : State) (dt : Nat) (a : Nat) (f : List (Fin 72)),
    let u := s.advance dt
    u.mem.reduced = false ∧ u.mem.hbmFail = false ∧ u.powered 6 = true ∧ a < 2 ^ 34 ∧ u.eccOf f = .uncorrectable) ∧
    (∃ (s : State) (dt : Nat) (a : Nat),
    let u := s.advance dt
    u.mem.reduced = false ∧ u.mem.hbmFail = true ∧ u.powered 6 = true ∧ a < 2 ^ 34) ∧
    (∃ (s : State) (dt : Nat) (a : Nat) (f : List (Fin 72)),
    let u := s.advance dt
    memOf a 1 = some 1 ∧ u.powered (9 + (a - 0x001000000000) / 0x800000) = true ∧ u.eccOf f = .good) ∧
    (∃ (s : State) (dt : Nat) (a : Nat) (f : List (Fin 72)),
    let u := s.advance dt
    memOf a 1 = some 1 ∧ u.powered (9 + (a - 0x001000000000) / 0x800000) = true ∧ u.eccOf f = .corrected) ∧
    (∃ (s : State) (dt : Nat) (a : Nat) (f : List (Fin 72)),
    let u := s.advance dt
    memOf a 1 = some 1 ∧ u.powered (9 + (a - 0x001000000000) / 0x800000) = true ∧ u.eccOf f = .uncorrectable) ∧
    (∃ (s : State) (dt : Nat) (k : Nat) (f : List (Fin 72)),
    let u := s.advance dt
    k < 524288 ∧ u.powered 87 = true ∧ u.eccOf f = .corrected) ∧
    (∃ (s : State) (dt : Nat) (k : Nat) (f : List (Fin 72)),
    let u := s.advance dt
    k < 524288 ∧ u.powered 87 = true ∧ u.eccOf f = .uncorrectable) :=
  ⟨⟨up, by decide +kernel⟩,
   ⟨0, 1, by decide⟩,
   ⟨up, 0, 64, [], by decide +kernel⟩,
   ⟨up, 0, 64, [3], by decide +kernel⟩,
   ⟨up, 0, 64, [3, 4], by decide +kernel⟩,
   ⟨{ up with mem := { up.mem with hbmFail := true } }, 0, 64, by decide +kernel⟩,
   ⟨up, 0, 0x001000000000, [], by decide +kernel⟩,
   ⟨up, 0, 0x001000000000, [3], by decide +kernel⟩,
   ⟨up, 0, 0x001000000000, [3, 4], by decide +kernel⟩,
   ⟨up, 0, 5, [3], by decide +kernel⟩,
   ⟨up, 0, 5, [3, 4], by decide +kernel⟩⟩

theorem witness_BufferCommandsComplete :
    (∃ (s : State) (p : Fin 8) (v : Word),
    s.cmdTaken (bpmPoolCfg p.val) = true ∧ s.poolEn p.val = false ∧ v.getLsbD 31 = true ∧ s.poolRefused p.val (bits v.toNat 23 0) = false ∧ 0 < bits v.toNat 23 0) ∧
    (∃ (s : State) (r : Fin 39) (i : BitVec 16) (hbm : Bool) (c : Fin 4),
    let p := (if hbm then 4 else 0) + c.val
    (s.mem.waits = [] ∨ reqWaits r.val = false) ∧ s.quotaOk r.val i.toNat hbm c.val = true ∧ s.poolEn p = true ∧ 0 < runCount (s.pool p).cache) ∧
    (∃ (s : State) (n : Nat) (c : Fin 4),
    n ≠ 0 ∧ sizeFor n = some c.val ∧ s.mem.poison = []) ∧
    (∃ (s : State) (r : Fin 39) (w : BufReq),
    let p := (if w.hbm then 4 else 0) + w.size
    s.mem.waits.find? (fun w => w.requester = r.val) = some w ∧ s.quotaOk r.val w.inst w.hbm w.size = true ∧ s.poolEn p = true ∧ 0 < runCount (s.pool p).cache) ∧
    (∃ (s : State) (dt : Nat) (h : Word) (a : Alloc),
    let u := s.advance dt
    u.poolEn (handlePool h) = true ∧ handleIndex h < u.poolCount (handlePool h) ∧ bits h.toNat 28 23 = 0 ∧ (u.pool (handlePool h)).check = [] ∧ u.buf h = some a ∧ a.allocated = true) ∧
    (∃ (s : State) (dt : Nat) (h : Word),
    let u := s.advance dt
    u.poolEn (handlePool h) = true ∧ handleIndex h < u.poolCount (handlePool h) ∧ bits h.toNat 28 23 = 0 ∧ (u.pool (handlePool h)).check = [] ∧ (∀ a, u.buf h = some a → a.allocated = false) ∧ u.mem.df.length < 16) ∧
    (∃ (s : State) (p : Fin 8),
    let q := s.pool p.val
    runCount q.cache ≤ 128 ∧ q.ring ≠ [] ∧ s.mem.poison = [] ∧ s.mem.hbmFail = false) ∧
    (∃ (s : State) (p : Fin 8),
    let q := s.pool p.val
    448 ≤ runCount q.cache ∧ s.mem.poison = []) ∧
    (∃ (s : State) (v : Word),
    s.cmdTaken (MEM + 0x910) = true ∧ v.getLsbD 0 = true) ∧
    (∃ (s : State) (dt : Nat),
    let u := s.advance dt
    u.powered 90 = true ∧ u.mem.auditAt / msec 100 < u.repTime 2 / msec 100 ∧ u.booksOut = []) ∧
    (∃ (s : State) (dt : Nat) (b : BookOut) (l : List BookOut),
    let u := s.advance dt
    u.powered 90 = true ∧ u.mem.auditAt / msec 100 < u.repTime 2 / msec 100 ∧ u.booksOut = b :: l ∧ u.mem.snap = none) ∧
    (∃ (s : State) (v : Word),
    s.cmdTaken (MEM + 0x40) = true ∧ v.getLsbD 0 = true) :=
  ⟨⟨up.setReg bpmRingBase 0x80000000, 1, 0x80000008, by decide +kernel⟩,
   ⟨pool, 0, 0, false, 1, by decide +kernel⟩,
   ⟨up, 9, 0, by decide +kernel⟩,
   ⟨{ pool.setReg (bpmReqSram 34) 0x1000 with mem := { pool.mem with waits := [{ requester := 34, inst := 0, hbm := false, size := 1 }] } }, 34, { requester := 34, inst := 0, hbm := false, size := 1 }, by decide +kernel⟩,
   ⟨{ pool with mem := { pool.mem with bufs := [(0x20000000, { requester := 3, inst := 0, allocated := true })] } }, 0, 0x20000000, { requester := 3, inst := 0, allocated := true }, by decide +kernel⟩,
   (by refine ⟨pool, 0, 0x20000000, ?_, ?_, ?_, ?_, fun a h => (by cases (show none = some a from h)), ?_⟩ <;> decide +kernel),
   ⟨pool, 1, by decide +kernel⟩,
   ⟨{ up with mem := { pools := [(1, { cache := [(0, 500)] })] } }, 1, by decide +kernel⟩,
   ⟨up, 1, by decide +kernel⟩,
   ⟨{ up with tim := { reps := [(2, { run := true, scaleA := some { value := 256 * 400000000000, since := 400000000000 } })] } }, 0, by decide +kernel⟩,
   ⟨{ up with tim := { reps := [(2, { run := true, scaleA := some { value := 256 * 400000000000, since := 400000000000 } })] }, mem := { pools := [(1, { cache := [(0, 500)] })] } }.setReg (bpmPoolCfg 1) 0x80000008, 0, (({ up with mem := { pools := [(1, { cache := [(0, 500)] })] } } : State).setReg (bpmPoolCfg 1) 0x80000008).booksOut.head!, [], by decide +kernel⟩,
   ⟨up, 1, by decide +kernel⟩⟩

theorem witness_ThreadInstructionsComplete :
    (∃ (s : State) (dt : Nat) (th : BitVec 10) (c : Nat) (slot : Nat),
    let u := s.advance dt
    u.thRuns th.toNat = true ∧ u.forkPlace (th.toNat / 128) = some c ∧ u.slotOf (th.toNat / 128) = some slot) ∧
    (∃ (s : State) (dt : Nat) (th : BitVec 10),
    let u := s.advance dt
    u.thRuns th.toNat = true ∧ u.forkPlace (th.toNat / 128) = none) ∧
    (∃ (s : State) (dt : Nat) (th : BitVec 10) (rs1 : Fin 32),
    let u := s.advance dt
    let c := (u.xreg th.toNat rs1.val).toNat
    u.thRuns th.toNat = true ∧ c < 1024 ∧ (u.thread c).joinable = true ∧ (u.thread c).parent = some th) ∧
    (∃ (s : State) (dt : Nat) (th : BitVec 10) (rs1 : Fin 32),
    let u := s.advance dt
    let c := (u.xreg th.toNat rs1.val).toNat
    u.thRuns th.toNat = true ∧ (1024 ≤ c ∨ (u.thread c).joinable = false ∨ (u.thread c).parent ≠ some th)) ∧
    (∃ (s : State) (dt : Nat) (th : BitVec 10),
    let u := s.advance dt
    u.thRuns th.toNat = true) ∧
    (∃ (s : State) (dt : Nat) (th : BitVec 10) (rd : Fin 32) (m : BitVec 64) (d : BitVec 64),
    let u := s.advance dt
    (u.thread th.toNat).st = .waiting ∧ (u.thread th.toNat).wait = .twait rd m d ∧ d ≠ 0 ∧ d.toNat ≤ u.repTime (30 + th.toNat / 128)) ∧
    (∃ (s : State) (dt : Nat) (th : BitVec 10) (rs1 : Fin 32),
    let u := s.advance dt
    let c := (u.xreg th.toNat rs1.val).toNat
    u.thRuns th.toNat = true ∧ c / 128 = th.toNat / 128 ∧ (u.thread c).st ≠ .free ∧ (u.thread c).st ≠ .ended) ∧
    (∃ (s : State) (dt : Nat) (th : BitVec 10),
    let u := s.advance dt
    u.thRuns th.toNat = true) ∧
    (∃ (s : State) (dt : Nat) (th : BitVec 10),
    let u := s.advance dt
    u.thRuns th.toNat = true ∧ th.toNat % 128 ≠ 0) ∧
    (∃ (s : State) (dt : Nat) (th : BitVec 10),
    let u := s.advance dt
    u.thRuns th.toNat = true ∧ th.toNat % 128 = 0) :=
  ⟨⟨thrX 0 0, 0, 5, 16, 0, by decide +kernel⟩,
   ⟨{ thr with tha := { thr.tha with threads := (List.range 128).map (fun t => (t, { st := if t = 0 then ThSt.stopped else .running })) } }, 0, 5, by decide +kernel⟩,
   ⟨thr6 6 0 { st := .ended, joinable := true, parent := some 5 }, 0, 5, 1, by decide +kernel⟩,
   ⟨thrX 6 0, 0, 5, 1, by decide +kernel⟩,
   ⟨thrX 1 2, 0, 5, by decide +kernel⟩,
   ⟨{ thr with tha := { thr.tha with threads := [(5, { st := .waiting, wait := .twait 3 1 7 })] }, tim := { reps := [(30, { run := true, scaleA := some { value := 256 * 400000000000, since := 400000000000 } })] } }, 0, 5, 3, 1, 7, by decide +kernel⟩,
   ⟨thr6 6 1 { st := .running }, 0, 5, 1, by decide +kernel⟩,
   ⟨thrX 0 0, 0, 5, by decide +kernel⟩,
   ⟨thrX 0 0, 0, 5, by decide +kernel⟩,
   ⟨sup [], 0, 0, by decide +kernel⟩⟩

theorem witness_ChannelInstructionsComplete :
    (∃ (s : State) (dt : Nat) (th : BitVec 10) (rs1 rs2 : Fin 32) (k i : Nat), let u := s.advance dt
    let len := (u.xreg th.toNat rs2.val).toNat
    u.thRuns th.toNat = true ∧ u.threadChan th.toNat (u.xreg th.toNat rs1.val).toNat = some (k, i) ∧ 1 ≤ len ∧
      len ≤ (u.channel k i).maxMsg ∧ (u.chanReserve k i th.toNat len).1.isSome = true) ∧
    (∃ (s : State) (dt : Nat) (th : BitVec 10) (rs1 : Fin 32) (rs2 : Fin 32) (k : Nat) (i : Nat),
    let u := s.advance dt
    let num := u.xreg th.toNat rs1.val
    let len := (u.xreg th.toNat rs2.val).toNat
    u.thRuns th.toNat = true ∧ u.threadChan th.toNat num.toNat = some (k, i) ∧ 1 ≤ len ∧ len ≤ (u.channel k i).maxMsg ∧ (u.chanReserve k i th.toNat len).1 = none) ∧
    (∃ (s : State) (dt : Nat) (th : BitVec 10) (rs1 : Fin 32) (rs2 : Fin 32) (n : Fin 128) (k : Nat) (i : Nat) (a : Nat) (m : ChMsg),
    let u := s.advance dt
    let len := 8 * (n.val + 1)
    u.thRuns th.toNat = true ∧ u.findHandle th.toNat (u.xreg th.toNat rs1.val) = some (k, i, m) ∧ m.cursor + len ≤ m.body.length ∧ u.thMem th.toNat (u.xreg th.toNat rs2.val).toNat len = some a ∧ u.readBad a len = false) ∧
    (∃ (s : State) (dt : Nat) (th : BitVec 10) (rs1 : Fin 32) (k : Nat) (i : Nat) (m : ChMsg),
    let u := s.advance dt
    u.thRuns th.toNat = true ∧ u.findHandle th.toNat (u.xreg th.toNat rs1.val) = some (k, i, m)) ∧
    (∃ (s : State) (dt : Nat) (th : BitVec 10) (rs1 : Fin 32) (rs2 : Fin 32) (k : Nat) (i : Nat) (a : Nat) (m : ChMsg) (l : List ChMsg),
    let u := s.advance dt
    let dst := (u.xreg th.toNat rs2.val).toNat
    u.thRuns th.toNat = true ∧ u.threadChan th.toNat (u.xreg th.toNat rs1.val).toNat = some (k, i) ∧ (u.channel k i).kind ≠ 1 ∧ (u.channel k i).kind ≠ 3 ∧ (u.channel k i).msgs = m :: l ∧ m.st = .committed ∧ u.thMem th.toNat dst m.body.length = some a) ∧
    (∃ (s : State) (dt : Nat) (th : BitVec 10) (rs1 : Fin 32) (rs2 : Fin 32) (target : Fin 4) (k : Nat) (r : Nat) (slot : Nat),
    let u := (s.advance dt).fwtSettle
    let n := lkupLen target.val
    u.thRuns th.toNat = true ∧ u.slotOf (th.toNat / 128) = some slot ∧ bit (u.desc slot 0x16 1) target.val = true ∧ u.thMem th.toNat (u.xreg th.toNat rs1.val).toNat n = some k ∧ u.thMem th.toNat (u.xreg th.toNat rs2.val).toNat 32 = some r ∧ u.readBad k n = false) ∧
    (∃ (s : State) (dt : Nat) (th : BitVec 10) (rs1 : Fin 32) (rs2 : Fin 32) (a : Nat),
    let u := s.advance dt
    let c := (u.xreg th.toNat rs1.val).toNat
    u.thRuns th.toNat = true ∧ 512 ≤ c ∧ c < 4096 ∧ u.chOwner c = 1 ∧ u.chCluster c = th.toNat / 128 ∧ (u.chan c).st = .idle ∧ State.thLocal th.toNat (u.xreg th.toNat rs2.val).toNat 32 = some a) ∧
    (∃ (s : State) (dt : Nat) (th : BitVec 10) (rs1 : Fin 32),
    let u := s.advance dt
    u.thRuns th.toNat = true ∧ rs1 = 0) ∧
    (∃ (s : State) (dt : Nat) (th : BitVec 10) (rs1 : Fin 32),
    let u := s.advance dt
    u.thRuns th.toNat = true ∧ rs1 ≠ 0 ∧ u.thMem th.toNat (u.xreg th.toNat rs1.val).toNat 32 = some (localBase 0 + 0x2000)) :=
  ⟨⟨thrC 3 8 { maxMsg := 64, scope := 1 }, 0, 5, 1, 2, 0, 3, by decide +kernel⟩,
   ⟨thrC 3 8 { maxMsg := 64, scope := 1, msgs := [{ held with slots := 16 }] }, 0, 5, 1, 2, 0, 3, by decide +kernel⟩,
   ⟨thrC 9 0x2000 { maxMsg := 64, scope := 1, msgs := [held] }, 0, 5, 1, 2, 0, 0, 3, localBase 0 + 0x2000, held, by decide +kernel⟩,
   ⟨thrC 9 0 { maxMsg := 64, scope := 1, msgs := [held] }, 0, 5, 1, 0, 3, held, by decide +kernel⟩,
   ⟨thrC 3 0x2000 { maxMsg := 64, scope := 1, msgs := [{ held with st := .committed }] }, 0, 5, 1, 2, 0, 3, localBase 0 + 0x2000, { held with st := .committed }, [], by decide +kernel⟩,
   ⟨thrX 0x2000 0x3000, 0, 5, 1, 2, 0, localBase 0 + 0x2000, localBase 0 + 0x3000, 0, by decide +kernel⟩,
   ⟨(thrX 600 0x2000).setReg (dmaCfg 600) 0x40000000, 0, 5, 1, 2, localBase 0 + 0x2000, by decide +kernel⟩,
   ⟨thrX 0 0, 0, 5, 0, by decide +kernel⟩,
   ⟨thrX 0x2000 0, 0, 5, 1, by decide +kernel⟩⟩

theorem witness_BaseInstructionsComplete :
    (∃ (s : State) (dt : Nat) (th : BitVec 10) (w : Word),
    let u := s.advance dt
    let t := th.toNat
    let n := w.toNat
    u.thRuns t = true ∧ u.atBreak t = false ∧ u.fetchInstr t = .inr { raw := w, word := some w, len := 4 } ∧ bits n 6 0 = 0x13 ∧ bits n 14 12 = 0) ∧
    (∃ (s : State) (dt : Nat) (th : BitVec 10) (w : Word),
    let u := s.advance dt
    let t := th.toNat
    let n := w.toNat
    u.thRuns t = true ∧ u.atBreak t = false ∧ u.fetchInstr t = .inr { raw := w, word := some w, len := 4 } ∧ bits n 6 0 = 0x33 ∧ bits n 14 12 = 0 ∧ bits n 31 25 = 0) ∧
    (∃ (s : State) (dt : Nat) (th : BitVec 10) (w : Word),
    let u := s.advance dt
    let t := th.toNat
    let n := w.toNat
    u.thRuns t = true ∧ u.atBreak t = false ∧ u.fetchInstr t = .inr { raw := w, word := some w, len := 4 } ∧ bits n 6 0 = 0x63 ∧ bits n 14 12 = 0) ∧
    (∃ (s : State) (dt : Nat) (th : BitVec 10) (w : Word),
    let u := s.advance dt
    let t := th.toNat
    let n := w.toNat
    u.thRuns t = true ∧ u.atBreak t = false ∧ u.fetchInstr t = .inr { raw := w, word := some w, len := 4 } ∧ bits n 6 0 = 0x6F) ∧
    (∃ (s : State) (dt : Nat) (th : BitVec 10) (w : Word),
    let u := s.advance dt
    let t := th.toNat
    let n := w.toNat
    let a := u.xreg t (bits n 19 15)
    u.thRuns t = true ∧ u.atBreak t = false ∧ u.fetchInstr t = .inr { raw := w, word := some w, len := 4 } ∧ bits n 6 0 = 0x03 ∧ bits n 14 12 = 3 ∧ (a + sx 12 (bits n 31 20)).toNat % 8 = 0 ∧ u.thPlace t (a + sx 12 (bits n 31 20)).toNat 8 = .mem (localBase 0 + 0x2000) ∧ u.readBad (localBase 0 + 0x2000) 8 = false) ∧
    (∃ (s : State) (dt : Nat) (th : BitVec 10) (w : Word),
    let u := s.advance dt
    let t := th.toNat
    let n := w.toNat
    let a := u.xreg t (bits n 19 15)
    let pc := (u.thread t).pc
    u.thRuns t = true ∧ u.atBreak t = false ∧ u.fetchInstr t = .inr { raw := w, word := some w, len := 4 } ∧ bits n 6 0 = 0x23 ∧ bits n 14 12 = 3 ∧ (a + immS n).toNat % 8 = 0 ∧ (u.rvRetire t 0 0 (pc + 4)).thPlace t (a + immS n).toNat 8 = .mem (localBase 0 + 0x2000)) ∧
    (∃ (s : State) (dt : Nat) (th : BitVec 10) (w : Word),
    let u := s.advance dt
    let t := th.toNat
    let n := w.toNat
    u.thRuns t = true ∧ u.atBreak t = false ∧ u.fetchInstr t = .inr { raw := w, word := some w, len := 4 } ∧ n = 0x73) :=
  ⟨⟨{ (thrX 0x2000 2).modThread 5 (fun x => { x with pc := 0x100 }) with mem := ((thrX 0x2000 2).writeBytes (localBase 0 + 0x100) (leBytes 4 0x00508193)).mem }, 0, 5, 0x00508193, by decide +kernel⟩,
   ⟨{ (thrX 0x2000 2).modThread 5 (fun x => { x with pc := 0x100 }) with mem := ((thrX 0x2000 2).writeBytes (localBase 0 + 0x100) (leBytes 4 0x002081B3)).mem }, 0, 5, 0x002081B3, by decide +kernel⟩,
   ⟨{ (thrX 2 2).modThread 5 (fun x => { x with pc := 0x100 }) with mem := ((thrX 2 2).writeBytes (localBase 0 + 0x100) (leBytes 4 0x00208463)).mem }, 0, 5, 0x00208463, by decide +kernel⟩,
   ⟨{ (thrX 2 2).modThread 5 (fun x => { x with pc := 0x100 }) with mem := ((thrX 2 2).writeBytes (localBase 0 + 0x100) (leBytes 4 0x008001EF)).mem }, 0, 5, 0x008001EF, by decide +kernel⟩,
   ⟨{ (thrX 0x2000 2).modThread 5 (fun x => { x with pc := 0x100 }) with mem := ((thrX 0x2000 2).writeBytes (localBase 0 + 0x100) (leBytes 4 0x0000B183)).mem }, 0, 5, 0x0000B183, by decide +kernel⟩,
   ⟨{ (thrX 0x2000 2).modThread 5 (fun x => { x with pc := 0x100 }) with mem := ((thrX 0x2000 2).writeBytes (localBase 0 + 0x100) (leBytes 4 0x0020B023)).mem }, 0, 5, 0x0020B023, by decide +kernel⟩,
   ⟨{ (thrX 2 2).modThread 5 (fun x => { x with pc := 0x100 }) with mem := ((thrX 2 2).writeBytes (localBase 0 + 0x100) (leBytes 4 0x00000073)).mem }, 0, 5, 0x00000073, by decide +kernel⟩⟩

theorem witness_ClusterCommandsComplete :
    (∃ (s v : State) (dt : Nat) (k : Fin 8) (c : Byte) (m : ChMsg) (l : List ChMsg) (h : Word),
    let u := s.advance dt
    let ch := u.channel k.val c.toNat
    let len := leAt m.body 2 2
    let p := leAt m.body 0 1 % 4
    let f := slice m.body 16 len
    ch.msgs = m :: l ∧ ch.kind = 1 ∧ m.st = .committed ∧ 14 ≤ len ∧ len ≤ 9596 ∧ 16 + len ≤ m.body.length ∧ u.powered (49 + p) = true ∧ (u.pipe p).internalFull = false ∧ u.takeGranted 35 k.val = none ∧ u.mem.waits.any (fun w => w.requester = 35 && w.inst = k.val) = false ∧ u.allocLen 35 k.val false len none = (.granted h, v)) ∧
    (∃ (s : State) (dt : Nat) (k : Fin 8) (c : Byte) (m : ChMsg) (l : List ChMsg) (x : Nat),
    let u := s.advance dt
    (u.channel k.val c.toNat).msgs = m :: l ∧ m.st = .reserved ∧ m.told = false ∧ m.headAt = some x ∧ u.clocksPast x 65536 = true) ∧
    (∃ (s : State) (dt : Nat) (k : Fin 8),
    let u := s.advance dt
    let live := ((List.range 127).map (fun i => 128 * k.val + 1 + i)).filter
      (fun t => (u.thread t).st ≠ .free && (u.thread t).st ≠ .ended)
    live ≠ [] ∧ (∀ t ∈ live, (u.thread t).st = .waiting ∧ u.clocksPast (u.thread t).waitAt 4096 = true ∧ u.armed t = false) ∧ (u.cluster k.val).deadTold = false) ∧
    (∃ (s : State) (k : Fin 8) (v : Word),
    let t := bits v.toNat 9 0
    s.thRuns (128 * k.val) = true ∧ t / 128 = k.val ∧ t % 128 ≠ 0 ∧ (s.thread t).st ≠ .free ∧ (s.thread t).st ≠ .ended) ∧
    (∃ (s : State) (k : Fin 8) (v : Word),
    let t := bits v.toNat 9 0
    s.thRuns (128 * k.val) = true ∧ t / 128 = k.val ∧ t % 128 ≠ 0 ∧ (s.thread t).st = .stopped ∧ (s.thread t).faulted = true) ∧
    (∃ (s : State) (k : Fin 8) (v : Word),
    s.thRuns (128 * k.val) = true ∧ v.getLsbD 0 = true) ∧
    (∃ (s : State) (dt : Nat) (k : Fin 8),
    let u := s.advance dt
    u.thRuns (128 * k.val) = true) ∧
    (∃ (s : State) (dt : Nat) (slot : Nat) (k : Fin 8),
    let u := s.advance dt
    u.slotOf k.val = some slot ∧ u.field.up = true ∧ (u.cluster k.val).wdtStop = none ∧ (u.cluster k.val).kickAt + msec (u.desc slot 0x28 4) ≤ u.clock) ∧
    (∃ (s : State) (dt : Nat) (slot : Nat) (x : Nat) (k : Fin 8),
    let u := s.advance dt
    (u.cluster k.val).resetAt = some x ∧ u.slotOf k.val = some slot ∧ u.due x (usec 20) = true) :=
  ⟨by
    obtain ⟨h, v, e, -⟩ := (fout.advance 0).alloc_granted 35 2 false 0 none (by decide +kernel) (by decide +kernel)
      (by decide +kernel) (by decide +kernel)
    refine ⟨fout, v.fillBufs [h] 14, 0, 2, 3, foutMsg, [], h, ?_⟩
    and_intros <;> first | exact State.allocLen_granted _ _ _ _ _ _ 0 _ _ (by decide) (by decide) e | decide +kernel,
   ⟨{ up with tha := { clusters := [(2, { slot := some 0, chans := [(3, { msgs := [{ held with headAt := some 0 }] })] })] } }, 0, 2, 3, { held with headAt := some 0 }, [], 0, by decide +kernel⟩,
   ⟨{ up with tha := { threads := [(5, { st := .waiting })], clusters := [(0, { slot := some 0 })] } }, 0, 0, by decide +kernel⟩,
   ⟨sup [(5, { st := .running })], 0, 5, by decide +kernel⟩,
   ⟨sup [(5, { st := .stopped, faulted := true })], 0, 5, by decide +kernel⟩,
   ⟨sup [], 0, 1, by decide +kernel⟩,
   ⟨sup [], 0, 0, by decide +kernel⟩,
   ⟨{ thr with field := { up.field with services := [(0, { state := 2, image := List.replicate 1024 0 })] } }, 0, 0, 0, by decide +kernel⟩,
   ⟨{ thr with tha := { clusters := [(0, { slot := some 0, resetAt := some 0 })] } }, 0, 0, 0, 0, by decide +kernel⟩⟩

theorem witness_ServiceCommandsComplete :
    (∃ (s : State) (dt : Nat) (lvl : Fin 4) (slot : Fin 8),
    let u := s.advance dt
    u.objTaken = true ∧ u.running = true ∧ lvl ≠ 0 ∧ (u.service slot.val).state ≠ 0 ∧ (u.service slot.val).state ≠ 2 ∧ (imgSigned svcImage u.ownerKeys.1 u.ownerKeys.2 = true → u.imageResult (u.service slot.val).file (0x10 + slot.val) = 0)) ∧
    (∃ (s : State) (dt : Nat) (lvl : Fin 4) (slot : Fin 8),
    let u := s.advance dt
    u.objTaken = true ∧ u.running = true ∧ lvl ≠ 0 ∧ (u.service slot.val).state = 2) :=
  ⟨(by refine ⟨{ thr with field := { thr.field with services := [(0, { state := 1, file := svcImage })] } }, 0, 1, 0, ?_, ?_, ?_, ?_, ?_,
    fun h => svcImage_accepted _ h (by decide +kernel) (by decide +kernel)⟩ <;> decide +kernel),
   ⟨{ thr with field := { thr.field with services := [(0, { state := 2, file := svcImage })] } }, 0, 1, 0, by decide +kernel⟩⟩

theorem witness_DebugCommandsComplete :
    (∃ (s : State),
    let t := s.regBits (THA + 0x1004) 9 0
    s.cmdTaken thaDbgCmd = true ∧ s.field.debugOpen = true ∧ s.powered (71 + t / 128) = true ∧ s.thRuns t = true) ∧
    (∃ (s : State),
    let t := s.regBits (THA + 0x1004) 9 0
    let arg := s.getReg64 thaDbgArg
    s.cmdTaken thaDbgCmd = true ∧ s.field.debugOpen = true ∧ s.powered (71 + t / 128) = true ∧ (s.thread t).st = .stopped ∧ arg = BitVec.ofNat 64 1) ∧
    (∃ (s : State),
    let t := s.regBits (THA + 0x1004) 9 0
    let arg := s.getReg64 thaDbgArg
    s.cmdTaken thaDbgCmd = true ∧ s.field.debugOpen = true ∧ s.powered (71 + t / 128) = true ∧ (s.thread t).st = .stopped ∧ arg = 32) ∧
    (∃ (s : State) (v : Word),
    let w := fun (op : Nat) => BitVec.ofNat 32 (putBits v.toNat 3 0 op) &&& 0xF
    let u := fun (op : Nat) => s.setReg thaDbgCmd (w op)
    let t := s.regBits (THA + 0x1004) 9 0
    let arg := s.getReg64 thaDbgArg
    s.cmdTaken thaDbgCmd = true ∧ s.field.debugOpen = true ∧ s.powered (71 + t / 128) = true ∧ arg.toNat % 8 = 0 ∧ (u 6).thPlace t arg.toNat 8 = .mem (localBase 0 + 0x2000) ∧ (u 7).thPlace t arg.toNat 8 = .mem (localBase 0 + 0x2000) ∧ s.readBad (localBase 0 + 0x2000) 8 = false) ∧
    (∃ (s : State) (v : Word),
    let w := fun (op : Nat) => BitVec.ofNat 32 (putBits v.toNat 3 0 op) &&& 0xF
    let u := fun (op : Nat) => s.setReg thaDbgCmd (w op)
    let t := s.regBits (THA + 0x1004) 9 0
    let arg := s.getReg64 thaDbgArg
    let data := s.getReg64 thaDbgData
    let key := 4 * (t / 16 % 8) + data.toNat % 4
    s.cmdTaken thaDbgCmd = true ∧ s.field.debugOpen = true ∧ s.powered (71 + t / 128) = true ∧ ((u 10).dbgDiscard t (arg.toNat % 2048)).isSome = true ∧ (Map.get (s.cluster (t / 128)).breaks key).isSome = true) ∧
    (∃ (s : State) (dt : Nat),
    let u := s.advance dt
    let t := u.regBits (THA + 0x1004) 9 0
    u.cmdTaken thaDbgCmd = true ∧ u.field.debugOpen = true ∧ u.powered (71 + t / 128) = true ∧ (u.thread t).st = .stopped) ∧
    (∃ (s : State) (th : BitVec 10),
    s.thRuns th.toNat = true ∧ s.atBreak th.toNat = true) :=
  ⟨⟨(dbg .running 0), by decide +kernel⟩,
   ⟨(dbg .stopped 1), by decide +kernel⟩,
   ⟨(dbg .stopped 32), by decide +kernel⟩,
   ⟨(dbg .stopped 0x2000), 1, by decide +kernel⟩,
   ⟨(dbg .stopped 3), 1, by decide +kernel⟩,
   ⟨dbg .stopped 0, 0, by decide +kernel⟩,
   ⟨{ thr with field := { thr.field with debugOpen := true }, tha := { thr.tha with clusters := [(0, { breaks := [(0, 0)] })] } }, 5, by decide +kernel⟩⟩

theorem witness_GloveCommandsComplete :
    (∃ (s : State) (dt : Nat) (d : Side) (m : GloveMsg),
    let u := s.advance dt
    u.sideRuns d = true ∧ seqOrder (u.glove d).last m.seq = 0 ∧ gloveGood d m = true) ∧
    (∃ (s : State) (dt : Nat) (d : Side),
    let u := s.advance dt
    let g := u.glove d
    u.sideRuns d = true ∧ g.sent ≠ [] ∧ u.due g.retryAt (usec 20) = true ∧ g.fails + 1 < 16) ∧
    (∃ (s : State) (dt : Nat) (d : Side),
    let u := s.advance dt
    let g := u.glove d
    u.sideRuns d = true ∧ g.sent ≠ [] ∧ u.due g.retryAt (usec 20) = true ∧ g.fails = 15 ∧ u.powered 95 = true) ∧
    (∃ (s : State) (dt : Nat),
    let u := s.advance dt
    u.sideRuns .field = true ∧ u.gloveF.peerUp = true ∧ u.due u.gloveF.heardAt (msec 5) = true) ∧
    (∃ (s : State) (dt : Nat),
    let u := s.advance dt
    u.sideRuns .host = true ∧ u.gloveH.peerUp = true ∧ u.due u.gloveH.heardAt (msec 5) = true ∧ u.gloveH.sent = [] ∧ u.gloveH.evq.length ≤ 64 ∧ u.tha.clusters = [] ∧ u.hep.doe = none) ∧
    (∃ (s : State) (dt : Nat),
    let u := s.advance dt
    u.sideRuns .field = true ∧ u.sideRuns .host = true ∧ u.gloveH.peerUp = false ∧ u.gloveH.evq = [] ∧ u.sql.pendSeal = none ∧ u.running = false ∧ u.field.restartAt = none ∧ u.field.h2f = [] ∧ u.field.f2h = [] ∧ u.field.thaTo = [] ∧ u.field.thaFrom = []) ∧
    (∃ (s : State) (p : List Byte) (val : List Byte) (b : List Byte) (typ : Nat) (d : Side),
    let idx := beAt p 0 2
    let sub := beAt p 2 1
    let off := beAt p 4 4
    let v := ((s.takeMsg d 0x01).getD (p, State.reset)).2
    (s.takeMsg d 0x01).map (·.1) = some p ∧ p.length = 8 ∧ (match d with | .host => objBound idx sub = true ∧ v.running = true ∧ v.readObject 3 idx sub = (0, typ, b) ∧ val = (if sub ≠ 0 ∧ objTold idx = true then v.mainBytes idx sub else b) | .field => idx ≠ 0x2F60 ∧ v.readObject 0 idx sub = (0, typ, val)) ∧ off ≤ val.length) ∧
    (∃ (s : State) (p : List Byte) (val : List Byte) (b : List Byte) (typ : Nat) (d : Side),
    let idx := beAt p 0 2
    let sub := beAt p 2 1
    let off := beAt p 4 4
    let v := ((s.takeMsg d 0x01).getD (p, State.reset)).2
    (s.takeMsg d 0x01).map (·.1) = some p ∧ p.length = 8 ∧ (match d with | .host => objBound idx sub = true ∧ v.running = true ∧ v.readObject 3 idx sub = (0, typ, b) ∧ val = (if sub ≠ 0 ∧ objTold idx = true then v.mainBytes idx sub else b) | .field => idx ≠ 0x2F60 ∧ v.readObject 0 idx sub = (0, typ, val)) ∧ off ≤ val.length) ∧
    (∃ (s : State) (p : List Byte) (val : List Byte) (b : List Byte) (typ : Nat) (d : Side),
    let idx := beAt p 0 2
    let sub := beAt p 2 1
    let off := beAt p 4 4
    let v := ((s.takeMsg d 0x01).getD (p, State.reset)).2
    (s.takeMsg d 0x01).map (·.1) = some p ∧ p.length = 8 ∧ (match d with | .host => objBound idx sub = true ∧ v.running = true ∧ v.readObject 3 idx sub = (0, typ, b) ∧ val = (if sub ≠ 0 ∧ objTold idx = true then v.mainBytes idx sub else b) | .field => idx ≠ 0x2F60 ∧ v.readObject 0 idx sub = (0, typ, val)) ∧ off ≤ val.length) ∧
    (∃ (s : State) (p : List Byte),
    let idx := beAt p 0 2
    let sub := beAt p 2 1
    let val := p.drop 12
    let v := ((s.takeMsg .host 0x01).getD (p, State.reset)).2
    (s.takeMsg .host 0x01).map (·.1) = some p ∧ 12 ≤ p.length ∧ objBound idx sub = true ∧ v.running = true ∧ v.writeCheck 3 idx sub val.length (some val) = 0 ∧ (v.boundWrite idx sub val).1 = 0) ∧
    (∃ (s : State) (p : List Byte),
    let mine := fun (q : BusReq) => beAt q.data 0 2 = beAt p 0 2 && beAt q.data 2 1 = beAt p 2 1
    let v := ((s.takeMsg .field 0x02).getD (p, State.reset)).2
    (s.takeMsg .field 0x02).map (·.1) = some p ∧ v.field.asked.find? mine = none) ∧
    (∃ (s : State) (p : List Byte),
    let mine := fun (q : BusReq) => beAt q.data 0 2 = beAt p 0 2 && beAt q.data 2 1 = beAt p 2 1
    let v := ((s.takeMsg .field 0x02).getD (p, State.reset)).2
    (s.takeMsg .field 0x02).map (·.1) = some p ∧ v.field.asked.find? mine = some asked) ∧
    (∃ (s : State) (p : List Byte) (r : List Byte),
    let v := ((s.takeMsg .host 0x02).getD (p, State.reset)).2
    (s.takeMsg .host 0x02).map (·.1) = some p ∧ v.hep.doe = some r) ∧
    (∃ (s : State) (p : List Byte) (r : List Byte),
    let v := ((s.takeMsg .host 0x02).getD (p, State.reset)).2
    (s.takeMsg .host 0x02).map (·.1) = some p ∧ v.hep.doe = some r ∧ beAt p 3 1 ≠ 0xFF ∧ beAt p 0 2 = 0x2F60 ∧ beAt p 2 1 = 2) :=
  ⟨⟨up, 0, .field, { typ := 0x41, seq := 1, payload := List.replicate 8 0 }, by decide +kernel⟩,
   ⟨{ up with gloveH := { sent := [{ typ := 0x41, seq := 1, payload := List.replicate 8 0 }] } }, 0, .host, by decide +kernel⟩,
   ⟨{ up with gloveH := { sent := [{ typ := 0x41, seq := 1, payload := List.replicate 8 0 }], fails := 15 } }, 0, .host, by decide +kernel⟩,
   ⟨up, 0, by decide +kernel⟩,
   ⟨up, 0, by decide +kernel⟩,
   ⟨{ State.reset with clock := 5, pwr := up.pwr, field := { up := true } }, 0, by decide +kernel⟩,
   ⟨inbox .field 0x01 [0x10, 0, 0, 0, 0, 0, 0, 0], [0x10, 0, 0, 0, 0, 0, 0, 0], ((inbox .field 0x01 []).readObject 0 0x1000 0).2.2, [], 1, .field, by decide +kernel⟩,
   ⟨inbox .host 0x01 [0x20, 0x80, 2, 0, 0, 0, 0, 0], [0x20, 0x80, 2, 0, 0, 0, 0, 0], ((inbox .host 0x01 []).readObject 3 0x2080 2).2.2, ((inbox .host 0x01 []).readObject 3 0x2080 2).2.2, ((inbox .host 0x01 []).readObject 3 0x2080 2).2.1, .host, by decide +kernel⟩,
   ⟨(inbox .host 0x01 [0xA0, 0x30, 3, 0, 0, 0, 0, 0]).setMain 0xA030 3 [0, 0, 1, 0], [0xA0, 0x30, 3, 0, 0, 0, 0, 0], [0, 0, 1, 0], ((inbox .host 0x01 []).readObject 3 0xA030 3).2.2, ((inbox .host 0x01 []).readObject 3 0xA030 3).2.1, .host, by decide +kernel⟩,
   ⟨inbox .host 0x01 [0xA0, 0x20, 1, 0, 0, 0, 0, 0, 0, 0, 0, 8, 0, 0, 0, 0, 0, 0, 0, 5], [0xA0, 0x20, 1, 0, 0, 0, 0, 0, 0, 0, 0, 8, 0, 0, 0, 0, 0, 0, 0, 5], by decide +kernel⟩,
   ⟨inbox .field 0x02 [], [], by decide +kernel⟩,
   ⟨{ inbox .field 0x02 [0x20, 0x80, 2, 0] with field := { up.field with asked := [asked] } }, [0x20, 0x80, 2, 0], by decide +kernel⟩,
   ⟨{ inbox .host 0x02 [0, 0, 0, 0] with hep := { up.hep with doe := some [1] } }, [0, 0, 0, 0], [1], by decide +kernel⟩,
   ⟨{ inbox .host 0x02 [0x2F, 0x60, 2, 0] with hep := { up.hep with doe := some [1] } }, [0x2F, 0x60, 2, 0], [1], by decide +kernel⟩⟩

theorem witness_GlovePayloadsComplete :
    (∃ (s : State) (dt : Nat) (n : Nat) (r : List Byte),
    let u := s.advance dt
    let v := ((u.takeMsg .field 0x20).getD (r, State.reset)).2
    let f := v.field
    (u.takeMsg .field 0x20).map (·.1) = some r ∧ f.sealKeys = true ∧ f.life = 2 ∧ f.leaf < 2 ^ 40 ∧ f.sealNo = some (BitVec.ofNat 64 n) ∧ n < 2 ^ 64 ∧ f.sealRun = f.runNo) ∧
    (∃ (s : State) (dt : Nat) (r : List Byte),
    let u := s.advance dt
    let v := ((u.takeMsg .field 0x20).getD (r, State.reset)).2
    let f := v.field
    (u.takeMsg .field 0x20).map (·.1) = some r ∧ f.sealKeys = true ∧ f.life = 2 ∧ f.leaf < 2 ^ 40) ∧
    (∃ (s : State) (dt : Nat) (r : List Byte),
    let v := (((s.advance dt).takeMsg .field 0x20).getD (r, State.reset)).2
    ((s.advance dt).takeMsg .field 0x20).map (·.1) = some r ∧ (v.field.sealKeys = false ∨ v.field.life ≠ 2 ∨ 2 ^ 40 ≤ v.field.leaf)) ∧
    (∃ (s : State) (dt : Nat) (p : List Byte),
    let v := (((s.advance dt).takeMsg .host 0x21).getD (p, State.reset)).2
    ((s.advance dt).takeMsg .host 0x21).map (·.1) = some p ∧ (v.opSealReturn p).sql.runEnd = none) ∧
    (∃ (s : State) (dt : Nat) (p : List Byte),
    ((s.advance dt).takeMsg .field 0x30).map (·.1) = some p) ∧
    (∃ (s : State) (dt : Nat) (p : List Byte),
    ((s.advance dt).takeMsg .host 0x40).map (·.1) = some p ∧ beAt p 0 1 = 0) ∧
    (∃ (s : State) (dt : Nat) (p : List Byte),
    ((s.advance dt).takeMsg .host 0x40).map (·.1) = some p ∧ beAt p 0 1 = 1) ∧
    (∃ (s : State) (dt : Nat) (p : List Byte),
    ((s.advance dt).takeMsg .host 0x40).map (·.1) = some p ∧ beAt p 0 1 = 2) ∧
    (∃ (s : State) (dt : Nat) (p : List Byte),
    ((s.advance dt).takeMsg .field 0x41).map (·.1) = some p) ∧
    (∃ (s : State) (dt : Nat) (p : List Byte),
    let d := p.drop 16
    let v := (((s.advance dt).takeMsg .host 0x50).getD (p, State.reset)).2
    ((s.advance dt).takeMsg .host 0x50).map (·.1) = some p ∧ v.pwr.fw = false ∧ beAt p 0 4 = 1 ∧ beAt p 4 4 = v.pwr.imgBuf.length ∧ beAt p 4 4 + d.length < beAt p 8 4 ∧ beAt p 8 4 ≤ 0x100000) ∧
    (∃ (s : State) (dt : Nat) (p : List Byte),
    ((s.advance dt).takeMsg .field 0x51).map (·.1) = some p ∧ beAt p 0 2 = 0) ∧
    (∃ (s : State) (dt : Nat) (p : List Byte),
    let v := (((s.advance dt).takeMsg .field 0x51).getD (p, State.reset)).2
    ((s.advance dt).takeMsg .field 0x51).map (·.1) = some p ∧ beAt p 0 2 ≠ 0 ∧ v.field.mainSt = 1) ∧
    (∃ (s : State) (dt : Nat) (p : List Byte),
    let v := (((s.advance dt).takeMsg .field 0x60).getD (p, State.reset)).2
    ((s.advance dt).takeMsg .field 0x60).map (·.1) = some p ∧ v.field.report = []) :=
  ⟨⟨{ inbox .field 0x20 (List.replicate 96 0) with field := { up.field with sealKeys := true, sealNo := some 0 } }, 0, 0, List.replicate 96 0, by decide +kernel⟩,
   ⟨{ inbox .field 0x20 [] with field := { up.field with sealKeys := true } }, 0, [], by decide +kernel⟩,
   ⟨inbox .field 0x20 [], 0, [], by decide +kernel⟩,
   ⟨inbox .host 0x21 [0, 0, 0, 1], 0, [0, 0, 0, 1], by decide +kernel⟩,
   ⟨inbox .field 0x30 [], 0, [], by decide +kernel⟩,
   ⟨inbox .host 0x40 [0], 0, [0], by decide +kernel⟩,
   ⟨inbox .host 0x40 [1], 0, [1], by decide +kernel⟩,
   ⟨inbox .host 0x40 [2], 0, [2], by decide +kernel⟩,
   ⟨inbox .field 0x41 [], 0, [], by decide +kernel⟩,
   ⟨{ inbox .host 0x50 ([0, 0, 0, 1, 0, 0, 0, 0, 0, 0, 0, 9, 0, 0, 0, 0, 5]) with pwr := { up.pwr with fw := false } }, 0, ([0, 0, 0, 1, 0, 0, 0, 0, 0, 0, 0, 9, 0, 0, 0, 0, 5]), by decide +kernel⟩,
   ⟨inbox .field 0x51 [0, 0], 0, [0, 0], by decide +kernel⟩,
   ⟨{ inbox .field 0x51 [0, 1] with field := { up.field with mainSt := 1 } }, 0, [0, 1], by decide +kernel⟩,
   ⟨inbox .field 0x60 [], 0, [], by decide +kernel⟩⟩

theorem witness_MailboxCommandsComplete :
    (∃ (s : State) (p : List Byte),
    let k := beAt p 0 1
    let c := beAt p 1 1
    let n := beAt p 8 4
    let body := slice p 12 n
    1 ≤ n ∧ n ≤ 256 ∧ body.length = n ∧ (s.takeMsg .field 0x10).map (·.1) = some p ∧ k = 0 ∧ c < 64) ∧
    (∃ (s : State) (p : List Byte),
    let k := beAt p 0 1
    let c := beAt p 1 1
    let n := beAt p 8 4
    let body := slice p 12 n
    1 ≤ n ∧ n ≤ 256 ∧ body.length = n ∧ (s.takeMsg .field 0x10).map (·.1) = some p ∧ k = 2 ∧ c < 16) ∧
    (∃ (s : State) (p : List Byte),
    let k := beAt p 0 1
    let c := beAt p 1 1
    let n := beAt p 8 4
    let body := slice p 12 n
    1 ≤ n ∧ n ≤ 256 ∧ body.length = n ∧ (s.takeMsg .host 0x10).map (·.1) = some p ∧ k = 1 ∧ c < 64) ∧
    (∃ (s : State) (p : List Byte),
    let k := beAt p 0 1
    let c := beAt p 1 1
    let n := beAt p 8 4
    let body := slice p 12 n
    1 ≤ n ∧ n ≤ 256 ∧ body.length = n ∧ (s.takeMsg .host 0x10).map (·.1) = some p ∧ k = 3 ∧ c < 16) ∧
    (∃ (s : State) (p : List Byte),
    let k := beAt p 0 1
    let c := beAt p 1 1
    let v := ((s.takeMsg .host 0x11).getD (p, State.reset)).2
    (s.takeMsg .host 0x11).map (·.1) = some p ∧ k = 0 ∧ c < 64 ∧ (v.mbox k c).full = true) ∧
    (∃ (s : State) (p : List Byte),
    let k := beAt p 0 1
    let c := beAt p 1 1
    let v := ((s.takeMsg .field 0x11).getD (p, State.reset)).2
    (s.takeMsg .field 0x11).map (·.1) = some p ∧ k = 1 ∧ c < 64 ∧ (v.mbox k c).state = 2) ∧
    (∃ (s : State) (p : List Byte),
    let k := beAt p 0 1
    let c := beAt p 1 1
    let v := ((s.takeMsg .host 0x11).getD (p, State.reset)).2
    (s.takeMsg .host 0x11).map (·.1) = some p ∧ k = 2 ∧ c < 16 ∧ (v.mbox k c).full = true) ∧
    (∃ (s : State) (p : List Byte),
    let k := beAt p 0 1
    let c := beAt p 1 1
    let v := ((s.takeMsg .field 0x11).getD (p, State.reset)).2
    (s.takeMsg .field 0x11).map (·.1) = some p ∧ k = 3 ∧ c < 16 ∧ (v.mbox k c).state = 2) ∧
    (∃ (s : State) (dt : Nat) (id : BitVec 16) (x : Option (BitVec 20)) (c : Fin 64) (v : Word),
    let u := (s.advance dt).rxPosted 4
    let len := bits v.toNat 8 0
    u.barOpen = true ∧ u.powered 95 = true ∧ u.ownsMbx (.pcie id x) c.val = true ∧ (u.mbox 0 c.val).full = false ∧ 1 ≤ len ∧ len ≤ 256) ∧
    (∃ (s : State) (dt : Nat) (slot : Nat) (th : BitVec 10) (t : Fin 16) (v : Word),
    let u := s.advance dt
    let len := bits v.toNat 8 0
    u.thRuns th.toNat = true ∧ u.powered 95 = true ∧ u.ownsThaMbx th.toNat t.val = true ∧ (u.mbox 2 t.val).full = false ∧ 1 ≤ len ∧ len ≤ 256 ∧ u.slotOf (th.toNat / 128) = some slot) ∧
    (∃ (s : State) (lvl : Fin 4) (ch : MbxChan),
    let k := mbxTable ch 0
    let c := mbxNumber ch
    s.objTaken = true ∧ lvl ≠ 0 ∧ (s.mbox k c).state = 1 ∧ (s.mbox k c).old = false) ∧
    (∃ (s : State) (lvl : Fin 4) (ch : MbxChan) (body : List Byte),
    let k := mbxTable ch 1
    let c := mbxNumber ch
    s.objTaken = true ∧ lvl ≠ 0 ∧ 1 ≤ body.length ∧ body.length ≤ 256 ∧ ((s.mbox k c).state = 0 ∨ (s.mbox k c).state = 3) ∧ s.running = true ∧ s.gloveF.peerUp = true) ∧
    (∃ (s : State) (c : Fin 64),
    let u := s.rxPosted 4
    u.barOpen = true ∧ u.powered 95 = true ∧ (u.mbox 1 c.val).full = true ∧ u.gloveH.peerUp = true) :=
  ⟨⟨inbox .field 0x10 [0, 3, 0, 0, 0, 0, 0, 7, 0, 0, 0, 1, 9], [0, 3, 0, 0, 0, 0, 0, 7, 0, 0, 0, 1, 9], by decide +kernel⟩,
   ⟨inbox .field 0x10 [2, 3, 0, 0, 0, 0, 0, 7, 0, 0, 0, 1, 9], [2, 3, 0, 0, 0, 0, 0, 7, 0, 0, 0, 1, 9], by decide +kernel⟩,
   ⟨inbox .host 0x10 [1, 3, 0, 0, 0, 0, 0, 7, 0, 0, 0, 1, 9], [1, 3, 0, 0, 0, 0, 0, 7, 0, 0, 0, 1, 9], by decide +kernel⟩,
   ⟨inbox .host 0x10 [3, 3, 0, 0, 0, 0, 0, 7, 0, 0, 0, 1, 9], [3, 3, 0, 0, 0, 0, 0, 7, 0, 0, 0, 1, 9], by decide +kernel⟩,
   ⟨{ inbox .host 0x11 [0, 3, 0, 5] with field := { up.field with h2f := [(3, { full := true })] } }, [0, 3, 0, 5], by decide +kernel⟩,
   ⟨{ inbox .field 0x11 [1, 3, 0, 5] with field := { up.field with f2h := [(3, { state := 2 })] } }, [1, 3, 0, 5], by decide +kernel⟩,
   ⟨{ inbox .host 0x11 [2, 3, 0, 5] with field := { up.field with thaTo := [(3, { full := true })] } }, [2, 3, 0, 5], by decide +kernel⟩,
   ⟨{ inbox .field 0x11 [3, 3, 0, 5] with field := { up.field with thaFrom := [(3, { state := 2 })] } }, [3, 3, 0, 5], by decide +kernel⟩,
   ⟨up.setReg (mbxOwner 3) 0x80000009, 0, 9, none, 3, 5, by decide +kernel⟩,
   ⟨thr.setMain 0x2200 4 [0], 0, 0, 5, 3, 5, by decide +kernel⟩,
   ⟨{ up with field := { up.field with h2f := [(3, { state := 1 })] } }, 1, .host 3, by decide +kernel⟩,
   ⟨up, 1, .host 3, [1], by decide +kernel⟩,
   ⟨{ up with field := { up.field with f2h := [(3, { full := true })] } }, 3, by decide +kernel⟩⟩

theorem witness_ObjectAccessCompletes :
    (∃ (s : State) (dt : Nat) (l : Nat) (typ : Nat) (h : BusHdr) (p : List Byte) (val : List Byte),
    let off := beAt p 4 4
    let v := ((s.advance dt).busTake 0x01 h p).2
    let w := v.serveLater
    ((s.advance dt).busTake 0x01 h p).1 = some l ∧ h.dst ≠ 255 ∧ w.sessBusy h = false ∧ p.length = 8 ∧ w.readObject l (beAt p 0 2) (beAt p 2 1) = (0, typ, val) ∧ (findObj (beAt p 0 2) (beAt p 2 1)).any (fun r => r.main) = false ∧ off ≤ val.length) ∧
    (∃ (s : State) (dt : Nat) (l : Nat) (typ : Nat) (h : BusHdr) (p : List Byte) (val : List Byte),
    let v := ((s.advance dt).busTake 0x01 h p).2
    let w := v.serveLater
    ((s.advance dt).busTake 0x01 h p).1 = some l ∧ h.dst ≠ 255 ∧ w.sessBusy h = false ∧ p.length = 8 ∧ w.readObject l (beAt p 0 2) (beAt p 2 1) = (0, typ, val) ∧ (findObj (beAt p 0 2) (beAt p 2 1)).any (fun r => r.main) = true) ∧
    (∃ (s : State) (dt : Nat) (l : Nat) (h : BusHdr) (p : List Byte),
    let idx := beAt p 0 2
    let sub := beAt p 2 1
    let data := p.drop 12
    let v := ((s.advance dt).busTake 0x03 h p).2
    let y := v.serveLater
    let w := y.setPart h.session (objKey idx sub) none
    ((s.advance dt).busTake 0x03 h p).1 = some l ∧ h.dst ≠ 255 ∧ y.sessBusy h = false ∧ 12 ≤ p.length ∧ data.length ≤ 1024 ∧ beAt p 4 4 = 0 ∧ beAt p 8 4 = data.length ∧ y.writeCheck l idx sub data.length none = 0 ∧ w.writeCheck l idx sub data.length (some data) = 0 ∧ (findObj idx sub).any (fun r => r.main) = false ∧ (w.objEffect l h idx sub data).1 = 0) ∧
    (∃ (s : State) (dt : Nat) (l : Nat) (h : BusHdr) (p : List Byte),
    let idx := beAt p 0 2
    let sub := beAt p 2 1
    let data := p.drop 12
    let v := ((s.advance dt).busTake 0x03 h p).2
    let y := v.serveLater
    let w := y.setPart h.session (objKey idx sub) none
    ((s.advance dt).busTake 0x03 h p).1 = some l ∧ h.dst ≠ 255 ∧ y.sessBusy h = false ∧ 12 ≤ p.length ∧ data.length ≤ 1024 ∧ beAt p 4 4 = 0 ∧ beAt p 8 4 = data.length ∧ y.writeCheck l idx sub data.length none = 0 ∧ w.writeCheck l idx sub data.length (some data) = 0 ∧ (findObj idx sub).any (fun r => r.main) = true) ∧
    (∃ (s : State) (dt : Nat) (l : Nat) (h : BusHdr) (p : List Byte),
    let u := s.advance dt
    let v := (u.busTake 0x01 h p).2
    let w := v.serveLater
    w.sessBusy h = true ∧ h.dst ≠ 255 ∧ (u.busTake 0x01 h p).1 = some l) ∧
    (∃ (s : State) (dt : Nat) (l : Nat) (h : BusHdr) (p : List Byte),
    let u := s.advance dt
    let v := (u.busTake 0x03 h p).2
    let w := v.serveLater
    w.sessBusy h = true ∧ h.dst ≠ 255 ∧ (u.busTake 0x03 h p).1 = some l) ∧
    (∃ (s : State) (dt : Nat) (l : Nat) (h : BusHdr) (p : List Byte),
    let u := s.advance dt
    let v := (u.busTake 0x40 h p).2
    let w := v.serveLater
    w.sessBusy h = true ∧ h.dst ≠ 255 ∧ (u.busTake 0x40 h p).1 = some l) ∧
    (∃ (s : State) (dt : Nat) (l : Nat) (h : BusHdr) (p : List Byte),
    let u := s.advance dt
    let v := (u.busTake 0x41 h p).2
    let w := v.serveLater
    w.sessBusy h = true ∧ h.dst ≠ 255 ∧ (u.busTake 0x41 h p).1 = some l) ∧
    (∃ (s : State) (dt : Nat) (l : Nat) (h : BusHdr),
    let u := s.advance dt
    let v := (u.busTake 0x42 h []).2
    let w := v.serveLater
    w.sessBusy h = true ∧ h.dst ≠ 255 ∧ (u.busTake 0x42 h []).1 = some l) ∧
    (∃ (s : State) (dt : Nat) (l : Nat) (h : BusHdr),
    let u := s.advance dt
    let v := (u.busTake 0x14 h []).2
    let w := v.serveLater
    w.sessBusy h = true ∧ (u.busTake 0x14 h []).1 = some l ∧ h.session ≠ 0) :=
  ⟨⟨node, 0, 0, 1, hdr, [0x10, 0, 0, 0, 0, 0, 0, 0], (node.readObject 0 0x1000 0).2.2, by decide +kernel⟩,
   ⟨node, 0, 0, (node.readObject 0 0x2080 2).2.1, hdr, [0x20, 0x80, 2, 0, 0, 0, 0, 0], (node.readObject 0 0x2080 2).2.2, by decide +kernel⟩,
   ⟨inSession, 0, 1, inHdr 3 [0x10, 0x10, 3, 0, 0, 0, 0, 0, 0, 0, 0, 1, 7], [0x10, 0x10, 3, 0, 0, 0, 0, 0, 0, 0, 0, 1, 7], by decide +kernel⟩,
   ⟨inSession, 0, 1, inHdr 3 [0x20, 0x80, 1, 0, 0, 0, 0, 0, 0, 0, 0, 1, 0], [0x20, 0x80, 1, 0, 0, 0, 0, 0, 0, 0, 0, 1, 0], by decide +kernel⟩,
   ⟨{ node with field := { node.field with asked := [asked] } }, 0, 0, hdr, [0x10, 0, 0, 0, 0, 0, 0, 0], by decide +kernel⟩,
   ⟨{ node with field := { node.field with asked := [asked] } }, 0, 0, hdr, [0x10, 0, 0, 0, 0, 0, 0, 0], by decide +kernel⟩,
   ⟨{ node with field := { node.field with asked := [asked] } }, 0, 0, hdr, [0x10, 0, 0, 0, 0, 0, 0, 0], by decide +kernel⟩,
   ⟨{ node with field := { node.field with asked := [asked] } }, 0, 0, hdr, [0x10, 0, 0, 0, 0, 0, 0, 0], by decide +kernel⟩,
   ⟨{ node with field := { node.field with asked := [asked] } }, 0, 0, hdr, by decide +kernel⟩,
   ⟨{ inSession with field := { inSession.field with asked := [{ asked with hdr := { hdr with session := 5 } }] } }, 0, 1, inHdr 0x14 [], by decide +kernel⟩⟩

theorem witness_LoginCommandsComplete :
    (∃ (s : State) (dt : Nat) (l : Nat) (h : BusHdr) (p : List Byte),
    let v := ((s.advance dt).busTake 0x10 h p).2
    ((s.advance dt).busTake 0x10 h p).1 = some l ∧ h.dst ≠ 255 ∧ v.field.recovery = false ∧ p.length = 17 ∧ beAt p 0 1 = 1 ∧ v.field.sessions.length < 4 ∧ v.lockedOut 1 = false ∧ v.levelOpens 1 = true) ∧
    (∃ (s : State) (dt : Nat) (l : Nat) (h : BusHdr) (p : List Byte),
    let lvl := beAt p 0 1
    let v := ((s.advance dt).busTake 0x10 h p).2
    ((s.advance dt).busTake 0x10 h p).1 = some l ∧ h.dst ≠ 255 ∧ v.field.recovery = false ∧ p.length = 17 ∧ (lvl = 2 ∨ lvl = 3) ∧ v.field.sessions.length < 4 ∧ v.lockedOut lvl = false ∧ v.levelOpens lvl = true) ∧
    (∃ (s v : State) (dt l : Nat) (h : BusHdr) (p : List Byte) (g : Login),
    let sid := BitVec.ofNat 32 (beAt p 0 4)
    let kl := v.loginKey g
    ((s.advance dt).busTake 0x12 h p = (some l, v) ∧ h.dst ≠ 255 ∧
      v.field.logins.find? (fun x => decide (x.sid = sid) && !v.due x.at_ (secs 1)) = some g ∧ p.length = 36 ∧ g.node = h.src ∧
      v.field.sessions.length < 4) ∧ slice p 4 32 = loginProofOf kl "USNAN-LOGIN" g h.dst h.src) ∧
    (∃ (s : State) (dt : Nat) (g : Login),
    let u := s.advance dt
    g ∈ u.field.logins ∧ u.due g.at_ (secs 1) = true) ∧
    (∃ (s : State) (dt : Nat) (x : Nat) (lvl : Fin 4),
    let u := s.advance dt
    Map.get u.field.lockout lvl.val = some x ∧ u.due x (secs 60) = true) ∧
    (∃ (s v : State) (dt l : Nat) (h : BusHdr), (s.advance dt).busTake 0x14 h [] = (some l, v) ∧ h.session ≠ 0 ∧
    v.serveLater.sessBusy h = false) ∧
    (∃ (s : State) (dt : Nat) (x : Session),
    let u := s.advance dt
    x ∈ u.field.sessions ∧ u.due x.at_ (secs (u.objNat 0x1010 4)) = true) :=
  ⟨⟨node, 0, 0, hdr, List.replicate 17 1, by decide +kernel⟩,
   ⟨node, 0, 0, hdr, 2 :: List.replicate 16 1, by decide +kernel⟩,
   by
    have key : ∀ (k q : List Byte), q.length = 32 → q = loginProofOf (loggedIn.loginKey lg) "USNAN-LOGIN" lg 2 1 → k = q →
        (∃ (s v : State) (dt l : Nat) (h : BusHdr) (p : List Byte) (g : Login),
        let sid := BitVec.ofNat 32 (beAt p 0 4)
        let kl := v.loginKey g
        ((s.advance dt).busTake 0x12 h p = (some l, v) ∧ h.dst ≠ 255 ∧
          v.field.logins.find? (fun x => decide (x.sid = sid) && !v.due x.at_ (secs 1)) = some g ∧ p.length = 36 ∧ g.node = h.src ∧
          v.field.sessions.length < 4) ∧ slice p 4 32 = loginProofOf kl "USNAN-LOGIN" g h.dst h.src) := by
      intro k q len e _
      refine ⟨loggedIn, { loggedIn with field := { loggedIn.field with rxFrames := 1 } }, 0, 0, hdr, [0, 0, 0, 5] ++ q, lg,
        ⟨?_, by decide, rfl, by simp [len], rfl, by decide⟩, ?_⟩
      · unfold State.busTake
        rw [if_neg (by decide +kernel), if_neg (by decide +kernel)]
        dsimp only
        rw [if_neg (by simp [len]), if_pos (by decide)]
        rfl
      · exact ((List.take_of_length_le (by simp [len])).trans (show List.drop 4 ([0, 0, 0, 5] ++ q) = q from rfl)).trans e
    exact key _ _ (length_loginProofOf _ _ _ _ _) rfl rfl,
   ⟨{ up with field := { up.field with logins := [{ lg with at_ := 0 }] } }, 0, { lg with at_ := 0 }, by decide +kernel⟩,
   ⟨{ up with field := { up.field with lockout := [(1, 0)] } }, 0, 0, 1, by decide +kernel⟩,
   ⟨inSession, ((inSession.advance 0).busTake 0x14 (inHdr 0x14 []) []).2, 0, 1, inHdr 0x14 [], by decide +kernel⟩,
   ⟨{ up with field := { up.field with sessions := [{ sid := 5, lvl := 1, ks := [], rx := 0, tx := 0, node := 1, at_ := 0 }] } }, 0, { sid := 5, lvl := 1, ks := [], rx := 0, tx := 0, node := 1, at_ := 0 }, by decide +kernel⟩⟩

theorem witness_BusNodeCommandsComplete :
    (∃ (s : State) (dt : Nat),
    let u := s.advance dt
    u.field.up = true) ∧
    (∃ (s : State) (dt : Nat),
    let u := s.advance dt
    u.field.up = true ∧ u.field.node = 0 ∧ u.due u.field.hatSince (msec 1) = true) ∧
    (∃ (s : State) (dt : Nat) (h : BusHdr) (p : List Byte),
    let u := s.advance dt
    let a := beAt p 0 1
    u.field.up = true ∧ h.dst = 255 ∧ u.field.node = 0 ∧ u.field.hatHeld = true ∧ p.length = 5 ∧ a ≠ 0 ∧ a ≠ 255 ∧ h.session = 0) ∧
    (∃ (s : State) (e : BitVec 16),
    s.field.up = true ∧ e ≠ 0x88B5) ∧
    (∃ (s : State) (e : BitVec 16) (version : Byte),
    s.field.up = true ∧ e = 0x88B5 ∧ version ≠ 1) ∧
    (∃ (s : State) (e : BitVec 16) (version : Byte) (src : Byte),
    s.field.up = true ∧ e = 0x88B5 ∧ version = 1 ∧ s.field.node ≠ 0 ∧ src = s.field.node) ∧
    (∃ (s : State) (l : Nat) (h : BusHdr) (p : List Byte),
    (s.busTake 0x21 h p).1 = some l ∧ p.length = 4) ∧
    (∃ (s : State) (dt : Nat) (n : Notice),
    let u := s.advance dt
    let dst := u.objNat 0x1010 3
    u.field.up = true ∧ u.field.recovery = false ∧ dst ≠ 0 ∧ u.field.node ≠ 0 ∧ u.field.waiting = [n] ∧ u.due n.sentAt (secs 1) = true) :=
  ⟨⟨up, 0, by decide +kernel⟩,
   ⟨up, 0, by decide +kernel⟩,
   ⟨{ up with field := { up.field with hatHeld := true } }, 0, { hdr with dst := 255 }, [2, 0, 0, 0, 0], by decide +kernel⟩,
   ⟨up, 0x88B6, by decide +kernel⟩,
   ⟨up, 0x88B5, 2, by decide +kernel⟩,
   ⟨node, 0x88B5, 1, 2, by decide +kernel⟩,
   ⟨node, 0, hdr, [0, 0, 0, 3], by decide +kernel⟩,
   ⟨{ node.setObj 0x1010 3 [7] with field := { node.field with objs := (node.setObj 0x1010 3 [7]).field.objs, waiting := [{ seq := 3, code := 1, unit := 0, time := 0, detail := [] }] } }, 0, { seq := 3, code := 1, unit := 0, time := 0, detail := [] }, by decide +kernel⟩⟩

theorem witness_ImageCommandsComplete :
    (∃ (s : State) (dt : Nat) (l : Nat) (h : BusHdr) (p : List Byte),
    let target := beAt p 0 1
    let len := beAt p 1 4
    let v := ((s.advance dt).busTake 0x40 h p).2
    let w := v.serveLater
    ((s.advance dt).busTake 0x40 h p).1 = some l ∧ h.dst ≠ 255 ∧ w.sessBusy h = false ∧ w.mayLoad l = true ∧ p.length = 5 ∧ (target ≤ 1 ∨ 16 ≤ target ∧ target ≤ 23 ∧ (w.service (target - 16)).state ≠ 2) ∧ (w.field.recovery = true → target = 0) ∧ w.field.transfer = none ∧ len ≤ w.imageRoom target) ∧
    (∃ (s : State) (dt : Nat) (l : Nat) (h : BusHdr) (p : List Byte) (x : Transfer),
    let d := p.drop 4
    let v := ((s.advance dt).busTake 0x41 h p).2
    let w := v.serveLater
    ((s.advance dt).busTake 0x41 h p).1 = some l ∧ h.dst ≠ 255 ∧ w.sessBusy h = false ∧ w.mayLoad l = true ∧ w.field.transfer = some x ∧ 4 ≤ p.length ∧ d.length ≤ 1024 ∧ beAt p 0 4 = x.data.length ∧ x.data.length + d.length ≤ x.length) ∧
    (∀ t f, (t = 0 ∨ t = 1) ∧ f = fwImage t ∧ imgSigned f Config.someoxEcdsa Config.someoxHss = true ∨
      t = 16 ∧ f = svcImage ∧ imgSigned f inSession.ownerKeys.1 inSession.ownerKeys.2 = true →
    ∃ (s v : State) (dt l : Nat) (h : BusHdr) (x : Transfer),
      ((s.advance dt).busTake 0x42 h [] = (some l, v) ∧ h.dst ≠ 255 ∧ v.serveLater.sessBusy h = false ∧
        v.serveLater.mayLoad l = true ∧ v.serveLater.field.recovery = false ∧ v.serveLater.field.transfer = some x ∧
        x.data.length = x.length ∧ x.target.toNat = t ∧ (v.serveLater.service (t - 16)).state ≠ 2) ∧
      v.serveLater.imageResult x.data t = 0) :=
  ⟨⟨inSession, 0, 1, inHdr 0x40 [0, 0, 0, 0, 9], [0, 0, 0, 0, 9], by decide +kernel⟩,
   ⟨{ inSession with field := { inSession.field with transfer := some { target := 0, length := 9, data := [1] } } }, 0, 1, inHdr 0x41 [0, 0, 0, 1, 7], [0, 0, 0, 1, 7], { target := 0, length := 9, data := [1] }, by decide +kernel⟩,
   by
    rintro t f (⟨e, rfl, h⟩ | ⟨rfl, rfl, h⟩)
    · refine ⟨xfer t (fwImage t), ((xfer t (fwImage t)).advance 0 |>.busTake 0x42 (inHdr 0x42 []) []).2, 0, 1, inHdr 0x42 [],
        { target := BitVec.ofNat 8 t, length := (fwImage t).length, data := fwImage t }, ?_, fwImage_accepted _ t e h ?_⟩
      all_goals obtain rfl | rfl := e <;> decide +kernel
    · exact ⟨xfer 16 svcImage, ((xfer 16 svcImage).advance 0 |>.busTake 0x42 (inHdr 0x42 []) []).2, 0, 1, inHdr 0x42 [],
        { target := 16, length := svcImage.length, data := svcImage }, by decide +kernel,
        svcImage_signed _ _ (by decide +kernel) h (by decide +kernel) (by decide +kernel)⟩⟩

theorem witness_OwnershipCommandsComplete :
    (∃ (s : State) (dt : Nat) (lvl : Fin 4),
    let u := s.advance dt
    u.objTaken = true ∧ lvl ≠ 0 ∧ u.field.transfer = none ∧ u.field.enrolling = false ∧ u.field.life = 1 ∧ u.field.mainSt = 0 ∧ badPackage u.field.ownerPkg = false) ∧
    (∃ (s : State) (dt : Nat),
    let u := s.advance dt
    u.field.up = true ∧ u.field.enrolling = true) ∧
    (∃ (s : State) (lvl : Fin 4),
    s.objTaken = true ∧ 2 ≤ lvl.val ∧ s.field.transfer = none ∧ s.field.life = 2 ∧ s.field.mainSt = 0) ∧
    (∃ (s : State) (lvl : Fin 4),
    s.objTaken = true ∧ (if s.field.life = 2 then 2 else 3) ≤ lvl.val ∧ s.field.transfer = none ∧ s.field.enrolling = false ∧ s.field.life ≠ 3 ∧ s.field.mainSt = 0) ∧
    (∃ (s : State) (lvl : Fin 4),
    s.objTaken = true ∧ lvl = 3 ∧ s.field.transfer = none ∧ s.field.life = 0) ∧
    (∃ (s : State) (l : Nat) (h : BusHdr) (x : List Byte),
    let v := (s.busTake 0x03 h (wholeWrite 0x2F31 1 x)).2
    let z := v.serveLater
    let w := z.setPart h.session (objKey 0x2F31 1) none
    (s.busTake 0x03 h (wholeWrite 0x2F31 1 x)).1 = some l ∧ h.dst ≠ 255 ∧ z.sessBusy h = false ∧ 1 ≤ l ∧ x.length = 52 ∧ z.writeCheck l 0x2F31 1 52 none = 0 ∧ w.writeCheck l 0x2F31 1 52 (some x) = 0) ∧
    (∃ (s : State) (lvl : Fin 4) (c : List Byte),
    s.objTaken = true ∧ 2 ≤ lvl.val ∧ c.length ≤ 4096) :=
  ⟨⟨{ fieldIn 1 with field := { (fieldIn 1).field with ownerPkg := package } }, 0, 1, by decide +kernel⟩,
   ⟨{ fieldIn 1 with field := { (fieldIn 1).field with enrolling := true, ownerPkg := package } }, 0, by decide +kernel⟩,
   ⟨fieldIn 2, 2, by decide +kernel⟩,
   ⟨fieldIn 1, 3, by decide +kernel⟩,
   ⟨fieldIn 0, 3, by decide +kernel⟩,
   ⟨inSession, 1, inHdr 3 (wholeWrite 0x2F31 1 (List.replicate 52 0xFF)), List.replicate 52 0xFF, by decide +kernel⟩,
   ⟨up, 2, [1], by decide +kernel⟩⟩

theorem witness_SecurityCommandsComplete :
    (∃ (s : State) (lvl : Fin 4) (v : Byte),
    s.objTaken = true ∧ lvl ≠ 0 ∧ s.field.life ≠ 0 ∧ v.toNat < 16 ∧ bit s.doors 2 = false ∧ v.getLsbD 2 = true ∧ (∀ d < 4, d ≠ 2 → bit s.doors d = v.getLsbD d)) ∧
    (∃ (s : State) (lvl : Fin 4) (v : Byte),
    s.objTaken = true ∧ s.field.life ≠ 0 ∧ v.toNat < 16 ∧ (∃ d < 4, bit s.doors d = false ∧ v.getLsbD d = true) ∧ lvl = 0) ∧
    (∃ (s : State) (v : State) (n : List Byte) (sig : List Byte),
    s.objTaken = true ∧ n.length = 32 ∧ s.field.life ≠ 3 ∧ s.aliasSign (s.quoteBody n) = (sig, v)) ∧
    (∃ (s : State) (v : State) (x : List Byte) (sig : List Byte),
    s.objTaken = true ∧ x.length = 49 ∧ (beAt x 0 1 = 1 ∨ beAt x 0 1 = 2) ∧ s.field.life ≠ 3 ∧ s.aliasSign (spdmContext (beAt x 0 1) ++ x.drop 1) = (sig, v)) ∧
    (∃ (s : State),
    s.objTaken = true) ∧
    (∃ (s : State),
    s.powered 0 = true) ∧
    (∃ (s : State),
    s.powered 0 = true ∧ s.pwr.tap = 3 ∧ s.tapInstr = 2) :=
  ⟨⟨up.setObj 0x2F40 1 [0], 1, 4, by decide +kernel⟩,
   ⟨up.setObj 0x2F40 1 [0], 0, 4, by decide +kernel⟩,
   ⟨up, (up.aliasSign (up.quoteBody (List.replicate 32 1))).2, List.replicate 32 1, (up.aliasSign (up.quoteBody (List.replicate 32 1))).1, by decide +kernel, by decide +kernel, by decide +kernel, pair_eta _⟩,
   (by refine ⟨up, (up.aliasSign (spdmContext 1 ++ List.replicate 48 1)).2, List.replicate 49 1, (up.aliasSign (spdmContext 1 ++ List.replicate 48 1)).1, ?_, ?_, ?_, ?_, pair_eta _⟩ <;> decide +kernel),
   ⟨up, by decide +kernel⟩,
   ⟨(up), by decide +kernel⟩,
   ⟨{ up with pwr := { up.pwr with tap := 3, tapIr := 2 } }, by decide +kernel⟩⟩

theorem witness_FieldSideCommandsComplete :
    (∃ (s : State) (dt : Nat),
    let u := s.advance dt
    u.field.up = true) ∧
    (imgSigned (fwImage 0) Config.someoxEcdsa Config.someoxHss = true → ∃ (s : State) (dt : Nat), let u := s.advance dt
    (u.field.up = false ∧ u.pwr.por = false) ∧ u.imageResult (u.bank (if u.field.prefField then 1 else 0)) 0 = 0) ∧
    (∃ (s : State) (dt : Nat),
    let u := s.advance dt
    u.field.up = false ∧ (∀ b, u.imageResult (u.bank (if b = true then 1 else 0)) 0 ≠ 0)) ∧
    (∃ (s : State) (dt : Nat),
    let u := s.advance dt
    u.field.up = true ∧ u.field.recovery = false ∧ u.due u.field.startAt (secs 60) = true ∧ u.running = true) ∧
    (∃ (s : State) (dt : Nat),
    let u := s.advance dt
    (u.service 0).state = 2) :=
  ⟨⟨up, 0, by decide +kernel⟩,
   fun h => ⟨{ State.reset with field := { banks := [(0, fwImage 0)] } }, 0, by decide +kernel, fwImage_accepted _ 0 (.inl rfl) h (by decide +kernel)⟩,
   ⟨{ State.reset with field := {} }, 0, by decide +kernel⟩,
   ⟨up, 0, by decide +kernel⟩,
   ⟨{ thr with field := { thr.field with services := [(0, { state := 2, file := svcImage })] } }, 0, by decide +kernel⟩⟩

theorem witness_MainDieCommandsComplete :
    (∃ (s : State) (dt : Nat) (x : Nat),
    let u := s.advance dt
    u.field.bootAt = some x ∧ u.field.mainSt = 1 ∧ u.due x (secs 2) = true) ∧
    (∃ (s : State) (dt : Nat),
    let u := s.advance dt
    u.field.up = true ∧ u.running = true ∧ u.due u.gloveF.heardAt (msec (u.objNat 0x2000 4)) = true) ∧
    (∃ (s : State) (dt : Nat) (lvl : Fin 4),
    let u := s.advance dt
    u.objTaken = true ∧ lvl ≠ 0 ∧ u.field.life ≠ 3 ∧ u.pwr.tripped = false ∧ u.pwr.por = true ∧ u.field.mainSt = 0) ∧
    (∃ (s : State) (dt : Nat) (lvl : Fin 4),
    let u := s.advance dt
    u.objTaken = true ∧ lvl ≠ 0 ∧ u.pwr.tripped = false ∧ u.field.mainSt ≠ 0 ∧ u.field.endAt = none ∧ u.sql.runEnd = none) ∧
    (∃ (s : State) (dt : Nat) (p : List Byte) (down : Bool),
    let u := (((s.advance dt).takeMsg .host 0x40).getD (p, State.reset)).2
    let v := u.gloveSend .host 0x41 (beBytes 2 0 ++ List.replicate 6 0)
    ((s.advance dt).takeMsg .host 0x40).map (·.1) = some p ∧ beAt p 0 1 = (if down = true then 2 else 1) ∧ v.running = true ∧ v.sqlOn = true ∧ v.sql.open_ = true) ∧
    (∃ (s : State) (dt : Nat) (p : List Byte) (down : Bool),
    let u := (((s.advance dt).takeMsg .host 0x40).getD (p, State.reset)).2
    let v := u.gloveSend .host 0x41 (beBytes 2 0 ++ List.replicate 6 0)
    ((s.advance dt).takeMsg .host 0x40).map (·.1) = some p ∧ beAt p 0 1 = (if down = true then 2 else 1) ∧ v.sql.open_ = false) ∧
    (∃ (s : State) (dt : Nat) (x : Nat),
    let u := s.advance dt
    u.due x (msec 100) = true ∧ (u.field.endAt = some (x, false) ∨ u.field.endAt = none ∧ u.sql.runEnd = some (x, false))) ∧
    (∃ (s : State) (dt : Nat) (x : Nat),
    let u := s.advance dt
    u.due x (msec 100) = true ∧ (u.field.endAt = some (x, true) ∨ u.field.endAt = none ∧ u.sql.runEnd = some (x, true))) :=
  ⟨⟨{ up with field := { up.field with mainSt := 1, bootAt := some 0 } }, 0, 0, by decide +kernel⟩,
   ⟨up, 0, by decide +kernel⟩,
   ⟨fieldIn 2, 0, 1, by decide +kernel⟩,
   ⟨up, 0, 1, by decide +kernel⟩,
   ⟨{ inbox .host 0x40 [2] with sql := { open_ := true } }, 0, [2], true, by decide +kernel⟩,
   ⟨inbox .host 0x40 [1], 0, [1], false, by decide +kernel⟩,
   ⟨{ up with sql := { runEnd := some (0, false) } }, 0, 0, by decide +kernel⟩,
   ⟨{ up with field := { up.field with endAt := some (0, true) } }, 0, 0, by decide +kernel⟩⟩

theorem witness_BringUpCompletes :
    (∃ (s : State) (dt : Nat) (k : Fin 9),
    let u := s.advance dt
    u.pwr.fw = true ∧ u.field.mainSt = 1 ∧ u.pwr.step + 1 = k.val ∧ k = 1) ∧
    (∃ (s : State) (dt : Nat) (k : Fin 9),
    let u := s.advance dt
    u.pwr.fw = true ∧ u.field.mainSt = 1 ∧ u.pwr.step + 1 = k.val ∧ k = 2) ∧
    (∃ (s : State) (dt : Nat) (k : Fin 9) (ok : Bool),
    let u := s.advance dt
    u.pwr.fw = true ∧ u.field.mainSt = 1 ∧ u.pwr.step + 1 = k.val ∧ k = 3 ∧ ok = true) ∧
    (∃ (s : State) (dt : Nat) (k : Fin 9) (ok : Bool),
    let u := s.advance dt
    u.pwr.fw = true ∧ u.field.mainSt = 1 ∧ u.pwr.step + 1 = k.val ∧ k = 3 ∧ ok = false) ∧
    (∃ (s : State) (dt : Nat) (k : Fin 9),
    let u := s.advance dt
    u.pwr.fw = true ∧ u.field.mainSt = 1 ∧ u.pwr.step + 1 = k.val ∧ k = 4) ∧
    (∃ (s : State) (dt : Nat) (k : Fin 9),
    let u := s.advance dt
    let v : State := { u with pwr := { u.pwr with step := k.val } }
    u.pwr.fw = true ∧ u.field.mainSt = 1 ∧ u.pwr.step + 1 = k.val ∧ k = 5 ∧ v.powered 79 = true) ∧
    (∃ (s : State) (dt : Nat) (k : Fin 9),
    let u := s.advance dt
    u.pwr.fw = true ∧ u.field.mainSt = 1 ∧ u.pwr.step + 1 = k.val ∧ k = 6) ∧
    (∃ (s : State) (dt : Nat) (k : Fin 9),
    let u := s.advance dt
    let v : State := { u with pwr := { u.pwr with step := k.val } }
    u.pwr.fw = true ∧ u.field.mainSt = 1 ∧ u.pwr.step + 1 = k.val ∧ k = 7 ∧ (∀ n < 8, v.objBool (0x2100 + n) 3 = false)) ∧
    (∃ (s : State) (dt : Nat) (k : Fin 9),
    let u := s.advance dt
    u.pwr.fw = true ∧ u.field.mainSt = 1 ∧ u.pwr.step + 1 = k.val ∧ k = 8) :=
  ⟨⟨{ up with pwr := { up.pwr with step := 0 }, field := { up.field with mainSt := 1 } }, 0, 1, by decide +kernel⟩,
   ⟨{ up with pwr := { up.pwr with step := 1 }, field := { up.field with mainSt := 1 } }, 0, 2, by decide +kernel⟩,
   ⟨{ up with pwr := { up.pwr with step := 2 }, field := { up.field with mainSt := 1 } }, 0, 3, true, by decide +kernel⟩,
   ⟨{ up with pwr := { up.pwr with step := 2 }, field := { up.field with mainSt := 1 } }, 0, 3, false, by decide +kernel⟩,
   ⟨{ up with pwr := { up.pwr with step := 3 }, field := { up.field with mainSt := 1 } }, 0, 4, by decide +kernel⟩,
   ⟨{ up with pwr := { up.pwr with step := 4 }, field := { up.field with mainSt := 1 } }, 0, 5, by decide +kernel⟩,
   ⟨{ up with pwr := { up.pwr with step := 5 }, field := { up.field with mainSt := 1 } }, 0, 6, by decide +kernel⟩,
   ⟨{ up with pwr := { up.pwr with step := 6 }, field := { up.field with mainSt := 1 } }, 0, 7, by decide +kernel⟩,
   ⟨{ up with pwr := { up.pwr with step := 7 }, field := { up.field with mainSt := 1 } }, 0, 8, by decide +kernel⟩⟩

theorem witness_PowerCommandsComplete :
    (∃ (s : State) (dt : Nat) (lvl : Fin 4),
    let u := s.advance dt
    u.objTaken = true ∧ lvl ≠ 0 ∧ u.running = false) ∧
    (∃ (s : State) (dt : Nat) (lvl : Fin 4) (v : BitVec 96),
    let u := s.advance dt
    let old := BitVec.ofNat 96 (u.objNat 0x2010 1)
    let stay := u.target v (u.powered 8)
    u.objTaken = true ∧ lvl ≠ 0 ∧ u.running = true ∧ (∀ d ∈ domainOrder, u.powered d = true → (stay.getLsbD d = false ∨ old.getLsbD d = true ∧ v.getLsbD d = false ∧ d ∉ fixedDomains ∧ (d < 6 ∨ 8 < d) ∧ d ≠ 94) → u.mayRemove stay d = true)) ∧
    (∃ (s : State) (dt : Nat) (lvl : Fin 4) (v : BitVec 96),
    let u := s.advance dt
    let old := BitVec.ofNat 96 (u.objNat 0x2010 1)
    let stay := u.target v (u.powered 8)
    u.objTaken = true ∧ lvl ≠ 0 ∧ u.running = true ∧ stay.getLsbD 50 = false ∧ (∀ d ∈ domainOrder, u.powered d = true → (stay.getLsbD d = false ∨ old.getLsbD d = true ∧ v.getLsbD d = false ∧ d ∉ fixedDomains ∧ (d < 6 ∨ 8 < d) ∧ d ≠ 94) → u.mayRemove stay d = true)) ∧
    (∃ (s : State) (dt : Nat),
    let u := s.advance dt
    u.pwr.por = false) ∧
    (∃ (s : State) (dt : Nat),
    let u := s.advance dt
    u.pwr.por = true ∧ u.field.up = true) ∧
    (∃ (s : State) (dt : Nat) (x : Int),
    let u := s.advance dt
    u.pwr.por = true ∧ u.pwr.tripped = false ∧ 1250 ≤ x ∧ u.field.up = true) ∧
    (∃ (s : State) (dt : Nat) (m : Int) (h : Int),
    let u := s.advance dt
    u.objTaken = true ∧ u.due u.field.sampleAt (msec (u.objNat 0xF020 6)) = true ∧ max m h < 10 * (u.objNat 0xF020 7 : Int)) ∧
    (∃ (s : State) (dt : Nat),
    let u := s.advance dt
    u.pwr.por = true ∧ u.pwr.avsThere = true ∧ u.due u.pwr.stepAt (msec 1) = true) ∧
    (∃ (s : State),
    s.field.up = true) :=
  ⟨⟨fieldIn 2, 0, 1, by decide +kernel⟩,
   ⟨{ up with pwr := { up.pwr with jtagUp := true } }, 0, 1, BitVec.allOnes 96, by decide +kernel⟩,
   ⟨{ up with pwr := { up.pwr with jtagUp := true } }, 0, 1, BitVec.allOnes 96 ^^^ (1#96 <<< 50), by decide +kernel⟩,
   ⟨{ State.reset with field := up.field }, 0, by decide +kernel⟩,
   ⟨up, 0, by decide +kernel⟩,
   ⟨up, 0, 1250, by decide +kernel⟩,
   ⟨up, 0, 300, 310, by decide +kernel⟩,
   ⟨{ up with pwr := { up.pwr with avsThere := true } }, 0, by decide +kernel⟩,
   ⟨up, by decide +kernel⟩⟩

theorem witness_InstanceAdminCompletes :
    (∃ (s : State) (dt : Nat) (e : List Byte),
    let v := taken (s.advance dt) e
    (s.advance dt).takesAdmin e v ∧ leAt e 1 1 = 0) ∧
    (∃ (s : State) (dt : Nat) (e : List Byte),
    let i := entInst e
    let v := taken (s.advance dt) e
    let x := instOf e { st := .active, gen := (v.inst i).gen, made := slice e 8 36 }
    (s.advance dt).takesAdmin e v ∧ (v.inst i).st = .free ∧ x.badArg = false ∧ i < v.instCap ∧ i < v.regBits (QIM + 0x050) 16 0 ∧ x.qbase + x.qcount ≤ v.queueCap ∧ v.instOverlaps i x = false) ∧
    (∃ (s : State) (dt : Nat) (e : List Byte),
    let i := entInst e
    let v := taken (s.advance dt) e
    (s.advance dt).takesAdmin e v ∧ (v.inst i).st ≠ .free) ∧
    (∃ (s : State) (dt : Nat) (e : List Byte),
    let i := entInst e
    let v := taken (s.advance dt) e
    let y := instOf e (v.inst i)
    (s.advance dt).takesAdmin e v ∧ (v.inst i).st ≠ .free ∧ y.badArg = false ∧ y.qbase + y.qcount ≤ v.queueCap ∧ v.allDisabled i = true ∧ v.qim.queue.any (fun (q : Nat × Queue) => decide (q.2.owner = some (BitVec.ofNat 16 i)) && decide (y.qcount ≤ q.2.local_)) = false ∧ v.instOverlaps i y = false) ∧
    (∃ (s : State) (dt : Nat) (e : List Byte),
    let i := entInst e
    let v := taken (s.advance dt) e
    (s.advance dt).takesAdmin e v ∧ (v.inst i).st = .active) ∧
    (∃ (s : State) (dt : Nat) (e : List Byte),
    let i := entInst e
    let v := taken (s.advance dt) e
    (s.advance dt).takesAdmin e v ∧ (v.inst i).st = .error) ∧
    (∃ (s : State) (dt : Nat) (e : List Byte),
    let i := entInst e
    let v := taken (s.advance dt) e
    (s.advance dt).takesAdmin e v ∧ (v.inst i).st = .free) ∧
    (∃ (s : State) (dt : Nat) (e : List Byte),
    let i := entInst e
    let v := taken (s.advance dt) e
    (s.advance dt).takesAdmin e v ∧ (v.inst i).st = .active ∧ v.sessUsed i = 0 ∧ v.qim.queue.any (fun (q : Nat × Queue) => decide (q.2.owner = some (BitVec.ofNat 16 i)) && q.2.st ≠ .none) = false) ∧
    (∃ (s : State) (dt : Nat) (e : List Byte),
    let i := entInst e
    let v := taken (s.advance dt) e
    (s.advance dt).takesAdmin e v ∧ (v.inst i).st ≠ .free ∧ entClr e = false ∧ (v.unitPut 6 none (leAt e 16 8) (slicePad (List.replicate 8 0 ++ slicePad (v.inst i).made 0 36 ++ [BitVec.ofNat 8 (v.inst i).st.code, (v.inst i).gen, if v.overQuota i then 1 else 0, 0] ++ leBytes 4 (v.inst i).err ++ leBytes 4 (kib (v.instBacklog i))) 0 64)).1 = some true) ∧
    (∃ (s : State) (dt : Nat) (e : List Byte),
    let i := entInst e
    let v := taken (s.advance dt) e
    (s.advance dt).takesAdmin e v ∧ (v.inst i).st ≠ .free ∧ (v.inst i).gen.toNat = leAt e 13 1 ∧ (v.inst i).busy = true) :=
  ⟨⟨adm (inst), 0, ent 0 0 0 [], taken_admin _ _ (by decide +kernel), by decide +kernel⟩,
   ⟨adm (inst.setReg (QIM + 0x050) 64), 0, ent 1 5 0 (ranges 64 4 8 2), taken_admin _ _ (by decide +kernel), by decide +kernel, by decide +kernel, by decide +kernel,
     by rw [taken_regBits _ _ _ _ _ (by decide)]; decide +kernel, by decide +kernel,
     (taken_instOverlaps _ _ _ _).trans (by decide +kernel)⟩,
   ⟨adm (inst), 0, ent 1 3 0 [], taken_admin _ _ (by decide +kernel), by decide +kernel⟩,
   (by refine ⟨adm (instQ .disabled .disabled id), 0, ent 2 3 0 (ranges 64 4 8 2), taken_admin _ _ (by decide +kernel), ?_, ?_, ?_, ?_, ?_,
     (taken_instOverlaps _ _ _ _).trans (by decide +kernel)⟩ <;> decide +kernel),
   ⟨adm (inst), 0, ent 3 3 0 [], taken_admin _ _ (by decide +kernel), by decide +kernel⟩,
   ⟨adm (instQ .disabled .disabled (fun x => { x with st := .error })), 0, ent 3 3 0 [], taken_admin _ _ (by decide +kernel), by decide +kernel⟩,
   ⟨adm (inst), 0, ent 3 7 0 [], taken_admin _ _ (by decide +kernel), by decide +kernel⟩,
   ⟨adm (instQ .none .none id), 0, ent 4 3 0 [], taken_admin _ _ (by decide +kernel), by decide +kernel⟩,
   ⟨adm (inst), 0, ent 5 3 0 [0, 0, 0, 0, 0, 16], taken_admin _ _ (by decide +kernel), by decide +kernel⟩,
   ⟨adm (instQ .enabled .enabled (fun x => { x with busy := true })), 0, ent 6 3 0 [0, 1], taken_admin _ _ (by decide +kernel), by decide +kernel⟩⟩

theorem witness_QueueAdminCompletes :
    (∃ (s : State) (dt : Nat) (e : List Byte) (owner : Option (BitVec 16)) (base : Nat) (count : Nat),
    let x := queueOfEntry e owner base
    let g := base + entLocal e
    let v := taken (s.advance dt) e
    (s.advance dt).takesAdmin e v ∧ v.ownerOf e = some (owner, base, count) ∧ v.badQueue x count (leAt e 32 2) = false ∧ (x.kind = 1 → leAt e 36 4 < 2 ^ 20) ∧ g < v.queueCap ∧ (v.queue g).st = .none ∧ x.kind = 7 ∧ v.ownerRuns x = true ∧ v.offered x = true) ∧
    (∃ (s : State) (dt : Nat) (e : List Byte) (owner : Option (BitVec 16)) (base : Nat) (count : Nat),
    let x := queueOfEntry e owner base
    let g := base + entLocal e
    let v := taken (s.advance dt) e
    (s.advance dt).takesAdmin e v ∧ v.ownerOf e = some (owner, base, count) ∧ v.badQueue x count (leAt e 32 2) = false ∧ (x.kind = 1 → leAt e 36 4 < 2 ^ 20) ∧ g < v.queueCap ∧ (v.queue g).st = .none ∧ (v.queue x.cq).st ≠ .none ∧ v.ownerRuns x = true) ∧
    (∃ (s : State) (dt : Nat) (e : List Byte) (owner : Option (BitVec 16)) (base : Nat) (count : Nat),
    let x := queueOfEntry e owner base
    let g := base + entLocal e
    let v := taken (s.advance dt) e
    (s.advance dt).takesAdmin e v ∧ v.ownerOf e = some (owner, base, count) ∧ v.badQueue x count (leAt e 32 2) = false ∧ (x.kind = 1 → leAt e 36 4 < 2 ^ 20) ∧ g < v.queueCap ∧ (v.queue g).st = .none ∧ (v.queue x.cq).st ≠ .none ∧ v.ownerRuns x = true ∧ v.offered x = false) ∧
    (∃ (s : State) (dt : Nat) (e : List Byte) (owner : Option (BitVec 16)) (base : Nat) (count : Nat),
    let g := base + entLocal e
    let v := taken (s.advance dt) e
    (s.advance dt).takesAdmin e v ∧ v.ownerOf e = some (owner, base, count) ∧ entLocal e < count ∧ (v.queue g).st = .disabled) ∧
    (∃ (s : State) (dt : Nat) (e : List Byte) (owner : Option (BitVec 16)) (base : Nat) (count : Nat),
    let g := base + entLocal e
    let v := taken (s.advance dt) e
    (s.advance dt).takesAdmin e v ∧ v.ownerOf e = some (owner, base, count) ∧ entLocal e < count ∧ (v.queue g).st = .none) ∧
    (∃ (s : State) (dt : Nat) (e : List Byte) (owner : Option (BitVec 16)) (base : Nat) (count : Nat),
    let g := base + entLocal e
    let v := taken (s.advance dt) e
    let z := v.settleSends
    (s.advance dt).takesAdmin e v ∧ v.ownerOf e = some (owner, base, count) ∧ entLocal e < count ∧ (v.queue g).st ≠ .none ∧ (z.queue g).st ≠ .disabled ∧ (z.queue g).kind = 7) ∧
    (∃ (s : State) (dt : Nat) (e : List Byte) (owner : Option (BitVec 16)) (base : Nat) (count : Nat),
    let g := base + entLocal e
    let v := taken (s.advance dt) e
    let z := v.settleSends
    (s.advance dt).takesAdmin e v ∧ v.ownerOf e = some (owner, base, count) ∧ entLocal e < count ∧ (v.queue g).st ≠ .none ∧ (z.queue g).st ≠ .disabled ∧ (z.queue g).kind ≠ 7 ∧ (z.queue g).kind ≠ 4) ∧
    (∃ (s : State) (dt : Nat) (e : List Byte) (owner : Option (BitVec 16)) (base : Nat) (count : Nat),
    let g := base + entLocal e
    let v := taken (s.advance dt) e
    (s.advance dt).takesAdmin e v ∧ v.ownerOf e = some (owner, base, count) ∧ entLocal e < count ∧ (v.queue g).st = .disabled ∧ (v.queue g).kind ≠ 7 ∧ (v.queue g).back = []) ∧
    (∃ (s : State) (dt : Nat) (e : List Byte) (owner : Option (BitVec 16)) (base : Nat) (count : Nat),
    let g := base + entLocal e
    let v := taken (s.advance dt) e
    (s.advance dt).takesAdmin e v ∧ v.ownerOf e = some (owner, base, count) ∧ entLocal e < count ∧ (v.queue g).st = .disabled ∧ v.boundTo g = [] ∧ (v.queue g).kind = 7 ∧ (v.queue g).back = []) ∧
    (∃ (s : State) (dt : Nat) (e : List Byte) (owner : Option (BitVec 16)) (base : Nat) (count : Nat),
    let g := base + entLocal e
    let v := taken (s.advance dt) e
    (s.advance dt).takesAdmin e v ∧ v.ownerOf e = some (owner, base, count) ∧ entLocal e < count ∧ (v.queue g).kind = 7 ∧ (v.queue g).st ≠ .none ∧ entClr e = false ∧ (v.unitPut 6 none (leAt e 16 8) (slicePad (leBytes 1 7 ++ leBytes 1 (v.queue g).st.code ++ leBytes 2 ((if (v.queue g).cqBack = [] then 0 else 1) + (if (v.queue g).armed then 2 else 0)) ++ leBytes 4 (v.queue g).head.toNat ++ leBytes 4 (v.queue g).tail.toNat ++ leBytes 4 (v.queue g).pub.toNat ++ leBytes 4 (v.queue g).prod.toNat ++ leBytes 4 (v.queue g).cons.toNat ++ leBytes 4 (kib (v.backlog g)) ++ leBytes 4 (v.queue g).rxDrop) 0 64)).1 = some true) :=
  ⟨⟨adm (inst), 0, ent 0x10 3 3 ([7, 4] ++ List.replicate 18 0), some 3, 0, 4, taken_admin _ _ (by decide +kernel), by decide +kernel⟩,
   ⟨adm (inst), 0, ent 0x10 3 3 ([3, 4] ++ List.replicate 18 0 ++ [1]), some 3, 0, 4, taken_admin _ _ (by decide +kernel), by decide +kernel⟩,
   ⟨adm ({ inst with pwr := { inst.pwr with domains := BitVec.allOnes 49 |>.setWidth 96 } }), 0, ent 0x10 3 3 ([1, 4] ++ List.replicate 18 0 ++ [1]), some 3, 0, 4, taken_admin _ _ (by decide +kernel), by decide +kernel⟩,
   ⟨adm (instQ .disabled .disabled id), 0, ent 0x11 3 0 [], some 3, 0, 4, taken_admin _ _ (by decide +kernel), by decide +kernel⟩,
   ⟨adm (inst), 0, ent 0x11 3 3 [], some 3, 0, 4, taken_admin _ _ (by decide +kernel), by decide +kernel⟩,
   ⟨adm (inst), 0, ent 0x12 3 1 [], some 3, 0, 4, taken_admin _ _ (by decide +kernel), by decide +kernel⟩,
   ⟨adm (inst), 0, ent 0x12 3 0 [], some 3, 0, 4, taken_admin _ _ (by decide +kernel), by decide +kernel⟩,
   ⟨adm (instQ .disabled .disabled id), 0, ent 0x13 3 0 [], some 3, 0, 4, taken_admin _ _ (by decide +kernel), by decide +kernel⟩,
   ⟨adm (instQ .none .disabled id), 0, ent 0x13 3 1 [], some 3, 0, 4, taken_admin _ _ (by decide +kernel), by decide +kernel⟩,
   ⟨adm (inst), 0, ent 0x14 3 1 [0, 0, 0, 0, 0, 16], some 3, 0, 4, taken_admin _ _ (by decide +kernel), by decide +kernel⟩⟩

theorem witness_SessionAdminCompletes :
    (∃ (s : State) (dt : Nat) (e : List Byte),
    let v := taken (s.advance dt) e
    (s.advance dt).takesAdmin e v ∧ (v.inst (entInst e)).st ≠ .free ∧ v.trnPowered = false) ∧
    (∃ (s : State) (dt : Nat) (e : List Byte),
    let v := taken (s.advance dt) e
    (s.advance dt).takesAdmin e v ∧ (v.inst (entInst e)).st ≠ .free ∧ v.trnPowered = true ∧ (v.unitRead none (leAt e 16 8) 296 (.ok ([3, 0] ++ List.replicate 294 0))).1 = some (some ([3, 0] ++ List.replicate 294 0)) ∧ ({ ctx := BitVec.ofNat 2048 (leNat (slicePad ([3, 0] ++ List.replicate 294 0) 0 256)) } : Sess).owner = entInst e) ∧
    (∃ (s : State) (dt : Nat) (e : List Byte),
    let v := taken (s.advance dt) e
    (s.advance dt).takesAdmin e v ∧ (v.inst (entInst e)).st ≠ .free ∧ v.trnPowered = true ∧ (v.unitRead none (leAt e 16 8) 296 (.ok ([3, 0] ++ List.replicate 294 0))).1 = some (some ([3, 0] ++ List.replicate 294 0)) ∧ ({ ctx := BitVec.ofNat 2048 (leNat (slicePad ([3, 0] ++ List.replicate 294 0) 0 256)) } : Sess).owner = entInst e ∧ (v.unitRead none (leAt e 16 8) 296 (.ok ([3, 0] ++ List.replicate 294 0))).2.otherSess e = false) ∧
    (∃ (s : State) (dt : Nat) (e : List Byte),
    let v := taken (s.advance dt) e
    (s.advance dt).takesAdmin e v ∧ (v.inst (entInst e)).st ≠ .free ∧ v.trnPowered = true ∧ v.otherSess e = true) ∧
    (∃ (s : State) (dt : Nat) (e : List Byte),
    let n := leAt e 12 4
    let v := taken (s.advance dt) e
    (s.advance dt).takesAdmin e v ∧ (v.inst (entInst e)).st ≠ .free ∧ v.trnPowered = true ∧ v.otherSess e = false ∧ (v.sessRead n (entClr e)).1 = 0 ∧ ((v.sessRead n (entClr e)).2.2.unitPut 6 none (leAt e 16 8) (leBytes 256 (v.sessRead n (entClr e)).2.1.toNat)).1 = some true) :=
  ⟨⟨adm ({ trn with pwr := { trn.pwr with domains := BitVec.allOnes 49 |>.setWidth 96 } }), 0, ent 0x20 3 0 [], taken_admin _ _ (by decide +kernel), by decide +kernel⟩,
   ⟨adm (trn), 0, ent 0x20 3 0 [0, 0, 0, 0, 0, 16], taken_admin _ _ (by decide +kernel), by decide +kernel⟩,
   ⟨adm (trnOf 3), 0, ent 0x22 3 0 [0, 0, 0, 0, 0, 16], taken_admin _ _ (by decide +kernel), by decide +kernel⟩,
   ⟨adm (trnOf 4), 0, ent 0x21 3 0 [], taken_admin _ _ (by decide +kernel), by decide +kernel⟩,
   ⟨adm (trnOf 3), 0, ent 0x21 3 0 [0, 0, 0, 0, 0, 16], taken_admin _ _ (by decide +kernel), by decide +kernel, by decide +kernel, by decide +kernel,
     taken_sessRead _ _ _ _ (by decide +kernel) (by decide +kernel),
     unitPut_read _ _ _ _ _ (by decide +kernel)⟩⟩

theorem witness_StepRunsTheFrontCommand :
    (∃ (s : State) (c : Instr) (q : List Instr),
    s.pending = c :: q) ∧
    (∃ s : State, s.pending = []) :=
  ⟨⟨{ up with pending := [.thaYield 0 5, .hatInLow 0] }, .thaYield 0 5, [.hatInLow 0], by decide +kernel⟩,
   ⟨up, rfl⟩⟩

theorem witness_EveryWellFormedCommandCompletes :
    (∃ (c : Instr),
    c.wf = true) ∧
    (∃ (e : List Byte),
    e.length ≠ 64) ∧
    (∃ (c : Instr) (s t : State), exec c s = .next t) :=
  ⟨⟨.hatInLow 0, by decide +kernel⟩,
   ⟨[], by decide +kernel⟩,
   ⟨.hatInLow 0, up, _, rfl⟩⟩

theorem witness_IntaFollowsItsCauses :
    (∃ s t : State, s.intaHolds ∧ step s = .next t) :=
  ⟨State.reset, _, show _ = _ by decide +kernel, rfl⟩

theorem witness_UnmappedOffsets :
    (∃ (a n : Nat), (n = 1 ∨ n = 2 ∨ n = 4) ∧ a % n = 0 ∧ unmapped (a / 4 * 4)) ∧
    (∃ (a : Nat), a % 8 = 0 ∧ unmapped a ∧ unmapped (a + 4)) ∧
    (∃ (a : Nat) (d : List Byte), (d.length = 1 ∨ d.length = 2 ∨ d.length = 4) ∧ a % d.length = 0 ∧ unmapped (a / 4 * 4)) ∧
    (∃ (a : Nat) (d : List Byte), d.length = 8 ∧ a % 8 = 0 ∧ unmapped a ∧ unmapped (a + 4)) :=
  ⟨⟨0x0FFFFFF, 1, by decide, by decide, unmapped_last⟩,
   ⟨0x0F00000, by decide, unmapped_gap, unmapped_gap4⟩,
   ⟨0x0FFFFFC, [1, 2, 3, 4], by decide, by decide, unmapped_last⟩,
   ⟨0x0F00000, List.replicate 8 1, by decide, by decide, unmapped_gap, unmapped_gap4⟩⟩

theorem witness_CoreCountAtPowerOn :
    (∃ (s : State) (dt : Nat),
    let u := s.advance dt
    u.pwr.fw = true ∧ u.field.mainSt = 1 ∧ u.pwr.step = 4) :=
  ⟨{ up with pwr := { up.pwr with step := 4 }, field := { up.field with mainSt := 1 } }, 0, by decide +kernel⟩

theorem witness_FieldCommandsFrame :
    (∃ t, exec (.loginTimeout 0 5) up = .next t) ∧
    (∃ t, exec (.logout 0 hdr) up = .next t) ∧
    (∃ t, exec (.loginLockoutEnd 0 1) up = .next t) ∧
    (∃ t, exec (.sessionIdleExpire 0 5) up = .next t) ∧
    (∃ t, exec (.eventAck hdr []) up = .next t) ∧
    (∃ t, exec (.enrol 0 1) up = .next t) ∧
    (∃ t, exec (.enrolmentDone 0) up = .next t) ∧
    (∃ t, exec (.releaseOwner 2) up = .next t) ∧
    (∃ t, exec (.decommission 3) up = .next t) ∧
    (∃ t, exec (.provision 3) up = .next t) ∧
    (∃ t, exec (.telemetrySample 0 1 2 3 4) up = .next t) ∧
    (∃ t, exec (.avsSetpointStep 0 700) up = .next t) :=
  by and_intros <;> exact ⟨_, rfl⟩

theorem witness_TimeCommandsFrame :
    (∃ t, exec (.holdoverEntry 0 .A) up = .next t) ∧
    (∃ t, exec (.holdoverLimitExpire 0 .A) up = .next t) ∧
    (∃ t, exec (.revertToPrimary 0 .A) up = .next t) ∧
    (∃ t, exec (.trefLoss 0 .A) up = .next t) ∧
    (∃ t, exec (.corePllUnlock 0 .A) up = .next t) ∧
    (∃ t, exec (.boundTakeoverTimer 0) up = .next t) ∧
    (∃ t, exec (.stroke 0 .A) up = .next t) ∧
    (∃ t, exec (.takeoverNotice 0 3) up = .next t) ∧
    (∃ t, exec (.ppsOut 0) up = .next t) ∧
    (∃ t, exec (.timeQualityReport 0) up = .next t) :=
  by and_intros <;> exact ⟨_, rfl⟩

end Sys2Proof.Tests
end

section
/-! PROOFS. Admin commands for sessions (R23, R216, R308, R310): the admin queue's rule for a taken entry, the two ways a
session command goes on from it, then the four commands. -/

namespace Sys2Proof.Machine

/-! R307: an entry that the admin queue takes. -/

/-- The admin queue runs the command of the entry it takes, in the state that taking the entry leaves. -/
theorem State.admin_done {u v t : State} {e : List Byte} {f : State → Option (Nat × Nat) × State} {st d : Nat}
    (h : u.takesAdmin e v) (hf : f v = (some (st, d), t)) : u.admin e f = t.adminDone (entTag e) st d := by
  obtain ⟨-, ready, phase, kind, w, read, rfl⟩ := h
  simp only [State.admin, ready, phase, read, kind, hf, ne_eq, not_true_eq_false, decide_false, Bool.not_true,
    Bool.or_self, Bool.false_eq_true, if_false]

/-! R308, R310: a session command of an instance that exists. -/

section
variable {u v : State} {e : List Byte} {offered : State → Bool} {f : State → Nat × Nat × State}
  (h : u.takesAdmin e v) (hi : (v.inst (entInst e)).st ≠ .free)
include h hi

theorem State.sessAdmin_unavailable (ho : offered v = false) :
    u.sessAdmin e offered f = v.unavailable.adminDone (entTag e) 0x87 (leAt e 12 4) :=
  State.admin_done h (by simp [hi, ho])

theorem State.sessAdmin_done {st d : Nat} {t : State} (ho : offered v = true) (hf : f v = (st, d, t)) :
    u.sessAdmin e offered f = t.adminDone (entTag e) st d :=
  State.admin_done h (by simp [hi, ho, hf])

/-! The commands, while the functions they need are offered. -/

theorem State.opSessCreate_done {b : List Byte} {c : BitVec 2048} {w x : State} {st d : Nat}
    (ho : (v.offersAny && v.trnPowered) = true)
    (hr : v.unitRead none (leAt e 16 8) 296 (.ok b) = (some (some b), w))
    (ctx : c = BitVec.ofNat 2048 (leNat (slicePad b 0 256))) (own : ({ ctx := c } : Sess).owner = entInst e)
    (hc : w.sessCreate c (BitVec.ofNat 320 (beNat (slicePad b 256 40))) = (st, d, x)) :
    u.opSessCreate e (.ok b) = x.adminDone (entTag e) (0xC0 + st) d :=
  State.sessAdmin_done h hi ho (by
    subst ctx
    simp only [hr, own, hc, ne_eq, not_true_eq_false, if_false])

theorem State.opSessModify_done {b : List Byte} {c : BitVec 2048} {w x : State} {st : Nat} (ho : v.trnPowered = true)
    (hr : v.unitRead none (leAt e 16 8) 296 (.ok b) = (some (some b), w))
    (ctx : c = BitVec.ofNat 2048 (leNat (slicePad b 0 256))) (own : ({ ctx := c } : Sess).owner = entInst e)
    (mine : w.otherSess e = false) (hm : w.sessModify (leAt e 12 4) c = (st, x)) :
    u.opSessModify e (.ok b) = x.adminDone (entTag e) (0xC0 + st) (leAt e 12 4) :=
  State.sessAdmin_done h hi ho (by
    subst ctx
    simp only [hr, own, mine, hm, ne_eq, not_true_eq_false, decide_false, Bool.or_self, Bool.false_eq_true, if_false])

theorem State.opSessRead_otherSess (ho : v.trnPowered = true) (other : v.otherSess e = true) :
    u.opSessRead e = v.adminDone (entTag e) 0x81 (leAt e 12 4) :=
  State.sessAdmin_done h hi ho (by simp [other])

theorem State.opSessRead_done {c : BitVec 2048} {x w : State} (ho : v.trnPowered = true) (mine : v.otherSess e = false)
    (hr : v.sessRead (leAt e 12 4) (entClr e) = (0, c, x))
    (hp : x.unitPut 6 none (leAt e 16 8) (leBytes 256 c.toNat) = (some true, w)) :
    u.opSessRead e = w.adminDone (entTag e) 0xC0 (leAt e 12 4) :=
  State.sessAdmin_done h hi ho (by simp [mine, hr, hp])

theorem State.opSessDestroy_otherSess (ho : v.trnPowered = true) (other : v.otherSess e = true) :
    u.opSessDestroy e = v.adminDone (entTag e) 0x81 (leAt e 12 4) :=
  State.sessAdmin_done h hi ho (by simp [other])

theorem State.opSessDestroy_done {st : Nat} {x : State} (ho : v.trnPowered = true) (mine : v.otherSess e = false)
    (hd : v.sessDestroy (leAt e 12 4) = (st, x)) :
    u.opSessDestroy e = x.adminDone (entTag e) (0xC0 + st) (leAt e 12 4) :=
  State.sessAdmin_done h hi ho (by simp [mine, hd])

end

/-! R307: an entry of 64 bytes is a command, which ends with what its operation leaves. -/

section
variable {s t : State} {dt : Nat} {e : List Byte} (len : e.length = 64)
include len

theorem exec_sessCreate {b : ReadData} (op : (s.advance dt).opSessCreate e b = t) :
    exec (.sessCreate dt e b) s = .next (s.ended t) := op ▸ if_neg (not_not_intro len)

theorem exec_sessRead (op : (s.advance dt).opSessRead e = t) : exec (.sessRead dt e) s = .next (s.ended t) :=
  op ▸ if_neg (not_not_intro len)

theorem exec_sessModify {b : ReadData} (op : (s.advance dt).opSessModify e b = t) :
    exec (.sessModify dt e b) s = .next (s.ended t) := op ▸ if_neg (not_not_intro len)

theorem exec_sessDestroy (op : (s.advance dt).opSessDestroy e = t) : exec (.sessDestroy dt e) s = .next (s.ended t) :=
  op ▸ if_neg (not_not_intro len)

end

/-- Settles O52: each command is its operation on the taken entry; without power it is UNAVAILABLE, a session of another
instance is refused, and otherwise the session's operation gives the status. -/
theorem sessionAdminCompletes : Obligations.SessionAdminCompletes := by
  intro s v dt e h hi n ends
  have len : e.length = 64 := h.1
  refine ⟨fun off b => exec_sessCreate len (State.sessAdmin_unavailable h hi off), fun off b => ?unpowered,
    fun on => ⟨?withContext, fun other => ?ofAnother, fun mine => ?ofItsOwn⟩⟩
  case unpowered =>
    exact ⟨exec_sessRead len (State.sessAdmin_unavailable h hi off),
      exec_sessModify len (State.sessAdmin_unavailable h hi off),
      exec_sessDestroy len (State.sessAdmin_unavailable h hi off)⟩
  case withContext =>
    intro b w read c own
    constructor
    · intro any st d x created
      exact exec_sessCreate len (State.opSessCreate_done h hi (by rw [any, on]; rfl) read rfl own created)
    · intro st x mine modified
      exact exec_sessModify len (State.opSessModify_done h hi on read rfl own mine modified)
  case ofAnother =>
    exact ⟨exec_sessRead len (State.opSessRead_otherSess h hi on other),
      exec_sessDestroy len (State.opSessDestroy_otherSess h hi on other)⟩
  case ofItsOwn =>
    constructor
    · intro c x w read put
      exact exec_sessRead len (State.opSessRead_done h hi on mine read put)
    · intro st x destroyed
      exact exec_sessDestroy len (State.opSessDestroy_done h hi on mine destroyed)

end Sys2Proof.Machine
end

section
/-! PROOFS. Registers and counters (chapter 2): what the reception of a request leaves, how an access of BAR0 comes to its
word, what a guard makes of a write, and how a page takes one; then the statements on register accesses, guards, pages,
the reset state, and unmapped offsets. -/

namespace Sys2Proof

/-! R5: words as bytes. -/

theorem leBytes_length (n v : Nat) : (leBytes n v).length = n := by
  induction n generalizing v with
  | zero => rfl
  | succ n ih => rw [leBytes, List.length_cons, ih]

theorem leNat_leBytes (n v : Nat) : leNat (leBytes n v) = v % 256 ^ n := by
  induction n generalizing v with
  | zero => rw [Nat.pow_zero, Nat.mod_one]; rfl
  | succ n ih =>
    have byte : (BitVec.ofNat 8 v).toNat = v % 256 := BitVec.toNat_ofNat v 8
    rw [leBytes, leNat, ih, byte, Nat.pow_succ', ← Nat.mod_mul]

theorem slicePad_append_left (x y : List Byte) : slicePad (x ++ y) 0 x.length = x := by
  simp [slicePad, slice]

theorem slicePad_append_right (x y : List Byte) : slicePad (x ++ y) x.length y.length = y := by
  simp [slicePad, slice]

end Sys2Proof

namespace Sys2Proof.Machine

/-- R29: a write of four bytes leaves nothing of what the word held. -/
theorem mergeWord_leBytes (old v : Word) : mergeWord old 0 (leBytes 4 v.toNat) = v := by
  have whole : laneMask 0 4 = BitVec.allOnes 32 := by decide
  have value : BitVec.ofNat 32 (leNat (leBytes 4 v.toNat) * 2 ^ (8 * 0)) = v := by
    have fits : leNat (leBytes 4 v.toNat) = v.toNat := (leNat_leBytes 4 _).trans (Nat.mod_eq_of_lt v.isLt)
    rw [fits, Nat.mul_zero, Nat.pow_zero, Nat.mul_one, BitVec.ofNat_toNat, BitVec.setWidth_eq]
  rw [mergeWord, leBytes_length, whole, value, BitVec.and_allOnes, BitVec.not_allOnes, BitVec.and_zero, BitVec.zero_or]

/-! R279, R338: receiving a request counts it and takes its credits, and leaves the function open or closed. -/

@[simp] theorem State.rxPosted_barOpen (s : State) (n : Nat) : (s.rxPosted n).barOpen = s.barOpen := rfl
@[simp] theorem State.rxRequest_barOpen (s : State) : s.rxRequest.barOpen = s.barOpen := rfl

/-! R29: how a request of BAR0 comes to its register. -/

section
variable {s : State} {rid : BitVec 16} {pasid : Option (BitVec 20)} {a n : Nat} {d : List Byte}

theorem State.opRegisterWrite_pcie (opened : (s.rxPosted d.length).barOpen = true) (form : barForm a d.length = true) :
    s.opRegisterWrite ⟨.pcie rid pasid, true, .good⟩ a d =
      (s.rxPosted d.length).regWrite State.opDbgCmd (.pcie rid pasid) a d := by
  show s.barWrite State.opDbgCmd (.pcie rid pasid) a d = _
  simp only [State.barWrite, opened, form, Bool.not_true, Bool.or_self, Bool.false_eq_true, if_false]

theorem State.opRegisterRead_pcie (opened : s.rxRequest.barOpen = true) (form : barForm a n = true) :
    s.opRegisterRead ⟨.pcie rid pasid, true, .good⟩ a n =
      (s.rxRequest.regRead a n).2.reply (.readData (s.rxRequest.regRead a n).1) := by
  show s.barRead a n = _
  simp only [State.barRead, opened, form, Bool.not_true, Bool.or_self, Bool.false_eq_true, if_false]

theorem State.opRegisterWrite_poisoned {g : Bool} (opened : s.barOpen = true) :
    s.opRegisterWrite ⟨.pcie rid pasid, g, .poisoned⟩ a d = (s.rxPosted d.length).aerLog .poisoned := by
  show (if (true && s.barOpen) = true then _ else _) = _
  rw [opened]; rfl

theorem State.opRegisterWrite_badEcrc {g : Bool} (checks : s.ecrcOn = true) :
    s.opRegisterWrite ⟨.pcie rid pasid, g, .badEcrc⟩ a d = (s.rxPosted d.length).aerLog .ecrc := by
  show (if (true && s.ecrcOn) = true then _ else _) = _
  rw [checks]; rfl

theorem State.opRegisterWrite_thread {th : BitVec 10} {t : State} (runs : s.thRuns th.toNat = true)
    (stored : State.thStore State.opDbgCmd s th.toNat (0x200000000 + a) d = .inr t) :
    s.opRegisterWrite ⟨.thread th, true, .good⟩ a d = t := by
  show s.byStore th.toNat (0x200000000 + a) d = t
  simp only [State.byStore, runs, stored, Bool.not_true, Bool.false_eq_true, if_false]

theorem State.opRegisterRead_thread {th : BitVec 10} {t : State} {v : List Byte} (runs : s.thRuns th.toNat = true)
    (loaded : s.thLoad th.toNat (0x200000000 + a) n = (.inr v, t)) :
    s.opRegisterRead ⟨.thread th, true, .good⟩ a n = t := by
  simp only [State.opRegisterRead, runs, loaded, Bool.not_true, Bool.false_eq_true, if_false]

/-- R33: a write that its island does not answer is dropped. -/
theorem State.opCrossTimeout_write (opened : s.barOpen = true) (form : barForm a n = true) :
    s.opCrossTimeout a ⟨n, true⟩ = (s.rxPosted n).accErr errTmo a := by
  simp [State.opCrossTimeout, State.rxTlp, opened, form]

/-- R33: a read that its island does not answer reads all ones. -/
theorem State.opCrossTimeout_read (opened : s.barOpen = true) (form : barForm a n = true) :
    s.opCrossTimeout a ⟨n, false⟩ = (s.rxRequest.accErr errTmo a).reply (.readData (List.replicate n 0xFF)) := by
  simp [State.opCrossTimeout, State.rxTlp, opened, form]

theorem barForm_aligned (form : barForm a n = true) : a % n = 0 := by
  simp only [barForm, widthOk, Bool.and_eq_true, decide_eq_true_eq] at form
  exact form.1.1.2

end

/-- R33: a thread's load of a word that its island does not answer retires with all ones. -/
theorem State.opThreadTimeout_loadWord {s : State} {t a : Nat} {f : Fetched} (runs : s.thRuns t = true)
    (noBreak : s.atBreak t = false) (fetched : s.fetchInstr t = .inr f) (load : bits (f.word.getD 0).toNat 6 0 = 0x03)
    (word : bits (f.word.getD 0).toNat 14 12 = 2)
    (there : ((s.thread t).reg (bits (f.word.getD 0).toNat 19 15) + sx 12 (bits (f.word.getD 0).toNat 31 20)).toNat =
      0x200000000 + a)
    (granted : s.regGranted t a = true) (form : barForm a 4 = true) :
    s.opThreadTimeout t a ⟨4, false⟩ = (s.accErr errTmo a).rvRetire t (bits (f.word.getD 0).toNat 11 7)
      (rvLoaded 2 (List.replicate 4 0xFF)) ((s.thread t).pc + BitVec.ofNat 64 f.len) := by
  have aligned : (0x200000000 + a) % 4 = 0 := by have := barForm_aligned form; omega
  have width : rvWidth 2 = 4 := rfl
  have funct : 2 < 7 := by decide
  simp only [State.opThreadTimeout, fetched, runs, noBreak, load, word, there, granted, form, width, funct, aligned,
    Bool.not_true, Bool.or_self, Bool.and_self, Bool.false_eq_true, decide_true, if_false]

/-- Settles O5: each access is the operation that its requester's path makes of it, with the premises deciding the path. -/
theorem registerAccessComplete : Obligations.RegisterAccessComplete := by
  refine ⟨?write, ?threadWrite, ?badTlp, ?notContiguous, ?threadRead, ?read, ?halfRead, ?unanswered, ?threadUnanswered⟩
  case write =>
    intro s dt rid pasid a d u opened form
    exact congrArg (done s) (State.opRegisterWrite_pcie opened form)
  case threadWrite =>
    intro s t dt th a d u runs stored
    exact congrArg (done s) (State.opRegisterWrite_thread runs stored)
  case badTlp =>
    intro s dt rid pasid g a d u
    exact ⟨fun opened => congrArg (done s) (State.opRegisterWrite_poisoned opened),
      fun checks => congrArg (done s) (State.opRegisterWrite_badEcrc checks)⟩
  case notContiguous =>
    intro s dt rid pasid a n d
    exact ⟨rfl, rfl⟩
  case threadRead =>
    intro s t v th a n runs loaded
    exact congrArg (done s) (State.opRegisterRead_thread runs loaded)
  case read =>
    intro s rid pasid a n u r opened form
    have taken := congrArg (done s) (State.opRegisterRead_pcie (rid := rid) (pasid := pasid) opened form)
    exact ⟨taken, taken⟩
  case halfRead =>
    intro s rid pasid a u r opened form
    have taken := congrArg (done s) (State.opRegisterRead_pcie (rid := rid) (pasid := pasid) opened form)
    exact ⟨taken, taken⟩
  case unanswered =>
    intro s dt rid pasid a n v u opened form
    exact ⟨congrArg (done s) (State.opCrossTimeout_write opened form),
      congrArg (done s) (State.opCrossTimeout_read opened form)⟩
  case threadUnanswered =>
    intro s dt th a f u t n x runs noBreak fetched load word there granted form
    exact congrArg (done s) (State.opThreadTimeout_loadWord runs noBreak fetched load word there granted form)

/-! R29, R185: an access of the forwarding tables' registers finds the points of a running table command where they lie,
and then goes to the word or to the register and its complement. -/

/-- The state in which an access at an offset reaches its register. -/
def State.settledFor (s : State) (a : Nat) : State := if a / 0x100000 = 7 then s.fwtSettle else s

section
variable {dbg : State → Word → State} {s : State} {req : Requester} {a : Nat} {d : List Byte}

theorem State.regWrite_word (len : d.length = 4) (aligned : a % 4 = 0) :
    s.regWrite dbg req a d = (s.settledFor a).writeWord dbg req a 0 d := by
  have same : a / 4 * 4 = a := by omega
  rw [State.regWrite, if_neg (by omega), same, aligned]
  rfl

theorem State.regWrite_pair {r : RegRow} {i : Nat} {v c : Word} (pair : wholePair a = some (r, i)) (acc : r.acc = .rwg)
    (on : (s.settledFor a).rowPowered r i = true) :
    s.regWrite dbg req a (leBytes 4 v.toNat ++ leBytes 4 c.toNat) = (s.settledFor a).writeBoth req r i a v c := by
  have low : slicePad (leBytes 4 v.toNat ++ leBytes 4 c.toNat) 0 4 = leBytes 4 v.toNat := by
    simpa only [leBytes_length] using slicePad_append_left (leBytes 4 v.toNat) (leBytes 4 c.toNat)
  have high : slicePad (leBytes 4 v.toNat ++ leBytes 4 c.toNat) 4 4 = leBytes 4 c.toNat := by
    simpa only [leBytes_length] using slicePad_append_right (leBytes 4 v.toNat) (leBytes 4 c.toNat)
  have on' : (if a / 0x100000 = 7 then s.fwtSettle else s).rowPowered r i = true := on
  simp only [State.regWrite, List.length_append, leBytes_length, pair, acc, on', low, high, mergeWord_leBytes,
    Bool.not_true, Bool.false_eq_true, if_true, if_false]
  rfl

theorem State.regRead_word {n : Nat} (narrow : n ≠ 8) :
    s.regRead a n = ((slicePad (leBytes 4 ((s.settledFor a).readWord (a / 4 * 4) (a % 4) n).1.toNat) (a % 4) n),
      ((s.settledFor a).readWord (a / 4 * 4) (a % 4) n).2) := by
  rw [State.regRead, if_neg narrow]
  rfl

/-! R40, R41: a whole write of a guarded register or of its complement. -/

theorem State.writeWord_guarded {r : RegRow} {i j : Nat} (noSat : satWord a = none) (reg : findReg a = some (r, i, j, 0))
    (acc : r.acc = .rwg) (on : s.rowPowered r i = true) (len : d.length = 4) :
    s.writeWord dbg req a 0 d = s.writeGuarded req r i a (mergeWord 0 0 d) := by
  simp [State.writeWord, noSat, reg, acc, on, len]

theorem State.writeWord_complement {r r' : RegRow} {i j q : Nat} (noSat : satWord (a + 4) = none)
    (noReg : findReg (a + 4) = none) (compl : complementOf (a + 4) = some r) (reg : findReg a = some (r', i, j, q))
    (on : s.rowPowered r i = true) (len : d.length = 4) :
    s.writeWord dbg req (a + 4) 0 d = s.writeComplement req r i a (mergeWord 0 0 d) := by
  simp [State.writeWord, noSat, noReg, compl, reg, on, len]

theorem State.touchGuard_unarmed {g : Nat} (unarmed : Map.get s.arms g = none) : s.touchGuard g a = s := by
  rw [State.touchGuard, unarmed]; rfl

theorem State.touchGuard_armed {g : Nat} {m : Arm} (armed : Map.get s.arms g = some m) :
    s.touchGuard g a = { s with arms := Map.del s.arms g }.accErr errGuard a := by
  rw [State.touchGuard, armed]; rfl

section
variable {r : RegRow} {i : Nat} {v : Word} (free : s.guardBusy a = false) (unlocked : s.writeLocked req r a = false)
include free unlocked

theorem State.writeGuarded_arms (style : s.lockStyle r.grp = false) (unarmed : Map.get s.arms r.grp = none) :
    s.writeGuarded req r i a v =
      { s with arms := Map.put s.arms r.grp { req := req, addr := a, value := v, at_ := s.clock } } := by
  simp [State.writeGuarded, State.touchGuard_unarmed unarmed, free, unlocked, style]

theorem State.writeGuarded_takes (style : s.lockStyle r.grp = true) (unarmed : Map.get s.arms r.grp = none) :
    s.writeGuarded req r i a v = s.takeGuarded r i a v := by
  simp [State.writeGuarded, State.touchGuard_unarmed unarmed, free, unlocked, style]

theorem State.writeBoth_takes (style : s.lockStyle r.grp = false) (unarmed : Map.get s.arms r.grp = none) :
    s.writeBoth req r i a v (~~~v) = s.takeGuarded r i a v := by
  simp [State.writeBoth, State.touchGuard_unarmed unarmed, free, unlocked, style]

theorem State.writeComplement_takes {m : Arm} (style : s.lockStyle r.grp = false) (armed : Map.get s.arms r.grp = some m)
    (mine : m.req = req) (here : m.addr = a) (agrees : v = ~~~m.value) (inTime : s.clock ≤ m.at_ + usec 10) :
    s.writeComplement req r i a v = { s with arms := Map.del s.arms r.grp }.takeGuarded r i a m.value := by
  simp [State.writeComplement, free, unlocked, style, armed, mine, here, agrees, inTime]

end
end

/-- R40: an armed value that has waited 10 µs is dropped. -/
theorem State.opArmExpire_armed {s : State} {g : Nat} {m : Arm} (armed : Map.get s.arms g = some m)
    (late : m.at_ + usec 10 ≤ s.clock) :
    s.opArmExpire g = { s with arms := Map.del s.arms g }.accErr errGuard m.addr := by
  rw [State.opArmExpire, armed]
  exact (if_pos late).trans (State.touchGuard_armed armed)

/-- A PCIe write of four bytes is a write of its word. -/
theorem State.opRegisterWrite_word {s : State} {rid : BitVec 16} {pasid : Option (BitVec 20)} {a : Nat} {d : List Byte}
    (opened : (s.rxPosted 4).barOpen = true) (form : barForm a 4 = true) (len : d.length = 4) :
    s.opRegisterWrite ⟨.pcie rid pasid, true, .good⟩ a d =
      ((s.rxPosted 4).settledFor a).writeWord State.opDbgCmd (.pcie rid pasid) a 0 d := by
  rw [State.opRegisterWrite_pcie (by rw [len]; exact opened) (by rw [len]; exact form), len,
    State.regWrite_word len (barForm_aligned form)]

/-- Settles O6: a write comes to its guarded register or its complement, and the group's style, lock and armed value decide
what the guard makes of it. -/
theorem guardCommandsComplete : Obligations.GuardCommandsComplete := by
  refine ⟨?arm, ?lockStyleTakes, ?bothAtOnce, ?complement, ?expire, ?lock⟩
  case arm =>
    intro s dt rid pasid a d r i j v u opened form len free noSat reg acc on unlocked style unarmed
    refine congrArg (done s) ?_
    rw [State.opRegisterWrite_word opened form len]
    exact (State.writeWord_guarded noSat reg acc on len).trans (State.writeGuarded_arms free unlocked style unarmed)
  case lockStyleTakes =>
    intro s t dt rid pasid a d r i j v u opened form len free noSat reg acc on unlocked style unarmed taken
    refine congrArg (done s) ?_
    rw [State.opRegisterWrite_word opened form len]
    calc u.writeWord State.opDbgCmd (.pcie rid pasid) a 0 d
        = u.writeGuarded (.pcie rid pasid) r i a (mergeWord 0 0 d) := State.writeWord_guarded noSat reg acc on len
      _ = u.takeGuarded r i a (mergeWord 0 0 d) := State.writeGuarded_takes free unlocked style unarmed
      _ = t := by rw [State.takeGuarded, taken]; rfl
  case bothAtOnce =>
    intro s dt rid pasid a v r i w u opened form free pair acc on unlocked style unarmed
    have len : (leBytes 4 v.toNat ++ leBytes 4 (~~~v).toNat).length = 8 := by
      rw [List.length_append, leBytes_length, leBytes_length]
    refine congrArg (done s) ?_
    rw [State.opRegisterWrite_pcie (by rw [len]; exact opened) (by rw [len]; exact form), len]
    exact (State.regWrite_pair pair acc on).trans (State.writeBoth_takes free unlocked style unarmed)
  case complement =>
    intro s dt rid pasid a d r r' i j m v u opened form len free noSat noReg compl reg on unlocked style armed mine here
      agrees inTime
    refine congrArg (done s) ?_
    rw [State.opRegisterWrite_word opened form len]
    exact (State.writeWord_complement noSat noReg compl reg on len).trans
      (State.writeComplement_takes free unlocked style armed mine here agrees inTime)
  case expire =>
    intro s dt g m u armed late
    exact congrArg (done s) (State.opArmExpire_armed armed late)
  case lock =>
    intro s v taken
    exact congrArg (done s) (s.onCmd_taken _ taken)

/-! R31, R262, R293: how a page takes a write, and what a doorbell rings. -/

section
variable {s : State} {page : DbPage} {i : Nat}

theorem State.onPageTlp_open {f : State → State} (opened : (s.rxPosted 8).barOpen = true) :
    s.onPageTlp f = f (s.rxPosted 8) := if_pos opened

theorem State.pageGate_active {f : State → State} (active : (s.inst i).st = .active) : s.pageGate i f = f s := by
  rw [State.pageGate, active]

theorem State.onPage_inst {k : BitVec 16} {f : State → State} (active : (s.inst k.toNat).st = .active) :
    s.onPage (.inst k) f = f s := State.pageGate_active active

theorem State.onPage_pf0 {f : State → State} (taken : s.cmdTaken (QIM + 0x078) = true) : s.onPage .pf0 f = f s :=
  s.onCmd_taken f taken

theorem State.opStage_inst {k : BitVec 16} {v : Word} (active : (s.inst k.toNat).st = .active)
    (unstaged : Map.get s.staging k.toNat = none) :
    s.opStage (.inst k) v = { s with staging := Map.put s.staging k.toNat v } := by
  simp [State.opStage, State.onPage_inst active, stagingOf, unstaged]

theorem State.opStage_pf0 {v : Word} (taken : s.cmdTaken (QIM + 0x078) = true)
    (unstaged : Map.get s.staging 65536 = none) :
    s.opStage .pf0 v = { s with staging := Map.put s.staging 65536 v } := by
  simp [State.opStage, State.onPage_pf0 taken, stagingOf, unstaged]

theorem State.opDoorbell_whole {k : BitVec 16} {v : BitVec 64} (active : (s.inst k.toNat).st = .active) :
    s.opDoorbell (.inst k) (.whole v) = s.ring (.inst k) v := by
  rw [State.opDoorbell, State.onPage_inst active]

theorem State.opDoorbell_upper {k : BitVec 16} {h l : Word} (active : (s.inst k.toNat).st = .active)
    (staged : Map.get s.staging k.toNat = some l) :
    s.opDoorbell (.inst k) (.upper h) =
      { s with staging := Map.del s.staging k.toNat }.ring (.inst k) (h ++ l) := by
  simp only [State.opDoorbell, State.onPage_inst active, stagingOf, staged]

theorem State.ring_work {v : BitVec 64} {q : Nat} (global : s.globalOf page (bits v.toNat 61 48) = some q)
    (there : (s.queue q).st ≠ .none) (kind : (s.queue q).kind ≠ 7) (work : v.getLsbD 62 = false)
    (forward : 0 ≤ (v.extractLsb' 0 32 - (s.queue q).tail).toInt)
    (fits : (v.extractLsb' 0 32 - (s.queue q).head).toNat ≤ (s.queue q).size) :
    s.ring page v = (s.workBell q (v.extractLsb' 0 32)).stat statDoorbells := by
  have inRing : ¬ ((v.extractLsb' 0 32 - (s.queue q).tail).toInt < 0 ∨
      (s.queue q).size < (v.extractLsb' 0 32 - (s.queue q).head).toNat) := by omega
  simp only [State.ring, global, there, kind, work, inRing, decide_false, bne_self_eq_false, Bool.or_self,
    Bool.false_eq_true, if_false]

theorem State.ring_cons {v : BitVec 64} {q : Nat} (global : s.globalOf page (bits v.toNat 61 48) = some q)
    (there : (s.queue q).st ≠ .none) (kind : (s.queue q).kind = 7) (cons : v.getLsbD 62 = true)
    (produced : (v.extractLsb' 0 32 - (s.queue q).cons).toNat ≤ ((s.queue q).prod - (s.queue q).cons).toNat) :
    s.ring page v = (s.consBell q (v.extractLsb' 0 32) (v.getLsbD 63)).stat statDoorbells := by
  simp only [State.ring, global, there, kind, cons, Nat.not_lt.2 produced, decide_false, decide_true,
    bne_self_eq_false, Bool.or_self, Bool.false_eq_true, if_false, if_true]

theorem State.pageRead_inside {o n : Nat} (there : (s.inst i).st ≠ .free) (inside : o + n ≤ 4096) :
    s.pageRead i o n =
      (s.reply (.readData ((List.range n).map (fun k => s.pageByte i (o + k))))).clearErr i o n := by
  simp only [State.pageRead, there, Nat.not_lt.2 inside, if_false]

theorem State.opPage_read {k : BitVec 16} {o n : Nat} (opened : s.rxRequest.barOpen = true) :
    s.opPage k o (.read n) = s.rxRequest.pageRead k.toNat o n := by
  simp only [State.opPage, opened, Bool.not_true, Bool.false_eq_true, if_false]

end

/-! R283: mediation. -/

/-- The state in which an instance's request is on its way: it is BUSY under the next sequence number. -/
def State.requested (s : State) (i : Nat) : State :=
  s.modInst i (fun x => { x with busy := true, seq := (s.inst i).seq + 1 })

theorem State.requested_inst (s : State) (i : Nat) :
    (s.requested i).inst i = { s.inst i with busy := true, seq := (s.inst i).seq + 1 } :=
  s.inst_modInst_ne i _ (fun h => Bool.noConfusion (congrArg Inst.busy h))

/-- A request that the ring has room for adds one entry to it. -/
theorem State.mediate_qim {s : State} {i : Nat} (idle : (s.inst i).busy = false)
    (enabled : (s.getReg qimMedCfg).getLsbD 31 = true) (bme : s.bmeOn = true)
    (room : (s.qim.medProd - s.getReg (QIM + 0x090)).toNat + 4 ≤ 2 ^ bits (s.getReg qimMedCfg).toNat 4 0) :
    (s.mediate i).qim = { (s.requested i).qim with medProd := s.qim.medProd + 4 } := by
  have notFull : decide (2 ^ bits (s.getReg qimMedCfg).toNat 4 0 <
      (s.qim.medProd - s.getReg (QIM + 0x090)).toNat + 4) = false := decide_eq_false (Nat.not_lt.2 room)
  rw [State.mediate, idle]
  show (if (!(s.getReg qimMedCfg).getLsbD 31 || decide (2 ^ bits (s.getReg qimMedCfg).toNat 4 0 <
    (s.qim.medProd - s.getReg (QIM + 0x090)).toNat + 4) || !s.bmeOn) = true then _ else _ : State).qim = _
  rw [enabled, notFull, bme]
  exact (State.setEvt_reports _ _ _ _).qim

/-- Settles O7: a page of an ACTIVE instance runs what the write asks for, and the doorbell's own checks are met. -/
theorem pageCommandsComplete : Obligations.PageCommandsComplete := by
  refine ⟨?stage, ?stagePf0, ?work, ?cons, ?upper, ?read, ?tmask, ?reqGo⟩
  case stage =>
    intro s i v u opened active unstaged
    exact congrArg (done s) ((State.onPageTlp_open opened).trans (State.opStage_inst active unstaged))
  case stagePf0 =>
    intro s v u opened taken unstaged
    exact congrArg (done s) ((State.onPageTlp_open opened).trans (State.opStage_pf0 taken unstaged))
  case work =>
    intro s dt i v q u opened active global there kind work forward fits
    refine congrArg (done s) ?_
    rw [State.onPageTlp_open opened, State.opDoorbell_whole active]
    exact State.ring_work global there kind work forward fits
  case cons =>
    intro s dt i v q u opened active global there kind cons produced
    refine congrArg (done s) ?_
    rw [State.onPageTlp_open opened, State.opDoorbell_whole active]
    exact State.ring_cons global there kind cons produced
  case upper =>
    intro s dt i h l u opened active staged
    exact congrArg (done s) ((State.onPageTlp_open opened).trans (State.opDoorbell_upper active staged))
  case read =>
    intro s i o n u opened there inside
    exact congrArg (done s) ((State.opPage_read opened).trans (State.pageRead_inside there inside))
  case tmask =>
    intro s i w v u opened active
    exact congrArg (done s) ((State.onPageTlp_open opened).trans (State.pageGate_active active))
  case reqGo =>
    intro s i u opened active idle enabled bme room
    have sent : s.onPageTlp (fun s => s.opReqGo i.toNat 1) = u.mediate i.toNat :=
      (State.onPageTlp_open opened).trans (State.pageGate_active active)
    have qim : (s.ended (u.mediate i.toNat)).qim = { (u.requested i.toNat).qim with medProd := u.qim.medProd + 4 } :=
      (s.ended_qim _).trans (State.mediate_qim idle enabled bme room)
    have inst : (s.ended (u.mediate i.toNat)).inst i.toNat =
        { s.inst i.toNat with busy := true, seq := (s.inst i.toNat).seq + 1 } :=
      (congrArg (fun q : Qim => Map.at_ q.inst i.toNat {}) qim).trans (u.requested_inst i.toNat)
    exact ⟨s.ended (u.mediate i.toNat), congrArg (done s) sent, rfl, congrArg Inst.busy inst, congrArg Inst.seq inst,
      congrArg Qim.medProd qim⟩

/-! R28, R271: unmapped offsets. -/

/-- A read of an unmapped offset answers zeros and sets UNMAP. -/
theorem State.readWord_unmapped {s : State} {a k n : Nat} (h : unmapped a) :
    s.readWord a k n = (0, s.accErr errUnmap (a + k)) := by
  obtain ⟨noSat, noReg, noCompl⟩ := h
  simp only [State.readWord, noSat, noReg, noCompl]

theorem State.regRead_unmapped {s : State} {a n : Nat} (narrow : n ≠ 8) (h : unmapped (a / 4 * 4)) :
    (s.regRead a n).2 = (s.settledFor a).accErr errUnmap a := by
  rw [State.regRead_word narrow, State.readWord_unmapped h, Nat.div_add_mod']

/-- An access error leaves the forwarding tables as they were. -/
theorem State.accErr_fwt (s : State) (f o : Nat) : (s.accErr f o).fwt = s.fwt := by
  obtain ⟨r, h, x, e⟩ := s.accErr_parts f o
  rw [e]

/-- A state in which a table command of two tables has still to work on table 1, whose point lies behind the present
time. -/
def tableCommandRuns : State :=
  { State.reset with
    clock := 1
    pwr := { por := true, domains := BitVec.allOnes 96 }
    fwt := { run := some { op := 4, replace := false, left := [1], at_ := 0, many := true } } }

theorem unmapped_tablesBlock : unmapped 0x07F0000 := ⟨by decide +kernel, by decide +kernel, by decide +kernel⟩

theorem tableCommandRuns_settles : tableCommandRuns.fwtSettle.fwt.run = none := by decide +kernel

/-- Refutes O57: a read of an unmapped offset in the forwarding tables' block finds a table command running whose point
lies behind the present time, and the command ends (R185): the read leaves more than the access error. -/
theorem not_unmappedOffsets : ¬ Obligations.UnmappedOffsets := by
  rintro ⟨reads, -⟩
  have claimed : (tableCommandRuns.regRead 0x07F0000 4).2 = tableCommandRuns.accErr errUnmap 0x07F0000 :=
    congrArg Prod.snd (reads tableCommandRuns 0x07F0000 4 (by decide) (by decide) unmapped_tablesBlock)
  have leaves : (tableCommandRuns.regRead 0x07F0000 4).2 = tableCommandRuns.fwtSettle.accErr errUnmap 0x07F0000 :=
    State.regRead_unmapped (by decide) unmapped_tablesBlock
  have same : tableCommandRuns.fwt = tableCommandRuns.fwtSettle.fwt :=
    calc tableCommandRuns.fwt
        = (tableCommandRuns.accErr errUnmap 0x07F0000).fwt := (State.accErr_fwt _ _ _).symm
      _ = (tableCommandRuns.fwtSettle.accErr errUnmap 0x07F0000).fwt := congrArg State.fwt (claimed.symm.trans leaves)
      _ = tableCommandRuns.fwtSettle.fwt := State.accErr_fwt _ _ _
  exact Option.some_ne_none _ ((congrArg Fwt.run same).trans tableCommandRuns_settles)

/-! R433: power-on reset. -/

/-- Settles O56: at reset every table is empty, and what is not listed reads as its default. -/
theorem resetState : Obligations.ResetState :=
  ⟨rfl, rfl, fun _ => rfl, rfl, rfl, rfl, rfl, rfl, fun _ => rfl, fun _ => rfl, fun _ => rfl, fun _ => rfl, rfl, rfl, rfl⟩

end Sys2Proof.Machine
end

section
/-! PROOFS. Device time (chapter 3): what the work of the time units can change, what each of their operations leaves in
a core, and how a takeover begins. -/

namespace Sys2Proof.Machine

/-! What the time units' work changes beside what it reports. -/

/-- The time units change chapter 3's own state, and the plinth learns of steps (R83). -/
def TimeWork (s t : State) : Prop :=
  t = { s with fresh := t.fresh, out := t.out, regs := t.regs, sat := t.sat, hep := t.hep, gloveH := t.gloveH
               tim := t.tim, sql := t.sql }

/-- The time units' work on the cores alone: a report may become due (R73), and PPS_OUT may be cut (R72). -/
def CoreWork (s t : State) : Prop :=
  t = { s with fresh := t.fresh, out := t.out, regs := t.regs, sat := t.sat, hep := t.hep, gloveH := t.gloveH
               tim := { s.tim with coreA := t.tim.coreA, coreB := t.tim.coreB, tqrDue := t.tim.tqrDue
                                   ppsWidth := t.tim.ppsWidth }
               sql := t.sql }

section
variable {s t u : State}

theorem TimeWork.refl (s : State) : TimeWork s s := rfl
theorem CoreWork.refl (s : State) : CoreWork s s := rfl

theorem TimeWork.trans (h : TimeWork s t) (k : TimeWork t u) : TimeWork s u := by
  unfold TimeWork at *
  rw [k, h]

theorem CoreWork.trans (h : CoreWork s t) (k : CoreWork t u) : CoreWork s u := by
  unfold CoreWork at *
  rw [k, h]

theorem CoreWork.timeWork (h : CoreWork s t) : TimeWork s t := by
  unfold CoreWork at h
  rw [h]; rfl

theorem Reports.ite {p : Prop} [Decidable p] (h : Reports s t) (k : Reports s u) :
    Reports s (if p then t else u) := by
  split
  · exact h
  · exact k

theorem TimeWork.ite {p : Prop} [Decidable p] (h : TimeWork s t) (k : TimeWork s u) :
    TimeWork s (if p then t else u) := by
  split
  · exact h
  · exact k

theorem CoreWork.ite {p : Prop} [Decidable p] (h : CoreWork s t) (k : CoreWork s u) :
    CoreWork s (if p then t else u) := by
  split
  · exact h
  · exact k

theorem Reports.coreWork (h : Reports s t) : CoreWork s t := by
  unfold Reports at h
  rw [h]; rfl

theorem TimeWork.clock (h : TimeWork s t) : t.clock = s.clock := by unfold TimeWork at h; rw [h]
theorem TimeWork.bound (h : TimeWork s t) : t.bound = s.bound := by unfold TimeWork at h; rw [h]
theorem TimeWork.mem (h : TimeWork s t) : t.mem = s.mem := by unfold TimeWork at h; rw [h]
theorem TimeWork.pwr (h : TimeWork s t) : t.pwr = s.pwr := by unfold TimeWork at h; rw [h]
theorem TimeWork.field (h : TimeWork s t) : t.field = s.field := by unfold TimeWork at h; rw [h]

theorem TimeWork.mainNat (h : TimeWork s t) (idx sub : Nat) : t.mainNat idx sub = s.mainNat idx sub := by
  unfold State.mainNat State.mainBytes; rw [h.bound]

theorem TimeWork.mainInt (h : TimeWork s t) (idx sub : Nat) : t.mainInt idx sub = s.mainInt idx sub := by
  unfold State.mainInt; rw [h.mainNat]

theorem TimeWork.powered (h : TimeWork s t) (d : Nat) : t.powered d = s.powered d := by
  unfold State.powered; rw [h.pwr]

theorem CoreWork.tim (h : CoreWork s t) :
    t.tim = { s.tim with coreA := t.tim.coreA, coreB := t.tim.coreB, tqrDue := t.tim.tqrDue
                         ppsWidth := t.tim.ppsWidth } := congrArg State.tim h

end

/-! What a read of a core, a replica or a count sees. -/

@[simp] theorem CoreId.other_other (c : CoreId) : c.other.other = c := by cases c <;> rfl

theorem CoreId.eq_other {c d : CoreId} (h : c ≠ d) : c = d.other := by
  match c, d, h with
  | .A, .B, _ => rfl
  | .B, .A, _ => rfl
  | .A, .A, h => exact absurd rfl h
  | .B, .B, h => exact absurd rfl h

section
variable {s t : State} {c : CoreId} {f : TimeCore → TimeCore}

theorem State.core_congr (h : t.tim = s.tim) (c : CoreId) : t.core c = s.core c := by
  cases c
  · exact congrArg Tim.coreA h
  · exact congrArg Tim.coreB h

theorem Reports.core (h : Reports s t) (c : CoreId) : t.core c = s.core c := State.core_congr h.tim c

@[simp] theorem State.core_modCore (s : State) (c : CoreId) (f : TimeCore → TimeCore) :
    (s.modCore c f).core c = f (s.core c) := s.core_setCore c _

@[simp] theorem State.core_modCore_other (s : State) (c : CoreId) (f : TimeCore → TimeCore) :
    (s.modCore c f).core c.other = s.core c.other := s.core_setCore_other c _

end

/-! What each shared operation of the time units leaves. -/

variable (s : State) (c d : CoreId)

theorem State.setTim_timeWork (x : Tim) : TimeWork s { s with tim := x } := rfl
theorem State.modCore_coreWork (f : TimeCore → TimeCore) : CoreWork s (s.modCore c f) := by cases c <;> rfl
theorem State.setCore_coreWork (x : TimeCore) : CoreWork s (s.setCore c x) := by cases c <;> rfl
theorem State.setCount_coreWork (n : Nat) : CoreWork s (s.setCount c n) := s.modCore_coreWork c _
theorem State.timEvent_reports (b : Nat) : Reports s (s.timEvent b) := s.setEvt_reports _ _ _

/-- R72: an output that is no longer driven changes nothing but its width. -/
theorem State.ppsCut_parts : ∃ w, s.ppsCut = { s with tim := { s.tim with ppsWidth := w } } := by
  unfold State.ppsCut
  split
  · split
    · exact ⟨_, rfl⟩
    · exact ⟨_, rfl⟩
  · exact ⟨_, rfl⟩

/-- R73: a change makes a report due. -/
theorem State.tqrChange_parts : ∃ w, s.tqrChange = { s with tim := { s.tim with tqrDue := true, ppsWidth := w } } :=
  State.ppsCut_parts _

theorem State.tqrChange_coreWork : CoreWork s s.tqrChange := by
  obtain ⟨w, e⟩ := s.tqrChange_parts
  rw [e]; rfl

@[simp] theorem State.tqrChange_tqrDue : s.tqrChange.tim.tqrDue = true := by
  obtain ⟨w, e⟩ := s.tqrChange_parts
  rw [e]

@[simp] theorem State.tqrChange_core : s.tqrChange.core c = s.core c := by
  obtain ⟨w, e⟩ := s.tqrChange_parts
  rw [e]; cases c <;> rfl

@[simp] theorem State.timEvent_core (b : Nat) : (s.timEvent b).core c = s.core c := (s.timEvent_reports b).core c
@[simp] theorem State.count_core (a : Nat) : (s.count a).core c = s.core c := (s.count_reports a).core c
@[simp] theorem State.ended_core (t : State) : (s.ended t).core c = t.core c := State.core_congr (s.ended_tim t) c
@[simp] theorem State.advance_core (dt : Nat) : (s.advance dt).core c = s.core c := by cases c <;> rfl

/-! R48: a core's references. -/

theorem State.useRef_coreWork (r : Nat) : CoreWork s (s.useRef c r) := by
  unfold State.useRef
  split
  · exact .refl s
  · exact ((s.modCore_coreWork c _).trans (State.timEvent_reports _ 0).coreWork).trans (State.tqrChange_coreWork _)

@[simp] theorem State.useRef_core (r : Nat) : (s.useRef c r).core c = { s.core c with ref := r } := by
  unfold State.useRef
  split
  · rename_i same; rw [← same]
  · simp

@[simp] theorem State.useRef_core_other (r : Nat) : (s.useRef c r).core c.other = s.core c.other := by
  unfold State.useRef
  split
  · rfl
  · simp

/-- R48: the reference that a core uses once presence has changed. -/
def State.refAfter (s : State) (c : CoreId) : Nat :=
  let t := s.core c
  let (p, q) := s.refs c
  if t.st = .slaved then 3
  else if t.ref = q && t.present q && q ≠ 0 then t.ref
  else if t.present p then p
  else if t.present q then q
  else 0

/-- R48: after a change of presence a core's two spans are noted, and it takes its reference. -/
theorem State.reselect_parts : ∃ p n, s.reselect c =
    (s.modCore c (fun t => { t with primSince := p, noneSince := n })).useRef c (s.refAfter c) := by
  have keeps (u : State) : u.useRef c (u.core c).ref = u := if_pos rfl
  unfold State.reselect State.refAfter
  dsimp only
  split
  · exact ⟨_, _, rfl⟩
  · split
    · exact ⟨_, _, by simpa using (keeps (s.modCore c _)).symm⟩
    · split
      · exact ⟨_, _, rfl⟩
      · split <;> exact ⟨_, _, rfl⟩

theorem State.reselect_coreWork : CoreWork s (s.reselect c) := by
  obtain ⟨p, n, e⟩ := s.reselect_parts c
  rw [e]
  exact (s.modCore_coreWork c _).trans (State.useRef_coreWork _ _ _)

/-- R48: a core with the spans of its references noted, and a reference in use. -/
def TimeCore.refersTo (t : TimeCore) (prim none_ : Option Nat) (r : Nat) : TimeCore :=
  { t with primSince := prim, noneSince := none_, ref := r }

theorem State.reselect_core : ∃ p n, (s.reselect c).core c = (s.core c).refersTo p n (s.refAfter c) := by
  obtain ⟨p, n, e⟩ := s.reselect_parts c
  exact ⟨p, n, by simp [e, TimeCore.refersTo]⟩

@[simp] theorem State.reselect_core_other : (s.reselect c).core c.other = s.core c.other := by
  obtain ⟨p, n, e⟩ := s.reselect_parts c
  simp [e]

/-! R45, R66: a core leaves SLAVED. -/

theorem State.leaveSlaved_coreWork : CoreWork s (s.leaveSlaved c) :=
  ((s.modCore_coreWork c _).trans (State.tqrChange_coreWork _)).trans (State.reselect_coreWork _ c)

@[simp] theorem State.leaveSlaved_core_other : (s.leaveSlaved c).core c.other = s.core c.other := by
  simp [State.leaveSlaved]

theorem State.unslave_coreWork : CoreWork s (s.unslave c) := by
  unfold State.unslave
  dsimp only
  split
  · exact .refl s
  · split
    · exact (((s.modCore_coreWork c _).trans (State.timEvent_reports _ 2).coreWork).trans
        (State.tqrChange_coreWork _)).trans (State.reselect_coreWork _ c)
    · exact s.leaveSlaved_coreWork c

@[simp] theorem State.unslave_core_other : (s.unslave c).core c.other = s.core c.other := by
  unfold State.unslave
  dsimp only
  split
  · rfl
  · split
    · simp
    · simp

/-! R67 to R69: a takeover begins. -/

/-- A takeover begins where none is open and the incoming core's term is known: its window and the incoming core's
stroke are new. -/
theorem State.startTakeover_cases :
    ((s.tim.tko.isSome = true ∨ s.term s.tim.active.other = none) ∧ s.startTakeover = s) ∨
    (s.tim.tko = none ∧ s.term s.tim.active.other ≠ none ∧
      ∃ w a b, w.outgoing = s.tim.active ∧ w.tk = BitVec.ofNat 64 (s.coreTime s.tim.active.other) ∧
        s.startTakeover = { s with tim := { s.tim with tko := some w, strokeA := a, strokeB := b } }.tqrChange) := by
  unfold State.startTakeover
  dsimp only
  split
  · rename_i no
    exact .inl ⟨by simpa using no, rfl⟩
  · rename_i yes
    refine .inr ⟨by simp_all, by simp_all, ?_⟩
    cases s.tim.active <;> exact ⟨_, _, _, rfl, rfl, rfl⟩

theorem State.startTakeover_timeWork : TimeWork s s.startTakeover := by
  rcases s.startTakeover_cases with ⟨-, e⟩ | ⟨-, -, w, a, b, -, -, e⟩ <;> rw [e]
  · exact .refl s
  · exact (s.setTim_timeWork _).trans (State.tqrChange_coreWork _).timeWork

@[simp] theorem State.startTakeover_core : s.startTakeover.core c = s.core c := by
  rcases s.startTakeover_cases with ⟨-, e⟩ | ⟨-, -, w, a, b, -, -, e⟩ <;> rw [e]
  rw [State.tqrChange_core]
  cases c <;> rfl

theorem State.startTakeover_tqrDue (due : s.tim.tqrDue = true) : s.startTakeover.tim.tqrDue = true := by
  rcases s.startTakeover_cases with ⟨-, e⟩ | ⟨-, -, w, a, b, -, -, e⟩ <;> rw [e]
  · exact due
  · exact State.tqrChange_tqrDue _

/-- R69: a takeover that can begin opens its window and leaves the active core. -/
theorem State.startTakeover_opens (closed : s.tim.tko = none) (known : s.term s.tim.active.other ≠ none) :
    (∃ w, s.startTakeover.tim.tko = some w ∧ w.outgoing = s.tim.active ∧
      w.tk = BitVec.ofNat 64 (s.coreTime s.tim.active.other)) ∧ s.startTakeover.tim.active = s.tim.active := by
  rcases s.startTakeover_cases with ⟨no, -⟩ | ⟨-, -, w, a, b, outgoing, tk, e⟩
  · simp [closed, known] at no
  · rw [e, (State.tqrChange_coreWork _).tim]
    exact ⟨⟨w, rfl, outgoing, tk⟩, rfl⟩

theorem State.faultTakeover_timeWork : TimeWork s s.faultTakeover := by
  unfold State.faultTakeover
  split
  · exact s.startTakeover_timeWork
  · exact .refl s

@[simp] theorem State.faultTakeover_core : s.faultTakeover.core c = s.core c := by
  unfold State.faultTakeover
  split
  · exact s.startTakeover_core c
  · rfl

theorem State.faultTakeover_tqrDue (due : s.tim.tqrDue = true) : s.faultTakeover.tim.tqrDue = true := by
  unfold State.faultTakeover
  split
  · exact s.startTakeover_tqrDue due
  · exact due

/-! R45, R67, R70: a core enters FAULT. -/

theorem State.standbyLost_reports : Reports s s.standbyLost := s.timEvent_reports 3

/-- R45, R70: a core as it enters FAULT. -/
def TimeCore.inFault (t : TimeCore) : TimeCore :=
  { t with st := .fault, trefOk := false, good := 0, holdSince := none, widened := none, heldStep := none }

/-- The state in which the core is in FAULT, before the other core or the standby's watcher learns of it. -/
def State.faulted (s : State) (c : CoreId) : State := ((s.modCore c TimeCore.inFault).tqrChange).reselect c

theorem State.enterFault_eq : s.enterFault c =
    if c = (s.faulted c).tim.active then ((s.faulted c).unslave c.other).faultTakeover
    else (s.faulted c).standbyLost := rfl

theorem State.faulted_coreWork : CoreWork s (s.faulted c) :=
  ((s.modCore_coreWork c _).trans (State.tqrChange_coreWork _)).trans (State.reselect_coreWork _ c)

theorem State.enterFault_timeWork : TimeWork s (s.enterFault c) := by
  rw [State.enterFault_eq]
  split
  · exact ((s.faulted_coreWork c).trans (State.unslave_coreWork _ _)).timeWork.trans (State.faultTakeover_timeWork _)
  · exact ((s.faulted_coreWork c).trans (State.standbyLost_reports _).coreWork).timeWork

theorem State.enterFault_core : (s.enterFault c).core c = (s.faulted c).core c := by
  rw [State.enterFault_eq]
  split
  · simpa using State.unslave_core_other (s.faulted c) c.other
  · exact (State.standbyLost_reports _).core c

theorem State.faulted_core : ∃ p n r, (s.faulted c).core c = (s.core c).inFault.refersTo p n r := by
  obtain ⟨p, n, e⟩ := State.reselect_core (s.modCore c TimeCore.inFault).tqrChange c
  rw [State.tqrChange_core, State.core_modCore] at e
  exact ⟨p, n, _, e⟩

/-- R45: a core that enters FAULT is in FAULT, without its TREF. -/
theorem State.enterFault_faults :
    ((s.enterFault c).core c).st = .fault ∧ ((s.enterFault c).core c).trefOk = false := by
  obtain ⟨p, n, r, e⟩ := s.faulted_core c
  rw [s.enterFault_core, e]
  exact ⟨rfl, rfl⟩

/-! The time units' own commands are work of theirs. -/

theorem State.opHoldover_coreWork : CoreWork s (s.opHoldover c) :=
  .ite (((s.modCore_coreWork c _).trans (State.timEvent_reports _ 2).coreWork).trans (State.tqrChange_coreWork _))
    (.refl s)

theorem State.opRevert_coreWork : CoreWork s (s.opRevert c) := by
  unfold State.opRevert
  dsimp only
  split
  · exact .ite (s.useRef_coreWork c _) (.refl s)
  · exact .refl s

theorem State.opHoldLimit_timeWork : TimeWork s (s.opHoldLimit c) :=
  have told := s.tqrChange_coreWork.timeWork
  .ite (.ite (told.trans (State.faultTakeover_timeWork _)) told) (.refl s)

theorem State.opTrefLoss_timeWork : TimeWork s (s.opTrefLoss c) :=
  have lost := s.modCore_coreWork c (fun t => { t with trefIn := false })
  .ite (lost.trans (State.modCore_coreWork _ c _)).timeWork (lost.timeWork.trans (State.enterFault_timeWork _ c))

theorem State.opPllUnlock_timeWork : TimeWork s (s.opPllUnlock c) :=
  .ite (.refl s) (.ite (s.modCore_coreWork c _).timeWork (s.enterFault_timeWork c))

theorem State.watchBound_timeWork : TimeWork s s.watchBound := rfl

theorem State.opBoundTimer_timeWork : TimeWork s s.opBoundTimer := by
  unfold State.opBoundTimer
  dsimp only
  split
  · exact .ite (s.watchBound_timeWork.trans (State.startTakeover_timeWork _)) s.watchBound_timeWork
  · exact s.watchBound_timeWork

theorem State.opTakeoverNotice_timeWork (r : Nat) : TimeWork s (s.opTakeoverNotice r) := by
  unfold State.opTakeoverNotice
  split
  · exact .ite rfl (.refl s)
  · exact .refl s

theorem State.opPpsOut_timeWork : TimeWork s s.opPpsOut :=
  .ite ((s.setTim_timeWork _).trans (State.emit_reports _ _).coreWork.timeWork) (.refl s)

theorem State.gloveSend_host_reports (typ : Nat) (p : List Byte) : Reports s (s.gloveSend .host typ p) := rfl

theorem State.opTqr_timeWork : TimeWork s s.opTqr :=
  have sent : TimeWork s (if s.gloveH.peerUp then s.gloveSend .host 0x60 s.tqrBytes else s) :=
    .ite (s.gloveSend_host_reports _ _).coreWork.timeWork (.refl s)
  .ite (sent.trans (State.setTim_timeWork _ _)) (.refl s)

/-! R49, R65, R66: what a stroke brings with it. -/

theorem State.steer_coreWork (dt : Nat) : CoreWork s (s.steer c dt) :=
  .ite (.refl s)
    (((s.setCount_coreWork c _).trans (State.modCore_coreWork _ c _)).trans (State.drawn_reports _).coreWork)

theorem State.slave_coreWork (term : Option Nat) : CoreWork s (s.slave term) := by
  have follows (b : CoreId) (n : Nat) (f : TimeCore → TimeCore) : CoreWork s ((s.setCount b n).modCore b f).drawn :=
    ((s.setCount_coreWork b n).trans (State.modCore_coreWork _ b f)).trans (State.drawn_reports _).coreWork
  exact .ite (.refl s) (.ite ((CoreWork.ite (follows _ _ _)
    ((follows _ _ _).trans (State.tqrChange_coreWork _))).trans (State.useRef_coreWork _ _ 3)) (.refl s))

theorem State.crossCheck_timeWork : TimeWork s s.crossCheck := by
  have measured (x : Tim) : TimeWork s { s.drawn with tim := x } := rfl
  have widens (t : State) (a : CoreId) (f : TimeCore → TimeCore) : TimeWork t (t.modCore a f) :=
    (t.modCore_coreWork a f).timeWork
  have changes (t : State) (x : Tim) : TimeWork t ({ t with tim := x } : State).tqrChange :=
    (t.setTim_timeWork x).trans (State.tqrChange_coreWork _).timeWork
  have fails (t : State) (x : Tim) :
      TimeWork t ((({ t with tim := x } : State).count cntXchk).timEvent 5).tqrChange :=
    (t.setTim_timeWork x).trans (((State.count_reports _ _).coreWork.trans
      (State.timEvent_reports _ 5).coreWork).trans (State.tqrChange_coreWork _)).timeWork
  unfold State.crossCheck
  dsimp only
  split
  · exact .ite (.ite ((measured _).trans (widens _ _ _)) (((measured _).trans (widens _ _ _)).trans (fails _ _)))
      (.ite (((measured _).trans (widens _ _ _)).trans (changes _ _)) ((measured _).trans (widens _ _ _)))
  · exact .ite (((measured _).trans (widens _ _ _)).trans (changes _ _)) ((measured _).trans (widens _ _ _))

theorem State.opStroke_timeWork : TimeWork s (s.opStroke c) := by
  unfold State.opStroke
  dsimp only
  refine .ite (.refl s) ?_
  have checked (t : State) : TimeWork t (if c = .A then t.crossCheck else t) := .ite t.crossCheck_timeWork (.refl t)
  have sends (t : State) (f : TimeCore → TimeCore) (x : Tim) : TimeWork t { t.modCore c f with tim := x } :=
    (t.modCore_coreWork c f).timeWork.trans (State.setTim_timeWork _ x)
  have slaves (t : State) (k : Option Nat) : TimeWork t (if c = t.tim.active then t.slave k else t) :=
    .ite (t.slave_coreWork k).timeWork (.refl t)
  exact (((((s.steer_coreWork c _).timeWork.trans (checked _)).trans (sends _ _ _)).trans (slaves _ _))).trans
    (State.watchBound_timeWork _)

/-- Settles O60: each of these commands is the time units' work, which leaves the other units and memory. -/
theorem timeCommandsFrame : Obligations.TimeCommandsFrame := by
  intro s t dt c r ran
  have ends {u : State} (work : TimeWork (s.advance dt) u) (h : done s u = .next t) :
      ∃ u, TimeWork (s.advance dt) u ∧ s.ended u = t := ⟨u, work, Host.Outcome.next.inj h⟩
  have work : ∃ u, TimeWork (s.advance dt) u ∧ s.ended u = t := by
    rcases ran with h | h | h | h | h | h | h | h | h | h
    · exact ends (State.opHoldover_coreWork _ c).timeWork h
    · exact ends (State.opHoldLimit_timeWork _ c) h
    · exact ends (State.opRevert_coreWork _ c).timeWork h
    · exact ends (State.opTrefLoss_timeWork _ c) h
    · exact ends (State.opPllUnlock_timeWork _ c) h
    · exact ends (State.opBoundTimer_timeWork _) h
    · exact ends (State.opStroke_timeWork _ c) h
    · exact ends (State.opTakeoverNotice_timeWork _ r.val) h
    · exact ends (State.opPpsOut_timeWork _) h
    · exact ends (State.opTqr_timeWork _) h
  obtain ⟨u, leaves, rfl⟩ := work
  obtain ⟨inta, out, e⟩ := s.ended_parts u
  unfold TimeWork at leaves
  rw [e, leaves]
  exact ⟨rfl, rfl, rfl, rfl, rfl, rfl, rfl, rfl, rfl, rfl, rfl, rfl, rfl, fun _ => rfl⟩

end Sys2Proof.Machine
end

section
/-! PROOFS. References and measurements (chapter 3): what a core has of its references after an edge and after a
measurement; then the statement on the commands of the references. -/

namespace Sys2Proof.Machine

variable {s t u : State} {c d : CoreId}

/-! What a command leaves is what its operation leaves. -/

theorem Completes.of_op {i : Instr} {p : State → Prop} (ran : exec i s = done s t) (left : p (s.ended t)) :
    Completes i s p := ⟨s.ended t, ran, rfl, left⟩

/-! R46, R47: a core's count, and the measurements that it accepts, are the core's own. -/

theorem State.coreCount_congr (clock : t.clock = s.clock) (count : (t.core c).count = (s.core c).count)
    (since : (t.core c).countAt = (s.core c).countAt) : t.coreCount c = s.coreCount c := by
  rw [State.coreCount, State.coreCount, clock, count, since]

theorem State.measValid_congr (count : t.coreCount c = s.coreCount c)
    (last : (t.core c).measTime = (s.core c).measTime) (mt : BitVec 64) : t.measValid c mt = s.measValid c mt := by
  rw [State.measValid, State.measValid, State.coreTime, State.coreTime, count, last]

/-! R48: a rising edge at a PPS input. -/

@[simp] theorem State.advance_refs (s : State) (dt : Nat) (c : CoreId) : (s.advance dt).refs c = s.refs c := rfl

theorem State.refs_modCore (s : State) (c d : CoreId) (f : TimeCore → TimeCore) : (s.modCore c f).refs d = s.refs d := by
  cases c <;> rfl

/-- R48: a core that uses its primary reference, and has it, keeps it. -/
theorem State.refAfter_primary (own : (s.core c).st ≠ .slaved) (uses : (s.core c).ref = (s.refs c).1)
    (has : (s.core c).present (s.refs c).1 = true) : s.refAfter c = (s.refs c).1 := by
  unfold State.refAfter
  dsimp only
  rw [if_neg own, has, uses, if_pos rfl]
  split
  · rfl
  · rfl

/-- R47, R48: a core that has seen an edge: it is the PPS reference's, or not, and takes the label that waited. -/
def TimeCore.edge (t : TimeCore) (now clock : Nat) (ok : Bool) : TimeCore :=
  { t with ppsLast := some (BitVec.ofNat 64 now), ppsLastAt := clock, ppsOk := ok, label := none }

/-- The state in which an edge has been seen, and the core has its reference. -/
def State.ppsSeen (s : State) (c : CoreId) (ok : Bool) : State :=
  (s.modCore c (fun t => t.edge (s.coreTime c) s.clock ok)).reselect c

theorem State.ppsSeen_coreWork (s : State) (c : CoreId) (ok : Bool) : CoreWork s (s.ppsSeen c ok) :=
  (s.modCore_coreWork c _).trans (State.reselect_coreWork _ c)

theorem State.ppsSeen_core (s : State) (c : CoreId) (ok : Bool) : ∃ p n r,
    (s.ppsSeen c ok).core c = ((s.core c).edge (s.coreTime c) s.clock ok).refersTo p n r := by
  obtain ⟨p, n, e⟩ := State.reselect_core (s.modCore c (fun t => t.edge (s.coreTime c) s.clock ok)) c
  rw [State.core_modCore] at e
  exact ⟨p, n, _, e⟩

theorem State.ppsSeen_coreCount (s : State) (c : CoreId) (ok : Bool) : (s.ppsSeen c ok).coreCount c = s.coreCount c := by
  obtain ⟨p, n, r, e⟩ := s.ppsSeen_core c ok
  exact State.coreCount_congr (s.ppsSeen_coreWork c ok).timeWork.clock (by rw [e]; rfl) (by rw [e]; rfl)

theorem State.ppsSeen_measValid (s : State) (c : CoreId) (ok : Bool) (mt : BitVec 64) :
    (s.ppsSeen c ok).measValid c mt = s.measValid c mt := by
  obtain ⟨p, n, r, e⟩ := s.ppsSeen_core c ok
  exact State.measValid_congr (s.ppsSeen_coreCount c ok) (by rw [e]; rfl) mt

/-- R48: an edge of the PPS reference, which the core uses as its primary, leaves it in use. -/
theorem State.ppsSeen_ref (own : (s.core c).st ≠ .slaved) (prim : (s.refs c).1 = 1) (uses : (s.core c).ref = 1) :
    ((s.ppsSeen c true).core c).ref = 1 := by
  obtain ⟨p, n, e⟩ := State.reselect_core (s.modCore c (fun t => t.edge (s.coreTime c) s.clock true)) c
  have primary := State.refs_modCore s c c (fun t => t.edge (s.coreTime c) s.clock true)
  have stays : State.refAfter (s.modCore c (fun t => t.edge (s.coreTime c) s.clock true)) c = 1 := by
    rw [State.refAfter_primary, primary, prim]
    · rw [State.core_modCore]; exact own
    · rw [State.core_modCore, primary, prim]; exact uses
    · rw [State.core_modCore, primary, prim]; rfl
  rw [State.ppsSeen, e, stays]
  rfl

/-! R47, R49: a measurement. What a core has seen and measured stands through the steps, locks and takeovers that follow
from it. -/

/-- R47, R48, R62: what a core has seen of its references, and its last measurement. -/
def TimeCore.evidence (t : TimeCore) : TimeCore :=
  { ppsOk := t.ppsOk, ppsLastAt := t.ppsLastAt, ptpOk := t.ptpOk, ptpLastAt := t.ptpLastAt, label := t.label
    everValid := t.everValid, validAt := t.validAt, theta := t.theta, unc := t.unc }

/-- A change of what is no evidence leaves the evidence of every core. -/
theorem State.modCore_evidence (s : State) (c d : CoreId) {f : TimeCore → TimeCore}
    (h : ∀ x, (f x).evidence = x.evidence) : ((s.modCore c f).core d).evidence = (s.core d).evidence := by
  by_cases same : d = c
  · rw [same, State.core_modCore, h]
  · rw [CoreId.eq_other same, State.core_modCore_other]

theorem State.setSql_core (s : State) (q : Sql) (d : CoreId) : ({ s with sql := q } : State).core d = s.core d := by
  cases d <;> rfl

theorem State.stepCore_evidence (s : State) (c d : CoreId) (theta : Int) :
    ((s.stepCore c theta).core d).evidence = (s.core d).evidence := by
  unfold State.stepCore State.setCount
  dsimp only
  rw [State.tqrChange_core, State.timEvent_core]
  split
  · rw [State.setSql_core, State.modCore_evidence, State.modCore_evidence, State.modCore_evidence,
      State.modCore_evidence] <;> exact fun _ => rfl
  · rw [State.modCore_evidence, State.modCore_evidence] <;> exact fun _ => rfl

theorem State.lock_evidence (s : State) (c d : CoreId) : ((s.lock c).core d).evidence = (s.core d).evidence := by
  rw [State.lock, State.tqrChange_core, State.timEvent_core, State.modCore_evidence]
  exact fun _ => rfl

/-- R47, R49: after a measurement the core holds it, whatever state the measurement has brought it to. -/
theorem State.measure_evidence (s : State) (c : CoreId) (theta : Int) (unc : Nat) (mt : BitVec 64) :
    ((s.measure c theta unc mt).core c).evidence =
      { (s.core c).evidence with theta := theta, unc := unc, validAt := s.clock, everValid := true } := by
  unfold State.measure
  lift_lets
  extract_lets t viol v at_ w near n nearer
  have same : Reports s v := .ite (s.timEvent_reports 7) (.refl s)
  have holds : (w.core c).evidence =
      { (s.core c).evidence with theta := theta, unc := unc, validAt := s.clock, everValid := true } := by
    rw [State.core_modCore, same.core, same.clock]
    rfl
  have counts : (nearer.core c).evidence = (w.core c).evidence := by
    rw [State.modCore_evidence]
    exact fun _ => rfl
  refine Eq.trans ?_ holds
  split
  · rfl
  · split
    · split
      · rw [State.startTakeover_core, State.modCore_evidence]
        exact fun _ => rfl
      · exact w.stepCore_evidence c c theta
    · split
      · rw [State.tqrChange_core, State.modCore_evidence]
        exact fun _ => rfl
      · split
        · exact (nearer.lock_evidence c c).trans counts
        · exact counts
      · exact w.lock_evidence c c
      · rfl

theorem State.measured_evidence (s : State) (c : CoreId) (r : Nat) (mt : BitVec 64) : ∃ v,
    ((s.measured c r mt).core c).evidence = { (s.core c).evidence with validAt := v, everValid := true } := by
  rw [State.measured, State.core_modCore]
  exact ⟨_, rfl⟩

/-! R47, R48: what an edge comes to. -/

/-- R48: an edge lies a second after the edge before it. -/
def State.edgeFits (s : State) (c : CoreId) : Bool :=
  match (s.core c).ppsLast with
  | some p => ppsSpacing (s.coreTime c - p.toNat)
  | none => false

/-- R47: the TAI second of an edge: the one its label names, or the nearest. -/
def secondOf (label : Option (BitVec 64)) (now : Nat) : Nat :=
  match label with
  | some l => l.toNat
  | none => (now + 2000000000) / 4000000000

/-- R47: the offset that an edge measures, 1/64 ns. -/
def State.edgeOffset (s : State) (c : CoreId) (label : Option (BitVec 64)) (now : Nat) : Int :=
  ((s.coreCount c : Int) - 256 * ((secondOf label now : Int) * 4000000000 - s.mainInt c.obj 5)) / 16

/-- R47, R48: an edge is noted; one of the PPS reference is a measurement, which disciplines a core that uses it. -/
theorem State.opPpsEdge_eq (on : (s.core c).st ≠ .off) : s.opPpsEdge c =
    if !s.edgeFits c then s.ppsSeen c (s.edgeFits c)
    else if !(s.ppsSeen c (s.edgeFits c)).measValid c (BitVec.ofNat 64 (s.coreTime c)) then
      (s.ppsSeen c (s.edgeFits c)).count cntPtpRej
    else if ((s.ppsSeen c (s.edgeFits c)).core c).ref = 1 then
      (s.ppsSeen c (s.edgeFits c)).measure c
        ((s.ppsSeen c (s.edgeFits c)).edgeOffset c (s.core c).label (s.coreTime c))
        ((s.ppsSeen c (s.edgeFits c)).mainNat c.obj 4 + 32) (BitVec.ofNat 64 (s.coreTime c))
    else (s.ppsSeen c (s.edgeFits c)).measured c 1 (BitVec.ofNat 64 (s.coreTime c)) := by
  unfold State.opPpsEdge
  extract_lets t now ok label noted seen mt sec refTime theta
  have second : sec = secondOf label now := by
    unfold sec secondOf
    cases label
    · exact (Int.natCast_ediv _ _).symm
    · rfl
  have offset : theta = seen.edgeOffset c label now := by
    unfold theta refTime State.edgeOffset
    rw [second]
  rw [if_neg on, offset]
  rfl

/-- R48: an edge that is not a second after the one before it ends the reference's presence. -/
theorem State.opPpsEdge_astray (on : (s.core c).st ≠ .off) (astray : s.edgeFits c = false) :
    s.opPpsEdge c = s.ppsSeen c false := by
  rw [State.opPpsEdge_eq on, astray]
  rfl

theorem State.opPpsEdge_measures (on : (s.core c).st ≠ .off) (fits : s.edgeFits c = true)
    (valid : s.measValid c (BitVec.ofNat 64 (s.coreTime c)) = true) (prim : (s.refs c).1 = 1)
    (uses : (s.core c).ref = 1) (own : (s.core c).st ≠ .slaved) :
    s.opPpsEdge c = (s.ppsSeen c true).measure c (s.edgeOffset c (s.core c).label (s.coreTime c))
      (s.mainNat c.obj 4 + 32) (BitVec.ofNat 64 (s.coreTime c)) := by
  have work := (s.ppsSeen_coreWork c true).timeWork
  have offset : (s.ppsSeen c true).edgeOffset c (s.core c).label (s.coreTime c) =
      s.edgeOffset c (s.core c).label (s.coreTime c) := by
    rw [State.edgeOffset, State.edgeOffset, s.ppsSeen_coreCount, work.mainInt]
  rw [State.opPpsEdge_eq on, fits, s.ppsSeen_measValid, valid, if_pos (State.ppsSeen_ref own prim uses), offset,
    work.mainNat]
  rfl

/-- R47, R48: the evidence that a core holds after an edge which disciplines it. -/
theorem State.opPpsEdge_evidence (on : (s.core c).st ≠ .off) (fits : s.edgeFits c = true)
    (valid : s.measValid c (BitVec.ofNat 64 (s.coreTime c)) = true) (prim : (s.refs c).1 = 1)
    (uses : (s.core c).ref = 1) (own : (s.core c).st ≠ .slaved) :
    ((s.opPpsEdge c).core c).evidence = { (s.core c).evidence with
      ppsOk := true, ppsLastAt := s.clock, label := none, everValid := true, validAt := s.clock
      theta := s.edgeOffset c (s.core c).label (s.coreTime c), unc := s.mainNat c.obj 4 + 32 } := by
  obtain ⟨p, n, r, seen⟩ := s.ppsSeen_core c true
  rw [State.opPpsEdge_measures on fits valid prim uses own, State.measure_evidence, seen,
    (s.ppsSeen_coreWork c true).timeWork.clock]
  rfl

/-! R45, R48, R64: references that are lost or found again, and HOLDOVER. -/

theorem State.opPpsLost_late (here : (s.core c).ppsOk = true)
    (late : s.due (s.core c).ppsLastAt (secs 1 + usec 1) = true) :
    s.opPpsLost c = (s.modCore c (fun t => { t with ppsOk := false })).reselect c := by
  unfold State.opPpsLost
  exact if_pos (by rw [here, late]; rfl)

theorem State.opPtpLost_late (here : (s.core c).ptpOk = true) (late : s.due (s.core c).ptpLastAt (secs 2) = true) :
    s.opPtpLost c = (s.modCore c (fun t => { t with ptpOk := false })).reselect c := by
  unfold State.opPtpLost
  exact if_pos (by rw [here, late]; rfl)

theorem State.opHoldover_late (locked : (s.core c).st = .locked) (late : s.due (s.core c).validAt (secs 2) = true) :
    s.opHoldover c = ((s.modCore c (fun t =>
      { t with st := .holdover, holdSince := some s.clock, slaveTerm := none })).timEvent 2).tqrChange := by
  unfold State.opHoldover
  exact if_pos (by rw [locked, late]; rfl)

theorem State.opRevert_late {x : Nat} (since : (s.core c).primSince = some x)
    (here : (s.core c).present (s.refs c).1 = true) (other : (s.core c).ref ≠ (s.refs c).1)
    (own : (s.core c).st ≠ .slaved) (late : s.due x (secs (s.mainNat c.obj 8)) = true) :
    s.opRevert c = s.useRef c (s.refs c).1 := by
  unfold State.opRevert
  dsimp only
  rw [since]
  exact if_pos (by simp [here, other, own, late])

theorem State.opHoldLimit_unknown (hold : (s.core c).st = .holdover) (unknown : s.ownTerm c = none) :
    (s.opHoldLimit c).core c = s.core c ∧ (s.opHoldLimit c).tim.tqrDue = true := by
  unfold State.opHoldLimit
  dsimp only
  rw [if_pos (by simp [hold, unknown])]
  split
  · exact ⟨by simp, State.faultTakeover_tqrDue _ (State.tqrChange_tqrDue s)⟩
  · exact ⟨by simp, State.tqrChange_tqrDue s⟩

/-- Settles O1: each command is its operation on the state after the time has passed, and the premises decide its case. -/
theorem referenceCommandsComplete : Obligations.ReferenceCommandsComplete := by
  refine ⟨?edge, ?astray, ?ppsLost, ?ptpLost, ?holdover, ?revert, ?limit⟩
  case edge =>
    intro s dt c p u now sec on last spaced valid prim uses own
    have fits : u.edgeFits c = true := by rw [State.edgeFits, last]; exact spaced
    have left := State.opPpsEdge_evidence on fits valid prim uses own
    rw [← s.ended_core c (u.opPpsEdge c)] at left
    exact .of_op rfl ⟨congrArg TimeCore.ppsOk left, congrArg TimeCore.ppsLastAt left, congrArg TimeCore.label left,
      congrArg TimeCore.everValid left, congrArg TimeCore.validAt left, congrArg TimeCore.theta left,
      congrArg TimeCore.unc left⟩
  case astray =>
    intro s dt c u on astray
    exact congrArg (done s) (State.opPpsEdge_astray on astray)
  case ppsLost =>
    intro s dt c u here late
    exact congrArg (done s) (State.opPpsLost_late here late)
  case ptpLost =>
    intro s dt c u here late
    exact congrArg (done s) (State.opPtpLost_late here late)
  case holdover =>
    intro s dt c u locked late
    refine .of_op (congrArg (done s) (State.opHoldover_late locked late)) ⟨?_, ?_, ?_, ?_⟩
    · simp
    · simp [show u.clock = s.clock + dt from rfl]
    · simp
    · rw [s.ended_mem, (State.tqrChange_coreWork _).timeWork.mem, (State.timEvent_reports _ _).mem]
      simp
  case revert =>
    intro s dt c x u since here other own late
    refine .of_op (congrArg (done s) (State.opRevert_late since here other own late)) ⟨?_, ?_⟩
    · simp
    · simp
  case limit =>
    intro s dt c u hold unknown
    obtain ⟨same, due⟩ := State.opHoldLimit_unknown hold unknown
    refine .of_op (t := u.opHoldLimit c) rfl ⟨?_, ?_⟩
    · rw [s.ended_core, same]; exact hold
    · rw [s.ended_tim]; exact due

end Sys2Proof.Machine
end

section
/-! PROOFS. What is written into the time units (chapter 3): measurements, labels and path corrections; and what leaves
them: reports, PPS_OUT and TIM_NOW. -/

namespace Sys2Proof.Machine

variable {s t u : State} {c : CoreId}

/-! R29, R383: a write that its register, or the field side, takes. -/

theorem State.byReq_thread {th : BitVec 10} {a : Nat} {f : State → State} (runs : s.thRuns th.toNat = true)
    (granted : s.regGranted th.toNat a = true) : s.byReq (.thread th) a f = f s := by
  simp only [State.byReq, runs, granted, Bool.not_true, Bool.false_eq_true, if_false, if_true]

theorem State.byReq_pcie {rid : BitVec 16} {pasid : Option (BitVec 20)} {a : Nat} {f : State → State}
    (opened : (s.rxPosted 4).barOpen = true) : s.byReq (.pcie rid pasid) a f = f (s.rxPosted 4) := if_pos opened

theorem State.rowWrite_taken {idx sub code : Nat} {f : State → Nat × State} (taken : s.objTaken = true)
    (done : f s = (code, t)) : s.rowWrite idx sub f = t.emit (.object idx sub code) := by
  obtain ⟨up, serves⟩ : s.field.up = true ∧ s.field.recovery = false := by simpa [State.objTaken] using taken
  simp only [State.rowWrite, up, serves, done, Bool.not_true, Bool.false_eq_true, if_false]

/-! R47: a PTP measurement. -/

/-- The state in which a PTP measurement has been taken, and the core has its reference. -/
def State.ptpSeen (s : State) (c : CoreId) : State :=
  (s.modCore c (fun t => { t with ptpOk := true, ptpLastAt := s.clock })).reselect c

theorem State.ptpSeen_evidence (s : State) (c : CoreId) :
    ((s.ptpSeen c).core c).evidence = { (s.core c).evidence with ptpOk := true, ptpLastAt := s.clock } := by
  obtain ⟨p, n, e⟩ := State.reselect_core (s.modCore c (fun t => { t with ptpOk := true, ptpLastAt := s.clock })) c
  rw [State.ptpSeen, e, State.core_modCore]
  rfl

/-- R47: a measurement that the core takes makes its PTP reference present, whether it disciplines the core or not. -/
theorem State.opPtpMeasurement_taken {th : BitVec 10} (allowed : s.mainBool 0xA060 2 = true)
    (own : th.toNat = s.mainNat 0xA060 1) (valid : s.measValid c (s.getReg64 (c.ptpReg + 8)) = true)
    (on : (s.core c).st ≠ .off) :
    ((s.opPtpMeasurement (.thread th) c).core c).ptpOk = true ∧
      ((s.opPtpMeasurement (.thread th) c).core c).ptpLastAt = s.clock := by
  have seen := s.ptpSeen_evidence c
  have lasts {x : TimeCore} {theta : Int} {unc valid : Nat} (left : x.evidence = { ((s.ptpSeen c).core c).evidence with
      theta := theta, unc := unc, validAt := valid, everValid := true }) : x.ptpOk = true ∧ x.ptpLastAt = s.clock := by
    rw [seen] at left
    have here := congrArg TimeCore.ptpOk left
    have since := congrArg TimeCore.ptpLastAt left
    exact ⟨here, since⟩
  have taken : s.opPtpMeasurement (.thread th) c =
      if ((s.ptpSeen c).core c).ref = 2 then
        (s.ptpSeen c).measure c ((s.ptpSeen c).getReg c.ptpReg).toInt ((s.ptpSeen c).regNat (c.ptpReg + 4))
          (s.getReg64 (c.ptpReg + 8))
      else (s.ptpSeen c).measured c 2 (s.getReg64 (c.ptpReg + 8)) := by
    unfold State.opPtpMeasurement
    exact if_pos (by simp [allowed, own, valid, on])
  rw [taken]
  split
  · exact lasts (State.measure_evidence _ c _ _ _)
  · obtain ⟨v, left⟩ := (s.ptpSeen c).measured_evidence c 2 (s.getReg64 (c.ptpReg + 8))
    exact lasts left

theorem State.opPtpWrite_thread {th : BitVec 10} {hi : Word} (runs : s.thRuns th.toNat = true)
    (granted : s.regGranted th.toNat (c.ptpReg + 12) = true) (taken : s.cmdTaken (c.ptpReg + 12) = true) :
    s.opPtpWrite (.thread th) c hi = (s.setReg (c.ptpReg + 12) hi).opPtpMeasurement (.thread th) c :=
  (State.byReq_thread runs granted).trans (s.onCmd_taken _ taken)

/-! R47: the label of the next edge. -/

theorem State.labelWrite_done {lvl : Nat} {l : BitVec 64} (level : 1 ≤ lvl) (runs : s.running = true)
    (on : s.powered c.dom = true) : s.labelWrite lvl c l = (0, s.opLabel c l) := by
  simp [State.labelWrite, Nat.not_lt.2 level, runs, on]

/-! R61: path corrections. -/

/-- R61: the path corrections that stand staged. -/
def State.stagedPcorr (s : State) : List (BitVec 16) :=
  (List.range 18).map (fun n => (s.getReg (timPcorrStg n)).extractLsb' 0 16)

theorem State.commitPcorr_waits {time : BitVec 64} (late : s.repTime 0 + usec 10 ≤ time.toNat)
    (soon : time.toNat ≤ s.repTime 0 + secs 60) : s.commitPcorr time =
      (0, { s with tim := { s.tim with pcorrStat := 0, pcorrWait := some { time := time, next := s.stagedPcorr } } }) := by
  unfold State.commitPcorr
  dsimp only
  rw [if_neg (Nat.not_lt.2 late), if_neg (Nat.not_lt.2 soon)]
  rfl

theorem State.opPcorrCmd_commits {rid : BitVec 16} {pasid : Option (BitVec 20)} {v : Word}
    (may : s.mainBool 0xA051 1 = true) (taken : s.cmdTaken timPcorrCmd = true) (free : s.tim.pcorrWait = none)
    (commit : v.getLsbD 0 = true) :
    s.opPcorrCmd (.pcie rid pasid) v = (s.commitPcorr (s.getReg64 timPcorrTime)).2 := by
  have granted : s.mgrMayTime (.pcie rid pasid) = true := may
  unfold State.opPcorrCmd
  rw [granted, free]
  exact (s.onCmd_taken _ taken).trans (if_pos commit)

theorem State.activationWrite_done {lvl : Nat} {time : BitVec 64} (level : 1 ≤ lvl) (there : s.timThere = true)
    (free : s.tim.pcorrWait = none) (accepted : s.commitPcorr time = (0, t)) : s.activationWrite lvl time = (0, t) := by
  simp [State.activationWrite, State.opPcorrObject, Nat.not_lt.2 level, there, free, accepted]

theorem State.opPcorrActivate_passed {w : PcorrCommit} (waits : s.tim.pcorrWait = some w)
    (passed : ∀ r, r < 38 → (s.rep r).run = false ∨ w.time.toNat ≤ s.repTime r) :
    s.opPcorrActivate = { s with tim := { s.tim with
      pcorr := (List.range 18).foldl (fun m n => Map.set m n (w.next.getD n 0) 0) [], pcorrPrev := s.tim.pcorr
      pcorrAt := w.time, pcorrWait := none } } := by
  unfold State.opPcorrActivate
  rw [waits]
  refine if_pos (List.all_eq_true.2 fun r inside => ?_)
  simpa using passed r (List.mem_range.1 inside)

/-! R72, R73: reports and PPS_OUT. -/

theorem State.opTqr_due (due : s.tim.tqrDue = true ∨ s.tim.tqrAt = none) :
    s.opTqr.tim.tqrDue = false ∧ s.opTqr.tim.tqrAt = some s.clock := by
  have sends : Reports s (if s.gloveH.peerUp then s.gloveSend .host 0x60 s.tqrBytes else s) :=
    .ite (s.gloveSend_host_reports _ _) (.refl s)
  unfold State.opTqr
  dsimp only
  rw [if_pos (by rcases due with due | due <;> simp [due]), sends.clock]
  exact ⟨rfl, rfl⟩

theorem State.opPpsOut_rises (driven : s.ppsDriven = true) (enabled : s.mainBool 0xA040 1 = true)
    (apart : ∀ x, s.tim.ppsAt = some x → s.due x (msec 500) = true)
    (second : ((s.coreTime s.ppsCore : Int) + s.mainInt 0xA040 3 + 8) % 4000000000 ≤ 16) :
    s.opPpsOut = { s with tim := { s.tim with ppsAt := some s.clock, ppsWidth := usec (s.mainNat 0xA040 2) } }.emit
      (.ppsOut (usec (s.mainNat 0xA040 2))) := by
  have whole (p : Bool) (h : p = true) :
      (s.mainBool 0xA040 1 && s.ppsDriven &&
        decide (((s.coreTime s.ppsCore : Int) + s.mainInt 0xA040 3 + 8) % 4000000000 ≤ 16) && p) = true := by
    rw [enabled, driven, decide_eq_true second, h]; rfl
  unfold State.opPpsOut
  refine if_pos (whole _ ?_)
  split
  · rename_i x at_; exact apart x at_
  · rfl

/-! R74: a read of TIM_NOW. -/

theorem timNow_pair : (wholePair (TIM + 8)).map (fun x => x.1.doms x.2) = some [79, 80] := by decide +kernel

theorem timNow_form : barForm (TIM + 8) 8 = true := by decide

theorem State.regRead_timNow (on : (s.powered 79 || s.powered 80) = true) :
    s.regRead (TIM + 8) 8 = (leBytes 8 s.timNow.time.toNat, s) := by
  obtain ⟨⟨r, i⟩, pair, doms⟩ := Option.map_eq_some_iff.1 timNow_pair
  have powered : s.rowPowered r i = true := by
    show (r.doms i).any s.powered = true
    rw [doms]
    simpa using on
  have elsewhere : ¬ (TIM + 8) / 0x100000 = 7 := by decide
  simp only [State.regRead, if_neg elsewhere, pair, powered, Bool.not_true, Bool.false_eq_true, if_false, if_true]
  rfl

theorem State.opTimNowRead_both (opened : s.rxRequest.barOpen = true)
    (on : (s.rxRequest.powered 79 || s.rxRequest.powered 80) = true) :
    s.opTimNowRead .both = s.rxRequest.reply (.readData (leBytes 8 s.rxRequest.timNow.time.toNat)) := by
  show s.barRead (TIM + 8) 8 = _
  unfold State.barRead
  dsimp only
  rw [opened, timNow_form, State.regRead_timNow on]
  rfl

/-- R265: a completion leaves, and is counted. -/
theorem State.reply_reports (s : State) (o : Out) : Reports s (s.reply o) :=
  (s.emit_reports o).trans (State.countTlp_reports _ _ _ _ _)

theorem State.countTlp_out (s : State) (r k a n : Nat) : (s.countTlp r k a n).out = s.out := by
  unfold State.countTlp
  dsimp only
  split
  · rfl
  · rfl

theorem State.reply_out (s : State) (o : Out) : o ∈ (s.reply o).out := by
  unfold State.reply
  dsimp only
  rw [State.countTlp_out]
  exact List.mem_append_right _ (List.mem_singleton_self o)

theorem Reports.nowLatch (h : Reports s t) : t.nowLatch = s.nowLatch := by unfold Reports at h; rw [h]

theorem State.ended_nowLatch (s t : State) : (s.ended t).nowLatch = t.nowLatch := t.intxUpdate_reports.nowLatch

/-- Settles O2: each write comes to its operation, whose case the premises decide. -/
theorem timeWritesComplete : Obligations.TimeWritesComplete := by
  refine ⟨?ptp, ?label, ?commit, ?activationWrite, ?activation, ?report, ?ppsOut, ?now⟩
  case ptp =>
    intro s dt th c hi u v runs granted taken allowed own valid on
    obtain ⟨here, since⟩ := State.opPtpMeasurement_taken allowed own valid on
    refine .of_op (congrArg (done s) (State.opPtpWrite_thread runs granted taken)) ⟨?_, ?_⟩
    · rw [s.ended_core]; exact here
    · rw [s.ended_core]; exact since
  case label =>
    intro s lvl c label taken level runs on
    exact congrArg (done s) (State.rowWrite_taken taken (State.labelWrite_done level runs on))
  case commit =>
    intro s dt rid pasid v u opened may taken free commit late soon
    refine congrArg (done s) ?_
    calc (s.advance dt).byReq (.pcie rid pasid) timPcorrCmd (fun s => s.opPcorrCmd (.pcie rid pasid) v)
        = u.opPcorrCmd (.pcie rid pasid) v := State.byReq_pcie opened
      _ = (u.commitPcorr (u.getReg64 timPcorrTime)).2 := State.opPcorrCmd_commits may taken free commit
      _ = _ := congrArg Prod.snd (State.commitPcorr_waits late soon)
  case activationWrite =>
    intro s dt lvl time u taken level there free late soon
    refine .of_op (congrArg (done s) (State.rowWrite_taken taken
      (State.activationWrite_done level there free (State.commitPcorr_waits late soon)))) ⟨?_, ?_, ?_⟩
    · exact s.ended_out (List.mem_append_right _ (List.mem_singleton_self _))
    · rw [s.ended_tim]; rfl
    · rw [s.ended_tim]; rfl
  case activation =>
    intro s dt w u waits passed
    exact congrArg (done s) (State.opPcorrActivate_passed waits passed)
  case report =>
    intro s dt u due
    obtain ⟨told, since⟩ := State.opTqr_due due
    refine .of_op (t := u.opTqr) rfl ⟨?_, ?_⟩
    · rw [s.ended_tim]; exact told
    · rw [s.ended_tim]; exact since
  case ppsOut =>
    intro s dt u driven enabled apart second
    refine .of_op (congrArg (done s) (State.opPpsOut_rises driven enabled apart second)) ⟨?_, ?_, ?_⟩
    · exact s.ended_out (List.mem_append_right _ (List.mem_singleton_self _))
    · rw [s.ended_tim]; rfl
    · rw [s.ended_tim]; rfl
  case now =>
    intro s dt u opened on
    refine .of_op (congrArg (done s) (State.opTimNowRead_both opened on)) ⟨?_, ?_⟩
    · exact s.ended_out (State.reply_out _ _)
    · rw [s.ended_nowLatch, (State.reply_reports _ _).nowLatch]; rfl

end Sys2Proof.Machine
end

section
/-! PROOFS. Strokes and replicas (chapter 3): what a core sends, and what a replica makes of it. -/

namespace Sys2Proof.Machine

variable {s t u : State} {c : CoreId}

/-! R51: a core sends its stroke. -/

/-- R51: the last stroke of a core. -/
def State.strokeOf (s : State) : CoreId → Option Stroke
  | .A => s.tim.strokeA
  | .B => s.tim.strokeB

theorem CoreWork.strokeOf (h : CoreWork s t) (c : CoreId) : t.strokeOf c = s.strokeOf c := by
  cases c
  · show t.tim.strokeA = s.tim.strokeA
    rw [h.tim]
  · show t.tim.strokeB = s.tim.strokeB
    rw [h.tim]

@[simp] theorem State.drawn_core (s : State) (c : CoreId) : s.drawn.core c = s.core c := s.drawn_reports.core c

/-- R66: what a standby takes from the active core leaves the active core. -/
theorem State.slave_core_active {b : CoreId} (active : s.tim.active = b.other) (term : Option Nat) :
    (s.slave term).core b.other = s.core b.other := by
  unfold State.slave State.setCount
  dsimp only
  rw [active, CoreId.other_other]
  split
  · rfl
  · split
    · rw [State.useRef_core_other]
      split <;> simp
    · rfl

/-- A core that is due sends a stroke of its time, state and STEP flag to all replicas; a standby that it leads and the
watch on its bound come after. -/
theorem State.opStroke_sends (runs : (s.core c).running = true) (on : (s.core c).st ≠ .off)
    (works : (s.core c).st ≠ .fault) (begun : c.phase ≤ s.coreTime c)
    (due : ∀ x, (s.core c).strokeAt = some x → x < c.strokeBy (s.coreTime c)) :
    ∃ (v : State) (k : Stroke), s.opStroke c = (if c = v.tim.active then v.slave k.term else v).watchBound ∧
      (v.core c).strokeAt = some (c.strokeBy (s.coreTime c)) ∧ v.strokeOf c = some k ∧
      k.time = 256 * c.strokeBy (s.coreTime c) ∧ k.st = (s.core c).st ∧ k.step = (s.core c).stepFlag ∧
      k.due = BitVec.allOnes 40 := by
  unfold State.opStroke
  extract_lets t now at_ v w term k x y
  have notSent : (t.strokeAt.map (fun x => decide (at_ ≤ x))).getD false = false := by
    cases sent : t.strokeAt with
    | none => rfl
    | some x => simpa using due x sent
  have going : ¬ (!t.running || t.st = .off || t.st = .fault || now < c.phase ||
      (t.strokeAt.map (fun x => decide (at_ ≤ x))).getD false) = true := by
    simp [notSent, t, runs, on, works, now, begun]
  rw [if_neg going]
  refine ⟨_, k, rfl, ?_, ?_, rfl, rfl, rfl, rfl⟩
  · cases c <;> rfl
  · cases c <;> rfl

theorem State.watchBound_core (s : State) (c : CoreId) : s.watchBound.core c = s.core c := by cases c <;> rfl
theorem State.watchBound_strokeOf (s : State) (c : CoreId) : s.watchBound.strokeOf c = s.strokeOf c := by cases c <;> rfl

/-- What follows a stroke leaves its core and the stroke as they were sent. -/
theorem State.led_keeps (s : State) (c : CoreId) (term : Option Nat) :
    (if c = s.tim.active then s.slave term else s).watchBound.core c = s.core c ∧
      (if c = s.tim.active then s.slave term else s).watchBound.strokeOf c = s.strokeOf c := by
  rw [State.watchBound_core, State.watchBound_strokeOf]
  split
  · rename_i leads
    have active : s.tim.active = c.other.other := by rw [CoreId.other_other, leads]
    refine ⟨?_, (s.slave_coreWork term).strokeOf c⟩
    simpa using State.slave_core_active active term
  · exact ⟨rfl, rfl⟩

/-! R51: a replica receives a stroke. -/

theorem Scale.set_value (old : Option Scale) (v now : Nat) (step : Bool) : (Scale.set old v now step).value = v := by
  unfold Scale.set
  split
  · split <;> rfl
  · rfl

theorem Scale.set_since (old : Option Scale) (v now : Nat) (step : Bool) : (Scale.set old v now step).since = now := by
  unfold Scale.set
  split
  · split <;> rfl
  · rfl

/-- R51: a replica holds a core's timescale at a value since a moment, and its term. -/
def Replica.holds (x : Replica) (c : CoreId) (value now : Nat) (term : Option Nat) : Prop :=
  (x.scale c).map (fun y => (y.value, y.since)) = some (value, now) ∧ x.term c = term

theorem Replica.holds.ne {x : Replica} {v now : Nat} {k : Option Nat} (h : x.holds c v now k) : x ≠ {} := by
  rintro rfl
  obtain ⟨scale, -⟩ := h
  cases c <;> cases scale

theorem Replica.holds_setScale (x : Replica) (c : CoreId) (v now : Nat) (step : Bool) (k : Option Nat) :
    (x.setScale c v now step k).holds c v now k := by
  cases c <;> exact ⟨by simp [Replica.setScale, Replica.scale, Scale.set_value, Scale.set_since], rfl⟩

/-- R69: a replica that switches to a core keeps that core's timescale. -/
theorem Replica.holds.switchTo {x : Replica} {v now : Nat} {k : Option Nat} (h : x.holds c v now k) (at_ : Nat) :
    (x.switchTo c at_).holds c v now k := by
  cases c <;> exact h

theorem State.rep_congr {r : Nat} (h : t.tim.reps = s.tim.reps) : t.rep r = s.rep r := by
  rw [State.rep, State.rep, h]

theorem Reports.rep (h : Reports s t) (r : Nat) : t.rep r = s.rep r := State.rep_congr (congrArg Tim.reps h.tim)

theorem State.ended_rep (s t : State) (r : Nat) : (s.ended t).rep r = t.rep r :=
  State.rep_congr (congrArg Tim.reps (s.ended_tim t))

/-- R53: what a stroke of the active core does besides leaves the timescales as they are. -/
theorem Replica.holds.ite {p : Prop} [Decidable p] {x y : Replica} {v now : Nat} {k : Option Nat}
    (hx : x.holds c v now k) (hy : y.holds c v now k) : (if p then x else y).holds c v now k := by
  split
  · exact hx
  · exact hy

/-- R51: a replica that a stroke reaches holds the stroke's timescale, less its line's delay, and its term. -/
theorem State.opStrokeReceive_holds {r : Nat} {k : Stroke} (sent : s.strokeOf c = some k)
    (due : k.due.getLsbD r = true) :
    ((s.opStrokeReceive r c).rep r).holds c (k.time - 16 * (s.rep r).lineDelay) s.clock k.term := by
  have reported (p : Prop) [Decidable p] (v : State) :
      (if p then (v.count cntRepJump).timEvent 7 else v).rep r = v.rep r :=
    (Reports.ite ((v.count_reports _).trans (State.timEvent_reports _ 7)) (.refl v)).rep r
  unfold State.opStrokeReceive
  change ((match s.strokeOf c with
    | none => s
    | some k => _).rep r).holds _ _ _ _
  rw [sent]
  dsimp -zeta only
  rw [if_neg (by simp [due])]
  extract_lets x value jump k' tim v moved based y switch switched got z heard tim' told
  have y_holds : y.holds c value s.clock k.term := by
    have based_holds := x.holds_setScale c value s.clock k.step k.term
    cases c <;> exact based_holds
  have switched_holds : switched.holds c value s.clock k.term := .ite (y_holds.switchTo _) y_holds
  have z_holds : z.holds c value s.clock k.term := by
    refine .ite ?_ switched_holds
    cases c <;> exact switched_holds
  have told_rep : told.rep r = heard.rep r := by
    unfold told
    split
    · split <;> rfl
    · rfl
  rw [reported, told_rep, State.rep_setRep_ne _ _ _ z_holds.ne]
  exact z_holds

/-- R129: a gate that falls back with its replica leaves the time unit as it is. -/
theorem State.gatesFollow_tim (s : State) (r : Nat) : (s.gatesFollow r).tim = s.tim := by
  unfold State.gatesFollow State.gateFallback
  split
  · dsimp only
    split
    · exact (State.setEvt_reports _ _ _ _).tim
    · rfl
  · rfl

/-- R53: a stroke that is missed is the eighth when seven were missed before it. -/
theorem eighth_missed (m : Nat) : (8 ≤ min 8 (m + 1)) = (7 ≤ m) := by
  rw [eq_iff_iff]
  omega

theorem State.opStrokeMiss_fst (s : State) (r : Nat) : (s.opStrokeMiss r).1 =
    (s.setRep r { (s.rep r) with
      missed := min 7 (min 8 ((s.rep r).missed + 1)), got := 0,
      unknown := (s.rep r).unknown || decide (7 ≤ (s.rep r).missed) }).count cntStrokeMiss := by
  simp only [State.opStrokeMiss, eighth_missed]

/-- Settles O3: a stroke carries its core's time, the replica it reaches holds that time less the line's delay, one that is
missed counts towards eight, and a measured line keeps half its trip. -/
theorem strokeCommandsComplete : Obligations.StrokeCommandsComplete := by
  refine ⟨?sent, ?received, ?missed, ?calibrated⟩
  case sent =>
    intro s dt c u at_ runs on works begun due
    obtain ⟨v, k, ran, sentAt, sent, time, st, step, all⟩ := u.opStroke_sends runs on works begun due
    obtain ⟨core, stroke⟩ := v.led_keeps c k.term
    refine .of_op (t := u.opStroke c) rfl ⟨?_, k, ?_, time, st, step, all⟩
    · rw [s.ended_core, ran, core]
      exact sentAt
    · rw [s.ended_tim, ran, ← sent, ← stroke]
      cases c <;> rfl
  case received =>
    intro s dt r c k u sent due
    have stroke : u.strokeOf c = some k := by cases c <;> exact sent
    have left := State.opStrokeReceive_holds stroke due
    refine .of_op (t := (u.opStrokeReceive r.val c).gatesFollow r.val) rfl ?_
    have kept := State.rep_congr (congrArg Tim.reps ((u.opStrokeReceive r.val c).gatesFollow_tim r.val)) (r := r.val)
    rw [s.ended_rep, kept]
    exact left
  case missed =>
    intro s dt r u x
    exact congrArg (fun t : State => done s (t.gatesFollow r.val)) (u.opStrokeMiss_fst r.val)
  case calibrated =>
    intro s dt r n u
    rfl

end Sys2Proof.Machine
end

section
/-! PROOFS. The time cores that fail, return and start, and the start of a takeover (chapters 3 and 25). -/

namespace Sys2Proof.Machine

variable {s t u : State} {c : CoreId}

/-! R45, R67, R70: a core's TREF goes and returns. -/

theorem State.opTrefLoss_faults (on : (s.core c).st ≠ .off) (works : (s.core c).st ≠ .fault) :
    ((s.opTrefLoss c).core c).st = .fault ∧ ((s.opTrefLoss c).core c).trefOk = false := by
  unfold State.opTrefLoss
  dsimp only
  rw [if_neg (by simp [on, works])]
  exact State.enterFault_faults _ c

theorem State.opPllUnlock_faults (on : (s.core c).st ≠ .off) (works : (s.core c).st ≠ .fault) :
    ((s.opPllUnlock c).core c).st = .fault ∧ ((s.opPllUnlock c).core c).trefOk = false := by
  unfold State.opPllUnlock
  rw [if_neg on, if_neg works]
  exact State.enterFault_faults _ c

/-- R70: a core in FAULT as it leaves FAULT, with the stroke that it has sent last. -/
def TimeCore.restored (t : TimeCore) (strokeAt : Option Nat) : TimeCore :=
  { t with st := if t.everValid then .acquiring else .freerun, trefIn := true, trefOk := true, good := 0
           strokeAt := strokeAt }

theorem State.opTrefRestore_restores (fault : (s.core c).st = .fault) :
    (∃ x, (s.opTrefRestore c).core c = (s.core c).restored x) ∧
    (s.opTrefRestore c).core c.other = s.core c.other ∧ (s.opTrefRestore c).mem = s.mem := by
  unfold State.opTrefRestore
  dsimp only
  rw [if_neg (by simp [fault]), if_pos (by simp [fault])]
  have mem (v : State) (f : TimeCore → TimeCore) : (v.modCore c f).mem = v.mem := (v.modCore_coreWork c f).timeWork.mem
  simp only [State.tqrChange_core, State.core_modCore, State.core_modCore_other,
    (State.tqrChange_coreWork _).timeWork.mem, mem]
  exact ⟨⟨_, rfl⟩, trivial, trivial⟩

/-! R419, R439: a core is powered. -/

/-- R439: the count on which a core that is powered starts. -/
def State.startCount (s : State) (c : CoreId) (seen : Bool) : Nat :=
  if seen then s.coreCount c.other else 256 * s.repTime 38

theorem State.opCorePowerUp_eq {seen : Bool} (on : s.powered c.dom = true) (off : (s.core c).st = .off) :
    s.opCorePowerUp c seen = ((s.setCore c (s.freshCore c (s.startCount c seen))).tqrChange).checkTref c :=
  if_pos (by simp [on, off])

theorem State.checkTref_present (present : (s.core c).trefIn = true) : s.checkTref c = s := if_pos present

theorem State.checkTref_missing (missing : (s.core c).trefIn = false) : s.checkTref c = s.enterFault c :=
  if_neg (by simp [missing])

theorem State.opCorePowerUp_present {seen : Bool} (on : s.powered c.dom = true) (off : (s.core c).st = .off)
    (present : (s.core c).trefIn = true) :
    (s.opCorePowerUp c seen).core c = s.freshCore c (s.startCount c seen) ∧
    (s.opCorePowerUp c seen).core c.other = s.core c.other := by
  rw [State.opCorePowerUp_eq on off, State.checkTref_present (by simp [State.core_setCore, State.freshCore, present])]
  simp [State.core_setCore, State.core_setCore_other]

theorem State.opCorePowerUp_missing {seen : Bool} (on : s.powered c.dom = true) (off : (s.core c).st = .off)
    (missing : (s.core c).trefIn = false) :
    ((s.opCorePowerUp c seen).core c).st = .fault ∧ ((s.opCorePowerUp c seen).core c).trefOk = false := by
  rw [State.opCorePowerUp_eq on off, State.checkTref_missing (by simp [State.core_setCore, State.freshCore, missing])]
  exact State.enterFault_faults _ c

/-! R67, R71: a takeover that is asked for. -/

/-- R67: while what the bound takeover asks for holds, the moment since which it does stands. -/
theorem State.watchBound_since {x k l : Nat} (enabled : s.mainBool 0xA030 2 = true)
    (free : s.indep s.tim.active.other = true) (active : s.term s.tim.active = some k)
    (standby : s.term s.tim.active.other = some l) (above : 64 * s.mainNat 0xA030 3 < k)
    (under : l ≤ 64 * s.mainNat 0xA030 3) (since : s.tim.overSince = some x) : s.watchBound = s := by
  unfold State.watchBound
  simp only [active, standby, enabled, free, above, under, since]
  simp [← since]

theorem State.opBoundTimer_late {x : Nat} (stands : s.watchBound = s) (since : s.tim.overSince = some x)
    (late : s.due x (msec 1) = true) : s.opBoundTimer = s.startTakeover := by
  unfold State.opBoundTimer
  dsimp only
  rw [stands, since]
  exact if_pos late

/-- R71: the byte that an operator writes to name a core. -/
def coreName : CoreId → Byte
  | .A => 1
  | .B => 2

theorem State.activeWrite_starts {lvl : Nat} (level : 1 ≤ lvl) (there : s.timThere = true) (other : c ≠ s.tim.active)
    (good : (s.core c).st = .locked ∨ (s.core c).st = .slaved) (known : s.term c ≠ none) (closed : s.tim.tko = none) :
    s.activeWrite lvl (coreName c).toNat = (0, s.startTakeover) := by
  have made : s.opMakeActive (coreName c).toNat = (0, s.startTakeover) := by
    have ready : ¬ (c = s.tim.active || !((s.core c).st = .locked || (s.core c).st = .slaved) || (s.term c).isNone ||
        s.tim.tko.isSome) = true := by
      simp [other, closed, Option.isNone_iff_eq_none, known]
      exact fun h => good.resolve_left h
    unfold State.opMakeActive
    cases c
    · exact if_neg ready
    · exact if_neg ready
  unfold State.activeWrite
  rw [if_neg (by omega), if_neg (by cases c <;> decide), if_neg (by simp [there]), made]

/-- R68: a replica that the notice reaches is dual. -/
theorem State.opTakeoverNotice_dual {r : Nat} {w : Takeover} (opened : s.tim.tko = some w)
    (waits : w.left.getLsbD r = true) :
    ((s.opTakeoverNotice r).rep r).dual = true ∧ (s.opTakeoverNotice r).tim.tko = s.tim.tko := by
  have dual_ne {x : Replica} : { x with dual := true } ≠ ({} : Replica) :=
    fun h => Bool.noConfusion (congrArg Replica.dual h)
  unfold State.opTakeoverNotice
  rw [opened]
  dsimp only
  rw [if_pos waits, State.rep_setRep_ne _ _ _ dual_ne]
  exact ⟨rfl, opened⟩

end Sys2Proof.Machine
end

section
/-! PROOFS. What the plinth does with messages and records (chapter 4), and what buffers and entries do with it: the
other units stay as they were. -/

namespace Sys2Proof.Machine

/-- The plinth's work: its own state, and those of the ports, the queues, the memory and the reports that its messages,
records and buffers touch, may change. -/
def PlinthWork (s t : State) : Prop :=
  t = { s with fresh := t.fresh, out := t.out, regs := t.regs, sat := t.sat, sql := t.sql, prt := t.prt, hep := t.hep
               qim := t.qim, mem := t.mem, gloveH := t.gloveH }

namespace PlinthWork

variable {s t u : State}

theorem refl (s : State) : PlinthWork s s := rfl

theorem trans (h : PlinthWork s t) (k : PlinthWork t u) : PlinthWork s u := by
  unfold PlinthWork at *
  rw [k, h]

theorem ite {p : Prop} [Decidable p] (h : PlinthWork s t) (k : PlinthWork s u) : PlinthWork s (if p then t else u) := by
  split
  · exact h
  · exact k

theorem foldl {α : Type} {f : State → α → State} (step : ∀ s x, PlinthWork s (f s x)) (l : List α) (s : State) :
    PlinthWork s (l.foldl f s) := by
  induction l generalizing s with
  | nil => exact refl s
  | cons x l ih => exact (step s x).trans (ih _)

theorem tim (h : PlinthWork s t) : t.tim = s.tim := by unfold PlinthWork at h; rw [h]

end PlinthWork

theorem Reports.plinthWork {s t : State} (h : Reports s t) : PlinthWork s t := by
  unfold Reports at h
  unfold PlinthWork
  rw [h]

variable (s : State)

theorem State.count_plinthWork (a : Nat) : PlinthWork s (s.count a) := (s.count_reports a).plinthWork
theorem State.setEvt_plinthWork (a v : Nat) (m : Word) : PlinthWork s (s.setEvt a v m) :=
  (s.setEvt_reports a v m).plinthWork
theorem State.modMac_plinthWork (m : Nat) (f : Mac → Mac) : PlinthWork s (s.modMac m f) := rfl
theorem State.modPool_plinthWork (p : Nat) (f : Pool → Pool) : PlinthWork s (s.modPool p f) := rfl
theorem State.modQueue_plinthWork (q : Nat) (f : Queue → Queue) : PlinthWork s (s.modQueue q f) := rfl
theorem State.modInst_plinthWork (i : Nat) (f : Inst → Inst) : PlinthWork s (s.modInst i f) := rfl
theorem State.modStream_plinthWork (n : Nat) (f : StreamSt → StreamSt) : PlinthWork s (s.modStream n f) := rfl
theorem State.setSql_plinthWork (q : Sql) : PlinthWork s { s with sql := q } := rfl
theorem State.setMem_plinthWork (x : Mem) : PlinthWork s { s with mem := x } := rfl

/-! R125: the pause frames that follow a buffer. -/

theorem State.emitPfc_plinthWork (m : Nat) (free : BitVec 8) : PlinthWork s (s.emitPfc m free) := by
  have emitted (b : List Byte) : PlinthWork s (if h : m < 16 then s.emit (.pfcFrame ⟨m, h⟩ b) else s) := by
    split
    · exact (s.emit_reports _).plinthWork
    · exact .refl s
  exact (emitted _).trans (.foldl (fun t p => .ite (t.stat_reports _).plinthWork (.refl t)) _ _)

theorem State.startPfc_plinthWork (m : Nat) (free : BitVec 8) (t : Nat) : PlinthWork s (s.startPfc m free t) :=
  (s.modMac_plinthWork m _).trans (State.emitPfc_plinthWork _ m free)

theorem State.settlePfc_plinthWork (m : Nat) : PlinthWork s (s.settlePfc m) := by
  unfold State.settlePfc
  dsimp only
  split
  · exact .refl s
  · exact .ite (s.modMac_plinthWork m _) (.ite (.refl s) (s.startPfc_plinthWork m _ _))

theorem State.sendPfc_plinthWork (m : Nat) (free : BitVec 8) : PlinthWork s (s.sendPfc m free) :=
  .ite (.refl s) (.trans (s.settlePfc_plinthWork m)
    (.ite (State.modMac_plinthWork _ m _) (State.startPfc_plinthWork _ m free _)))

theorem State.pfcCheck_plinthWork (m p : Nat) : PlinthWork s (s.pfcCheck m p) :=
  have told (t : State) (f : Mac → Mac) (b : BitVec 8) : PlinthWork t ((t.modMac m f).sendPfc m b) :=
    (t.modMac_plinthWork m f).trans (State.sendPfc_plinthWork _ m b)
  .trans (s.settlePfc_plinthWork m)
    (.ite (State.modMac_plinthWork _ m _) (.ite (told _ _ _) (.ite (told _ _ _) (.refl _))))

theorem State.occupy_plinthWork (o : Option (Nat × Nat)) (add : Bool) : PlinthWork s (s.occupy o add) := by
  unfold State.occupy
  split
  · exact (s.modMac_plinthWork _ _).trans (State.pfcCheck_plinthWork _ _ _)
  · exact .refl s

/-! R332 to R337: a buffer returns. -/

theorem State.memEvent_plinthWork (b : Nat) : PlinthWork s (s.memEvent b) := s.setEvt_plinthWork _ _ _

theorem State.opSpill_plinthWork (p : Nat) : PlinthWork s (s.opSpill p) :=
  .ite (.trans (.foldl (fun t _ => .ite (t.setMem_plinthWork _) (.refl t)) _ s) (State.modPool_plinthWork _ p _)) (.refl s)

theorem State.checkReq_plinthWork (r : Nat) (hbm : Bool) : PlinthWork s (s.checkReq r hbm) :=
  .ite (.refl s) (s.setMem_plinthWork _)

theorem State.testFree_plinthWork (r : Nat) (h : Word) : PlinthWork s (s.testFree r h) :=
  have freed (t : State) (b : Map Alloc) (r' : Nat) (hbm : Bool) :
      PlinthWork t (State.checkReq { t with mem := { t.mem with bufs := b } } r' hbm) :=
    (t.setMem_plinthWork _).trans (State.checkReq_plinthWork _ r' hbm)
  have spilled (t : State) (q : Prop) [Decidable q] (p : Nat) : PlinthWork t (if q then t.opSpill p else t) :=
    .ite (t.opSpill_plinthWork p) (.refl t)
  .ite ((((freed s _ _ _).trans (spilled _ _ _)).trans (State.modPool_plinthWork _ _ _)).trans
      (State.occupy_plinthWork _ _ false))
    (.trans (s.count_plinthWork _) (.ite ((State.setMem_plinthWork _ _).trans (State.memEvent_plinthWork _ 4))
      ((State.count_plinthWork _ _).trans (State.memEvent_plinthWork _ 4))))

theorem State.serveChecks_plinthWork (f p : Nat) : PlinthWork s (State.serveChecks f s p) := by
  induction f generalizing s with
  | zero => exact .refl s
  | succ f ih =>
    unfold State.serveChecks
    split
    · exact .refl s
    · exact ((s.modPool_plinthWork p _).trans (State.testFree_plinthWork _ _ _)).trans (ih _)

theorem State.opFree_plinthWork (r : Nat) (h : Word) : PlinthWork s (s.opFree r h) :=
  .ite (s.count_plinthWork _) ((s.modPool_plinthWork _ _).trans (State.serveChecks_plinthWork _ _ _))

theorem State.freeOwn_plinthWork (l : List Word) : PlinthWork s (s.freeOwn l) :=
  .foldl (fun t h => t.opFree_plinthWork _ h) l s

/-! R298, R301, R305: an entry ends, and a message is delivered. -/

theorem State.staleGen_plinthWork (owner : Option (BitVec 16)) : PlinthWork s (s.staleGen owner) := by
  unfold State.staleGen
  dsimp only
  split
  · exact (s.count_plinthWork _).trans (State.modInst_plinthWork _ _ _)
  · exact s.count_plinthWork _

theorem State.finishEntry_plinthWork (r : EntryRef) (status : Byte) (f : Entry → Entry) :
    PlinthWork s (s.finishEntry r status f) :=
  .ite (s.staleGen_plinthWork _) (s.modQueue_plinthWork _ _)

theorem State.deliver_plinthWork (d : Delivery) : PlinthWork s (s.deliver d) := rfl

theorem State.deliverMsg_plinthWork (m : Msg) (queue seq flags : Nat) : PlinthWork s (s.deliverMsg m queue seq flags) := by
  unfold State.deliverMsg
  dsimp only
  split
  · exact (s.deliver_plinthWork _).trans (State.finishEntry_plinthWork _ _ _ _)
  · exact s.deliver_plinthWork _

theorem State.dropMsg_plinthWork (m : Msg) : PlinthWork s (s.dropMsg m) := by
  unfold State.dropMsg
  dsimp only
  split
  · exact (s.freeOwn_plinthWork _).trans (State.finishEntry_plinthWork _ _ _ _)
  · exact s.freeOwn_plinthWork _

/-! R97 to R102: records and blocks. -/

theorem State.sqlEvent_plinthWork (b : Nat) : PlinthWork s (s.sqlEvent b) := s.setEvt_plinthWork _ _ _

theorem State.openBlock_plinthWork (number first : BitVec 64) : PlinthWork s (s.openBlock number first) := rfl

theorem State.areaEvent_plinthWork (was : State) : PlinthWork s (s.areaEvent was) :=
  .ite (s.sqlEvent_plinthWork 5) (.refl s)

theorem State.closeBlock_plinthWork (reason close : Nat) : PlinthWork s (s.closeBlock reason close) :=
  .ite (.refl s) (((s.setSql_plinthWork _).trans (State.openBlock_plinthWork _ _ _)).trans (State.areaEvent_plinthWork _ s))

theorem State.writeRecord_plinthWork (r : List Byte) : PlinthWork s (s.writeRecord r) := by
  have closed (t : State) (p : Prop) [Decidable p] (reason close : Nat) :
      PlinthWork t (if p then t.closeBlock reason close else t) := .ite (t.closeBlock_plinthWork _ _) (.refl t)
  have written (t was : State) (q : Sql) : PlinthWork t (State.areaEvent { t with sql := q } was) :=
    (t.setSql_plinthWork q).trans (State.areaEvent_plinthWork _ was)
  have told (t : State) (p : Prop) [Decidable p] : PlinthWork t (if p then t.sqlEvent 4 else t) :=
    .ite (t.sqlEvent_plinthWork 4) (.refl t)
  exact (((closed s _ _ _).trans (written _ _ _)).trans (told _ _)).trans (closed _ _ _ _)

theorem State.flushRecs_plinthWork (f : Nat) : PlinthWork s (State.flushRecs f s) := by
  induction f generalizing s with
  | zero => exact .refl s
  | succ f ih =>
    unfold State.flushRecs
    split
    case h_2 => exact .refl s
    refine .ite ?_ (.refl s)
    split
    case h_2 => exact .refl s
    have taken (q : Sql) (r : List Byte) : PlinthWork s (State.writeRecord { s with sql := q } r) :=
      (s.setSql_plinthWork q).trans (State.writeRecord_plinthWork _ r)
    dsimp only
    split
    · exact ((taken _ _).trans (State.writeRecord_plinthWork _ _)).trans (ih _)
    · exact (taken _ _).trans (ih _)

theorem State.putRec_plinthWork (e : RecWait) : PlinthWork s (s.putRec e) :=
  (s.setSql_plinthWork _).trans (State.flushRecs_plinthWork _ _)

theorem State.putPlain_plinthWork (r : Rec) (order : Nat) : PlinthWork s (s.putPlain r order) := s.putRec_plinthWork _

/-! R93 to R95: digests, gaps and drops. -/

theorem State.loadEngine_plinthWork (e : Option Nat) (n : Nat) : PlinthWork s (s.loadEngine e n) := by
  cases e <;> rfl

theorem State.unloadEngine_plinthWork (e : Option Nat) (n : Nat) : PlinthWork s (s.unloadEngine e n) := by
  cases e <;> rfl

theorem State.strictDrop_plinthWork (n : Nat) : PlinthWork s (s.strictDrop n) :=
  ((s.setSql_plinthWork _).trans (State.count_plinthWork _ _)).trans (State.sqlEvent_plinthWork _ 3)

theorem State.addGap_plinthWork (n cls : Nat) (seq raw : BitVec 64) (core : CoreId) :
    PlinthWork s (s.addGap n cls seq raw core) := (s.modStream_plinthWork n _).trans (State.count_plinthWork _ _)

theorem State.putGap_plinthWork (n : Nat) : PlinthWork s (s.putGap n) := by
  unfold State.putGap
  split
  · exact (s.modStream_plinthWork n _).trans (State.putPlain_plinthWork _ _ _)
  · exact .refl s

theorem State.enterDigest_plinthWork (m : Msg) (x : Entering) : PlinthWork s (s.enterDigest m x).2 := by
  unfold State.enterDigest
  split
  · exact s.unloadEngine_plinthWork _ _
  · split
    · exact .refl s
    · split
      · exact s.loadEngine_plinthWork (some _) _
      · exact .refl s

theorem State.recordMsg_plinthWork (m : Msg) (x : Entering) : PlinthWork s (s.recordMsg m x) :=
  have skipped (t : State) (p : Prop) [Decidable p] : PlinthWork t (if p then t.count cntDigestSkip else t) :=
    .ite (t.count_plinthWork _) (.refl t)
  .ite (s.unloadEngine_plinthWork _ _)
    (.ite ((s.unloadEngine_plinthWork _ _).trans (State.addGap_plinthWork _ _ _ _ _ _))
      ((((s.enterDigest_plinthWork m x).trans (State.putGap_plinthWork _ _)).trans (skipped _ _)).trans
        (State.putRec_plinthWork _ _)))

theorem State.takeEngine_plinthWork (cls len : Nat) : PlinthWork s (s.takeEngine cls len).2.2 := by
  unfold State.takeEngine
  split
  · split
    · exact s.loadEngine_plinthWork (some _) _
    · exact .refl s
  · exact .refl s

/-! R78, R80, R82, R89: messages are presented. -/

theorem State.presentLate_plinthWork (m : Msg) (nonmember : Bool) : PlinthWork s (s.presentLate m nonmember) := by
  have counted (t : State) (p : Prop) [Decidable p] (a n : Nat) (k : Nat) (f : StreamSt → StreamSt) :
      PlinthWork t (if p then t.count a else (t.count k).modStream n f) :=
    .ite (t.count_plinthWork _) ((t.count_plinthWork _).trans (State.modStream_plinthWork _ n f))
  refine .trans (s.takeEngine_plinthWork (s.stream m.stream.toNat).cls m.data.length) (.ite ?_ ?_)
  · exact ((State.unloadEngine_plinthWork _ _ _).trans (State.strictDrop_plinthWork _ _)).trans
      (State.dropMsg_plinthWork _ m)
  · exact ((counted _ _ _ _ _ _).trans (State.recordMsg_plinthWork _ m _)).trans (State.deliverMsg_plinthWork _ m _ _ _)

theorem State.present_plinthWork (m : Msg) : PlinthWork s (s.present m) := by
  have retired : PlinthWork s
      (match m.mac with | some c => if m.keep then s else s.retireToken c.val m.tag.raw.time | none => s) := by
    split
    · exact .ite (.refl s) (s.setSql_plinthWork _)
    · exact .refl s
  have held (t : State) (q : Sql) (n : Nat) (f : StreamSt → StreamSt) :
      PlinthWork t (State.modStream { t with sql := q } n f) :=
    (t.setSql_plinthWork q).trans (State.modStream_plinthWork _ n f)
  exact .trans retired (.ite (State.dropMsg_plinthWork _ m) (.ite (State.setSql_plinthWork _ _)
    (.ite (State.presentLate_plinthWork _ m true) (.ite (State.presentLate_plinthWork _ m false)
      ((State.takeEngine_plinthWork _ _ _).trans (held _ _ _ _))))))

theorem State.adopt_plinthWork : PlinthWork s s.adopt :=
  .ite (s.setSql_plinthWork _)
    (((s.setSql_plinthWork _).trans (State.putPlain_plinthWork _ _ _)).trans
      (.foldl (fun t m => t.present_plinthWork m) _ _))

end Sys2Proof.Machine
end

section
/-! PROOFS. The end of a takeover, and the time cores' commands (chapters 3 and 25). -/

namespace Sys2Proof.Machine

variable {s t u : State} {c : CoreId}

/-! R69, R82: the window closes, and the plinth adopts the incoming timescale. -/

/-- R49, R83: a core that steps does so by work on the cores, of which the plinth is told. -/
theorem State.stepCore_coreWork (s : State) (c : CoreId) (theta : Int) : CoreWork s (s.stepCore c theta) := by
  have flips (t : State) (f : TimeCore → TimeCore) (q : Sql) :
      CoreWork t { (t.modCore .A f).modCore .B f with sql := q } :=
    ((t.modCore_coreWork .A f).trans (State.modCore_coreWork _ .B f)).trans rfl
  have stepped (n : Nat) (f : TimeCore → TimeCore) : CoreWork s ((s.setCount c n).modCore c f) :=
    (s.setCount_coreWork c n).trans (State.modCore_coreWork _ c f)
  exact (((stepped _ _).trans (.ite (flips _ _ _) (.refl _))).trans (State.timEvent_reports _ 6).coreWork).trans
    (State.tqrChange_coreWork _)

/-- R69: the replicas that switch change nothing but themselves. -/
theorem State.allSwitch_parts (s : State) (c : CoreId) :
    ∃ r, s.allSwitch c = { s with tim := { s.tim with reps := r } } := by
  unfold State.allSwitch
  generalize List.range 40 = l
  induction l generalizing s with
  | nil => exact ⟨_, rfl⟩
  | cons k l ih =>
    rw [List.foldl_cons]
    obtain ⟨r, e⟩ := ih (if (s.rep k).active = c then s else s.setRep k ((s.rep k).switchTo c s.clock))
    rw [e]
    split
    · exact ⟨r, rfl⟩
    · exact ⟨r, rfl⟩

/-- R69: the takeover whose window has closed. -/
def Tim.tookOver (x : Tim) (w : Takeover) (y : Tim) : Prop :=
  y.tko = none ∧ y.active = w.outgoing.other ∧ y.tkoStart = w.tk ∧ y.tkoStep = w.step ∧ y.tkoCount = x.tkoCount + 1

theorem CoreWork.tookOver {w : Takeover} {x : Tim} (h : CoreWork s t) (k : x.tookOver w s.tim) : x.tookOver w t.tim := by
  rw [h.tim]
  exact k

/-- R69: once the last replica has acknowledged, the window closes. -/
theorem State.opTakeoverEnd_tookOver {w : Takeover} (opened : s.tim.tko = some w) (all : w.left = 0) :
    s.tim.tookOver w s.opTakeoverEnd.tim := by
  unfold State.opTakeoverEnd
  rw [opened]
  dsimp -zeta only
  rw [if_neg (by simp [all])]
  extract_lets inc wide tim closed widened unslaved told
  have closed_tim : s.tim.tookOver w (closed.allSwitch inc).tim := by
    obtain ⟨r, e⟩ := closed.allSwitch_parts inc
    rw [e]
    exact ⟨rfl, rfl, rfl, rfl, rfl⟩
  have work : CoreWork (closed.allSwitch inc) told :=
    ((((State.modCore_coreWork _ inc _).trans (State.unslave_coreWork _ inc)).trans (State.modCore_coreWork _ _ _)).trans
      (State.count_reports _ _).coreWork).trans ((State.timEvent_reports _ 4).coreWork.trans (State.tqrChange_coreWork _))
  refine CoreWork.tookOver ?_ closed_tim
  split
  · exact work.trans (.ite (.refl _) (State.stepCore_coreWork _ _ _))
  · exact work

/-- Settles O4: a core that fails or starts without its TREF is in FAULT, one that starts or returns has its start's state,
a takeover that may begin opens its window, and one whose replicas have all acknowledged closes it. -/
theorem coreCommandsComplete : Obligations.CoreCommandsComplete := by
  refine ⟨?lost, ?restored, ?started, ?startedMissing, ?bound, ?named, ?noticed, ?ended⟩
  case lost =>
    intro s dt c on works
    rw [← s.advance_core (c := c) dt] at on works
    refine ⟨.of_op (t := (s.advance dt).opTrefLoss c) rfl ?_, .of_op (t := (s.advance dt).opPllUnlock c) rfl ?_⟩
    · rw [s.ended_core]; exact State.opTrefLoss_faults on works
    · rw [s.ended_core]; exact State.opPllUnlock_faults on works
  case restored =>
    intro s dt c fault
    rw [← s.advance_core (c := c) dt] at fault
    obtain ⟨⟨x, core⟩, other, mem⟩ := State.opTrefRestore_restores fault
    refine .of_op (t := (s.advance dt).opTrefRestore c) rfl ?_
    rw [s.ended_core, s.ended_core, s.ended_mem, core, other, mem, State.advance_core, State.advance_core]
    exact ⟨rfl, rfl, rfl, rfl, rfl, rfl, rfl⟩
  case started =>
    intro s dt c seen u on off present
    obtain ⟨core, other⟩ := State.opCorePowerUp_present (seen := seen) on off present
    refine .of_op (t := u.opCorePowerUp c seen) rfl ?_
    rw [s.ended_core, s.ended_core, core, other]
    exact ⟨rfl, rfl, present, rfl, rfl, rfl, State.advance_core s c.other dt⟩
  case startedMissing =>
    intro s dt c seen u on off missing
    refine .of_op (t := u.opCorePowerUp c seen) rfl ?_
    rw [s.ended_core]
    exact State.opCorePowerUp_missing on off missing
  case bound =>
    intro s dt x k l u enabled free active standby above under since late closed
    have stands := State.watchBound_since enabled free active standby above under since
    have known : u.term u.tim.active.other ≠ none := by rw [standby]; simp
    obtain ⟨⟨w, opened, outgoing, tk⟩, same⟩ := u.startTakeover_opens closed known
    refine .of_op (congrArg (done s) (State.opBoundTimer_late stands since late)) ?_
    rw [s.ended_tim, opened, same, Option.map_some, outgoing, tk]
    exact ⟨rfl, rfl⟩
  case named =>
    intro s dt lvl c u taken level there other good known closed
    have knows : u.term u.tim.active.other ≠ none := (CoreId.eq_other other) ▸ known
    obtain ⟨⟨w, opened, outgoing, -⟩, -⟩ := u.startTakeover_opens closed knows
    have wrote : u.rowWrite 0xA030 4 (fun v => v.activeWrite lvl.val (coreName c).toNat) =
        u.startTakeover.emit (.object 0xA030 4 0) :=
      State.rowWrite_taken taken (State.activeWrite_starts level there other good known closed)
    refine .of_op (t := u.startTakeover.emit (.object 0xA030 4 0)) ?_ ⟨?_, ?_⟩
    · cases c <;> exact congrArg (done s) wrote
    · exact s.ended_out (List.mem_append_right _ (List.mem_singleton_self _))
    · rw [s.ended_tim, State.emit_tim, opened]
      exact congrArg some outgoing
  case noticed =>
    intro s dt r w opened waits
    obtain ⟨dual, same⟩ := State.opTakeoverNotice_dual (s := s.advance dt) opened waits
    refine .of_op (t := (s.advance dt).opTakeoverNotice r.val) rfl ⟨?_, ?_⟩
    · rw [s.ended_rep, dual]
    · rw [s.ended_tim, same]; rfl
  case ended =>
    intro s dt w opened all
    have closes : (s.advance dt).opTakeoverClose = (s.advance dt).opTakeoverEnd.adopt := by
      unfold State.opTakeoverClose
      rw [show (s.advance dt).tim.tko = some w from opened]
      exact if_pos all
    have left := State.opTakeoverEnd_tookOver (s := s.advance dt) opened all
    refine .of_op (congrArg (done s) closes) ?_
    rw [s.ended_tim, (State.adopt_plinthWork _).tim]
    exact left

end Sys2Proof.Machine
end

section
/-! PROOFS. The count on which a time core starts at power-on (R46): no change of its state or its reference moves it. -/

namespace Sys2Proof.Machine

variable {s t : State} {c d : CoreId}

/-- R46: a core's count, and the moment at which it stood. -/
def TimeCore.counted (t : TimeCore) : Nat × Nat := (t.count, t.countAt)

/-- What leaves a core's count and the clock leaves its count now. -/
theorem State.coreCount_of_counted (clock : t.clock = s.clock) (kept : (t.core c).counted = (s.core c).counted) :
    t.coreCount c = s.coreCount c :=
  State.coreCount_congr clock (congrArg Prod.fst kept) (congrArg Prod.snd kept)

theorem State.modCore_counted (s : State) (c d : CoreId) {f : TimeCore → TimeCore}
    (keeps : ∀ x, (f x).counted = x.counted) :
    ((s.modCore c f).core d).counted = (s.core d).counted := by
  by_cases same : d = c
  · rw [same, State.core_modCore, keeps]
  · rw [CoreId.eq_other same, State.core_modCore_other]

theorem State.reselect_counted (s : State) (c d : CoreId) : ((s.reselect c).core d).counted = (s.core d).counted := by
  by_cases same : d = c
  · obtain ⟨p, n, e⟩ := s.reselect_core c
    rw [same, e]
    rfl
  · rw [CoreId.eq_other same, State.reselect_core_other]

theorem State.unslave_counted (s : State) (c d : CoreId) : ((s.unslave c).core d).counted = (s.core d).counted := by
  unfold State.unslave State.leaveSlaved
  dsimp only
  split
  · rfl
  · split
    · rw [State.reselect_counted, State.tqrChange_core, State.timEvent_core]
      exact s.modCore_counted c d fun _ => rfl
    · rw [State.reselect_counted, State.tqrChange_core]
      exact s.modCore_counted c d fun _ => rfl

theorem State.enterFault_counted (s : State) (c d : CoreId) : ((s.enterFault c).core d).counted = (s.core d).counted := by
  have faulted : ((s.faulted c).core d).counted = (s.core d).counted := by
    rw [State.faulted, State.reselect_counted, State.tqrChange_core]
    exact s.modCore_counted c d fun _ => rfl
  rw [State.enterFault_eq]
  split
  · rw [State.faultTakeover_core, State.unslave_counted, faulted]
  · rw [(State.standbyLost_reports _).core, faulted]

theorem State.checkTref_timeWork (s : State) (c : CoreId) : TimeWork s (s.checkTref c) :=
  .ite (.refl s) (s.enterFault_timeWork c)

theorem State.checkTref_counted (s : State) (c d : CoreId) : ((s.checkTref c).core d).counted = (s.core d).counted := by
  unfold State.checkTref
  split
  · rfl
  · exact s.enterFault_counted c d

/-! R434 step 5: the cores start. -/

/-- R46: the time at which a core starts, in units: one unit after END of the most recent seal, or zero. -/
def State.sealStart (s : State) : Nat :=
  match s.field.sealEnd with
  | some e => e.toNat + 1
  | none => 0

theorem State.startCore_eq (s : State) (c : CoreId) : s.startCore c =
    if s.powered c.dom then (s.setCore c (s.freshCore c (256 * s.sealStart))).checkTref c
    else s.setCore c (s.offCore c) := rfl

theorem State.startCore_timeWork (s : State) (c : CoreId) : TimeWork s (s.startCore c) :=
  .ite ((s.setCore_coreWork c _).timeWork.trans (State.checkTref_timeWork _ c)) (s.setCore_coreWork c _).timeWork

theorem State.startCore_counted_other (s : State) (c : CoreId) :
    ((s.startCore c).core c.other).counted = (s.core c.other).counted := by
  rw [State.startCore_eq]
  split
  · rw [State.checkTref_counted, State.core_setCore_other]
  · rw [State.core_setCore_other]

theorem State.startCore_coreCount_other (s : State) (c : CoreId) :
    (s.startCore c).coreCount c.other = s.coreCount c.other :=
  State.coreCount_of_counted (s.startCore_timeWork c).clock (s.startCore_counted_other c)

/-- R46: a powered core that starts counts from the seal. -/
theorem State.startCore_coreCount (on : s.powered c.dom = true) : (s.startCore c).coreCount c = 256 * s.sealStart := by
  rw [State.startCore_eq, if_pos on]
  calc ((s.setCore c (s.freshCore c (256 * s.sealStart))).checkTref c).coreCount c
    _ = (s.setCore c (s.freshCore c (256 * s.sealStart))).coreCount c :=
        State.coreCount_of_counted (State.checkTref_timeWork _ c).clock (State.checkTref_counted _ c c)
    _ = 256 * s.sealStart := by simp [State.coreCount, State.core_setCore, State.freshCore]

/-- R46: both cores start from the seal, whichever of them are powered. -/
theorem State.startCores_coreCount (on : s.powered c.dom = true) :
    ((s.startCore .A).startCore .B).coreCount c = 256 * s.sealStart := by
  have work := s.startCore_timeWork .A
  cases c with
  | A => rw [show CoreId.A = CoreId.B.other from rfl, State.startCore_coreCount_other, CoreId.other,
      State.startCore_coreCount on]
  | B =>
    rw [State.startCore_coreCount (by rw [work.powered, on]), State.sealStart, work.field, ← State.sealStart]

/-- Settles O58: step 5 of the bring-up starts both cores from the seal. -/
theorem coreCountAtPowerOn : Obligations.CoreCountAtPowerOn := by
  intro s dt ok u fw booting fourth
  let v : State := { u with pwr := { u.pwr with step := 5 } }
  have ran : u.opBringUp 5 ok = (v.startCore .A).startCore .B := by
    unfold State.opBringUp
    exact if_neg (by simp [fw, booting, fourth])
  refine .of_op (congrArg (done s) ran) fun c on => ?_
  have started : ((v.startCore .A).startCore .B).coreCount c = 256 * v.sealStart := State.startCores_coreCount on
  rw [State.coreCount_of_counted (s.ended_clock _) (by rw [s.ended_core]), started, State.sealStart]
  show 256 * (match s.field.sealEnd with | some e => e.toNat + 1 | none => 0) = _
  cases s.field.sealEnd <;> rfl

end Sys2Proof.Machine
end

section
/-! PROOFS. What crosses the glove and is taken at once: seals, notices, power commands, image chunks and reports
(R73, R104 to R106, R372, R388, R404). -/

namespace Sys2Proof.Machine

variable {s v : State} {p : List Byte}

/-! R104 to R106: the field side makes a seal. -/

/-- R104, R106: the field side can make a seal: it has its keys, its life cycle lets it, and a leaf remains. -/
def Field.canSeal (f : Field) : Prop := f.sealKeys = true ∧ f.life = 2 ∧ f.leaf < 2 ^ 40

theorem Field.canSeal.goes {f : Field} (h : f.canSeal) :
    ¬ (!f.sealKeys || f.life ≠ 2 || decide (2 ^ 40 ≤ f.leaf)) = true := by
  obtain ⟨keys, life, leaf⟩ := h
  simp only [keys, life, Bool.not_true, ne_eq, not_true_eq_false, decide_false, Bool.or_self, Bool.false_or,
    decide_eq_true_eq]
  omega

/-- R106: taking a leaf leaves the number of the one that was next, plus one. -/
theorem State.takeLeaf_eq (s : State) : s.takeLeaf = { s with field := {
    (if s.field.leaf = s.field.leafRes then s.field.reserve (s.field.leaf + 4096) else s.field) with
      leaf := s.field.leaf + 1 } } := by
  unfold State.takeLeaf Field.reserve
  dsimp only
  split
  · split <;> rfl
  · rfl

/-- R104: the number of the seal that follows seal n of the run. -/
theorem seal_number {n : Nat} (small : n < 2 ^ 64) : (BitVec.ofNat 64 n).toNat + 1 = n + 1 := by
  rw [BitVec.toNat_ofNat, Nat.mod_eq_of_lt small]

theorem State.opSealReq_cannot {signed : Bool} (taken : s.takeMsg .field 0x20 = some (p, v))
    (cannot : v.field.sealKeys = false ∨ v.field.life ≠ 2 ∨ 2 ^ 40 ≤ v.field.leaf) :
    s.opSealReq signed = v.sealFails := by
  unfold State.opSealReq
  rw [taken]
  refine if_pos ?_
  simpa [or_assoc] using cannot

theorem State.opSealReq_unsigned (taken : s.takeMsg .field 0x20 = some (p, v)) (can : v.field.canSeal) :
    s.opSealReq false = v.takeLeaf.sealFails := by
  unfold State.opSealReq
  rw [taken]
  exact if_neg can.goes

theorem State.opSealReq_seals {n : Nat} (taken : s.takeMsg .field 0x20 = some (p, v)) (can : v.field.canSeal)
    (last : v.field.sealNo = some (BitVec.ofNat 64 n)) (small : n < 2 ^ 64) (run : v.field.sealRun = v.field.runNo) :
    s.opSealReq true =
      let b := v.sealBody p (n + 1)
      State.gloveSend { v.takeLeaf.drawn with field := { v.takeLeaf.field with
        sealRun := v.field.runNo, sealNo := some (BitVec.ofNat 64 (n + 1))
        sealEnd := some (BitVec.ofNat 64 (beAt p 88 8)), sealHead := slicePad p 0 32, sealHash := sha256 b } } .field 0x21
        (beBytes 4 0 ++ b ++ ecdsaSign v.field.sealKey (sha384 b) v.freeNext ++
          hssSign v.field.sealTree v.field.leaf b) := by
  unfold State.opSealReq
  rw [taken]
  dsimp only
  rw [if_neg can.goes, last]
  dsimp only
  rw [if_pos run, seal_number small]
  rfl

/-! R103, R388, R372, R73: answers, notices and reports. -/

theorem State.opSealRsp_returns (taken : s.takeMsg .host 0x21 = some (p, v))
    (open_ : (v.opSealReturn p).sql.runEnd = none) : s.opSealRsp = v.opSealReturn p := by
  unfold State.opSealRsp
  rw [taken]
  dsimp only
  rw [open_]

theorem State.opEventMsg_notes (taken : s.takeMsg .field 0x30 = some (p, v)) :
    s.opEventMsg = v.fieldEvent (beAt p 4 2) (beAt p 6 1) (beAt p 8 8) (p.drop 16) := by
  unfold State.opEventMsg
  rw [taken]

theorem State.opPowerRsp_notes (taken : s.takeMsg .field 0x41 = some (p, v)) :
    s.opPowerRsp = { v with field := { v.field with powerRes := beAt p 0 2 } } := by
  unfold State.opPowerRsp
  rw [taken]

theorem State.opTqrMsg_first (taken : s.takeMsg .field 0x60 = some (p, v)) (first : v.field.report = []) :
    s.opTqrMsg = { v with field := { v.field with report := p } } := by
  unfold State.opTqrMsg
  rw [taken]
  exact if_neg (by simp [first])

/-! R372, R395: power commands. -/

/-- R372: the main die answers a POWER message that it carries out. -/
def State.powerDone (s : State) : State := s.gloveSend .host 0x41 (beBytes 2 0 ++ List.replicate 6 0)

theorem State.opPower_domains (taken : s.takeMsg .host 0x40 = some (p, v)) (what : beAt p 0 1 = 0) :
    s.opPower = (v.switchDomains (v.target (BitVec.ofNat 96 (beAt p 4 12)) (v.powered 8))).powerDone := by
  unfold State.opPower
  rw [taken]
  dsimp only
  rw [what]
  rfl

theorem State.opPower_reset (taken : s.takeMsg .host 0x40 = some (p, v)) (what : beAt p 0 1 = 1) :
    s.opPower = v.powerDone.endRun false := by
  unfold State.opPower
  rw [taken]
  dsimp only
  rw [what]
  rfl

theorem State.opPower_down (taken : s.takeMsg .host 0x40 = some (p, v)) (what : beAt p 0 1 = 2) :
    s.opPower = v.powerDone.endRun true := by
  unfold State.opPower
  rw [taken]
  dsimp only
  rw [what]
  rfl

/-! R404, R405: the main die's image. -/

/-- R404: a chunk of the firmware that continues what has come, and does not end it, is kept. -/
theorem State.opImage_keeps (taken : s.takeMsg .host 0x50 = some (p, v)) (boots : v.pwr.fw = false)
    (firmware : beAt p 0 4 = 1) (follows : beAt p 4 4 = v.pwr.imgBuf.length)
    (more : beAt p 4 4 + (p.drop 16).length < beAt p 8 4) (fits : beAt p 8 4 ≤ 0x100000) :
    s.opImage = State.gloveSend { v with pwr := { v.pwr with imgBuf := v.pwr.imgBuf ++ p.drop 16 } } .host 0x51
      (beBytes 2 0 ++ [0, 0] ++ beBytes 4 (beAt p 4 4)) := by
  have continues : ¬ (beAt p 4 4 ≠ v.pwr.imgBuf.length || decide (beAt p 8 4 < beAt p 4 4 + (p.drop 16).length) ||
      decide (0x100000 < beAt p 8 4)) = true := by
    simp only [Bool.or_eq_true, decide_eq_true_eq]
    omega
  unfold State.opImage
  rw [taken]
  dsimp only
  rw [if_neg (by omega), if_neg (by simp [boots]), if_neg (by omega), if_neg continues,
    if_pos (by rw [List.length_append, ← follows]; exact more)]

theorem State.opImageRsp_accepted (taken : s.takeMsg .field 0x51 = some (p, v)) (accepted : beAt p 0 2 = 0) :
    s.opImageRsp = v := by
  unfold State.opImageRsp
  rw [taken]
  exact if_neg (by simp [accepted])

theorem State.opImageRsp_refused (taken : s.takeMsg .field 0x51 = some (p, v)) (refused : beAt p 0 2 ≠ 0)
    (boots : v.field.mainSt = 1) : s.opImageRsp = v.fallBackMain := by
  unfold State.opImageRsp
  rw [taken]
  exact if_pos (by simp [refused, boots])

/-- Settles O38: each command is its operation on the message that it takes. -/
theorem glovePayloadsComplete : Obligations.GlovePayloadsComplete := by
  refine ⟨?seals, ?fails, ?cannot, ?returned, ?notice, ?power, ?powered, ?chunk, ?answered, ?report⟩
  case seals =>
    intro s v dt n r u f g b w taken keys life leaf last small run
    refine congrArg (done s) ((State.opSealReq_seals taken ⟨keys, life, leaf⟩ last small run).trans ?_)
    rw [State.takeLeaf_eq]
    rfl
  case fails =>
    intro s v dt r u f g w taken keys life leaf
    refine congrArg (done s) ((State.opSealReq_unsigned taken ⟨keys, life, leaf⟩).trans ?_)
    rw [State.takeLeaf_eq]
    rfl
  case cannot =>
    intro s v dt signed r taken cannot
    exact congrArg (done s) (State.opSealReq_cannot taken cannot)
  case returned =>
    intro s v dt p taken open_
    exact congrArg (done s) (State.opSealRsp_returns taken open_)
  case notice =>
    intro s v dt p taken
    exact congrArg (done s) (State.opEventMsg_notes taken)
  case power =>
    intro s v dt p taken
    refine ⟨fun what => ?_, fun what => ?_, fun what => ?_⟩
    · exact congrArg (done s) (State.opPower_domains taken what)
    · exact congrArg (done s) (State.opPower_reset taken what)
    · exact congrArg (done s) (State.opPower_down taken what)
  case powered =>
    intro s v dt p taken
    exact congrArg (done s) (State.opPowerRsp_notes taken)
  case chunk =>
    intro s v dt p d taken boots firmware follows more fits
    exact congrArg (done s) (State.opImage_keeps taken boots firmware follows more fits)
  case answered =>
    intro s v dt p taken
    refine ⟨fun accepted => ?_, fun refused boots => ?_⟩
    · exact congrArg (done s) (State.opImageRsp_accepted taken accepted)
    · exact congrArg (done s) (State.opImageRsp_refused taken refused boots)
  case report =>
    intro s v dt p taken first
    exact congrArg (done s) (State.opTqrMsg_first taken first)

end Sys2Proof.Machine
end

section
/-! PROOFS. Presentation (chapter 4): the ways of a message that reaches the plinth; then the statement on the commands
that present. -/

namespace Sys2Proof.Machine

variable {s t : State} {m : Msg}

/-! R78 to R89: what presentation does with a message. -/

/-- R84: the token that a message holds is retired. -/
def State.tokenRetired (s : State) (m : Msg) : State :=
  match m.mac with
  | some c => if m.keep then s else s.retireToken c.val m.tag.raw.time
  | none => s

/-- R87, R94: a message on time is held, keyed and in order, with the engine that digests it. -/
def State.hold (s : State) (m : Msg) : State :=
  let e := s.takeEngine (s.stream m.stream.toNat).cls m.data.length
  let h : Held := { msg := m, key := s.keyOf m.tag, no := e.2.2.sql.nextNo, since := e.2.2.islandTime 38, skipped := e.1
                    engine := e.2.1 }
  { e.2.2 with sql := { e.2.2.sql with nextNo := e.2.2.sql.nextNo + 1 } }.modStream m.stream.toNat
    (fun x => { x with held := insertHeld h x.held })

/-- R80, R89: what follows for a message that waits for no overlap: unsequenced, late or held. -/
def State.keyed (s : State) (m : Msg) : State :=
  if !(s.stream m.stream.toNat).en || !s.isMember m (s.keyOf m.tag) then s.presentLate m true
  else if s.isLate m (s.keyOf m.tag) then s.presentLate m false
  else s.hold m

/-- R78: a message reaches the plinth, which has power, once its token is retired. -/
theorem State.present_on (on : (s.tokenRetired m).sqlOn = true) : s.present m =
    if (s.tokenRetired m).waitsOverlap m.tag then
      { s.tokenRetired m with sql := { (s.tokenRetired m).sql with overlap := (s.tokenRetired m).sql.overlap ++ [m] } }
    else (s.tokenRetired m).keyed m := by
  have powered : ¬ (!(s.tokenRetired m).sqlOn) = true := by simp [on]
  exact if_neg powered

theorem State.keyed_nonmember (off : (s.stream m.stream.toNat).en = false ∨ s.isMember m (s.keyOf m.tag) = false) :
    s.keyed m = s.presentLate m true := if_pos (by simpa using off)

theorem State.keyed_member (en : (s.stream m.stream.toNat).en = true) (member : s.isMember m (s.keyOf m.tag) = true) :
    s.keyed m = if s.isLate m (s.keyOf m.tag) then s.presentLate m false else s.hold m :=
  if_neg (by simp [en, member])

/-! R78: a message comes from the inbox. -/

theorem State.opPresent_inbox {l : List Msg} (first : s.sql.inbox = m :: l) :
    s.opPresent .inbox = State.present { s with sql := { s.sql with inbox := l } } m := by
  rw [State.opPresent, first]

/-- R78, R82: the message taken from the inbox goes its way by its stream, its source and its key. -/
theorem State.opPresent_keyed {l : List Msg} (first : s.sql.inbox = m :: l)
    (taken : State.tokenRetired { s with sql := { s.sql with inbox := l } } m = t) (on : t.sqlOn = true)
    (now : t.waitsOverlap m.tag = false) : s.opPresent .inbox = t.keyed m := by
  subst taken
  rw [State.opPresent_inbox first, State.present_on on, if_neg (by simp [now])]

/-- R82: the message taken from the inbox waits for the overlap's end. -/
theorem State.opPresent_waits {l : List Msg} (first : s.sql.inbox = m :: l)
    (taken : State.tokenRetired { s with sql := { s.sql with inbox := l } } m = t) (on : t.sqlOn = true)
    (waits : t.waitsOverlap m.tag = true) :
    s.opPresent .inbox = { t with sql := { t.sql with overlap := t.sql.overlap ++ [m] } } := by
  subst taken
  rw [State.opPresent_inbox first, State.present_on on, if_pos waits]

/-- R84: a powered port that holds no message advances its thread source's safe time. -/
theorem State.opHeartbeat_idle {c : Nat} (idle : s.portOldest c = none) (on : s.powered (71 + c) = true) :
    s.opHeartbeat c = { s with sql := { s.sql with
      beat := Map.set s.sql.beat c (BitVec.ofNat 64 (s.repTime (30 + c))) 0 } } := if_pos (by simp [idle, on])

/-- Settles O8: the premises decide the message's way through presentation. -/
theorem presentationCompletes : Obligations.PresentationCompletes := by
  refine ⟨?held, ?nonmember, ?late, ?overlap, ?port, ?heartbeat⟩
  case held =>
    intro s dt m l u v w first on now en member early
    refine congrArg (done s) ((State.opPresent_keyed first rfl on now).trans ?_)
    exact (State.keyed_member en member).trans (if_neg (by simp [early]))
  case nonmember =>
    intro s dt m l u v w first on now off
    exact congrArg (done s) ((State.opPresent_keyed first rfl on now).trans (State.keyed_nonmember off))
  case late =>
    intro s dt m l u v w first on now en member late
    refine congrArg (done s) ((State.opPresent_keyed first rfl on now).trans ?_)
    exact (State.keyed_member en member).trans (if_pos late)
  case overlap =>
    intro s dt m l u v w first on waits
    exact congrArg (done s) (State.opPresent_waits first rfl on waits)
  case port =>
    intro s dt k i
    rfl
  case heartbeat =>
    intro s dt k u idle on
    exact congrArg (done s) (State.opHeartbeat_idle idle on)

end Sys2Proof.Machine
end

section
/-! PROOFS. What the plinth does to its own state alone (chapter 4), with what it reports of it. -/

namespace Sys2Proof.Machine

variable {s t u : State}

/-! Reports and the end of a command leave the plinth as it was. -/

theorem Reports.sql (h : Reports s t) : t.sql = s.sql := by unfold Reports at h; rw [h]

@[simp] theorem State.ended_sql (s t : State) : (s.ended t).sql = t.sql := by
  obtain ⟨b, o, e⟩ := s.ended_parts t
  rw [e]

/-! The plinth's own work. -/

/-- Work of the plinth on its own state, which changes no other unit's: beside it there are reports alone. -/
def LedgerWork (s t : State) : Prop := Reports { s with sql := t.sql } t

namespace LedgerWork

theorem trans (h : LedgerWork s t) (k : LedgerWork t u) : LedgerWork s u := by
  unfold LedgerWork Reports at *
  rw [k, h]

theorem ite {p : Prop} [Decidable p] (h : LedgerWork s t) (k : LedgerWork s u) : LedgerWork s (if p then t else u) := by
  split
  · exact h
  · exact k

theorem rest (h : LedgerWork s t) : ({ t.rest with sql := {} } : State) = { s.rest with sql := {} } := by
  rw [Reports.rest h]
  rfl

end LedgerWork

theorem Reports.ledgerWork (h : Reports s t) : LedgerWork s t := by
  unfold LedgerWork
  rw [h.sql]
  exact h

theorem State.setSql_ledgerWork (s : State) (q : Sql) : LedgerWork s { s with sql := q } := rfl

end Sys2Proof.Machine
end

section
/-! PROOFS. Release (chapter 4): what the release of a message delivers, the expiry of the fetch bound and of the maximum
hold, and the rejoin of a laggard; then the statement on these commands. -/

namespace Sys2Proof.Machine

variable {s : State}

/-! R91, R298: the end of an entry leaves the deliveries. -/

theorem State.count_deliv (s : State) (a : Nat) : (s.count a).qim.deliv = s.qim.deliv :=
  congrArg Qim.deliv (s.count_reports a).qim

theorem State.staleGen_deliv (s : State) (owner : Option (BitVec 16)) :
    (s.staleGen owner).qim.deliv = s.qim.deliv := by
  unfold State.staleGen
  dsimp only
  split
  · exact s.count_deliv _
  · exact s.count_deliv _

theorem State.finishEntry_deliv (s : State) (r : EntryRef) (status : Byte) (f : Entry → Entry) :
    (s.finishEntry r status f).qim.deliv = s.qim.deliv := by
  unfold State.finishEntry
  split
  · exact s.staleGen_deliv _
  · rfl

/-- R91: a message is delivered to a queue, with its sequence number and its stamp. -/
theorem State.deliverMsg_deliv (s : State) (m : Msg) (queue seq flags : Nat) :
    ∃ d ∈ (s.deliverMsg m queue seq flags).qim.deliv,
      d.queue = queue ∧ d.detail = BitVec.ofNat 32 seq ∧ d.stamp = some m.tag.raw := by
  unfold State.deliverMsg
  dsimp only
  split
  · rw [State.finishEntry_deliv]
    exact ⟨_, List.mem_append_right _ (List.mem_singleton_self _), rfl, rfl, rfl⟩
  · exact ⟨_, List.mem_append_right _ (List.mem_singleton_self _), rfl, rfl, rfl⟩

/-! R87: release in order of key. -/

section
variable {n : Nat} {h : Held} {l : List Held} (first : (s.stream n).held = h :: l)
include first

theorem State.opRelease_free (free : s.blockers n h.key = []) (on : s.sqlOn = true) : s.opRelease n = s.releaseHead n := by
  rw [State.opRelease, first]
  exact if_pos (by simp [free, on])

/-- R87, R91: a message that its class can record is released to the main queue, with the next sequence number. -/
theorem State.releaseHead_deliv (may : (s.classOn (s.stream n).cls && !s.lenient (s.stream n).cls &&
    s.unrecordable (s.stream n).cls h.skipped) = false) :
    ∃ d ∈ (s.releaseHead n).qim.deliv, d.queue = (s.stream n).mainQ.toNat ∧
      d.detail = BitVec.ofNat 32 (s.stream n).nextSeq.toNat ∧ d.stamp = some h.msg.tag.raw := by
  unfold State.releaseHead
  dsimp only
  rw [first]
  dsimp only
  split
  case isTrue drops => exact absurd drops (ne_true_of_eq_false may)
  case isFalse => exact State.deliverMsg_deliv _ h.msg _ _ 0

end

/-! R85: the fetch bound. -/

/-- R85: an oldest doorbell that has held the safe time back for the bound is noted and counted. -/
theorem State.opFetchBound_noted {i b : Nat} (oldest : s.oldestBell i = some b)
    (passed : b + usec (s.mainNat 0xA150 2) < s.repTime 0)
    (fresh : s.sql.fetchExp.contains (i, BitVec.ofNat 64 b) = false) :
    Reports { s with sql := { s.sql with
      fetchExp := s.sql.fetchExp.filter (fun e => e.1 ≠ i) ++ [(i, BitVec.ofNat 64 b)] } } (s.opFetchBound i) := by
  unfold State.opFetchBound
  rw [oldest]
  dsimp only
  rw [if_pos (by rw [decide_eq_true passed, fresh]; rfl)]
  exact Reports.foldl _ (fun t n => t.count_reports (streamReg n 0x48)) _ _

/-! R88: the maximum hold, and the laggards that it excludes. -/

theorem State.opMaxHold_due {n k : Nat} {h : Held} (longest : longestHeld (s.stream n).held = some (h, k))
    (on : s.sqlOn = true) (due : s.islandDue 38 h.since (s.holdLimit n) = true) :
    s.opMaxHold n = (List.range (k + 1)).foldl (fun s _ => s.releaseHead n)
      ((s.blockers n h.key).foldl (fun s e => s.exclude n e) s) := by
  rw [State.opMaxHold, longest]
  exact if_pos (by simp [on, due])

/-- R88: a laggard whose safe time has passed the horizon, or whose stream has none, rejoins. -/
theorem State.opRejoin_passed {i : Nat} {w : Word × Word} (entry : Map.get s.sql.members i = some w)
    (lags : (s.stream (bits w.1.toNat 29 24)).laggards.contains i = true)
    (passed : ∀ k r, (s.stream (bits w.1.toNat 29 24)).horizon = some (k, r) → (k.toNat : Int) < s.safeTime w) :
    s.opRejoin i = (s.modStream (bits w.1.toNat 29 24) (fun x => { x with
      laggards := x.laggards.erase i })).laggardRecord (bits w.1.toNat 29 24) w.1 true := by
  rw [State.opRejoin, entry]
  cases ahead : (s.stream (bits w.1.toNat 29 24)).horizon with
  | none => exact if_pos (by rw [lags]; simp [ahead])
  | some p => exact if_pos (by rw [lags]; simp [ahead, passed p.1 p.2 ahead])

/-- Settles O9: the premises of each command decide its case, and what is released is delivered. -/
theorem releaseCompletes : Obligations.ReleaseCompletes := by
  refine ⟨?release, ?fetchBound, ?maxHold, ?rejoin⟩
  case release =>
    intro s dt n h l u first free on may
    have ran : exec (.messageRelease dt n) s = done s (u.releaseHead n.val) :=
      congrArg (done s) (State.opRelease_free first free on)
    obtain ⟨d, here, queue, seq, stamp⟩ := State.releaseHead_deliv first may
    exact ⟨ran, .of_op ran ⟨d, (s.ended_qim _).symm ▸ here, queue, seq, stamp⟩⟩
  case fetchBound =>
    intro s dt i b u oldest passed fresh
    have noted := State.opFetchBound_noted oldest passed fresh
    refine .of_op (t := u.opFetchBound i.toNat) rfl ⟨?_, ?_⟩
    · rw [s.ended_sql, noted.sql]
      exact List.mem_append_right _ (List.mem_singleton_self _)
    · rw [s.ended_rest]
      exact ((u.setSql_ledgerWork _).trans noted.ledgerWork).rest
  case maxHold =>
    intro s dt n h k u longest on due
    exact congrArg (done s) (State.opMaxHold_due longest on due)
  case rejoin =>
    intro s dt i w u n entry lags passed
    exact congrArg (done s) (State.opRejoin_passed entry lags passed)

end Sys2Proof.Machine
end

section
/-! PROOFS. The ledger's own commands (chapter 4): digests, gap records, the close of a block and of an epoch, and the
units that are written to the host; then the statement on these commands. -/

namespace Sys2Proof.Machine

variable {s v : State}

/-! R93, R94: a digest finishes. -/

/-- R93: the digest of a record that waits for it is put into the record. -/
theorem State.opDigest_record {idx : Nat} {e : RecWait} {d : List Byte} (waits : s.sql.recq[idx]? = some e)
    (data : e.data = some d) : s.opDigest idx =
      ({ s with sql := { s.sql with recq := s.sql.recq.set idx { e with
          record := splice e.record 40 ((sha256 d).take 20), data := none } } }.unloadEngine e.engine d.length).flush := by
  rw [State.opDigest, waits]
  dsimp only
  rw [data]

/-- R94: past the record queue's end, the digest of a message still held finishes. -/
theorem State.opDigest_held {idx n : Nat} {h : Held} (past : s.sql.recq[idx]? = none)
    (hashes : s.hashing[idx - s.sql.recq.length]? = some (n, h)) : s.opDigest idx = s.digestHeld n h := by
  rw [State.opDigest, past]
  dsimp only
  rw [hashes]

/-! R95: a pending gap record. -/

theorem State.opGapRecord_room {n : Nat} (stream : n ≠ 0) (on : s.sqlOn = true) (room : s.areaRoom 64 = true)
    (short : s.sql.recq.length < 65536) : s.opGapRecord n = s.putGap n :=
  (if_neg stream).trans (if_pos (by simp [on, room, short]))

/-! R98, R99: a block closes. -/

theorem State.areaEvent_reports (s was : State) : Reports s (s.areaEvent was) := .ite (s.setEvt_reports _ _ _) (.refl s)

theorem State.closeBlock_ledgerWork (s : State) (reason close : Nat) : LedgerWork s (s.closeBlock reason close) :=
  .ite (Reports.refl s).ledgerWork ((s.setSql_ledgerWork _).trans (State.areaEvent_reports _ s).ledgerWork)

/-- R98, R99: when the open block closes its header joins the chain, and the next block opens. -/
theorem State.closeBlock_chains (opened : s.sql.open_ = true) (reason close : Nat) :
    (s.closeBlock reason close).sql.block.number = s.sql.block.number + 1 ∧
      (s.closeBlock reason close).sql.chain = sha256 (s.blockHeader reason close) ∧
      (s.closeBlock reason close).sql.blockLast = some s.sql.block.number := by
  unfold State.closeBlock
  rw [if_neg (by simp [opened])]
  dsimp only
  rw [(State.areaEvent_reports _ s).sql]
  exact ⟨rfl, rfl, rfl⟩

/-- R98: the interval since the block opened has passed. -/
theorem State.opBlockInterval_due (on : s.sqlOn = true) (opened : s.sql.open_ = true)
    (due : s.islandDue 38 s.sql.block.openAt (usec s.sql.intervalUs) = true) :
    s.opBlockInterval = s.closeBlock 1 (s.repTime 38) := if_pos (by simp [on, opened, due])

/-! R103, R105: an epoch ends, and a seal is asked for. -/

/-- R103: asking for a seal changes the requests, and may send one across the glove. -/
theorem State.askSeal_parts (s : State) (end_ : BitVec 64) : ∃ p o,
    Reports { s with sql := { s.sql with pendSeal := p, sentSeal := o } } (s.askSeal end_) := by
  unfold State.askSeal State.sendSeal
  dsimp only
  split
  · exact ⟨_, _, State.gloveSend_host_reports _ _ _⟩
  · exact ⟨_, _, .refl _⟩

/-- R103: the block closes with reason epoch, and the epoch's end is noted. -/
def State.epochClosed (s : State) (e : Nat) : State :=
  { s.closeBlock 3 e with sql := { (s.closeBlock 3 e).sql with
      lastEpoch := BitVec.ofNat 64 e, epochMs := (s.closeBlock 3 e).mainNat 0xA110 3 } }

theorem State.epochClosed_ledgerWork (s : State) (e : Nat) : LedgerWork s (s.epochClosed e) :=
  (s.closeBlock_ledgerWork 3 e).trans (State.setSql_ledgerWork _ _)

/-- R103: a whole multiple of the epoch length past the last epoch's end closes the block and asks for its seal. -/
theorem State.opEpochEnd_multiple {e : Nat} (on : s.sqlOn = true) (opened : s.sql.open_ = true)
    (len : 0 < msec s.sql.epochMs) (multiple : s.repTime 38 / msec s.sql.epochMs * msec s.sql.epochMs = e)
    (past : s.sql.lastEpoch.toNat < e) : s.opEpochEnd = (s.epochClosed e).askSeal (BitVec.ofNat 64 e) := by
  unfold State.opEpochEnd
  dsimp only
  rw [if_neg (Nat.ne_of_gt len), multiple]
  exact if_pos (by simp [on, opened, past])

/-! R101: a unit is written to its buffer. -/

section
variable {e : Entry} {x : ExpUnit}
  (buffer : (s.queue (s.regBits sqlExpq 19 0)).ents.find? (fun e => e.st = .waiting) = some e)
  (oldest : s.sql.units[s.unitsOut]? = some x) (en : (s.getReg sqlExpq).getLsbD 31 = true)
  (kind : (s.queue (s.regBits sqlExpq 19 0)).kind = 6) (bme : s.bmeOn = true) (on : s.sqlOn = true)
include buffer oldest en kind bme on

/-- R101: a buffer too small for the unit is completed without it. -/
theorem State.opExport_small (small : leAt e.slots 16 4 < x.needs s.sql.recLimit) :
    s.opExport = s.modQueue (s.regBits sqlExpq 19 0) (fun y => { y with ents := y.ents.map (fun z =>
      if z.no = e.no then { z with st := .finished 7, cb := true, len := 0, detail := BitVec.ofNat 32 (x.kind * 2 ^ 24) }
      else z) }) := by
  unfold State.opExport
  dsimp only
  rw [buffer, oldest]
  dsimp only
  rw [if_neg (by simp [en, kind, bme, on]), if_pos small]

/-- R101: a unit that its buffer holds and that can be read is written and completed. -/
theorem State.opExport_written (fits : x.needs s.sql.recLimit ≤ leAt e.slots 16 4)
    (put : s.unitPut 1 none (leAt e.slots 8 8) x.bytes = (some true, v)) (good : v.unitBad x = false) :
    s.opExport = v.modQueue (s.regBits sqlExpq 19 0) (fun y => { y with ents := y.ents.map (fun z =>
      if z.no = e.no then { z with st := .finished 0, cb := true, len := x.bytes.length
                                   detail := BitVec.ofNat 32 (x.kind * 2 ^ 24) }
      else z) }) := by
  unfold State.opExport
  dsimp only
  rw [buffer, oldest]
  dsimp only
  rw [if_neg (by simp [en, kind, bme, on]), if_neg (Nat.not_lt.2 fits), put]
  dsimp only
  rw [if_neg (ne_true_of_eq_false good)]

end

/-- Settles O11: each command is its operation, whose case the premises decide; beside reports, the close of a block and
of an epoch change the plinth alone. -/
theorem ledgerCommandsComplete : Obligations.LedgerCommandsComplete := by
  refine ⟨?record, ?held, ?gap, ?interval, ?epoch, ?small, ?written⟩
  case record =>
    intro s dt idx e d u waits data
    exact congrArg (done s) (State.opDigest_record waits data)
  case held =>
    intro s dt idx n h u past hashes
    exact congrArg (done s) (State.opDigest_held past hashes)
  case gap =>
    intro s dt n u stream on room short
    exact congrArg (done s) (State.opGapRecord_room (Fin.val_ne_zero_iff.2 stream) on room short)
  case interval =>
    intro s dt u on opened due
    obtain ⟨number, chain, last⟩ := State.closeBlock_chains opened 1 (u.repTime 38)
    refine .of_op (congrArg (done s) (State.opBlockInterval_due on opened due)) ⟨?_, ?_, ?_, ?_⟩
    · exact (congrArg (fun q => q.block.number) (s.ended_sql _)).trans number
    · exact (congrArg Sql.chain (s.ended_sql _)).trans chain
    · exact (congrArg Sql.blockLast (s.ended_sql _)).trans last
    · rw [s.ended_rest]
      exact (u.closeBlock_ledgerWork 1 _).rest
  case epoch =>
    intro s dt u len e positive on opened past
    obtain ⟨-, chain, -⟩ := State.closeBlock_chains opened 3 e
    obtain ⟨p, o, asked⟩ := (u.epochClosed e).askSeal_parts (BitVec.ofNat 64 e)
    refine .of_op (congrArg (done s) (State.opEpochEnd_multiple on opened positive rfl past)) ⟨?_, ?_, ?_⟩
    · rw [s.ended_sql, asked.sql]
      rfl
    · rw [s.ended_sql, asked.sql]
      exact chain
    · rw [s.ended_rest]
      exact ((u.epochClosed_ledgerWork e).trans ((State.setSql_ledgerWork _ _).trans asked.ledgerWork)).rest
  case small =>
    intro s dt e x u q buffer oldest en kind bme on small
    exact congrArg (done s) (State.opExport_small buffer oldest en kind bme on small)
  case written =>
    intro s v dt e x u q buffer oldest en kind bme on fits put good
    exact congrArg (done s) (State.opExport_written buffer oldest en kind bme on fits put good)

end Sys2Proof.Machine
end

section
/-! PROOFS. Membership (chapter 4): the step notice on a table of streams that lists a stream twice. -/

namespace Sys2Proof.Machine

/-- A message held by stream 0. -/
def heldOnce : Held :=
  { msg := { stream := 0, src := 0, tag := {}, data := [] }, key := 0, no := 0, since := 0, skipped := false
    engine := none }

/-- A step waits to be handled, and the table of streams, which no canonical form binds, lists stream 0 twice. -/
def streamListedTwice : State :=
  { State.reset with
    pwr := { por := true, domains := BitVec.allOnes 96 }
    sql := { steps := [{ size := 0, first := 0, core := .A }]
             streams := [(0, { held := [heldOnce] }), (0, { held := [heldOnce] })] } }

/-- The release empties the first entry, which is then not listed, and the second entry's message stays held. -/
theorem streamListedTwice_holds : (streamListedTwice.opStepNotice.stream 0).held = [heldOnce] := by decide +kernel

/-- Refutes O10: in a state that lists stream 0 twice, a step notice (R83) releases what the first entry holds. The entry
then equals what an unlisted stream reads as and leaves the table, and what the second entry holds stays held. -/
theorem not_membershipCompletes : ¬ Obligations.MembershipCompletes := by
  rintro ⟨notice, -⟩
  obtain ⟨t, ran, -, -, -, -, released, -⟩ := notice streamListedTwice 0 _ [] rfl (by decide +kernel)
  have ends : streamListedTwice.ended streamListedTwice.opStepNotice = t := Host.Outcome.next.inj ran
  have empty : (streamListedTwice.opStepNotice.stream 0).held = [] := by
    have left := released 0 (by decide)
    rw [← ends] at left
    simpa [State.stream] using left
  exact List.cons_ne_nil _ _ (streamListedTwice_holds.symm.trans empty)

end Sys2Proof.Machine
end

section
/-! PROOFS. Gates and transmit stamp reports (chapter 5): the activation time of a gate list, its commit, and what the
end of a command leaves of the ports. -/

namespace Sys2Proof.Machine

@[simp] theorem State.ended_prt (s t : State) : (s.ended t).prt = t.prt := by
  obtain ⟨b, o, e⟩ := s.ended_parts t
  rw [e]

@[simp] theorem State.ended_mac (s t : State) (m : Nat) : (s.ended t).mac m = t.mac m := by
  unfold State.mac
  rw [s.ended_prt]

theorem Reports.mac {s t : State} (h : Reports s t) (m : Nat) : t.mac m = s.mac m := by
  unfold Reports at h
  rw [h]
  rfl

/-- R128: the first time at or after a bound at which a cycle of a list starts, counted from its base time. -/
def GateList.startFrom (l : GateList) (bound : Nat) : Nat :=
  if bound ≤ l.base.toNat then l.base.toNat
  else l.base.toNat + (bound - l.base.toNat + 4 * l.cycle - 1) / (4 * l.cycle) * (4 * l.cycle)

variable {s : State} {m : Nat} {v : Word}

/-- R128: a staged list within its bounds, whose activation time is near enough, waits for that time. -/
theorem State.opGateCommit_waits (taken : s.cmdTaken (macReg m 0x218) = true) (idle : (s.mac m).gateWait = none)
    (commit : v.getLsbD 0 = true) (least : 1 ≤ s.regBits (macReg m 0x204) 8 0)
    (most : s.regBits (macReg m 0x204) 8 0 ≤ 256) (long : 1000 ≤ (s.stagedGates m).cycle)
    (short : (s.stagedGates m).cycle ≤ 1000000000) (lasting : ∀ e ∈ (s.stagedGates m).entries, e.2 ≠ 0)
    (near : (s.stagedGates m).startFrom (s.repTime (3 + m) + usec 10) ≤ s.repTime (3 + m) + secs 60) :
    s.opGateCommit m v = s.modMac m (fun x => { x with
      gateStat := 0
      gateWait := some { s.stagedGates m with
        base := BitVec.ofNat 64 ((s.stagedGates m).startFrom (s.repTime (3 + m) + usec 10)) } }) := by
  have timed : (s.stagedGates m).entries.any (fun e => e.2 = 0) = false := by simpa using lasting
  unfold State.opGateCommit
  rw [idle, Option.isSome_none, s.onCmd_taken _ taken, if_neg (by simp [commit])]
  dsimp only
  rw [timed, if_neg (by simp; omega)]
  exact if_neg (Nat.not_lt.2 near)

/-- R128: a waiting list becomes active once its activation time is reached. -/
theorem State.opGateActivate_reached {l : GateList} (waits : (s.mac m).gateWait = some l)
    (reached : l.base.toNat ≤ s.repTime (3 + m)) :
    s.opGateActivate m = s.modMac m (fun c => { c with gates := l, gateWait := none }) := by
  unfold State.opGateActivate
  rw [waits]
  exact if_pos reached

/-- Settles O14: a commit within its bounds waits at its MAC alone, and the two others are their operation's one case. -/
theorem gateCommandsComplete : Obligations.GateCommandsComplete := by
  refine ⟨?next, ?commit, ?active⟩
  case next =>
    intro s m v taken remove
    exact congrArg (done s) ((s.onCmd_taken _ taken).trans (if_pos remove))
  case commit =>
    intro s dt m v u l from_ ta taken idle commit least most long short lasting near
    have waits := State.opGateCommit_waits taken idle commit least most long short lasting near
    have kept := u.mac_modMac_ne m.val
      (fun x => { x with gateStat := 0, gateWait := some { l with base := BitVec.ofNat 64 ta } })
      (fun default => Option.some_ne_none _ (congrArg Mac.gateWait default))
    refine .of_op (congrArg (done s) waits) ⟨?_, ?_, ?_, ?_⟩
    · rw [s.ended_mac]
      exact congrArg Mac.gateStat kept
    · rw [s.ended_mac]
      exact congrArg Mac.gateWait kept
    · rw [s.ended_mac]
      exact (congrArg Mac.gates kept).trans rfl
    · rw [s.ended_rest]
      rfl
  case active =>
    intro s dt m l u waits reached
    exact congrArg (done s) (State.opGateActivate_reached waits reached)

end Sys2Proof.Machine
end

section
/-! PROOFS. Frames at the MACs (chapter 5): the rows of the table for a received frame, the pause frame that the refresh
interval sends, and the choice of the frame that a port hands to its MAC. -/

namespace Sys2Proof.Machine

variable {s : State} {m : Nat}

section
variable {w : List Byte} {sof : SofPos} {e : RxEnd}

/-- R117: a MAC that passes no frames ignores what arrives. -/
theorem State.opReceive_ignored (ignores : s.macEn m = false ∨ s.macPassing m = false) :
    s.opReceive m w sof e = s.stat (macReg m 0x420) := by
  unfold State.opReceive
  exact if_pos (by rcases ignores with h | h <;> simp [h])

variable (en : s.macEn m = true) (passing : s.macPassing m = true)
include en passing

/-- R117: a frame below 64 bytes is counted and refused. -/
theorem State.opReceive_short (short : w.length < 64) : s.opReceive m w sof e = s.count (macReg m 0x800) := by
  unfold State.opReceive
  dsimp only
  rw [if_neg (by simp [en, passing]), if_pos short]

variable (whole : 64 ≤ w.length)
include whole

/-- R118: a frame for which a buffer is refused goes no further. -/
theorem State.opReceive_refused {v : State}
    (refused : State.rxBuffers m (s.rxPrio m (w.take (w.length - 4)))
      ((min w.length (s.regBits (macReg m 8) 13 0) + 2047) / 2048) s [] = (none, v)) :
    s.opReceive m w sof e = v := by
  unfold State.opReceive
  dsimp only
  rw [if_neg (by simp [en, passing]), if_neg (Nat.not_lt.2 whole), refused]

/-- R117: a frame that has its buffers is refused for its length or its ending, consumed as a control frame, or passed. -/
theorem State.opReceive_buffered {v : State} {l : List Word} {f : List Byte} {prio holder : Nat}
    (body : w.take (w.length - 4) = f) (prior : s.rxPrio m f = prio)
    (pool : (if (s.getReg (macReg m 0x20)).getLsbD (8 + prio) then m else 16 + m) = holder)
    (given : State.rxBuffers m prio ((min w.length (s.regBits (macReg m 8) 13 0) + 2047) / 2048) s [] = (some l, v)) :
    s.opReceive m w sof e =
      if s.regBits (macReg m 8) 13 0 < w.length then (v.freeBufs holder l).count (macReg m 0x804)
      else if e ≠ .good then (v.freeBufs holder l).count (macReg m 0x808)
      else if beAt f 12 2 = 0x8808 then (v.freeBufs holder l).loadPause m f
      else v.passFrame m f sof prio holder l w.length := by
  unfold State.opReceive
  dsimp only
  rw [if_neg (by simp [en, passing]), if_neg (Nat.not_lt.2 whole), body, prior, given, pool]
  cases e <;> rfl

end

/-! R124, R125: pause. -/

/-- A MAC that owes no PFC frame is settled. -/
theorem State.settlePfc_none (unowed : (s.mac m).pfcOwed = none) : s.settlePfc m = s := by
  unfold State.settlePfc
  dsimp only
  rw [unowed]

/-- R125: a PFC frame leaves, and beside it only statistics change. -/
theorem State.emitPfc_reports (s : State) (m : Nat) (free : BitVec 8) : Reports s (s.emitPfc m free) := by
  unfold State.emitPfc
  dsimp only
  refine Reports.trans ?_ (Reports.foldl _ (fun t p => (t.stat_reports _).ite (.refl t)) _ _)
  split
  · exact s.emit_reports _
  · exact .refl s

/-- Statistics send nothing. -/
theorem State.foldl_stat_out (p : Nat → Bool) (a : Nat → Nat) (l : List Nat) (s : State) :
    (l.foldl (fun s k => if p k then s.stat (a k) else s) s).out = s.out := by
  induction l generalizing s with
  | nil => rfl
  | cons k l ih =>
    rw [List.foldl_cons, ih]
    split <;> rfl

/-- R125: the PFC frame that leaves enables the priorities in XOFF and those it releases. -/
theorem State.emitPfc_out (s : State) (m : Fin 16) (free : BitVec 8) :
    (s.emitPfc m.val free).out =
      s.out ++ [.pfcFrame m (s.pfcBytes m.val (s.xoff m.val ||| free) (s.xoff m.val))] := by
  unfold State.emitPfc
  dsimp only
  rw [State.foldl_stat_out, dif_pos m.isLt]
  rfl

/-- R125: what a PFC frame that starts at a clock leaves in its MAC. -/
def State.pfcStarted (s : State) (m t : Nat) (c : Mac) : Mac :=
  { c with pfcOwed := none, pfcAt := t, pfcEnd := t + s.wireTime m 84, pfcXoff := s.xoff m }

/-- R125: the start of a PFC frame is noted in a MAC whose link is up, which is no unlisted one. -/
theorem State.mac_pfcStarted (link : (s.mac m).link = true) (t : Nat) :
    (s.modMac m (s.pfcStarted m t)).mac m = s.pfcStarted m t (s.mac m) :=
  s.mac_modMac_ne m _ (fun default => Bool.false_ne_true ((congrArg Mac.link default).symm.trans link))

/-- R125: the start of a PFC frame leaves the priorities in XOFF. -/
theorem State.xoff_pfcStarted (link : (s.mac m).link = true) (t : Nat) :
    (s.modMac m (s.pfcStarted m t)).xoff m = s.xoff m := by
  unfold State.xoff
  rw [State.mac_pfcStarted link]
  rfl

/-- R125: the refresh interval has passed: a MAC that sends nothing starts its PFC frame now. -/
theorem State.opPfcRefresh_starts (xoff : s.xoff m ≠ 0)
    (due : s.due (s.mac m).pfcAt (4 * s.regBits (macReg m 0x24) 23 0) = true) (link : (s.mac m).link = true)
    (en : s.macEn m = true) (unowed : (s.mac m).pfcOwed = none) (idle : (s.mac m).sendsTill ≤ s.clock) :
    s.opPfcRefresh m = (s.modMac m (s.pfcStarted m s.clock)).emitPfc m 0 := by
  have sends : s.sendPfc m 0 = s.startPfc m 0 s.clock := by
    unfold State.sendPfc
    rw [if_neg (by simp [link, en]), State.settlePfc_none unowed]
    exact if_neg (Nat.not_lt.2 idle)
  unfold State.opPfcRefresh
  rw [State.settlePfc_none unowed]
  exact (if_pos (by simpa [due] using xoff)).trans sends

/-! R242: the choice of a class. -/

/-- R242: classes that cannot send are passed over. -/
theorem State.chooseClass_append {l : List Nat} (idle : ∀ h ∈ l, s.sendable m h = false) (rest : List Nat) :
    State.chooseClass m (l ++ rest) s = State.chooseClass m rest s := by
  induction l with
  | nil => rfl
  | cons h l ih =>
    obtain ⟨head, tail⟩ := List.forall_mem_cons.1 idle
    exact (if_pos (by simp [head])).trans (ih tail)

/-- R123, R242: the first frame of a leaf may start: the leaf is urgent, or the frame fits the open budget of its class. -/
def State.mayStart (s : State) (m c leaf : Nat) : Bool :=
  (s.node 0 leaf).urgent || (match s.openBudget m c with
    | some b => decide (s.wireLen m leaf ≤ b)
    | none => true)

/-- R242: a class with an open gate sends the leaf picked before its head, or its head when it may start, or leaves the
turn to the classes below it. -/
def State.sendPicked (m c head : Nat) (below : List Nat) (picked : Option Nat × State) : State :=
  match picked.1 with
  | some leaf => picked.2.dequeue m (8 * m + c) leaf
  | none =>
    if picked.2.mayStart m c head then picked.2.dequeue m (8 * m + c) head else State.chooseClass m below picked.2

section
variable {c leaf since : Nat} (sendable : s.sendable m c = true) (shaped : s.clsShaped (8 * m + c) = false)
  (opened : (s.gates m).getLsbD c = true) (head : Map.get s.tmg.head (8 * m + c) = some (leaf, since))
include sendable shaped opened head

/-- R242: of a class that can send, whose gate is open and which has a head, an urgent leaf is picked only while that head
may not start. -/
theorem State.chooseClass_opened (below : List Nat) : State.chooseClass m (c :: below) s =
    State.sendPicked m c leaf below (if !s.mayStart m c leaf then s.pickClass (8 * m + c) true else (none, s)) := by
  refine (if_neg (by simp [sendable, shaped])).trans ?_
  rw [opened, head]
  rfl

/-- R242: a head that is urgent, or whose class has no open budget, is dequeued. -/
theorem State.chooseClass_head (fits : (s.node 0 leaf).urgent = true ∨ s.openBudget m c = none) (below : List Nat) :
    State.chooseClass m (c :: below) s = s.dequeue m (8 * m + c) leaf := by
  have starts : s.mayStart m c leaf = true := by
    unfold State.mayStart
    rcases fits with urgent | unlimited
    · rw [urgent, Bool.true_or]
    · rw [unlimited, Bool.or_true]
  rw [State.chooseClass_opened sendable shaped opened head, starts]
  exact if_pos starts

end

/-- R242: the classes of a port from 7 down are those above a class, the class, and those below it. -/
theorem classes_split (c : Fin 8) : ∃ above below, [7, 6, 5, 4, 3, 2, 1, 0] = above ++ c.val :: below ∧
    ∀ k ∈ above, ∃ h : Fin 8, c < h ∧ h.val = k :=
  ⟨[7, 6, 5, 4, 3, 2, 1, 0].take (7 - c.val), [7, 6, 5, 4, 3, 2, 1, 0].drop (8 - c.val), by decide +revert,
    by decide +revert⟩

/-- R242: a MAC with room in its store has its port choose a class. -/
theorem State.opMacRequest_chooses (room : s.storeRoom m = true) (there : s.macThere m = true)
    (shaped : s.prtShaped m = false) : s.opMacRequest m = State.chooseClass m [7, 6, 5, 4, 3, 2, 1, 0] s := by
  unfold State.opMacRequest
  exact if_neg (by simp [room, there, shaped])

/-- R120, R130: a MAC that sends nothing sends the next frame of its store. -/
theorem State.opTransmit_sends {v : State} {i : Item} {l : List Item} (link : (s.mac m).link = true)
    (en : s.macEn m = true) (ended : (s.mac m).sendEnd ≤ s.clock) (settled : (s.settleSend m).settlePfc m = v)
    (idle : (v.mac m).sendsTill ≤ v.clock) (next : nextFrame (v.mac m).store (v.paused m) = some (i, l)) :
    s.opTransmit m = (v.modMac m (fun c => { c with store := l })).sendFrame m i := by
  unfold State.opTransmit
  dsimp only
  rw [if_neg (by simp [link, en, ended]), settled, if_neg (Nat.not_lt.2 idle), next]

/-- Settles O13: each command is its operation, whose row or case the premises decide; the frame of the refresh interval
changes its MAC and statistics alone. -/
theorem frameCommandsComplete : Obligations.FrameCommandsComplete := by
  refine ⟨?ignored, ?short, ?buffered, ?refused, ?expired, ?refresh, ?cleared, ?request, ?head, ?transmit⟩
  case ignored =>
    intro s dt m w p e u ignores
    exact congrArg (done s) (State.opReceive_ignored ignores)
  case short =>
    intro s dt m w p e u en passing short
    exact congrArg (done s) (State.opReceive_short en passing short)
  case buffered =>
    intro s v dt m w p e l u f prio max_ holder en passing whole given
    exact congrArg (done s) (State.opReceive_buffered en passing whole rfl rfl rfl given)
  case refused =>
    intro s v dt m w p e u en passing whole refused
    exact congrArg (done s) (State.opReceive_refused en passing whole refused)
  case expired =>
    intro s dt m p u run
    exact congrArg (done s) (if_neg (ne_true_of_eq_false run))
  case refresh =>
    intro s dt m u xoff due link en unowed idle
    have starts := State.opPfcRefresh_starts xoff due link en unowed idle
    have noted : (u.modMac m.val (u.pfcStarted m.val u.clock)).mac m.val = u.pfcStarted m.val u.clock (u.mac m.val) :=
      State.mac_pfcStarted link u.clock
    have reports := (u.modMac m.val (u.pfcStarted m.val u.clock)).emitPfc_reports m.val 0
    refine .of_op (congrArg (done s) starts) ⟨s.ended_out ?_, ?_, ?_⟩
    · rw [State.emitPfc_out, State.xoff_pfcStarted link, BitVec.ofNat_eq_ofNat, BitVec.or_zero]
      exact List.mem_append_right _ (List.mem_singleton_self _)
    · rw [s.ended_mac, reports.mac]
      exact congrArg Mac.pfcAt noted
    · rw [s.ended_rest, reports.rest]
      rfl
  case cleared =>
    intro s dt m u taken
    exact congrArg (done s) (u.onCmd_taken _ taken)
  case request =>
    intro s dt m u room there shaped
    exact congrArg (done s) (State.opMacRequest_chooses room there shaped)
  case head =>
    intro s dt m c leaf since u k room there shaped idle sendable unshaped opened head fits
    obtain ⟨above, below, classes, higher⟩ := classes_split c
    have passed : ∀ k ∈ above, u.sendable m.val k = false := by
      intro k listed
      obtain ⟨h, lower, rfl⟩ := higher k listed
      exact idle h lower
    have chosen : u.opMacRequest m.val = u.dequeue m.val k leaf := by
      rw [State.opMacRequest_chooses room there shaped, classes, State.chooseClass_append passed]
      exact State.chooseClass_head sendable unshaped opened head fits below
    exact congrArg (done s) chosen
  case transmit =>
    intro s dt m i l u v link en ended idle next
    exact congrArg (done s) (State.opTransmit_sends link en ended rfl idle next)

end Sys2Proof.Machine
end

section
/-! PROOFS. Links (chapter 5): a group's mode change on a table of MACs that lists a MAC twice. -/

namespace Sys2Proof.Machine

/-- Everything is powered, and the table of MACs, which no canonical form binds, lists MAC 0 twice with its link up. -/
def macListedTwice : State :=
  { State.reset with
    pwr := { por := true, domains := BitVec.allOnes 96 }
    prt := { macs := [(0, { link := true }), (0, { link := true })] } }

/-- R113: the mode change takes the first entry's link down, and the second entry's stays up. -/
theorem macListedTwice_link : ((macListedTwice.opGrpMode 0 0).mac 0).link = true := by decide +kernel

/-- Refutes O12: in a state that lists MAC 0 twice with its link up, a change of group 0's mode (R113) takes the link of the
first entry down. The entry then equals what an unlisted MAC reads as and leaves the table, and the second entry's link
stays up. -/
theorem not_linkCommandsComplete : ¬ Obligations.LinkCommandsComplete := by
  rintro ⟨mode, -⟩
  have taken : macListedTwice.cmdTaken (prtGrpMode 0) = true := by decide +kernel
  obtain ⟨t, ran, -, -, -, down, -⟩ := mode macListedTwice 0 0 taken (by decide +kernel) (by decide +kernel)
    (by decide +kernel) (by decide +kernel)
  have op := congrArg (done macListedTwice) (macListedTwice.onCmd_taken (fun s => s.opGrpMode 0 0) taken)
  have ends : macListedTwice.ended (macListedTwice.opGrpMode 0 0) = t := Host.Outcome.next.inj (op.symm.trans ran)
  have link : ((macListedTwice.opGrpMode 0 0).mac 0).link = false := by
    have left := down 0 (by decide)
    rwa [← ends, State.ended_mac] at left
  exact Bool.false_ne_true (link.symm.trans macListedTwice_link)

end Sys2Proof.Machine
end

section
/-! PROOFS. Items in the pipelines (chapter 6): what an item meets at intake, the answer to its lookup and the lookup's
timeout, and what its disposition makes of it at the exits; then the statement on these commands. -/

namespace Sys2Proof.Machine

variable {s v : State} {p : Nat} {i j k : Item}

/-! R138 to R140: intake. -/

/-- R140: what refuses an item is that the pipeline is disabled or has no program for it. -/
theorem ite_not_or (enabled bare : Bool) (refused entered : State) :
    (if (!enabled || bare) = true then refused else entered) =
      if enabled = true ∧ bare = false then entered else refused := by
  cases enabled <;> cases bare <;> rfl

/-- R138, R140: the item that a powered pipeline takes next passes as a copy, enters the program, or is refused. -/
theorem State.opIntake_next {x : Pipe} {w : State} (on : s.powered (49 + p) = true)
    (next : (s.pipe p).next s.clock = some (i, x))
    (taken : s.modPipe p (fun _ => x.pull) = v)
    (timed : (if i.pass then i else { i with
      swapT := if i.src < 2 ^ 16 ∧ i.tag.raw.bound ≠ 0xFFFF then i.tag.raw.time
               else BitVec.ofNat 64 (v.pipeTime p) }) = j)
    (item : ({ v.intakeFields p j with
      orig := j.frame, stage := 0, want := none, learn := [], stored := false, dropped := false } : Item) = k)
    (counted : v.stat (pipeReg p 0x100) = w) :
    s.opIntake p =
      if k.copy = true then w.modPipe p (fun y => { y with flight := y.flight ++ [{ k with stage := 16 }] })
      else if (w.getReg (pipeCfg p)).getLsbD 31 = true ∧ (w.pipe p).noProgram k.swapT = false then w.enterPipe p k
      else (w.count (pipeReg p 0x864)).dropItem k := by
  unfold State.opIntake
  rw [if_neg (by simp [on]), next]
  dsimp only
  simp only [Bool.and_eq_true, decide_eq_true_eq, taken, timed, counted]
  subst item
  exact ite_congr rfl (fun _ => rfl) (fun _ => ite_not_or _ _ _ _)

/-! R147: lookups. -/

/-- R147, R182: the lookup that an item waits for is answered by the table that its stage names. -/
theorem State.opLookup_wanted {idx target key : Nat} (wanted : s.fwtSettle.wanted p idx = some (target, key)) :
    s.opLookup p idx = s.fwtSettle.answerLookup p idx (s.fwtSettle.globalAnswer p target key) false := by
  unfold State.opLookup
  dsimp only
  rw [wanted]

/-- R147: a lookup without an answer after 2 µs is a miss. -/
theorem State.opLookupTimeout_due {idx : Nat} (there : (s.pipe p).flight[idx]? = some i) (waits : i.want ≠ none)
    (due : s.due i.wantAt (usec 2) = true) : s.opLookupTimeout p idx = s.answerLookup p idx none true := by
  unfold State.opLookupTimeout
  rw [there]
  exact if_pos (by simp [Option.isSome_iff_ne_none.2 waits, due])

/-! R153 to R156: exits. -/

/-- R154: the token that an item may give up at the exit is none of its metadata. -/
theorem State.exitToken_fld (s : State) (i : Item) (n : Nat) : (s.exitToken i).2.fld n = i.fld n := by
  unfold State.exitToken
  split <;> rfl

/-- R153, R154: an item that may leave an ingress pipeline is refused, waits for its policer, or goes on. -/
theorem State.opIngressExit_leaves (p : Fin 4) {m : State} {w : State × Item} (leaves : s.exitItem p.val = some i)
    (rules : fragRules i = j) (free : s.exitHeld p.val j = false)
    (left : ((s.leaveFlight p.val 0).storeFrag p.val j).learnAt p.val j = v)
    (mirrored : (if j.fld fVERDICT = 1 ∧ bit (j.fld fMIRROR) 6 = true then
      v.mirrorCopy p.val j j.orig (j.fld fMIRROR % 64) else v) = m)
    (counted : (m.countExit p.val j).exitToken j = w) :
    s.opIngressExit p.val =
      match refusedAt j with
      | some c => (m.count (pipeReg p.val c)).dropItem j
      | none =>
        if bit (j.fld fPOLICER) 18 = true ∧ w.2.second = false then
          { w.1 with tmg := { w.1.tmg with polIn := w.1.tmg.polIn ++ [(w.2, p)] } }
        else w.1.afterPolicer p.val w.2 := by
  have policed : w.2.fld fPOLICER = j.fld fPOLICER := counted ▸ (m.countExit p.val j).exitToken_fld j fPOLICER
  subst rules
  unfold State.opIngressExit
  rw [leaves]
  dsimp only
  rw [free, left]
  simp only [Bool.and_eq_true, decide_eq_true_eq, mirrored, counted, policed, Bool.not_eq_true',
    Bool.false_eq_true, if_false]
  cases refusedAt (fragRules i) with
  | some c => rfl
  | none => exact ite_congr rfl (fun _ => dif_pos p.isLt) (fun _ => rfl)

/-- R36: a statistic leaves the registers below it. -/
theorem State.getReg_stat_above (s : State) {a b : Nat} (h : b < a) : (s.stat a).getReg b = s.getReg b :=
  (State.getReg_setReg_other _ _ (by omega)).trans (State.getReg_setReg_other _ _ (by omega))

/-- R136, R169: the registers of the MACs lie below those of the pipelines. -/
theorem macReg_lt_pipeReg {m : Nat} (below : m < 16) (p off : Nat) : macReg m 0x100 < pipeReg p off := by
  unfold macReg pipeReg MAC0 PIPE0 PRT PCL
  omega

/-- R156: a frame that its MAC takes as it is, and that is no copy, is counted and handed to the MAC. -/
theorem State.opEgressExit_passes {e m : Nat} (leaves : s.exitItem (4 + e) = some i) (rules : fragRules i = j)
    (mac : i.fld fDEST % 16 = m) (left : (s.leaveFlight (4 + e) 0).storeFrag (4 + e) j = v) (frame : j.copy = false)
    (pass : j.fld fVERDICT = 0) (fits : j.frame.length + 4 ≤ v.regBits (macReg m 8) 13 0)
    (plain : v.protects m j.frame = false) :
    s.opEgressExit e = (v.stat (pipeReg (4 + e) 0x108)).txPass m j := by
  have below : m < 16 := mac ▸ Nat.mod_lt _ (by decide)
  have after : (v.stat (pipeReg (4 + e) 0x108)).protects m j.frame = false := by
    rw [State.protects, State.getReg_stat_above _ (macReg_lt_pipeReg below _ _)]
    exact plain
  subst rules
  unfold State.opEgressExit
  dsimp only
  rw [leaves]
  dsimp only
  rw [mac, frame, left, if_neg Bool.false_ne_true, if_neg (by simp [pass]), if_neg (Nat.not_lt.2 fits),
    if_neg (by simp [plain]), if_neg Bool.false_ne_true, if_neg (by simp [pass]), dif_pos below,
    if_neg (ne_true_of_eq_false after)]

/-- Settles O15: each command is its operation, whose case the premises decide. -/
theorem pipelineCommandsComplete : Obligations.PipelineCommandsComplete := by
  refine ⟨?intake, ?lookup, ?timeout, ?ingress, ?egress⟩
  case intake =>
    intro s dt p i x u v j k w on next
    exact congrArg (done s) (State.opIntake_next on next rfl rfl rfl rfl)
  case lookup =>
    intro s dt p idx target key u wanted
    exact congrArg (done s) (State.opLookup_wanted wanted)
  case timeout =>
    intro s dt p idx i u there waits due
    exact congrArg (done s) (State.opLookupTimeout_due there waits due)
  case ingress =>
    intro s dt p i u j v m w leaves free
    exact congrArg (done s) (State.opIngressExit_leaves p leaves rfl free rfl rfl rfl)
  case egress =>
    intro s dt e i u p j m v leaves frame pass fits plain
    exact congrArg (done s) (State.opEgressExit_passes leaves rfl rfl rfl frame pass fits plain)

end Sys2Proof.Machine
end

section
/-! PROOFS. Fragments (chapter 6): the end of a hold and of an entry's age; then the statement on these timers. -/

namespace Sys2Proof.Machine

variable {s : State} {p : Nat}

/-- R159: a fragment held for 1 ms goes to COPY_Q with reason 80h. -/
theorem State.opFragHold_passed {i j : Item} {x : Nat} {l : List (Item × Nat)} (held : (s.pipe p).early = (i, x) :: l)
    (passed : x + msec 1 ≤ s.repTime (19 + p))
    (copied : ((i.setFld fVERDICT 2).setFld fCOPYREASON 0x80).setFld fCOPYQ (s.regBits (pipeCfg p) 19 0) = j) :
    s.opFragHold p = (((s.modPipe p (fun y => { y with early := l })).count (pipeReg p 0x850)).stat
      (pipeReg p 0x118)).deliverItem p j (j.fld fCOPYQ) true := by
  subst copied
  unfold State.opFragHold
  rw [held]
  exact if_pos passed

/-- R160: an entry that has served no fragment for 2 s is removed. -/
theorem State.opFragAge_due {idx : Nat} {e : Frag} (there : (s.pipe p).frags[idx]? = some e)
    (due : s.due e.used (secs 2) = true) :
    s.opFragAge p idx = s.modPipe p (fun x => { x with frags := x.frags.eraseIdx idx }) := by
  unfold State.opFragAge
  rw [there]
  exact if_pos due

/-- Settles O16: each timer is its operation on the entry that the premises name, whose time has passed. -/
theorem fragmentTimersComplete : Obligations.FragmentTimersComplete := by
  refine ⟨?hold, ?age⟩
  case hold =>
    intro s dt p i x l u j held passed
    exact congrArg (done s) (State.opFragHold_passed held passed rfl)
  case age =>
    intro s dt p idx e u there due
    exact congrArg (done s) (State.opFragAge_due there due)

end Sys2Proof.Machine
end

section
/-! PROOFS. Banks (chapter 6): bank copies, the commit and the course of a swap, writes to the maquette banks and the
verification of a program; then the statement on these commands. -/

namespace Sys2Proof.Machine

variable {s : State} {p : Nat} {w : Swap}

/-! R161: bank copies. -/

theorem State.opBankCopy_starts {v : Word} (taken : s.cmdTaken (pipeReg p 0x38) = true)
    (idle : (s.pipe p).busy = false) (start : v.getLsbD 0 = true) :
    s.opBankCopy p v = s.modPipe p (fun x => { x with copying := some (BitVec.ofNat 16 (bits v.toNat 16 1)) }) := by
  rw [State.opBankCopy, idle, s.onCmd_taken _ taken]
  exact if_pos start

/-- R161: a copy that finishes puts the cells of the stages it names into the staged banks. -/
theorem State.opBankCopyDone_copying {m : BitVec 16} (copying : (s.pipe p).copying = some m) :
    s.opBankCopyDone p = s.modPipe p (fun x => { x with
      copying := none, staged := bankTake x.staged x.active (maskRange x.active m.toNat) }) := by
  rw [State.opBankCopyDone, copying]

/-! R163: commits. -/

/-- R163 STATUS 1: an activation time less than 10 µs ahead is refused. -/
theorem State.commitSwap_early (early : (s.getReg64 (pipeReg p 0x10)).toNat < s.pipeTime p + usec 10) :
    s.commitSwap p = (s.modPipe p (fun x => { x with swapStat := 1 })).pclEvent p := by
  unfold State.commitSwap
  dsimp only
  rw [if_pos early]
  rfl

/-- R163: the swap of a whole program that is VERIFIED is armed for a time from 10 µs to 60 s ahead. -/
theorem State.commitSwap_arms (least : s.pipeTime p + usec 10 ≤ (s.getReg64 (pipeReg p 0x10)).toNat)
    (most : (s.getReg64 (pipeReg p 0x10)).toNat ≤ s.pipeTime p + secs 60)
    (whole : bit (s.regNat (pipeReg p 0x18)) 16 = true) (verified : (s.pipe p).verified = true) :
    s.commitSwap p = s.modPipe p (fun x => { x with
      swapStat := 0, swap := some { time := s.getReg64 (pipeReg p 0x10)
                                    mask := BitVec.ofNat 17 (s.regNat (pipeReg p 0x18)) } }) := by
  unfold State.commitSwap
  dsimp only
  rw [if_neg (Nat.not_lt.2 least), if_neg (Nat.not_lt.2 most), if_pos whole, verified]
  rfl

theorem State.opSwapCommit_commits {v : Word} (taken : s.cmdTaken (pipeReg p 0x28) = true)
    (idle : (s.pipe p).busy = false) (commit : v.getLsbD 0 = true) : s.opSwapCommit p v = s.commitSwap p := by
  rw [State.opSwapCommit, idle, s.onCmd_taken _ taken]
  exact if_pos commit

/-- R163: a word with the bit of one pipeline names that pipeline alone. -/
theorem filter_getLsbD_pow (p : Fin 8) :
    (List.range 8).filter (fun k => (BitVec.ofNat 32 (2 ^ p.val)).getLsbD k) = [p.val] := by decide +revert

/-- R163: PCL_SWAP_GO is the fold of the commits over the pipelines that it names. -/
theorem State.opSwapGo_named (s : State) (v : Word) :
    s.opSwapGo v = ((List.range 8).filter (fun k => v.getLsbD k)).foldl (fun s p =>
      if !s.powered (49 + p) then s.accErr errOff (PCL + 8)
      else if (s.pipe p).busy then s.accErr errBusy (PCL + 8)
      else s.commitSwap p) s := by
  rw [List.foldl_filter, State.opSwapGo]
  congr 1
  funext s p
  cases v.getLsbD p <;> rfl

/-- R163: PCL_SWAP_GO with the bit of one pipeline that is powered and not busy commits its swap. -/
theorem State.opSwapGo_one (p : Fin 8) (on : s.powered (49 + p.val) = true) (idle : (s.pipe p.val).busy = false) :
    s.opSwapGo (BitVec.ofNat 32 (2 ^ p.val)) = s.commitSwap p.val := by
  rw [State.opSwapGo_named, filter_getLsbD_pow, List.foldl_cons, List.foldl_nil, on, idle]
  rfl

/-! R164, R165: a swap takes its course. -/

theorem State.opSwapActivate_reached (waits : (s.pipe p).swap = some w) (reached : w.time.toNat ≤ s.pipeTime p) :
    s.opSwapActivate p = s.modPipe p (fun x => { x with swap := some { w with settling := true } }) := by
  rw [State.opSwapActivate, waits]
  exact if_pos reached

/-- R164 to R166: the banks that a swap exchanges: the whole program's, or those of the stages in its mask. -/
def Swap.exchange (w : Swap) (x : Pipe) : Pipe :=
  if w.mask.getLsbD 16 then
    { x with active := x.staged, staged := x.active, valid := true, stagedOk := x.valid, verified := x.valid }
  else
    { x with active := bankTake x.active x.staged (maskRange x.active w.mask.toNat)
             staged := bankTake x.staged x.active (maskRange x.active w.mask.toNat) }

/-- R164: a pipeline at the end of a swap's settle time: the banks are exchanged, and what is in flight keeps
the old ones. -/
def Swap.finish (w : Swap) (x : Pipe) : Pipe :=
  let y := w.exchange x
  { y with
    swap := none, swaps := y.swaps + 1, lastT := w.time, firstDue := !w.first
    olds := if y.flight.isEmpty then [] else y.olds ++ [⟨y.swaps, w.mask, w.time, x.active⟩] }

theorem State.opSwapSettle_ended (waits : (s.pipe p).swap = some w) (settling : w.settling = true)
    (passed : w.time.toNat + usec (s.regBits (pipeReg p 0x20) 9 0) ≤ s.pipeTime p) :
    s.opSwapSettle p = (s.modPipe p w.finish).pclEvent (8 + p) := by
  unfold State.opSwapSettle
  rw [waits]
  exact if_pos (by simp [settling, passed])

/-- R165, R166: what the swap of a whole program leaves. -/
theorem Swap.finish_whole (whole : w.mask.getLsbD 16 = true) : w.finish = fun x => { x with
    active := x.staged, staged := x.active, valid := true, stagedOk := x.valid, verified := x.valid
    swap := none, swaps := x.swaps + 1, lastT := w.time, firstDue := !w.first
    olds := if x.flight.isEmpty then [] else x.olds ++ [⟨x.swaps, w.mask, w.time, x.active⟩] } := by
  funext x
  rw [Swap.finish, Swap.exchange, if_pos whole]

/-- R165: what the swap of stages leaves. -/
theorem Swap.finish_stages (stages : w.mask.getLsbD 16 = false) : w.finish = fun x => { x with
    active := bankTake x.active x.staged (maskRange x.active w.mask.toNat)
    staged := bankTake x.staged x.active (maskRange x.active w.mask.toNat)
    swap := none, swaps := x.swaps + 1, lastT := w.time, firstDue := !w.first
    olds := if x.flight.isEmpty then [] else x.olds ++ [⟨x.swaps, w.mask, w.time, x.active⟩] } := by
  funext x
  rw [Swap.finish, Swap.exchange, if_neg (ne_true_of_eq_false stages)]

/-! R166, R167: staging and verification. -/

/-- R161, R167: a write to a maquette bank changes the staged bytes alone. -/
theorem State.opStaging_maquette {a o : Nat} {d : List Byte} (window : pclWindow a = some (p, o))
    (on : s.powered (49 + p) = true) (idle : (s.pipe p).busy = false) (bank : 0x9000 ≤ o) :
    s.opStaging a d = s.modPipe p (fun x => { x with
      staged := (d.zipIdx).foldl (fun b c =>
        Map.set (α := Byte) b (o + c.2) (c.1 &&& BitVec.ofNat 8 (windowMask (o + c.2))) 0) x.staged }) := by
  have outside : ¬ o < 0x9000 := Nat.not_lt.2 bank
  unfold State.opStaging
  rw [window]
  dsimp only
  rw [on, idle]
  simp only [outside, decide_false, Bool.not_true, Bool.false_and, Bool.false_eq_true, if_false]

/-- R166: while loads are allowed VERIFY reports what the check of the staged program finds. -/
theorem State.opLoadVerify_checks {v : Word} (taken : s.cmdTaken (pipeReg p 0x30) = true) (verify : v.getLsbD 0 = true)
    (allowed : s.mainBool 0x2060 1 = true) {r : Nat × Nat}
    (found : checkProgram (s.pipe p).staged (decide (4 ≤ p)) = r) :
    s.opLoadVerify p v = s.modPipe p (fun x => { x with loadStat := r.1, loadDet := r.2, verified := r.1 = 0 }) := by
  subst found
  rw [State.opLoadVerify, s.onCmd_taken _ taken, if_neg (by simp [verify])]
  exact if_neg (by simp [allowed])

/-- Settles O17: each command is its operation, whose case the premises decide; a swap's mask says which banks it
exchanges. -/
theorem bankCommandsComplete : Obligations.BankCommandsComplete := by
  refine ⟨?copy, ?copied, ?armed, ?early, ?go, ?reached, ?whole, ?stages, ?staging, ?verify⟩
  case copy =>
    intro s dt p v u taken idle start
    exact congrArg (done s) (State.opBankCopy_starts taken idle start)
  case copied =>
    intro s dt p m u copying
    exact congrArg (done s) (State.opBankCopyDone_copying copying)
  case armed =>
    intro s dt p v u t mask taken idle commit least most whole verified
    exact congrArg (done s)
      ((State.opSwapCommit_commits taken idle commit).trans (State.commitSwap_arms least most whole verified))
  case early =>
    intro s dt p v u taken idle commit early
    exact congrArg (done s) ((State.opSwapCommit_commits taken idle commit).trans (State.commitSwap_early early))
  case go =>
    intro s dt p u taken on idle
    exact congrArg (done s) ((u.onCmd_taken _ taken).trans (State.opSwapGo_one p on idle))
  case reached =>
    intro s dt p w u waits reached
    exact congrArg (done s) (State.opSwapActivate_reached waits reached)
  case whole =>
    intro s dt p w u waits settling whole passed
    have ended := State.opSwapSettle_ended waits settling passed
    rw [Swap.finish_whole whole] at ended
    exact congrArg (done s) ended
  case stages =>
    intro s dt p w u r waits settling stages passed
    have ended := State.opSwapSettle_ended waits settling passed
    rw [Swap.finish_stages stages] at ended
    exact congrArg (done s) ended
  case staging =>
    intro s a p o d window on idle bank
    exact congrArg (done s) (State.opStaging_maquette window on idle bank)
  case verify =>
    intro s p v r taken verify allowed
    exact congrArg (done s) (State.opLoadVerify_checks taken verify allowed rfl)

end Sys2Proof.Machine
end

section
/-! PROOFS. What work on the forwarding tables leaves of the other units and of the bytes of memory, and what the end of a
command leaves of the tables. -/

namespace Sys2Proof.Machine

variable {s t u : State}

theorem Reports.fwt (h : Reports s t) : t.fwt = s.fwt := by unfold Reports at h; rw [h]

@[simp] theorem State.ended_fwt (s t : State) : (s.ended t).fwt = t.fwt := t.intxUpdate_reports.fwt

@[simp] theorem State.ended_readByte (s t : State) (a : Nat) : (s.ended t).readByte a = t.readByte a :=
  t.intxUpdate_reports.readByte a

/-- Work on the tables, which changes no byte of memory and no other unit's state: beside it, poison goes where an entry is
written in full (R327), and there are reports. -/
def TableWork (s t : State) : Prop :=
  Reports { s with fwt := t.fwt, mem := { s.mem with poison := t.mem.poison, badCtx := t.mem.badCtx } } t

namespace TableWork

theorem trans (h : TableWork s t) (k : TableWork t u) : TableWork s u := by
  unfold TableWork Reports at *
  rw [k, h]

theorem rest (h : TableWork s t) : ({ t.rest with fwt := {}, mem := {} } : State) = { s.rest with fwt := {}, mem := {} } := by
  rw [Reports.rest h]
  rfl

theorem readByte (h : TableWork s t) (a : Nat) : t.readByte a = s.readByte a := Reports.readByte h a

end TableWork

theorem State.setFwt_tableWork (s : State) (f : Fwt) : TableWork s { s with fwt := f } := rfl

theorem State.stat_tableWork (s : State) (a : Nat) : TableWork s (s.stat a) := rfl

/-! R327: an entry written in full. -/

@[simp] theorem State.tableClean_fwt (s : State) (reg off n : Nat) : (s.tableClean reg off n).fwt = s.fwt := by
  unfold State.tableClean
  dsimp only
  split <;> split <;> rfl

theorem State.tableClean_tableWork (s : State) (reg off n : Nat) : TableWork s (s.tableClean reg off n) := by
  unfold State.tableClean
  dsimp only
  split <;> split <;> rfl

/-! R178: a slot written, with the counts that follow. -/

theorem State.lrnPut_tableWork (s : State) (k i : Nat) (e : BitVec 256) : TableWork s (s.lrnPut k i e) := by
  have counted : ∀ (v : State) (c up : Bool) (n : Nat), TableWork v (if c then v.countEp n up else v) := by
    intro v c up n
    cases c <;> rfl
  exact (((counted s _ false _).trans (counted _ _ true _)).trans (State.tableClean_tableWork _ _ _ _)).trans
    (State.setFwt_tableWork _ _)

theorem State.lrnPut_lrn (s : State) (k i : Nat) (e : BitVec 256) :
    (s.lrnPut k i e).fwt.lrn = Map.set s.fwt.lrn (lrnSlot k i) e 0 := by
  have counted : ∀ (v : State) (c up : Bool) (n : Nat), (if c then v.countEp n up else v).fwt.lrn = v.fwt.lrn := by
    intro v c up n
    cases c <;> rfl
  unfold State.lrnPut
  dsimp only
  rw [State.tableClean_fwt, counted, counted]

/-- R180: an entry that the sweeper removes is no longer listed. -/
theorem State.lrnPut_zero_lrn (s : State) (k i : Nat) :
    (s.lrnPut k i 0).fwt.lrn = Map.del s.fwt.lrn (lrnSlot k i) := by
  rw [State.lrnPut_lrn, Map.set, if_pos rfl]

end Sys2Proof.Machine
end

section
/-! PROOFS. Table commands (chapter 7): the zeroing that enabling a table starts, its end, learn requests, the sweeper's
removal of an entry, and the command register; then the statement on these commands. -/

namespace Sys2Proof

/-- A read of a key that a filter by keys keeps gives what it gave. -/
theorem Map.get_filter_kept {α : Type} (m : Map α) (p : Nat → Bool) {k : Nat} (kept : p k = true) :
    Map.get (m.filter (fun e => p e.1)) k = Map.get m k := by
  induction m with
  | nil => rfl
  | cons e m ih =>
    obtain ⟨j, v⟩ := e
    rw [List.filter_cons]
    by_cases same : j = k
    · simp only [same, kept, if_true, Map.get]
    · cases hj : p j <;> simp [Map.get, same, ih]

/-- A key that a filter by keys takes out is not there. -/
theorem Map.get_filter_out {α : Type} (m : Map α) (p : Nat → Bool) {k : Nat} (out : p k = false) :
    Map.get (m.filter (fun e => p e.1)) k = none := by
  induction m with
  | nil => rfl
  | cons e m ih =>
    obtain ⟨j, v⟩ := e
    rw [List.filter_cons]
    cases hj : p j with
    | false => exact ih
    | true =>
      have other : j ≠ k := fun same => Bool.false_ne_true (out.symm.trans (same ▸ hj))
      simp [Map.get, other, ih]

/-- Bits 3:0 of a word read the value that was put there. -/
theorem bits_putBits_low (n op : Nat) (fits : op < 16) : bits (BitVec.ofNat 32 (putBits n 3 0 op)).toNat 3 0 = op := by
  simp only [bits, putBits, BitVec.toNat_ofNat]
  omega

theorem getLsbD_or_pow (b : BitVec 5) {n : Nat} (below : n < 5) :
    (b ||| BitVec.ofNat 5 (2 ^ n)).getLsbD n = true := by
  rw [BitVec.getLsbD_or, BitVec.getLsbD_ofNat, Nat.testBit_two_pow_self, decide_eq_true below]
  exact Bool.or_true _

theorem getLsbD_and_not_pow (b : BitVec 5) (n : Nat) : (b &&& ~~~(BitVec.ofNat 5 (2 ^ n))).getLsbD n = false := by
  rw [BitVec.getLsbD_and, BitVec.getLsbD_not, BitVec.getLsbD_ofNat, Nat.testBit_two_pow_self]
  cases decide (n < 5) <;> exact Bool.and_false _

end Sys2Proof

namespace Sys2Proof.Machine

variable {s : State} {k : Nat} {v : Word}

/-! R172: the zeroing of a region. -/

theorem State.readByte_zeroRegion_outside (s : State) {base size a : Nat} (outside : a < base ∨ base + size ≤ a) :
    (s.zeroRegion base size).readByte a = s.readByte a :=
  congrArg (Option.getD · cellDefault)
    (Map.get_filter_kept s.mem.cells (fun c => !decide (base ≤ c ∧ c < base + size)) (by
      rw [decide_eq_false (by omega)]
      rfl))

/-- R172: a base register takes its base with EN, and its region of so many MiB is zeroed unless the tables are reduced. -/
def State.zeroTable (s : State) (a : Nat) (v : Word) (size : Nat) : State :=
  let w := s.setReg a (v &&& 0x80003FFF)
  if s.mem.reduced then w else w.zeroRegion (bits v.toNat 13 0 * 2 ^ 20) (size * 2 ^ 20)

theorem State.baseWrite_starts {a size : Nat} (off : (s.getReg a).getLsbD 31 = false) (en : v.getLsbD 31 = true) :
    s.baseWrite a v size = (true, s.zeroTable a v size) := by
  unfold State.baseWrite
  rw [off, en]
  rfl

theorem State.zeroTable_rest (s : State) (a : Nat) (v : Word) (size : Nat) :
    ({ (s.zeroTable a v size).rest with fwt := {}, mem := {} } : State) = { s.rest with fwt := {}, mem := {} } := by
  unfold State.zeroTable
  split <;> rfl

theorem State.readByte_zeroTable_outside (s : State) {r size a : Nat} {v : Word}
    (outside : a < bits v.toNat 13 0 * 2 ^ 20 ∨ (bits v.toNat 13 0 + size) * 2 ^ 20 ≤ a) :
    (s.zeroTable r v size).readByte a = s.readByte a := by
  rw [Nat.add_mul] at outside
  unfold State.zeroTable
  split
  · rfl
  · exact State.readByte_zeroRegion_outside _ outside

theorem State.opFwtBase_ep_starts (taken : s.fwtSettle.cmdTaken fwtEpBase = true)
    (off : (s.fwtSettle.getReg fwtEpBase).getLsbD 31 = false) (en : v.getLsbD 31 = true) :
    s.opFwtBase .ep v = { s.fwtSettle.zeroTable fwtEpBase v 64 with
      fwt := { s.fwtSettle.fwt with ep := [], count := [], init := s.fwtSettle.fwt.init ||| 1 } } := by
  unfold State.opFwtBase
  dsimp only
  rw [State.onCmd_taken _ _ taken]
  simp only [off, Bool.false_and, Bool.false_eq_true, if_false, State.baseWrite_starts off en, if_true]

theorem State.opFwtBase_lrn_starts {k : Fin 4} (taken : s.fwtSettle.cmdTaken (fwtLrnBase k.val) = true)
    (off : (s.fwtSettle.getReg (fwtLrnBase k.val)).getLsbD 31 = false) (en : v.getLsbD 31 = true) :
    s.opFwtBase (.lrn k) v = { s.fwtSettle.zeroTable (fwtLrnBase k.val) v 8 with
      fwt := { s.fwtSettle.fwt with
        lrn := s.fwtSettle.fwt.lrn.filter (fun e => e.1 / 2 ^ 20 ≠ k.val)
        sweep := Map.del s.fwtSettle.fwt.sweep k.val
        init := s.fwtSettle.fwt.init ||| BitVec.ofNat 5 (2 ^ (1 + k.val)) } } := by
  unfold State.opFwtBase
  dsimp only
  rw [State.onCmd_taken _ _ taken]
  simp only [off, Bool.false_and, Bool.false_eq_true, if_false, State.baseWrite_starts off en, if_true]

/-! R178: learning. -/

theorem State.opLearn_takes {r : LearnReq} {l : List LearnReq} (on : s.fwtSettle.lrnOn k = true)
    (oldest : Map.at_ s.fwtSettle.fwt.reqs k [] = r :: l) :
    s.opLearn k = { s.fwtSettle with
      fwt := { s.fwtSettle.fwt with reqs := Map.set s.fwtSettle.fwt.reqs k l [] } }.learn k r := by
  unfold State.opLearn
  dsimp only
  rw [on, oldest]
  rfl

/-! R180: the sweeper. -/

/-- R180: table k's next slot, with the start and the period of its pass. -/
def State.sweepAt (s : State) (k : Nat) (x : Nat × Nat × Nat) : State :=
  { s with fwt := { s.fwt with sweep := Map.put s.fwt.sweep k x } }

/-- R180: what a visit does to the entry of a slot. -/
def State.visitSlot (s : State) (k i : Nat) : State :=
  let e := s.lrnEntry k i
  if !lrnCounts e then s
  else if lrnHit e then s.lrnTouch k i false false
  else if lrnClear1 e then (s.lrnPut k i 0).stat (fwtStatAged k)
  else s.lrnTouch k i false true

/-- R180: an entry without a use since the visit that set CLEAR1 is removed, and counted. -/
theorem State.visitSlot_ages {i : Nat} (counts : lrnCounts (s.lrnEntry k i) = true)
    (unused : lrnHit (s.lrnEntry k i) = false) (marked : lrnClear1 (s.lrnEntry k i) = true) :
    s.visitSlot k i = (s.lrnPut k i 0).stat (fwtStatAged k) := by
  unfold State.visitSlot
  dsimp only
  rw [counts, unused, marked]
  rfl

/-- R180, R181: the sweeper visits a slot that is due while no learn request waits. -/
theorem State.opSweep_visits {u : State} {i start period st p : Nat} (rolled : s.fwtSettle.rollPass = u)
    (pass : u.fwt.pass = some (start, period)) (next : u.nextVisit k start period = (i, st, p)) (on : u.lrnOn k = true)
    (noReq : Map.at_ u.fwt.reqs k [] = []) (within : i < u.lrnCap) (due : st + msec p * i / u.lrnCap ≤ u.sweepTime) :
    s.opSweep k = ((u.sweepAt k (i, st, p)).visitSlot k i).sweepAt k (i + 1, st, p) := by
  have visits : (!u.lrnOn k || !(Map.at_ u.fwt.reqs k []).isEmpty || decide (u.lrnCap ≤ i) ||
      decide (u.sweepTime < st + msec p * i / u.lrnCap)) = false := by
    simp [on, noReq, within, due]
  unfold State.opSweep
  rw [rolled]
  dsimp only
  split
  · next noPass => exact absurd (pass.symm.trans noPass) (Option.some_ne_none _)
  · next present =>
    cases present.symm.trans pass
    rw [next]
    dsimp only
    rw [if_pos on]
    exact if_neg (ne_true_of_eq_false visits)

/-! R183, R185: table commands. -/

theorem State.fwtSettle_idle (idle : s.fwt.run = none) : s.fwtSettle = s := by
  unfold State.fwtSettle State.fwtReach
  rw [idle]

/-- R183: a command that finds the tables idle runs its operation. -/
theorem State.opFwt_runs {op : Nat} (taken : s.cmdTaken fwtCmd = true) (idle : s.fwt.run = none) (asks : op ≠ 0)
    (fits : op < 16) {w : Word} (word : BitVec.ofNat 32 (putBits v.toNat 3 0 op) = w) :
    s.opFwt op v = (s.setReg fwtCmd (w &&& 0x000F011F)).fwtRun op (bit w.toNat 4) (bit w.toNat 8) (bits w.toNat 19 16) := by
  have isOp : bits w.toNat 3 0 = op := word ▸ bits_putBits_low v.toNat op fits
  unfold State.opFwt State.opFwtCmd
  dsimp only
  rw [State.fwtSettle_idle idle, idle, word]
  exact (State.onCmd_taken _ _ taken).trans (by rw [isOp, if_neg asks])

/-- Settles O18: each command is its operation, whose case the premises decide; zeroing is confined to the table's region,
and the sweeper's work to its table. -/
theorem tableCommandsComplete : Obligations.TableCommandsComplete := by
  refine ⟨?enableEp, ?enableLrn, ?zeroed, ?learn, ?sweep, ?command⟩
  case enableEp =>
    intro s v u taken off en
    refine .of_op (congrArg (done s) (State.opFwtBase_ep_starts taken off en)) ?_
    rw [State.ended_fwt, State.ended_rest]
    refine ⟨rfl, rfl, rfl, rfl, u.zeroTable_rest fwtEpBase v 64, fun a outside => ?_⟩
    rw [State.ended_readByte]
    exact u.readByte_zeroTable_outside outside
  case enableLrn =>
    intro s k v u taken off en
    refine .of_op (congrArg (done s) (State.opFwtBase_lrn_starts taken off en)) ?_
    rw [State.ended_fwt, State.ended_rest]
    refine ⟨getLsbD_or_pow _ (by omega), rfl, fun i own => ?_, u.zeroTable_rest (fwtLrnBase k.val) v 8, fun a outside => ?_⟩
    · exact Map.get_filter_out u.fwt.lrn (fun j => decide (j / 2 ^ 20 ≠ k.val)) (decide_eq_false (not_not_intro own))
    · rw [State.ended_readByte]
      exact u.readByte_zeroTable_outside outside
  case zeroed =>
    intro s x
    refine .of_op rfl ?_
    rw [State.ended_fwt, State.ended_rest]
    refine ⟨?_, rfl, rfl, rfl⟩
    cases x with
    | ep => exact getLsbD_and_not_pow s.fwt.init 0
    | lrn k => exact getLsbD_and_not_pow s.fwt.init (1 + k.val)
  case learn =>
    intro s dt k r l u on oldest
    exact congrArg (done s) (State.opLearn_takes on oldest)
  case sweep =>
    intro s dt k i start period st p u pass next on noReq within due counts unused marked
    have removes := (State.opSweep_visits rfl pass next on noReq within due).trans
      (congrArg (State.sweepAt · k.val (i + 1, st, p)) (State.visitSlot_ages counts unused marked))
    refine .of_op (congrArg (done s) removes) ?_
    have work : TableWork u ((((u.sweepAt k.val (i, st, p)).lrnPut k.val i 0).stat
        (fwtStatAged k.val)).sweepAt k.val (i + 1, st, p)) :=
      (((u.setFwt_tableWork _).trans (State.lrnPut_tableWork _ k.val i 0)).trans (State.stat_tableWork _ _)).trans
        (State.setFwt_tableWork _ _)
    rw [State.ended_fwt, State.ended_rest]
    refine ⟨Map.get_put_same _ _ _, State.lrnPut_zero_lrn _ k.val i, work.rest, fun a => ?_⟩
    rw [State.ended_readByte]
    exact work.readByte a
  case command =>
    intro s v taken idle w f
    have runs : ∀ (u : State) (op : Nat), u.cmdTaken fwtCmd = true → u.fwt.run = none → op ≠ 0 → op < 16 →
        u.opFwt op v = f op u := fun u op taken idle asks fits => State.opFwt_runs taken idle asks fits rfl
    exact ⟨congrArg (done s) (runs s 1 taken idle (by decide) (by decide)),
      congrArg (done s) (runs s 2 taken idle (by decide) (by decide)),
      fun dt => congrArg (done s) (runs (s.advance dt) 3 taken idle (by decide) (by decide)),
      congrArg (done s) (runs s 4 taken idle (by decide) (by decide)),
      congrArg (done s) (runs s 5 taken idle (by decide) (by decide))⟩

end Sys2Proof.Machine
end

section
/-! PROOFS. What the work of the rewrite and cipher unit leaves: its own state at the end of a command, and the registers
that an event, a count or a notice does not touch. -/

namespace Sys2Proof.Machine

variable {s t : State}

theorem Reports.rwc (h : Reports s t) : t.rwc = s.rwc := by unfold Reports at h; rw [h]

theorem Reports.powered (h : Reports s t) (d : Nat) : t.powered d = s.powered d := by
  unfold State.powered; rw [h.pwr]

@[simp] theorem State.ended_rwc (s t : State) : (s.ended t).rwc = t.rwc := t.intxUpdate_reports.rwc

@[simp] theorem State.ended_getReg (s t : State) (a : Nat) : (s.ended t).getReg a = t.getReg a := by
  unfold State.getReg; rw [s.ended_regs]

@[simp] theorem State.tableClean_rwc (s : State) (reg off n : Nat) : (s.tableClean reg off n).rwc = s.rwc := by
  unfold State.tableClean
  dsimp only
  split <;> split <;> rfl

/-! R36: counts. -/

/-- R36: a statistic leaves the registers above its two words. -/
theorem State.getReg_stat_below (s : State) {a b : Nat} (h : a + 4 < b) : (s.stat a).getReg b = s.getReg b :=
  (State.getReg_setReg_other _ _ (by omega)).trans (State.getReg_setReg_other _ _ (by omega))

theorem State.getReg_count_other (s : State) {a b : Nat} (h : b ≠ a) : (s.count a).getReg b = s.getReg b := by
  unfold State.count State.countN
  dsimp only
  rw [if_neg Nat.one_ne_zero]
  split
  · exact s.getReg_setReg_other _ h
  · exact s.getReg_setReg_other 0xFFFFFFFF h

/-- R388: a notice may only be counted as lost. -/
theorem State.getReg_mainEvent_other (s : State) {b : Nat} (h : b ≠ glvEvtLost) (c u x : Nat) (d : List Byte) :
    (s.mainEvent c u x d).getReg b = s.getReg b := by
  unfold State.mainEvent
  dsimp only
  split
  · rfl
  · split
    · rfl
    · exact s.getReg_count_other h

/-! R271: events. -/

/-- R273: a vector that fires leaves the registers above the statistics of the endpoint. -/
theorem State.getReg_fireVector_above (s : State) (v : Nat) {b : Nat} (above : intrSent + 4 < b) :
    (s.fireVector v).getReg b = s.getReg b := by
  unfold State.fireVector
  split
  · have below : statTxTlp + 4 < b := Nat.lt_of_le_of_lt (by decide) above
    exact (State.getReg_stat_below _ below).trans (State.getReg_stat_below _ above)
  · split <;> rfl

/-- R271: an event register above the endpoint's statistics keeps its bits and takes those of the event. -/
theorem State.getReg_setEvt (s : State) {a : Nat} (v : Nat) {m : Word} (above : intrSent + 4 < a)
    (changes : s.getReg a ||| m ≠ porOf a) : (s.setEvt a v m).getReg a = s.getReg a ||| m := by
  have set := s.getReg_setReg_ne a changes
  unfold State.setEvt
  dsimp only
  split
  · exact set
  · split
    · exact set
    · exact (State.getReg_fireVector_above _ v above).trans set

theorem porOf_rwcEvt : porOf rwcEvt = 0 := by decide +kernel

/-- R212: the bit of an event of the unit stands in RWC_EVT. -/
theorem State.rwcEvent_sets (s : State) {b : Nat} (fits : b < 32) :
    ((s.rwcEvent b).getReg rwcEvt).getLsbD b = true := by
  have bit : (s.getReg rwcEvt ||| BitVec.ofNat 32 (2 ^ b)).getLsbD b = true := by
    rw [BitVec.getLsbD_or, BitVec.getLsbD_ofNat, Nat.testBit_two_pow_self, decide_eq_true fits]
    exact Bool.or_true _
  have changes : s.getReg rwcEvt ||| BitVec.ofNat 32 (2 ^ b) ≠ porOf rwcEvt := by
    rw [porOf_rwcEvt]
    intro none
    rw [none] at bit
    exact Bool.false_ne_true (BitVec.getLsbD_zero.symm.trans bit)
  rw [State.rwcEvent, State.getReg_setEvt s 9 (by decide) changes]
  exact bit

theorem State.rwcEvent_reports (s : State) (b : Nat) : Reports s (s.rwcEvent b) := s.setEvt_reports _ _ _

end Sys2Proof.Machine
end

section
/-! PROOFS. Cipher tables (chapter 8): the zeroing that enabling a region starts, the commands on security associations,
and the commands on templates; then the statement on these commands. -/

namespace Sys2Proof.Machine

variable {s : State} {v : Word} {n op : Nat}

/-! R188, R193: regions. -/

@[simp] theorem State.zeroTable_rwc (s : State) (a : Nat) (v : Word) (size : Nat) :
    (s.zeroTable a v size).rwc = s.rwc := by
  unfold State.zeroTable
  split <;> rfl

theorem State.zeroTable_setRwc_rest (s : State) (a : Nat) (v : Word) (size : Nat) (r : Rwc) :
    ({ ({ s.zeroTable a v size with rwc := r } : State).rest with rwc := {}, mem := {} } : State) =
      { s.rest with rwc := {}, mem := {} } := by
  unfold State.zeroTable
  split <;> rfl

theorem State.opRwcBase_tpl_starts (taken : s.cmdTaken rwcTplBase = true)
    (off : (s.getReg rwcTplBase).getLsbD 31 = false) (en : v.getLsbD 31 = true) :
    s.opRwcBase .tpl v = { s.zeroTable rwcTplBase v 8 with rwc := { s.rwc with tpl := [], initTpl := true } } := by
  unfold State.opRwcBase
  dsimp only
  rw [State.onCmd_taken _ _ taken]
  simp only [off, Bool.false_and, Bool.false_eq_true, if_false, State.baseWrite_starts off en, if_true,
    State.zeroTable_rwc]

theorem State.opRwcBase_sa_starts (taken : s.cmdTaken rwcSaBase = true)
    (off : (s.getReg rwcSaBase).getLsbD 31 = false) (en : v.getLsbD 31 = true) :
    s.opRwcBase .sa v = { s.zeroTable rwcSaBase v 128 with rwc := { s.rwc with sas := [], initSa := true } } := by
  unfold State.opRwcBase
  dsimp only
  rw [State.onCmd_taken _ _ taken]
  simp only [State.baseWrite_starts off en, if_true, State.zeroTable_rwc]

/-! R197: commands on security associations. -/

/-- R197: a command runs its operation on the state that holds its word. -/
theorem State.opSa_runs (taken : s.cmdTaken rwcSaCmd = true) (asks : op ≠ 0) (fits : op < 16) :
    s.opSa op v = (s.setReg rwcSaCmd (BitVec.ofNat 32 (putBits v.toNat 3 0 op) &&& 0xF)).saRun op := by
  unfold State.opSa State.opSaCmd
  rw [State.onCmd_taken _ _ taken]
  dsimp only
  rw [bits_putBits_low v.toNat op fits, if_neg asks]

/-- R195, R197: an SA's words as a WRITE leaves them: STATE is 0, and KEYED stays. -/
def Sa.written (a : Sa) (d : BitVec 512) : BitVec 512 :=
  BitVec.ofNat 512 (putBits (putBits d.toNat 23 22 0) 21 21 (if a.keyed then 1 else 0)) &&& saMask

section
variable (index : s.regBits rwcSaIndex 19 0 = n) (within : n < s.saCap) (on : s.saOn = true)
include index within

/-- R197: an OP that there is, on an SA that is there, passes the command's first check. -/
theorem State.saRun_there (asks : op ≠ 0) (has : op ≤ 4) :
    ¬ (op = 0 ∨ 4 < op ∨ s.saCap ≤ s.regBits rwcSaIndex 19 0) := by
  omega

include on

theorem State.saRun_read : s.saRun 1 = ((List.range 16).foldl (fun w k =>
    w.setReg (rwcSaData k) ((s.sa n).words.extractLsb' (32 * k) 32)) s).saStatus 0 := by
  subst index
  exact (if_neg (State.saRun_there rfl within (by decide) (by decide))).trans (if_neg (by simp [on]))

theorem State.saRun_write (good : badSa s.saData = false)
    (keyed : s.saData.getLsbD 31 = true → (s.sa n).keyed = true) :
    s.saRun 2 = ((s.modSa n (fun a => { a with words := (s.sa n).written s.saData })).tableClean rwcSaBase
      (128 * n) 128).saStatus 0 := by
  subst index
  calc s.saRun 2
      = _ := (if_neg (State.saRun_there rfl within (by decide) (by decide))).trans (if_neg (by simp [on]))
    _ = _ := if_neg (by simp [good])
    _ = _ := if_neg (by simpa using keyed)

theorem State.saRun_keyset (unused : (s.sa n).valid = false) :
    s.saRun 3 = (((List.range 16).foldl (fun x k => x.setReg (rwcKeyData k) 0)
      (s.modSa n (fun a => { (a.setField 21 21 1) with key := s.keyData, ivKey := s.freeNext }))).drawn).saStatus 0 := by
  subst index
  calc s.saRun 3
      = _ := (if_neg (State.saRun_there rfl within (by decide) (by decide))).trans (if_neg (by simp [on]))
    _ = _ := if_neg (by simp [unused])

theorem State.saRun_invalidate :
    s.saRun 4 = (s.modSa n (fun a => { ((a.setField 31 31 0).setField 21 21 0) with key := 0 })).saStatus 0 := by
  subst index
  exact (if_neg (State.saRun_there rfl within (by decide) (by decide))).trans (if_neg (by simp [on]))

end

/-! R188, R191: commands on templates. -/

/-- R212: a command runs its operation on the state that holds its word. -/
theorem State.opTpl_runs (taken : s.cmdTaken rwcTplCmd = true) (asks : op ≠ 0) (fits : op < 16) :
    s.opTpl op v = (s.setReg rwcTplCmd (BitVec.ofNat 32 (putBits v.toNat 3 0 op) &&& 0x1F)).tplRun op
      ((BitVec.ofNat 32 (putBits v.toNat 3 0 op)).getLsbD 4) := by
  unfold State.opTpl State.opTplCmd
  rw [State.onCmd_taken _ _ taken]
  dsimp only
  rw [bits_putBits_low v.toNat op fits, if_neg asks]

/-- R188, R191: a template that may be written takes the words of RWC_TPL_DATA, without their reserved bits. -/
theorem State.tplRun_write (index : n = s.regBits rwcTplIndex 15 0) (within : n < s.tplCap) (on : s.tplOn = true)
    (good : badTemplate (s.tplData.setWidth 1024) = false) :
    s.tplRun 2 false = ({ s.tableClean rwcTplBase (128 * n) 128 with rwc := { s.rwc with
      tpl := Map.set s.rwc.tpl n (s.tplData.setWidth 1024 &&& tplMask) 0 } }).tplStatus 0 := by
  subst index
  simp [State.tplRun, within, on, good]

/-- Settles O20: each command is its operation, whose case the premises decide; zeroing is confined to the region that is
enabled. -/
theorem cipherTablesComplete : Obligations.CipherTablesComplete := by
  refine ⟨?enableTpl, ?enableSa, ?zeroed, ?sa, ?tpl, ?write, ?expNext⟩
  case enableTpl =>
    intro s v taken off en
    refine .of_op (congrArg (done s) (State.opRwcBase_tpl_starts taken off en)) ?_
    rw [State.ended_rwc, State.ended_rest]
    refine ⟨rfl, rfl, rfl, s.zeroTable_setRwc_rest rwcTplBase v 8 _, fun a outside => ?_⟩
    rw [State.ended_readByte]
    exact s.readByte_zeroTable_outside outside
  case enableSa =>
    intro s v taken off en
    refine .of_op (congrArg (done s) (State.opRwcBase_sa_starts taken off en)) ?_
    rw [State.ended_rwc, State.ended_rest]
    refine ⟨rfl, rfl, rfl, s.zeroTable_setRwc_rest rwcSaBase v 128 _, fun a outside => ?_⟩
    rw [State.ended_readByte]
    exact s.readByte_zeroTable_outside outside
  case zeroed =>
    intro s
    exact ⟨rfl, rfl⟩
  case sa =>
    intro s v u n taken on within
    have runs (op : Nat) (asks : op ≠ 0) (fits : op < 16) : s.opSa op v = (u op).saRun op :=
      State.opSa_runs taken asks fits
    refine ⟨?_, fun good keyed => ?_, fun unused => ?_, ?_⟩
    · exact congrArg (done s) ((runs 1 (by decide) (by decide)).trans (State.saRun_read rfl (within 1) (on 1)))
    · exact congrArg (done s)
        ((runs 2 (by decide) (by decide)).trans (State.saRun_write rfl (within 2) (on 2) good keyed))
    · exact congrArg (done s)
        ((runs 3 (by decide) (by decide)).trans (State.saRun_keyset rfl (within 3) (on 3) unused))
    · exact congrArg (done s) ((runs 4 (by decide) (by decide)).trans (State.saRun_invalidate rfl (within 4) (on 4)))
  case tpl =>
    intro s v taken u o
    exact ⟨congrArg (done s) (State.opTpl_runs taken (by decide) (by decide)),
      congrArg (done s) (State.opTpl_runs taken (by decide) (by decide))⟩
  case write =>
    intro s n index within on good
    exact State.tplRun_write index within on good
  case expNext =>
    intro s v taken next
    exact congrArg (done s) ((s.onCmd_taken _ taken).trans (if_pos next))

end Sys2Proof.Machine
end

section
/-! PROOFS. Cipher items (chapter 8): the item that the unit takes from its input store, the end of a lookaside job, and
the time at which an SA expires; then the statement on these commands. -/

namespace Sys2Proof.Machine

variable {s : State}

/-! R187, R209: the oldest item. -/

/-- R187: what the unit does with an item at a point. -/
def State.rwcWork (s : State) (pt : RwcPoint) (i : Item) : State :=
  match pt with
  | .ingress p => s.rwcIngress p.val i
  | .macTx m => (s.rwcMacTx m.val i).txDone m.val
  | .macRx m => (s.rwcMacRx m.val i).rxDone m.val

/-- R209: the unit takes its oldest item once that is ready and nothing holds it. -/
theorem State.opRwcItem_works {pt : RwcPoint} {i : Item} {l : List (RwcPoint × Item)}
    (oldest : s.rwc.input = (pt, i) :: l)
    (ready : i.ready ≤ s.clock) (free : s.rwcHolds pt i = false) :
    s.opRwcItem = ({ s with rwc := { s.rwc with input := l } } : State).rwcWork pt i := by
  unfold State.opRwcItem
  rw [oldest]
  dsimp only
  rw [if_neg (by simp [ready, free])]
  cases pt <;> rfl

/-- R187: a VALID SA that suits its point and is not hard-expired serves it. -/
theorem State.saRefusal_none {n : Nat} {ok : Sa → Bool} (valid : s.saValid n = true) (suits : ok (s.sa n) = true)
    (live : (s.sa n).st ≠ 2) : s.saRefusal n ok = none := by
  unfold State.saRefusal
  rw [if_neg (by simp [valid, suits]), if_neg live]

/-- R201: a frame whose SA serves its MAC's transmit side joins the transmit store as its MACsec frame. -/
theorem State.rwcMacTx_protects {m n : Nat} {i : Item} (index : bits (i.fld fSA) 19 0 = n)
    (has : bit (i.fld fSA) 20 = true)
    (valid : s.saValid n = true) (kind : (s.sa n).kind = 2) (out : (s.sa n).dirIn = false) (live : (s.sa n).st ≠ 2) :
    s.rwcMacTx m i = ((s.useSeq n).statN rwcStatInline ((s.sa n).macsecOut i.frame).length).toStore m
      { i with frame := (s.sa n).macsecOut i.frame } := by
  subst index
  unfold State.rwcMacTx
  dsimp only
  rw [State.saRefusal_none valid (by simp [has, kind, out]) live]

/-! R203 to R206: lookaside jobs. -/

theorem State.sa_congr {t : State} (same : t.rwc = s.rwc) (n : Nat) : t.sa n = s.sa n := by
  unfold State.sa; rw [same]

theorem State.queue_congr {t : State} (same : t.qim = s.qim) (q : Nat) : t.queue q = s.queue q := by
  unfold State.queue; rw [same]

/-- R206: a job that asks for an HMAC places its tag and ends with OK, where its tag may be written. -/
theorem State.runJob_hmac {j : LaJob} {v : State} {a : Sa} {d tag : List Byte} {lane : Nat}
    (sa : s.sa (bits (leAt j.slots 12 4) 19 0) = a) (kind : a.kind = 9) (op : leAt j.slots 8 1 = 2)
    (made : (jobData a 2 [] (slicePad j.slots 48 16) d (leAt j.slots 9 1)).2 = tag)
    (ready : s.hostReady (s.queue j.queue).owner [(leAt j.slots 32 8, tag.length)] = (some true, v)) :
    s.runJob j d [] lane = ((v.statN rwcStatLa (bits (leAt j.slots 40 4) 23 0)).hostPut (s.queue j.queue).owner
      (leAt j.slots 32 8) tag).2.endJob j 0 (bits (leAt j.slots 40 4) 23 0) := by
  subst made
  unfold State.runJob
  simp [sa, kind, op, ready]

/-- R204: no SA of the inline kinds suits a job. -/
theorem opSuits_kind {kind op : Nat} (suits : opSuits kind op = true) : ¬ kind ≤ 2 := by
  intro inline
  rw [opSuits, if_neg (by omega), decide_eq_false (by omega)] at suits
  exact Bool.false_ne_true suits

/-- R204: a job's queue has not been reset since, and the SA that the job names serves it. -/
structure State.Serves (s : State) (j : LaJob) (a : Sa) : Prop where
  gen : s.queueGen j.queue = j.entry.gen
  sa : s.sa (bits (leAt j.slots 12 4) 19 0) = a
  valid : s.saValid (bits (leAt j.slots 12 4) 19 0) = true
  suits : opSuits a.kind (leAt j.slots 8 1) = true
  mine : (s.queue j.queue).owner.map (fun (x : BitVec 16) => x.toNat) = some a.instance_
  live : a.st ≠ 2

theorem State.pickLane_reports (s : State) : Reports s s.pickLane.2 := s.drawn_reports

/-- R207: a lane that takes items is a lane in service. -/
theorem State.lanes_of_free (free : s.freeLanes ≠ []) : s.lanes ≠ [] := by
  intro noLane
  exact free (by simp [State.freeLanes, noLane])

section
variable {src tagIn : ReadData} {ok : Bool} {j : LaJob} {l : List LaJob} {a : Sa} (oldest : s.rwc.jobs = j :: l)
include oldest

/-- R204: a job whose SA is not VALID ends with SA_INVALID. -/
theorem State.opJob_invalid (gen : s.queueGen j.queue = j.entry.gen)
    (invalid : s.saValid (bits (leAt j.slots 12 4) 19 0) = false) :
    s.opJob src tagIn ok = (s.count rwcSaInvalid).endJob j 3 0 := by
  unfold State.opJob
  rw [oldest]
  dsimp only
  rw [if_neg (not_not_intro gen), if_pos (by simp [invalid])]

/-- R204, R211: a job that its SA serves ends with NO_LANE while no lane is in service. -/
theorem State.opJob_noLane (served : s.Serves j a) (noLane : s.lanes = []) :
    s.opJob src tagIn ok = s.endJob j 5 0 := by
  obtain ⟨gen, rfl, valid, suits, mine, live⟩ := served
  unfold State.opJob
  rw [oldest]
  dsimp only
  rw [if_neg (not_not_intro gen), if_neg (by simp [valid, opSuits_kind suits, suits, mine]), if_neg live,
    if_pos (by simp [noLane])]

/-- R203, R206: an HMAC job that its SA and a lane serve reads its data, and places the tag of what it read. -/
theorem State.opJob_hmac {r v : State} {d tag : List Byte} {len : Nat} (served : s.Serves j a)
    (kind : a.kind = 9) (op : leAt j.slots 8 1 = 2) (least : 16 ≤ leAt j.slots 9 1) (most : leAt j.slots 9 1 ≤ 32)
    (asks : bits (leAt j.slots 40 4) 23 0 = len) (free : s.freeLanes ≠ []) (bme : s.bmeOn = true)
    (read : s.pickLane.2.readFor (s.queue j.queue).owner (leAt j.slots 16 8) len (.ok d) = (some (some d), r))
    (made : (jobData a 2 [] (slicePad j.slots 48 16) (slicePad d 0 len) (leAt j.slots 9 1)).2 = tag)
    (ready : r.hostReady (s.queue j.queue).owner [(leAt j.slots 32 8, tag.length)] = (some true, v)) :
    s.opJob (.ok d) tagIn true =
      ((v.statN rwcStatLa len).hostPut (s.queue j.queue).owner (leAt j.slots 32 8) tag).2.endJob j 0 len := by
  obtain ⟨gen, rfl, valid, suits, mine, live⟩ := served
  subst asks
  have after : Reports s r := by
    have reading := s.pickLane.2.readFor_reports (s.queue j.queue).owner (leAt j.slots 16 8)
      (bits (leAt j.slots 40 4) 23 0) (.ok d)
    rw [read] at reading
    exact s.pickLane_reports.trans reading
  have queue : r.queue j.queue = s.queue j.queue := State.queue_congr after.qim _
  have runs := fun lane => State.runJob_hmac (lane := lane) (State.sa_congr after.rwc _) kind op made (queue ▸ ready)
  rw [queue] at runs
  have length : tagLenOk 9 (leAt j.slots 9 1) = true := by simp [tagLenOk, least, most]
  unfold State.opJob
  rw [oldest]
  dsimp only
  rw [if_neg (not_not_intro gen), if_neg (by simp [valid, opSuits_kind suits, suits, mine]), if_neg live,
    if_neg (by simp [State.lanes_of_free free]), if_neg (by simp [free, bme]), if_neg (by simp [kind, length])]
  simp [kind, op, read, runs]

end

/-! R198: expiry. -/

/-- R198: an expiry is noted in the FIFO, or counted where that is full. -/
def State.noteExpiry (s : State) (e : SaExp) : State :=
  if s.rwc.exp.length < 256 then { s with rwc := { s.rwc with exp := s.rwc.exp ++ [e] } } else s.count rwcExpOvf

/-- R198: an SA that was not hard-expired becomes so, with its note and its event. -/
theorem State.setSaState_hard {n : Nat} (below : (s.sa n).st < 2) (byTime : Bool) :
    s.setSaState n 2 byTime = ((s.modSa n (fun a => a.setField 23 22 2)).noteExpiry
      { sa := BitVec.ofNat 20 n, hard := true, byTime := byTime }).rwcEvent 1 := by
  unfold State.setSaState
  rw [if_neg (Nat.not_le.2 below)]
  rfl

@[simp] theorem State.modSa_exp (s : State) (n : Nat) (f : Sa → Sa) : (s.modSa n f).rwc.exp = s.rwc.exp := rfl

/-- R198: a hard expiry leaves its event. -/
theorem State.setSaState_hard_event {n : Nat} (below : (s.sa n).st < 2) (byTime : Bool) :
    ((s.setSaState n 2 byTime).getReg rwcEvt).getLsbD 1 = true := by
  rw [State.setSaState_hard below]
  exact State.rwcEvent_sets _ (by decide)

/-- R198: a hard expiry leaves its note at the end of a FIFO that has room. -/
theorem State.setSaState_hard_exp {n : Nat} (below : (s.sa n).st < 2) (byTime : Bool) (room : s.rwc.exp.length < 256) :
    (s.setSaState n 2 byTime).rwc.exp = s.rwc.exp ++ [{ sa := BitVec.ofNat 20 n, hard := true, byTime := byTime }] := by
  rw [State.setSaState_hard below, (State.rwcEvent_reports _ 1).rwc, State.noteExpiry, State.modSa_exp, if_pos room]

/-- R198: an SA expires once replica 27 has reached its EXPIRE_T. -/
theorem State.opSaExpireTime_reached {n : Nat} (timed : (s.sa n).field 447 384 ≠ 0)
    (reached : (s.sa n).field 447 384 ≤ s.repTime 27) : s.opSaExpireTime n = s.setSaState n 2 true := by
  unfold State.opSaExpireTime
  dsimp only
  rw [if_pos (by simp [timed, reached])]

/-- Settles O19: each command is its operation, whose case the premises decide; what a job reads leaves its SA and its
queue, and an expiry ends with its note and its event. -/
theorem cipherItemsComplete : Obligations.CipherItemsComplete := by
  refine ⟨?ingress, ?macTx, ?macRx, ?invalid, ?noLane, ?hmac, ?expire⟩
  case ingress =>
    intro s dt p i l u v oldest ready free
    exact congrArg (done s) (State.opRwcItem_works oldest ready free)
  case macTx =>
    intro s dt m i l u v n oldest ready free has valid kind out live
    exact congrArg (done s) ((State.opRwcItem_works oldest ready free).trans
      (congrArg (State.txDone · m.val) (State.rwcMacTx_protects rfl has valid kind out live)))
  case macRx =>
    intro s dt m i l u v oldest ready free
    exact congrArg (done s) (State.opRwcItem_works oldest ready free)
  case invalid =>
    intro s dt src tagIn ok j l u oldest gen invalid
    exact congrArg (done s) (State.opJob_invalid oldest gen invalid)
  case noLane =>
    intro s dt src tagIn ok j l u n oldest gen valid _ suits mine live noLane
    exact congrArg (done s) (State.opJob_noLane oldest ⟨gen, rfl, valid, suits, mine, live⟩ noLane)
  case hmac =>
    intro s r v dt d tagIn j l u n len who tag oldest gen valid kind op least most mine live free bme read ready
    have suits : opSuits (u.sa n).kind (leAt j.slots 8 1) = true := by rw [kind, op]; rfl
    exact congrArg (done s) (State.opJob_hmac oldest ⟨gen, rfl, valid, suits, mine, live⟩ kind op least most rfl free
      bme read rfl ready)
  case expire =>
    intro s dt a u timed reached below
    have expires := State.opSaExpireTime_reached timed reached
    refine ⟨congrArg (done s) expires, .of_op (congrArg (done s) expires) ?_⟩
    rw [State.ended_getReg, State.ended_rwc]
    refine ⟨State.setSaState_hard_event below true, fun room => ?_⟩
    have noted := State.setSaState_hard_exp below true room
    rw [BitVec.ofNat_toNat, BitVec.setWidth_eq] at noted
    exact noted

end Sys2Proof.Machine
end

section
/-! PROOFS. Lane tests (chapter 8): what the result of a test leaves, and the tests that software asks for; then the
statement on these commands. -/

namespace Sys2Proof.Machine

variable {s : State}

/-! R210: the result of a test. -/

/-- R210: a lane that fails is fenced, and its failure is counted. -/
def Rwc.failed (r : Rwc) (l t : Nat) : Rwc :=
  { r with tested := Map.put r.tested l t, fenced := r.fenced ||| BitVec.ofNat 8 (2 ^ l), fails := r.fails + 1 }

theorem State.katResult_fails (s : State) (l : Nat) :
    Reports { s with rwc := s.rwc.failed l (s.repTime 27) } (s.katResult l false) :=
  ((State.rwcEvent_reports _ _).trans (State.count_reports _ _)).trans (State.mainEvent_reports _ _ _ _ _)

/-- R210: the event of a failure stands in RWC_EVT. -/
theorem State.katResult_event (s : State) {l : Nat} (lane : l < 8) :
    ((s.katResult l false).getReg rwcEvt).getLsbD (8 + l) = true := by
  have event : ((({ s with rwc := s.rwc.failed l (s.repTime 27) } : State).rwcEvent (8 + l)).getReg rwcEvt).getLsbD
      (8 + l) = true := State.rwcEvent_sets _ (by omega)
  rw [← State.getReg_count_other _ (show rwcEvt ≠ rwcKatFail by decide),
    ← State.getReg_mainEvent_other _ (show rwcEvt ≠ glvEvtLost by decide) 2 9 (s.repTime 27) [BitVec.ofNat 8 l]] at event
  exact event

theorem getLsbD_lane {l k : Nat} (lane : k < 8) : (BitVec.ofNat 8 (2 ^ l)).getLsbD k = decide (k = l) := by
  rw [BitVec.getLsbD_ofNat, Nat.testBit_two_pow, decide_eq_true lane, Bool.true_and]
  exact decide_eq_decide.2 eq_comm

/-- R210: a test changes the fence of its own lane alone: the lane is in service exactly when it passes. -/
theorem State.katResult_fenced (s : State) (l : Nat) (pass : Bool) {k : Nat} (lane : k < 8) :
    (s.katResult l pass).rwc.fenced.getLsbD k = if k = l then !pass else s.rwc.fenced.getLsbD k := by
  cases pass with
  | true =>
    show (s.rwc.fenced &&& ~~~(BitVec.ofNat 8 (2 ^ l))).getLsbD k = _
    rw [BitVec.getLsbD_and, BitVec.getLsbD_not, getLsbD_lane lane]
    by_cases same : k = l <;> simp [same, lane]
  | false =>
    rw [(s.katResult_fails l).rwc]
    show (s.rwc.fenced ||| BitVec.ofNat 8 (2 ^ l)).getLsbD k = _
    rw [BitVec.getLsbD_or, getLsbD_lane lane]
    by_cases same : k = l <;> simp [same]

theorem State.katResult_powered (s : State) (l : Nat) (pass : Bool) (d : Nat) :
    (s.katResult l pass).powered d = s.powered d := by
  cases pass with
  | true => rfl
  | false => exact (s.katResult_fails l).powered d

/-! R211: tests that software asks for. -/

/-- R211: the test of one lane, where it is named and powered. -/
def State.retest (v pass : Byte) (s : State) (l : Nat) : State :=
  if v.getLsbD l && s.powered (59 + l) then s.katResult l (pass.getLsbD l) else s

theorem State.opUnfence_retests (s : State) (v pass : Byte) :
    s.opUnfence v pass = (List.range 8).foldl (State.retest v pass) s :=
  rfl

theorem State.retest_powered (s : State) (v pass : Byte) (l d : Nat) : (s.retest v pass l).powered d = s.powered d := by
  unfold State.retest
  split
  · exact s.katResult_powered l _ d
  · rfl

theorem State.retest_fenced (s : State) (v pass : Byte) (l : Nat) {k : Nat} (lane : k < 8) :
    (s.retest v pass l).rwc.fenced.getLsbD k =
      if k = l ∧ v.getLsbD k = true ∧ s.powered (59 + k) = true then !pass.getLsbD k else s.rwc.fenced.getLsbD k := by
  unfold State.retest
  by_cases tests : (v.getLsbD l && s.powered (59 + l)) = true
  · rw [if_pos tests, s.katResult_fenced l _ lane]
    rw [Bool.and_eq_true] at tests
    by_cases same : k = l
    · subst same; simp [tests]
    · simp [same]
  · rw [if_neg tests]
    rw [Bool.and_eq_true] at tests
    exact (if_neg fun ⟨same, named⟩ => tests (same ▸ named)).symm

/-- R211: after the tests a lane that was tested is in service exactly when it passed, and the others are as they were. -/
theorem State.foldl_retest_fenced (v pass : Byte) {k : Nat} (lane : k < 8) (l : List Nat) (s : State) :
    (l.foldl (State.retest v pass) s).rwc.fenced.getLsbD k =
      if k ∈ l ∧ v.getLsbD k = true ∧ s.powered (59 + k) = true then !pass.getLsbD k else s.rwc.fenced.getLsbD k := by
  induction l generalizing s with
  | nil => simp
  | cons x l ih =>
    rw [List.foldl_cons, ih, State.retest_powered, s.retest_fenced v pass x lane]
    by_cases tested : v.getLsbD k = true ∧ s.powered (59 + k) = true
    · by_cases later : k ∈ l <;> simp [tested, later]
    · simp [tested]

/-- R211, R213: software may ask for tests at level 1 and above while the cipher unit is there. -/
theorem State.unfenceWrite_tests {lvl : Nat} {v pass : Byte} (level : 1 ≤ lvl) (runs : s.running = true)
    (glove : s.powered 95 = true) (peer : s.gloveH.peerUp = true) (unit : s.powered 57 = true ∨ s.powered 58 = true) :
    s.unfenceWrite lvl v pass = (0, s.opUnfence v pass) := by
  unfold State.unfenceWrite
  rw [if_neg (Nat.not_lt.2 level), if_neg (by rcases unit with on | on <;> simp [runs, glove, peer, on])]

/-- Settles O21: a test's result changes its own lane's fence; a test that fails is reported, and tests that software asks
for are taken lane by lane. -/
theorem laneTestsComplete : Obligations.LaneTestsComplete := by
  refine ⟨?slot, ?unfence⟩
  case slot =>
    intro s dt l u testing
    have ends (pass : Bool) : exec (.knownAnswerTest dt l pass) s = done s (u.katResult l.val pass) :=
      congrArg (done s) (if_pos testing)
    constructor
    · refine .of_op (ends true) ?_
      rw [State.ended_rwc, State.ended_rest]
      exact ⟨(u.katResult_fenced l.val true l.isLt).trans (if_pos rfl), Map.get_put_same _ _ _, rfl, rfl⟩
    · have left := u.katResult_fails l.val
      refine .of_op (ends false) ?_
      rw [State.ended_rwc, State.ended_rest, State.ended_getReg, left.rest]
      refine ⟨(u.katResult_fenced l.val false l.isLt).trans (if_pos rfl), u.katResult_event l.isLt, ?_, rfl⟩
      rw [left.rwc]
      rfl
  case unfence =>
    intro s dt lvl v pass u taken level runs glove peer unit
    refine ⟨congrArg (done s) (State.rowWrite_taken taken (State.unfenceWrite_tests level runs glove peer unit)),
      fun l => ?_⟩
    rw [State.opUnfence_retests, State.foldl_retest_fenced v pass l.isLt]
    simp only [List.mem_range, l.isLt, true_and]
    rfl

end Sys2Proof.Machine
end

section
/-! PROOFS. What work leaves of the transport unit (chapter 9): its state and its sessions after a report, a read of host
memory and the end of a command. -/

namespace Sys2Proof.Machine

variable {s t : State}

theorem Reports.trn (h : Reports s t) : t.trn = s.trn := by unfold Reports at h; rw [h]

@[simp] theorem State.ended_trn (s t : State) : (s.ended t).trn = t.trn := t.intxUpdate_reports.trn

theorem State.sess_congr (same : t.trn = s.trn) (n : Nat) : t.sess n = s.sess n := by
  unfold State.sess; rw [same]

/-- R267: a read by a unit leaves the sessions. -/
theorem State.unitRead_trn (s : State) (who : Option (BitVec 16)) (a n : Nat) (r : ReadData) :
    (s.unitRead who a n r).2.trn = s.trn := by
  have left := (s.readFor_reports who a n r).trn
  unfold State.unitRead
  split
  · next read => rw [read] at left; exact left
  · exact left

end Sys2Proof.Machine
end

section
/-! PROOFS. Session commands (chapter 9): the zeroing that enabling a region starts, the four operations of the command
register, and the end of a quarantine; then the statement on these commands. -/

namespace Sys2Proof.Machine

variable {s : State} {v : Word} {n op : Nat}

/-! R214: regions. -/

@[simp] theorem State.zeroTable_trn (s : State) (a : Nat) (v : Word) (size : Nat) :
    (s.zeroTable a v size).trn = s.trn := by
  unfold State.zeroTable
  split <;> rfl

theorem State.zeroTable_setTrn_rest (s : State) (a : Nat) (v : Word) (size : Nat) (r : Trn) :
    ({ ({ s.zeroTable a v size with trn := r } : State).rest with trn := {}, mem := {} } : State) =
      { s.rest with trn := {}, mem := {} } := by
  unfold State.zeroTable
  split <;> rfl

theorem State.opTrnBase_ctx_starts (taken : s.cmdTaken trnCtxBase = true)
    (off : (s.getReg trnCtxBase).getLsbD 31 = false) (en : v.getLsbD 31 = true)
    (aligned : bits v.toNat 13 0 % 512 = 0) :
    s.opTrnBase .ctx v = { s.zeroTable trnCtxBase v 512 with trn := { s.trn with sess := [], initCtx := true } } := by
  unfold State.opTrnBase
  dsimp only
  rw [State.onCmd_taken _ _ taken]
  simp only [off, aligned, Bool.false_and, Bool.false_eq_true, if_false, ne_eq, not_true_eq_false, decide_false,
    Bool.and_false, State.baseWrite_starts off en, if_true, State.zeroTable_trn]

theorem State.opTrnBase_idx_starts (taken : s.cmdTaken trnIdxBase = true)
    (off : (s.getReg trnIdxBase).getLsbD 31 = false) (en : v.getLsbD 31 = true)
    (aligned : bits v.toNat 13 0 % 256 = 0) :
    s.opTrnBase .idx v = { s.zeroTable trnIdxBase v 256 with trn := { s.trn with idx := [], initIdx := true } } := by
  unfold State.opTrnBase
  dsimp only
  rw [State.onCmd_taken _ _ taken]
  simp only [off, aligned, Bool.false_and, Bool.false_eq_true, if_false, ne_eq, not_true_eq_false, decide_false,
    Bool.and_false, State.baseWrite_starts off en, if_true, State.zeroTable_trn]

/-! R216, R232: commands. -/

/-- R232: a command runs its operation on the state that holds its word. -/
theorem State.opTrn_runs (taken : s.cmdTaken trnCmd = true) (asks : op ≠ 0) (fits : op < 16) :
    s.opTrn op v = (s.setReg trnCmd (BitVec.ofNat 32 (putBits v.toNat 3 0 op) &&& 0x10F)).trnRun op
      ((BitVec.ofNat 32 (putBits v.toNat 3 0 op)).getLsbD 8) := by
  unfold State.opTrn State.opTrnCmd
  rw [State.onCmd_taken _ _ taken]
  dsimp only
  rw [bits_putBits_low v.toNat op fits, if_neg asks]

/-- R214, R216: while both regions are in service a command goes on to its operation. -/
theorem State.trnRun_on (on : s.trnOn = true) (refused run : State) : (if !s.trnOn then refused else run) = run :=
  if_neg (by simp [on])

theorem State.trnRun_create (on : s.trnOn = true) (clr : Bool) : s.trnRun 1 clr =
    let r := s.sessCreate s.trnDataIn s.trnKeyIn
    (if r.1 = 0 then r.2.2.setReg trnSession (BitVec.ofNat 32 r.2.1) else r.2.2).trnStatus r.1 :=
  State.trnRun_on on _ _

/-- R216: a READ without CLR leaves the session as R327 has it. -/
theorem State.sessRead_keeps (on : s.trnOn = true) (within : n < s.sessCap) :
    s.sessRead n false = (0, ((s.healSess n).sess n).ctx, s.healSess n) := by
  unfold State.sessRead
  rw [if_neg (by simp [on]), if_neg (Nat.not_le.2 within)]
  rfl

theorem State.trnRun_read (on : s.trnOn = true) (index : s.regBits trnSession 20 0 = n) (within : n < s.sessCap) :
    s.trnRun 2 false = ((List.range 64).foldl (fun x k =>
      x.setReg (trnData k) (((s.healSess n).sess n).ctx.extractLsb' (32 * k) 32)) (s.healSess n)).trnStatus 0 := by
  subst index
  have runs : s.trnRun 2 false = let r := s.sessRead (s.regBits trnSession 20 0) false
      (if r.1 = 0 then (List.range 64).foldl (fun x k => x.setReg (trnData k) (r.2.1.extractLsb' (32 * k) 32)) r.2.2
        else r.2.2).trnStatus r.1 := State.trnRun_on on _ _
  rw [runs, State.sessRead_keeps on within]
  rfl

theorem State.trnRun_modify (on : s.trnOn = true) (clr : Bool) : s.trnRun 3 clr =
    let r := s.sessModify (s.regBits trnSession 20 0) s.trnDataIn
    r.2.trnStatus r.1 :=
  State.trnRun_on on _ _

theorem State.trnRun_destroy (on : s.trnOn = true) (clr : Bool) : s.trnRun 4 clr =
    let r := s.sessDestroy (s.regBits trnSession 20 0)
    r.2.trnStatus r.1 :=
  State.trnRun_on on _ _

/-- R217: the index without a session's entries. -/
def State.unindexed (s : State) (n : Nat) : State :=
  { s with trn := { s.trn with idx := s.trn.idx.filter (fun e => e.2.2 ≠ n) } }

/-- R216: a session's send entries end with ABORTED. -/
def State.abortSends (s : State) (l : List SendEnt) : State := l.foldl (fun s e => s.finishEntry e.ref 9 id) s

/-- R216: a session enters QUARANTINE with its context and its key. -/
def State.quarantine (s : State) (n : Nat) (x : Sess) : State :=
  s.modSess n (fun _ => Sess.setF { ctx := x.ctx, key := x.key, quarAt := s.trnTime } 0 31 29 4)

/-- R216: DESTROY of a session that is neither FREE nor in QUARANTINE. -/
theorem State.sessDestroy_live (on : s.trnOn = true) (within : n < s.sessCap) (least : 1 ≤ (s.sess n).st)
    (most : (s.sess n).st ≤ 3) : s.sessDestroy n =
      (0, ((s.unindexed n).abortSends (s.sess n).sends).quarantine n (s.sess n)) := by
  unfold State.sessDestroy
  rw [if_neg (by simp [on]), if_neg (Nat.not_le.2 within)]
  exact if_neg (by omega)

/-- R216: CREATE with nothing against it: the session has its key, and the slot of the index names both. -/
theorem State.sessCreate_creates {c : BitVec 2048} {key : BitVec 320} {k : Nat} (on : s.trnOn = true)
    (good : s.badCtx c = false)
    (quota : s.sessUsed (Sess.owner { ctx := c }) < s.regBits (sessQuota (Sess.owner { ctx := c })) 21 0)
    (room : s.trn.sess.length < s.sessCap) (fresh : s.idxFind key = none)
    (slot : (s.idxSlots key).find? (fun k => (s.idxEntry k).isNone) = some k) :
    let r := s.sessCreate c key
    r.1 = 0 ∧ (r.2.2.sess r.2.1).key = key ∧ Map.get r.2.2.trn.idx k = some (key, r.2.1) := by
  unfold State.sessCreate
  dsimp only
  rw [if_neg (by simp [on]), if_neg (by simp [good]), if_neg (Nat.not_le.2 quota), if_neg (Nat.not_le.2 room),
    if_neg (by simp [fresh]), slot]
  refine ⟨rfl, ?_, Map.get_put_same _ _ _⟩
  unfold State.sess Map.at_
  rw [Map.get_put_same]
  rfl

theorem State.opQuarEnd_due (quarantined : (s.sess n).st = 4)
    (due : s.trnDue (s.sess n).quarAt (usec 100) = true) : s.opQuarEnd n = s.modSess n (fun _ => {}) :=
  if_pos (by simp [quarantined, due])

/-- Settles O22: each command is its operation, whose case the premises decide; zeroing is confined to the region that is
enabled. -/
theorem sessionCommandsComplete : Obligations.SessionCommandsComplete := by
  refine ⟨?enableCtx, ?enableIdx, ?zeroed, ?command, ?create, ?quarantine⟩
  case enableCtx =>
    intro s v taken off en aligned
    refine .of_op (congrArg (done s) (State.opTrnBase_ctx_starts taken off en aligned)) ?_
    rw [State.ended_trn, State.ended_rest]
    refine ⟨rfl, rfl, rfl, s.zeroTable_setTrn_rest trnCtxBase v 512 _, fun a outside => ?_⟩
    rw [State.ended_readByte]
    exact s.readByte_zeroTable_outside outside
  case enableIdx =>
    intro s v taken off en aligned
    refine .of_op (congrArg (done s) (State.opTrnBase_idx_starts taken off en aligned)) ?_
    rw [State.ended_trn, State.ended_rest]
    refine ⟨rfl, rfl, rfl, s.zeroTable_setTrn_rest trnIdxBase v 256 _, fun a outside => ?_⟩
    rw [State.ended_readByte]
    exact s.readByte_zeroTable_outside outside
  case zeroed =>
    intro s
    exact ⟨rfl, rfl⟩
  case command =>
    intro s v u n taken on
    refine ⟨?_, fun within clr => ?_, ?_, ?_⟩
    · exact congrArg (done s) ((State.opTrn_runs taken (by decide) (by decide)).trans (State.trnRun_create (on 1) _))
    · have runs := State.opTrn_runs (v := v) taken (op := 2) (by decide) (by decide)
      rw [clr] at runs
      exact congrArg (done s) (runs.trans (State.trnRun_read (on 2) rfl within))
    · exact congrArg (done s) ((State.opTrn_runs taken (by decide) (by decide)).trans (State.trnRun_modify (on 3) _))
    · intro dt w x ⟨index, within, on, least, most⟩
      have runs : (s.advance dt).opTrn 4 v = w.trnRun 4 _ := State.opTrn_runs taken (by decide) (by decide)
      rw [State.trnRun_destroy on, index, State.sessDestroy_live on within least most] at runs
      exact congrArg (done s) runs
  case create =>
    intro s c key k i r on good quota room fresh slot
    exact State.sessCreate_creates on good quota room fresh slot
  case quarantine =>
    intro s dt n u quarantined due
    exact congrArg (done s) (State.opQuarEnd_due quarantined due)

end Sys2Proof.Machine
end

section
/-! PROOFS. Session traffic (chapter 9): the item that the engine takes from its input, the rows of a segment, the
packets of a connection, the engine's oldest PDU, and the timers and sends; then the statement on these commands. -/

namespace Sys2Proof.Machine

variable {s : State} {n : Nat} {i : Item} {l : List Item}

/-! R219, R227: the oldest item. -/

/-- R327: the engine's oldest item is taken for session n, which is in ERROR where its context is poisoned. -/
def State.itemTaken (s : State) (n : Nat) (l : List Item) : State :=
  let v := s.healSess n
  { v with trn := { v.trn with input := l } }

/-- R219, R327: while the engine is powered, its oldest item meets session n, and neither the session's state nor a
poisoned buffer keeps the item from it. -/
structure State.Meets (s : State) (n : Nat) (i : Item) (l : List Item) : Prop where
  on : (s.powered 67 && s.powered 68) = true
  oldest : s.trn.input = i :: l
  index : i.fld fSESSION % 2 ^ 21 = n
  active : (s.itemTaken n l).sessGate n i = none
  sound : (s.itemTaken n l).badBuf i.bufs i.frame.length = none

theorem State.opTcpSegment_rows (meets : s.Meets n i l) (kind : ((s.healSess n).sess n).kind ≠ 1) :
    s.opTcpSegment = (s.itemTaken n l).tcpRows n i := by
  obtain ⟨on, oldest, rfl, active, sound⟩ := meets
  unfold State.itemTaken at active sound
  unfold State.opTcpSegment
  rw [if_neg (by simp [on]), oldest]
  dsimp only at active sound ⊢
  rw [if_neg kind, active, sound]
  rfl

/-- R227: what a sound packet does is done, and counted. -/
theorem State.opRoce_executes {data : ReadData} {t x : State} (meets : s.Meets n i l)
    (kind : ((s.healSess n).sess n).kind = 1) (sound : (rpktOf i.frame).ok = true)
    (does : (s.itemTaken n l).rdmaPacket n i data = (some t, x)) :
    s.opRoce data = (t.stat statRxSegs).statN statRxBytes (rpktOf i.frame).body.length := by
  obtain ⟨on, oldest, rfl, active, buffers⟩ := meets
  unfold State.itemTaken at active buffers does
  unfold State.opRoce
  rw [if_neg (by simp [on]), oldest]
  dsimp only at active buffers does ⊢
  rw [if_neg (not_not_intro kind), active, buffers]
  dsimp only
  rw [does]
  exact if_pos sound

/-! R219: the rows of a segment. -/

/-- A sequence number lies no distance ahead of itself. -/
theorem seqGap_self (w a : Nat) : seqGap w a a = 0 := by
  have whole : (a + 2 ^ w - a % 2 ^ w) % 2 ^ w = 0 := by
    have split := Nat.mod_add_div a (2 ^ w)
    have multiple : a + 2 ^ w - a % 2 ^ w = 2 ^ w * (a / 2 ^ w + 1) := by rw [Nat.mul_add, Nat.mul_one]; omega
    rw [multiple, Nat.mul_mod_right]
  unfold seqGap
  dsimp only
  rw [whole, if_pos (Nat.two_pow_pos _)]
  rfl

/-- R219 row 9: a segment that no other row takes, with the byte that comes next, is accepted. -/
theorem State.tcpRows_accepts {g : Seg} (segment : segOf i.frame = g) (tcp : g.tcp = true) (rst : g.rst = false)
    (syn : g.syn = false) (urg : g.urg = false) (opts : g.badOpt = false) (noTs : (s.sess n).tsOn = false)
    (next : g.seq = (s.sess n).rcvNxt) (data : g.data ≠ []) (opened : 0 < s.rcvWnd n)
    (acked : g.isAck = true → seqGap 32 (s.sess n).nxt g.ack ≤ 0) : s.tcpRows n i = s.tcpAccept n i g := by
  have here : seqGap 32 (s.sess n).rcvNxt g.seq = 0 := next ▸ seqGap_self 32 _
  have length : 0 < g.data.length := List.length_pos_iff.2 data
  have inside : ¬ ((g.data.length : Int) ≤ 0 ∨ (s.rcvWnd n : Int) ≤ 0) := by omega
  have noAhead : (g.isAck && decide (seqGap 32 (s.sess n).nxt g.ack > 0)) = false :=
    Bool.and_eq_false_imp.2 fun isAck => decide_eq_false (Int.not_lt.2 (acked isAck))
  unfold State.tcpRows
  dsimp only
  rw [segment, here, if_neg (by simp [rst]), if_neg (by simp [tcp, rst, syn, urg]), if_neg (by simp [opts]),
    if_neg (by simp [noTs]), if_neg (by rw [noAhead]; simpa [data] using inside), if_neg (by simp)]

/-! R227, R228: packets. -/

section
variable {data : ReadData} {p : Rpkt}

/-- R228: a packet without congestion experienced does what it does alone. -/
theorem State.withCnp_unmarked {run : State → Option State × State} {t x : State} (unmarked : p.ce = false)
    (does : run s = (some t, x)) : s.withCnp n p run = (some t, x) := by
  have noCnp : s.cnp n p = s := if_neg (by simp [unmarked])
  unfold State.withCnp
  rw [does]
  dsimp only
  rw [noCnp, does]

section
variable (packet : rpktOf i.frame = p) (sound : p.ok = true)
include packet sound

theorem State.rdmaPacket_cnp (op : p.op = 0x81) :
    s.rdmaPacket n i data = (some (((s.stat statCnpRx).retireItem i).freeBufs i.holder i.bufs), s) := by
  subst packet
  unfold State.rdmaPacket
  dsimp only
  rw [if_neg (by simp [sound]), if_pos op]

theorem State.rdmaPacket_aeth (op : p.op = 0x11) (unmarked : p.ce = false) :
    s.rdmaPacket n i data = (some (s.rdmaAeth n i p), s) := by
  subst packet
  unfold State.rdmaPacket
  dsimp only
  rw [if_neg (by simp [sound]), if_neg (by omega)]
  refine State.withCnp_unmarked unmarked ?_
  rw [if_neg (by simp [rcOp, op]), if_pos op]

/-- R227: a SEND packet with the expected PSN is executed. -/
theorem State.rdmaPacket_send (op : p.op ≤ 5) (unmarked : p.ce = false)
    (expected : seqGap 24 (s.sess n).rcvNxt p.psn = 0) :
    s.rdmaPacket n i data = (some (s.rdmaSend n i p), s) := by
  subst packet
  unfold State.rdmaPacket
  dsimp only
  rw [if_neg (by simp [sound]), if_neg (by omega)]
  refine State.withCnp_unmarked unmarked ?_
  have supported : rcOp (rpktOf i.frame).op = true := decide_eq_true (by omega)
  rw [if_neg (by simp [supported]), if_neg (by omega), if_neg (by rw [decide_eq_true_eq]; omega)]
  unfold State.rdmaRequest
  dsimp only
  rw [expected, if_neg (by decide), if_neg (by decide),
    if_pos (show isSend (rpktOf i.frame).op = true from decide_eq_true op)]

end
end

/-! R229, R230: PDUs. -/

section
variable {p : Pdu} {x : Sess} {rest : List Pdu}

/-- The engine's oldest PDU is taken. -/
def State.pduTaken (s : State) (rest : List Pdu) : State := { s with trn := { s.trn with pdus := rest } }

/-- R229: the engine's oldest PDU belongs to a session that takes it, and its digests are as they should be. -/
structure State.Checks (s : State) (p : Pdu) (x : Sess) (rest : List Pdu) : Prop where
  oldest : s.trn.pdus = p :: rest
  session : s.sess p.session = x
  takes : x.st = 1 ∨ x.st = 2
  header : hdgstOk x p.data = true
  data : ddgstOk x p.data = true

/-- R229: a PDU that is no data PDU is presented, or delivered, whole. -/
theorem State.opNvmePdu_whole {entry : ReadData} (checks : s.Checks p x rest) (notH2c : leAt p.data 0 1 ≠ 6)
    (notC2h : leAt p.data 0 1 ≠ 7) : s.opNvmePdu entry = (s.pduTaken rest).pduOut p p.data 0 false := by
  obtain ⟨oldest, rfl, takes, header, digest⟩ := checks
  unfold State.opNvmePdu
  rw [oldest]
  dsimp only
  rw [if_neg (by omega), if_neg (by simp [header]), if_neg (by omega), digest]
  rfl

/-- R230: a data PDU does what its placement does. -/
theorem State.opNvmePdu_places {entry : ReadData} {t w : State} (checks : s.Checks p x rest)
    (isData : leAt p.data 0 1 = 6 ∨ leAt p.data 0 1 = 7)
    (placed : (s.pduTaken rest).placePdu p entry 0 = (some t, w)) : s.opNvmePdu entry = t := by
  obtain ⟨oldest, rfl, takes, header, digest⟩ := checks
  unfold State.pduTaken at placed
  unfold State.opNvmePdu
  rw [oldest]
  dsimp only
  rw [if_neg (by omega), if_neg (by simp [header]), if_pos isData, digest]
  simp only [Bool.not_true, Bool.false_eq_true, if_false, placed]

/-- R230: bytes that may be written are placed, and the header of their PDU is delivered. -/
theorem State.placeAt_placed {addr fl : Nat} {body : List Byte} {t : State} (session : s.sess p.session = x)
    (nonempty : body ≠ []) (put : s.unitPut 6 (some (BitVec.ofNat 16 x.owner)) addr body = (some true, t)) :
    s.placeAt p addr fl body false = (some (t.pduOut p (p.data.take (leAt p.data 2 1)) (fl + 0x80) true), t) := by
  subst session
  unfold State.placeAt
  simp only [List.isEmpty_iff, nonempty, if_false, put, Bool.false_eq_true]

/-- R230: a data PDU with an entry that suits it and asks for no decryption goes to the entry's address. -/
theorem State.placePdu_places {e : List Byte} {r : State} (session : s.sess p.session = x)
    (read : s.unitRead (some (BitVec.ofNat 16 x.owner))
      (Sess.f x 0x54 63 0 + 32 * (pduTag p.data % 2 ^ Sess.f x 0x50 20 16)) 32 (.ok e) = (some (some e), r))
    (suits : placeMiss x p.data e = none) (plain : bit (leAt e 2 1) 6 = false) (fl : Nat) :
    s.placePdu p (.ok e) fl = r.placeAt p (leAt e 8 8 + leAt p.data 12 4) fl
      (slice p.data (pduData x p.data).1 (pduData x p.data).2) false := by
  subst session
  unfold State.placePdu
  dsimp only
  rw [read]
  dsimp only
  rw [suits]
  dsimp only
  rw [plain]
  rfl

end

/-! R222: timers and sends. -/

theorem State.opAckDelay_passed {x : Nat} (owed : (s.sess n).ackAt = some x) (active : (s.sess n).st = 1)
    (on : s.trnOn = true) (due : s.trnDue x (usec (s.regBits (TRN + 0x204) 9 0)) = true) :
    s.opAckDelay n = s.sendAck n := by
  unfold State.opAckDelay
  dsimp only
  rw [owed]
  exact if_pos (by simp [active, on, due])

theorem State.opSessSend_active (on : (s.healSess n).trnOn = true) (active : ((s.healSess n).sess n).st = 1) :
    s.opSessSend n = if ((s.healSess n).sess n).kind = 1 then (s.healSess n).rdmaSendNext n
      else (s.healSess n).tcpSend n :=
  if_neg (by simp [on, active])

/-- R227: a connection whose timer expires goes back to its first PSN not acknowledged. -/
def State.rdmaTimeout (s : State) (n : Nat) : State :=
  s.modSess n (fun y => Sess.setF { y with
    retries := y.retries + 1, resend := some y.una, timed := none, rtoAt := some s.trnTime }
    0x38 31 0 (s.rtoBound (2 * y.rto)))

theorem State.opRto_passed {x : Nat} (runs : (s.sess n).rtoAt = some x) (active : (s.sess n).st = 1)
    (on : s.trnOn = true) (due : s.trnDue x (usec (s.rtoBound (s.sess n).rto)) = true)
    (retries : (s.sess n).retries + 1 < s.regBits (TRN + 0x210) 4 0) :
    s.opRto n = if (s.sess n).kind = 1 then s.rdmaTimeout n else s.tcpTimeout n := by
  unfold State.opRto
  dsimp only
  rw [runs]
  dsimp only
  rw [if_neg (by simp [active, on, due]), if_neg (Nat.not_le.2 retries)]
  rfl

/-- Settles O23: the oldest item and the oldest PDU do what their session's kind has them do, and each timer and send is
its operation; the read of a placement entry leaves the sessions. -/
theorem sessionTrafficCompletes : Obligations.SessionTrafficCompletes := by
  refine ⟨?segment, ?rows, ?packet, ?executed, ?wholePdu, ?placedPdu, ?ackDelay, ?send, ?timeout⟩
  case segment =>
    intro s dt i l u n v w on oldest kind active sound
    exact congrArg (done s) (State.opTcpSegment_rows ⟨on, oldest, rfl, active, sound⟩ kind)
  case rows =>
    intro s n i g tcp rst syn urg opts noTs next data opened acked
    exact State.tcpRows_accepts rfl tcp rst syn urg opts noTs next data opened acked
  case packet =>
    intro s dt data i l u n v w p count on oldest kind active buffers sound
    have executes {t x : State} (does : w.rdmaPacket n i data = (some t, x)) : u.opRoce data = count t :=
      State.opRoce_executes ⟨on, oldest, rfl, active, buffers⟩ kind sound does
    refine ⟨fun op => ?_, fun op unmarked => ?_, fun op unmarked expected => ?_⟩
    · exact congrArg (done s) (executes (State.rdmaPacket_cnp rfl sound op))
    · exact congrArg (done s) (executes (State.rdmaPacket_aeth rfl sound op unmarked))
    · exact congrArg (done s) (executes (State.rdmaPacket_send rfl sound op unmarked expected))
  case executed =>
    intro s t dt data i l x u n v w on oldest kind active buffers sound does
    exact congrArg (done s) (State.opRoce_executes ⟨on, oldest, rfl, active, buffers⟩ kind sound does)
  case wholePdu =>
    intro s dt entry p l u v oldest takes header digest notH2c notC2h
    exact congrArg (done s) (State.opNvmePdu_whole ⟨oldest, rfl, takes, header, digest⟩ notH2c notC2h)
  case placedPdu =>
    intro s r t dt e p l u v x who body oldest takes header digest isData read suits plain nonempty put
    have session : r.sess p.session = x := by
      have left := v.unitRead_trn who (Sess.f x 0x54 63 0 + 32 * (pduTag p.data % 2 ^ Sess.f x 0x50 20 16)) 32 (.ok e)
      rw [read] at left
      exact State.sess_congr left p.session
    have places := (State.placePdu_places (s := v) rfl read suits plain 0).trans
      (State.placeAt_placed session nonempty put)
    exact congrArg (done s) (State.opNvmePdu_places ⟨oldest, rfl, takes, header, digest⟩ isData places)
  case ackDelay =>
    intro s dt n x u owed active on due
    exact congrArg (done s) (State.opAckDelay_passed owed active on due)
  case send =>
    intro s dt n u on active
    exact congrArg (done s) (State.opSessSend_active on active)
  case timeout =>
    intro s dt n x u runs active on due retries
    exact congrArg (done s) (State.opRto_passed runs active on due retries)

end Sys2Proof.Machine
end

section
/-! PROOFS. The traffic manager (chapter 10): arrivals, refills, heads that wait too long, the command register, rates and
policers; then the statement on these commands. -/

namespace Sys2Proof.Machine

variable {s t : State} {i : Item} {leaf k op : Nat} {v : Word}

theorem Reports.tmg (h : Reports s t) : t.tmg = s.tmg := by unfold Reports at h; rw [h]

@[simp] theorem State.ended_tmg (s t : State) : (s.ended t).tmg = t.tmg := t.intxUpdate_reports.tmg

theorem State.node_congr (same : t.tmg = s.tmg) (lvl i : Nat) : t.node lvl i = s.node lvl i := by
  unfold State.node State.nodes
  rw [same]

/-! R237: arrivals. -/

theorem State.opTmgEnqueue_arrives {l : List (Item × Nat)} (oldest : s.tmg.input = (i, leaf) :: l) :
    s.opTmgEnqueue = ({ s with tmg := { s.tmg with input := l } } : State).arrive i leaf := by
  unfold State.opTmgEnqueue
  rw [oldest]

/-! R239: refills. -/

/-- R239: a node after n refills. -/
def Node.refill (n : Nat) (x : Node) : Node := { x with level := refilled n x.rate x.burst x.level }

/-- R239: the traffic manager after n refills at which no write takes effect, whose class and port buckets are c and p. -/
def Tmg.refill (n : Nat) (c p : Map Int) (g : Tmg) : Tmg :=
  let up := List.map (fun (e : Nat × Node) => (e.1, e.2.refill n))
  { g with
    pend := [], busy := false, refillAt := g.refillAt + 1024 * n
    leaf := up g.leaf, inst := up g.inst, group := up g.group, pol := up g.pol
    clsLvl := c, prtLvl := p }

/-- R239, R247: while no write waits, refills credit the buckets of the traffic manager and change nothing else. -/
theorem State.refills_idle (n : Nat) (idle : s.tmg.pend = []) :
    ∃ c p, s.refills n = { s with tmg := s.tmg.refill n c p } := by
  unfold State.refills
  rw [idle]
  exact ⟨_, _, rfl⟩

/-! R245: a class's head. -/

/-- R245: the head of class k is taken off, counted and reported. -/
def State.headExpired (s : State) (k : Nat) : State :=
  (({ s with tmg := { s.tmg with head := Map.del s.tmg.head k } } : State).count (tmgHeadExpire k)).tmgEvent 1

/-- R245: the expiry of a head leaves the leaves. -/
theorem State.headExpired_leaf (s : State) (k : Nat) : (s.headExpired k).node 0 leaf = s.node 0 leaf :=
  State.node_congr ((State.count_reports _ _).trans (State.setEvt_reports _ _ _ _)).tmg 0 leaf

/-- R245: the first frame of a head that has waited for its limit is discarded. -/
theorem State.opHeadExpire_discards {x : Nat} {f : TmFrame} {l : List TmFrame}
    (waits : Map.get s.tmg.head k = some (leaf, x)) (limit : s.regBits (TMG + 0xC04 + 8 * k) 15 0 ≠ 0)
    (due : s.due x (msec (s.regBits (TMG + 0xC04 + 8 * k) 15 0)) = true) (first : (s.node 0 leaf).frames = f :: l) :
    s.opHeadExpire k = let w := s.headExpired k
      ((w.modNode 0 leaf (fun n => { n with frames := l })).emptied leaf (w.parentOf 0 leaf)
        (w.parentOf 1 (w.parentOf 0 leaf))).dropItem f.item := by
  have left : ((s.headExpired k).node 0 leaf).frames = f :: l := by rw [s.headExpired_leaf, first]
  unfold State.headExpired at left
  unfold State.opHeadExpire
  dsimp only
  rw [waits]
  dsimp only
  rw [if_neg (by simp [limit, due]), left]
  rfl

/-! R247, R255: commands and rates. -/

/-- R255: the operation that OP names, on the state that holds the command's word. -/
def State.tmgRun (s : State) (op : Nat) (w : Word) : State :=
  match op with
  | 0 => s
  | 1 => s.tmgRead (bits w.toNat 10 8) (s.regBits tmgIndex 19 0) (bit w.toNat 4)
  | 2 => s.tmgWrite (bits w.toNat 10 8) (s.regBits tmgIndex 19 0)
  | _ => { s with tmg := { s.tmg with stat := 1 } }

/-- R255: a command that finds the manager idle runs its operation. -/
theorem State.opTmg_runs (taken : s.cmdTaken tmgCmd = true) (idle : s.tmg.busy = false) (fits : op < 16) :
    s.opTmg op v = (s.setReg tmgCmd (BitVec.ofNat 32 (putBits v.toNat 3 0 op) &&& 0x71F)).tmgRun op
      (BitVec.ofNat 32 (putBits v.toNat 3 0 op)) := by
  unfold State.opTmg State.opTmgCmd
  rw [idle, State.onCmd_taken _ _ taken]
  dsimp only
  rw [bits_putBits_low v.toNat op fits]
  rfl

/-- R247, R255: a good value for a class or port rate register joins the writes that wait for the next refill. -/
theorem State.opTmgRate_waits {a r i j} (taken : s.cmdTaken a = true) (row : findReg a = some (r, i, j, 0))
    (least : TMG + 0x100 ≤ a) (most : a < TMG + 0xC00) (guarded : r.acc = .rwg) (good : tmgRateOk a v = true) :
    s.opTmgRate a v = { s with tmg := { s.tmg with
      pend := s.tmg.pend ++ [.reg a (v &&& BitVec.ofNat 32 r.mask)] } } := by
  unfold State.opTmgRate
  rw [State.onCmd_taken _ _ taken, row]
  exact if_neg (by simp [least, most, guarded, good])

/-! R250: policers. -/

/-- R250: the bytes of an item in units of the buckets, as policer x counts them. -/
def Node.polNeed (x : Node) (i : Item) : Int := ((frameLen (i.fld fLEN) : Nat) + x.overhead) * 8000

/-- R250: a policer after an item that conforms: its bucket gives what the item needs, and the item is counted. -/
def Node.passed (x : Node) (need : Int) : Node :=
  { x with
    level := x.level - need
    words := BitVec.ofNat 256 (putBits x.words.toNat 255 192 (bits x.words.toNat 255 192 + 1)) }

theorem State.opPolice_conforms {p : Fin 4} {l : List (Item × Fin 4)} {u : State} {q : Nat}
    (oldest : s.tmg.polIn = (i, p) :: l) (next : u = { s with tmg := { s.tmg with polIn := l } })
    (named : q = bits (i.fld fPOLICER) 17 0) (within : q < u.nodeCap 3) (en : (u.node 3 q).en = true)
    (holds : (u.node 3 q).polNeed i ≤ (u.node 3 q).level) :
    s.opPolice = (u.modNode 3 q (·.passed ((u.node 3 q).polNeed i))).afterPolicer p.val i := by
  subst next named
  unfold State.opPolice
  rw [oldest]
  exact (if_neg (by simp [en, within])).trans (if_pos holds)

/-- Settles O24: each command is its operation, whose case the premises decide; refills at which no write waits credit the
buckets and leave the rest. -/
theorem trafficCommandsComplete : Obligations.TrafficCommandsComplete := by
  refine ⟨?arrival, ?refill, ?early, ?head, ?command, ?rate, ?policer⟩
  case arrival =>
    intro s dt i leaf l u oldest
    exact congrArg (done s) (State.opTmgEnqueue_arrives oldest)
  case refill =>
    intro s dt n due idle
    obtain ⟨c, p, refills⟩ := State.refills_idle (s := s.advance dt) n idle
    refine .of_op (congrArg (done s) ((if_neg due).trans refills)) ?_
    rw [State.ended_tmg, State.ended_rest]
    exact ⟨rfl, rfl, rfl, rfl, rfl⟩
  case early =>
    intro s dt none
    exact congrArg (done s) (if_pos none)
  case head =>
    intro s dt k leaf x f l u v w waits limit due first
    exact congrArg (done s) (State.opHeadExpire_discards waits limit due first)
  case command =>
    intro s v w u taken idle
    exact ⟨congrArg (done s) (State.opTmg_runs taken idle (by decide)),
      congrArg (done s) (State.opTmg_runs taken idle (by decide))⟩
  case rate =>
    intro s a v r i j taken row least most guarded good
    exact congrArg (done s) (State.opTmgRate_waits taken row least most guarded good)
  case policer =>
    intro s dt i p l u v q need oldest within en holds
    exact congrArg (done s) (State.opPolice_conforms oldest rfl rfl within en holds)

end Sys2Proof.Machine
end

section
/-! PROOFS. INTA (R272): every command ends with INTA as its condition stands, and the passage of time moves neither. -/

namespace Sys2Proof.Machine

variable {s t : State}

/-- Every next state that an outcome of a command in s answers is the end of the command, whatever its effect was. -/
def Ends (s : State) (o : Host.Outcome State Fault Refusal) : Prop := ∀ t, o = .next t → ∃ u, t = s.ended u

theorem done_ends (s u : State) : Ends s (done s u) := fun _ next => ⟨u, (Host.Outcome.next.inj next).symm⟩

/-- R308: an admin entry is 64 bytes, or its command is ill-formed. -/
theorem entry_ends (e : List Byte) (s u : State) :
    Ends s (if e.length ≠ 64 then .fault .illFormed else done s u) := by
  by_cases len : e.length = 64
  · rw [if_neg (not_not_intro len)]
    exact done_ends s u
  · rw [if_pos len]
    exact fun _ next => nomatch next

/-- Every command that completes ends with INTA following its condition. The commands of the admin queue are those that can
be ill-formed. -/
theorem exec_ends (c : Instr) (s : State) : Ends s (exec c s) := by
  cases c
  case adminNop | instCreate | instModify | instReset | instDestroy | instQuery | qCreate | qEnable | qDisable | qDestroy |
      qQuery | sessCreate | sessRead | sessModify | sessDestroy | medRespond => exact entry_ends _ _ _
  all_goals exact done_ends _ _

theorem State.intxCause_congr (hep : t.hep = s.hep) (qim : t.qim = s.qim) (regs : t.regs = s.regs) :
    t.intxCause = s.intxCause := by
  unfold State.intxCause State.regNat State.getReg
  rw [hep, qim, regs]

theorem State.intaHolds_congr (hep : t.hep = s.hep) (qim : t.qim = s.qim) (regs : t.regs = s.regs) (holds : s.intaHolds) :
    t.intaHolds := by
  unfold State.intaHolds
  rw [State.intxCause_congr hep qim regs, hep]
  exact holds

/-- R272: after a command INTA stands exactly while its condition does. -/
theorem State.ended_intaHolds (s u : State) : (s.ended u).intaHolds := by
  unfold State.intaHolds
  rw [State.ended_inta]
  obtain ⟨b, o, ends⟩ := s.ended_parts u
  rw [ends]
  rfl

/-- Settles O55: a command ends with INTA following its condition, and a tick of time moves neither INTA nor what its
condition reads. -/
theorem intaFollowsItsCauses : Obligations.IntaFollowsItsCauses := by
  intro s t holds ran
  unfold step at ran
  split at ran
  case h_1 =>
    exact Host.Outcome.next.inj ran ▸ State.intaHolds_congr (s.advance_hep 1) (s.advance_qim 1) (s.advance_regs 1) holds
  case h_2 c rest _ =>
    obtain ⟨u, rfl⟩ := exec_ends c _ t ran
    exact State.ended_intaHolds _ u

end Sys2Proof.Machine
end

section
/-! PROOFS. Configuration space (chapter 11): a write of a base address register on a table of stored doublewords that lists
it twice. -/

namespace Sys2Proof.Machine

/-- PF0 answers configuration requests, and the stored doublewords, which no canonical form binds, list BAR0's low half
twice: first with what it holds after reset, then with every address bit set. -/
def barListedTwice : State :=
  { State.reset with hep := { up := true, crs := false, cfg := [(0x10, 0x00000004), (0x10, 0xFC000004)] } }

/-- R259: the write of 0 leaves the first entry with the value after reset, which is then not listed, and the second entry's
address bits stand. -/
theorem barListedTwice_bar0 :
    (barListedTwice.ended ((barListedTwice.advance 0).opConfig (.write 0x10 (leBytes 4 0)))).cfgDword 0x10 = 0xFC000004 := by
  decide +kernel

/-- Refutes O25: in a state whose configuration space lists BAR0 twice, a write of 0 to BAR0 (R259) does not read back. The
first entry then equals what an unlisted doubleword holds and leaves the table, and the second entry shows every address bit
as 1. -/
theorem not_linkStateCommandsComplete : ¬ Obligations.LinkStateCommandsComplete := by
  rintro ⟨-, -, -, -, -, -, -, -, -, -, -, -, -, -, bar0⟩
  obtain ⟨t, ran, -, written⟩ := bar0 barListedTwice 0 0 rfl rfl rfl
  have ends : barListedTwice.ended ((barListedTwice.advance 0).opConfig (.write 0x10 (leBytes 4 0))) = t :=
    Host.Outcome.next.inj ran
  rw [← ends, barListedTwice_bar0] at written
  exact absurd written (by decide)

end Sys2Proof.Machine
end

section
/-! PROOFS. Peer windows (R263, R264): requests through a window, and the commit of the staged windows. -/

namespace Sys2Proof

/-- A table written at each key below n: it is canonical, and holds there what was written. -/
theorem Map.wf_foldl_set {α : Type} [DecidableEq α] (f : Nat → α) (d : α) (n : Nat) :
    Map.wf ((List.range n).foldl (fun m w => Map.set m w (f w) d) []) d = true := by
  induction n with
  | zero => rfl
  | succ n ih =>
    rw [List.range_succ, List.foldl_append]
    exact Map.wf_set ih n (f n)

theorem Map.at_foldl_set {α : Type} [DecidableEq α] (f : Nat → α) (d : α) {n w : Nat} (below : w < n) :
    Map.at_ ((List.range n).foldl (fun m w => Map.set m w (f w) d) []) w d = f w := by
  induction n with
  | zero => exact absurd below (Nat.not_lt_zero w)
  | succ n ih =>
    rw [List.range_succ, List.foldl_append]
    obtain earlier | rfl := Nat.lt_succ_iff_lt_or_eq.1 below
    · exact (Map.at_set_other _ _ _ _ earlier.ne).trans (ih earlier)
    · exact Map.at_set_same ((Map.wf_iff _ _).1 (Map.wf_foldl_set f d w)).1 _ _ _

end Sys2Proof

namespace Sys2Proof.Machine

variable {s : State} {rid : BitVec 16} {off n : Nat} {v : Word}

/-! R263: a request that the function takes. -/

section
variable {e : Word × BitVec 48} {o : Nat} (window : Map.at_ s.hep.win (off / 2 ^ 28) (0, 0) = e) (within : off % 2 ^ 28 = o)
  (opened : s.barOpen = true)
include window within opened

theorem State.peerAccess_read (hits : closedWin e rid o n false = false) (reaches : s.accessBad (e.2.toNat + o) n = false)
    (good : s.readBad (e.2.toNat + o) n = false) :
    s.peerAccess rid off n none .ok = s.reply (.readData (s.readBytes (e.2.toNat + o) n)) := by
  unfold State.peerAccess
  rw [window, within]
  simp [opened, hits, reaches, good]

theorem State.peerAccess_write {d : List Byte} (hits : closedWin e rid o n true = false)
    (reaches : s.accessBad (e.2.toNat + o) n = false) :
    s.peerAccess rid off n (some d) .ok = s.land (e.2.toNat + o) d := by
  unfold State.peerAccess
  rw [window, within]
  simp [opened, hits, reaches]

theorem State.peerAccess_closed (misses : closedWin e rid o n false = true) :
    s.peerAccess rid off n none .ok = ((s.count cntWinClosed).hepEvent 3).barRefuse 4 off := by
  unfold State.peerAccess
  rw [window, within]
  simp [opened, misses, State.refuseTlp]

theorem State.peerAccess_late (hits : closedWin e rid o n false = false) :
    s.peerAccess rid off n none .late = (s.aerLog .completerAbort).reply (.completerAbort off) := by
  unfold State.peerAccess
  rw [window, within]
  simp [opened, hits]

end

/-! R264: the commit. -/

/-- R264: the windows that a commit of the staged entries puts in force. -/
def State.stagedWins (s : State) : Map (Word × BitVec 48) :=
  (List.range 256).foldl (fun m w => Map.set m w (s.stagedWin w) (0, 0)) []

theorem State.stagedWins_at (s : State) {w : Nat} (below : w < 256) : Map.at_ s.stagedWins w (0, 0) = s.stagedWin w := by
  unfold State.stagedWins
  exact Map.at_foldl_set s.stagedWin (0, 0) below

section
variable (taken : s.cmdTaken hepWinCmd = true) (idle : s.winBusy = false) (go : v.getLsbD 0 = true)
include taken idle go

theorem State.opWinCommit_takes (good : ∀ w, w < 256 → badWin (s.stagedWin w) = false) :
    s.opWinCommit v = { s.drawn with hep := { s.hep with
      winStat := 0, win := s.stagedWins, winTill := s.clock + s.freeNext % (usec 1 + 1) } } := by
  have fine : (List.range 256).any (fun w => badWin (s.stagedWin w)) = false :=
    List.any_eq_false.2 fun w below => by simp [good w (List.mem_range.1 below)]
  unfold State.opWinCommit
  rw [idle, State.onCmd_taken _ _ taken]
  simp only [go, List.any_map, Function.comp_def, fine, List.foldl_map, State.stagedWins, Bool.not_true,
    Bool.false_eq_true, if_false]

theorem State.opWinCommit_refuses {w : Nat} (below : w < 256) (bad : badWin (s.stagedWin w) = true) :
    s.opWinCommit v = { s with hep := { s.hep with winStat := 3 } } := by
  have found : (List.range 256).any (fun w => badWin (s.stagedWin w)) = true :=
    List.any_eq_true.2 ⟨w, List.mem_range.2 below, bad⟩
  unfold State.opWinCommit
  rw [idle, State.onCmd_taken _ _ taken]
  simp only [go, List.any_map, Function.comp_def, found, Bool.not_true, Bool.false_eq_true, if_false, if_true]

end

end Sys2Proof.Machine
end

section
/-! PROOFS. Completions and timeouts of the device's reads (R267), and vectors (R273, R274). -/

namespace Sys2Proof.Machine

variable {s : State}

/-- A command completes as p says when p holds of every state that differs from what its operation leaves in INTA, in what
has left the device since, and in the queue of commands. -/
theorem Completes.of_left {i : Instr} {t : State} {p : State → Prop} (ran : exec i s = done s t)
    (left : ∀ (w : State) (b : Bool), w.hep = { t.hep with inta := b } → w.rest = t.rest → w.regs = t.regs →
      (∀ o ∈ t.out, o ∈ w.out) → p w) : Completes i s p := by
  obtain ⟨b, o, ends⟩ := s.ended_parts t
  exact .of_op ran (left (s.ended t) b (by rw [ends]) (s.ended_rest t) (s.ended_regs t) fun _ => s.ended_out)

/-! R267: completions and timeouts. -/

section
variable {tag : Nat} {use : TagUse}

theorem State.opCpl_data {d : List Byte} (issued : Map.get (s.rxCpl 0 d.length).hep.tags tag = some use) :
    s.opCpl tag (.ok d) = (((s.rxCpl 0 d.length).dropTag tag).readEnded use (some d)).retryFlush := by
  simp [State.opCpl, issued]

theorem State.opCpl_error (issued : Map.get (s.rxCpl 0 0).hep.tags tag = some use) :
    s.opCpl tag .error = (((s.rxCpl 0 0).dropTag tag).readEnded use none).retryFlush := by
  simp [State.opCpl, issued]

theorem State.opCpl_poisoned (issued : Map.get (s.rxCpl 0 0).hep.tags tag = some use) :
    s.opCpl tag .poisoned = ((((s.rxCpl 0 0).dropTag tag).aerLog .poisoned).readEnded use none).retryFlush := by
  simp [State.opCpl, issued]

theorem State.opCpl_badEcrc (checks : (s.rxCpl 0 0).ecrcOn = true) :
    s.opCpl tag .badEcrc = (s.rxCpl 0 0).aerLog .ecrc := if_pos checks

theorem State.opCplTimeout_issued (issued : Map.get s.hep.tags tag = some use) :
    s.opCplTimeout tag = ((s.dropTag tag).readEnded use none).timedOut.retryFlush := by
  unfold State.opCplTimeout
  rw [issued]

end

/-! R273: PF0 vectors. -/

theorem State.fireVector_sent {v : Nat} (opened : s.msixOpen v = true) :
    s.fireVector v = ((s.emit (s.msixMessage v)).stat intrSent).stat statTxTlp := if_pos opened

theorem State.fireVector_held {v : Nat} (shut : s.msixOpen v = false) :
    s.fireVector v = if v ∈ s.hep.pend then s else { s with hep := { s.hep with pend := s.hep.pend ++ [v] } } := by
  unfold State.fireVector
  simp [shut]

theorem State.opMsixPending_sent {v : Nat} (pends : v ∈ s.hep.pend) (opened : s.msixOpen v = true) :
    s.opMsixPending v = ((({ s with hep := { s.hep with pend := s.hep.pend.erase v } } : State).emit
      (s.msixMessage v)).stat intrSent).stat statTxTlp := by
  unfold State.opMsixPending
  rw [if_pos (by simp [pends, opened])]
  exact State.fireVector_sent opened

/-! R274: instance vectors. -/

theorem State.opIvFire_current {n i : Nat} {g : Byte} {x : Inst}
    (holds : s.qim.inst.find? (fun e => decide (e.2.st ≠ .free ∧ e.2.vbase ≤ n ∧ n < e.2.vbase + e.2.vcount)) =
      some (i, x)) (gen : x.gen = g) : s.opIvFire n g = s.fireInst i (n - x.vbase) := by
  unfold State.opIvFire
  rw [holds]
  exact if_pos gen

/-- R274: the entry in HEP_IV_DATA. -/
def State.ivStaged (s : State) : BitVec 128 :=
  s.getReg (hepIvData 3) ++ s.getReg (hepIvData 2) ++ s.getReg (hepIvData 1) ++ s.getReg (hepIvData 0)

/-- R274: what a write of d makes of an entry: the bits that software writes, and the entry's own state. -/
def ivWritten (d old : BitVec 128) : BitVec 128 :=
  (d &&& ((0xC000FFFF <<< 96) ||| 0xFFFFFFFFFFFFFFFFFFFFFFFC)) ||| (old &&& (3 <<< 124))

/-- R274: STATUS of HEP_IV_CMD. -/
def State.ivStatus (s : State) (k : Nat) : State := { s with hep := { s.hep with ivStat := k } }

/-- R274: an entry is written, and STATUS says so. -/
def State.ivSet (s : State) (n : Nat) (e : BitVec 128) : State := (s.setIv n e).ivStatus 0

/-- R274: an entry that differs from what an unlisted one holds reads back whatever the table's form. -/
theorem State.ivSet_iv (n : Nat) {e : BitVec 128} (other : e ≠ s.hep.ivDflt) : (s.ivSet n e).iv n = e :=
  Map.at_set_ne _ _ _ other

/-- R274: HEP_IV_CMD takes the command of an operation. -/
def State.ivCommanded (s : State) (op : Nat) (v : Word) : State :=
  s.setReg hepIvCmd (BitVec.ofNat 32 (putBits v.toNat 3 0 op) &&& 0xF)

theorem State.ivCommanded_ivStaged (s : State) (op : Nat) (v : Word) : (s.ivCommanded op v).ivStaged = s.ivStaged := by
  have data (k : Nat) : (s.ivCommanded op v).getReg (hepIvData k) = s.getReg (hepIvData k) :=
    s.getReg_setReg_other _ (by unfold hepIvData hepIvCmd; omega)
  simp only [State.ivStaged, data]

/-- R274: while HEP_IV_DATA takes the words of an entry, the entry stays as it was. -/
theorem State.ivData_foldl (l : List Nat) {n : Nat} {e : BitVec 128} (entry : s.iv n = e) :
    l.foldl (fun (w : State) k => w.setReg (hepIvData k) ((w.iv n).extractLsb' (32 * k) 32)) s =
      l.foldl (fun (w : State) k => w.setReg (hepIvData k) (e.extractLsb' (32 * k) 32)) s := by
  induction l generalizing s with
  | nil => rfl
  | cons k l ih =>
    rw [List.foldl_cons, List.foldl_cons, entry]
    exact ih entry

section
variable {v : Word} (taken : s.cmdTaken hepIvCmd = true)
include taken

theorem State.opIv_read : s.opIv 1 v =
    ((List.range 4).foldl (fun (w : State) k =>
      w.setReg (hepIvData k) ((s.iv (s.regBits hepIvIndex 17 0)).extractLsb' (32 * k) 32))
        (s.ivCommanded 1 v)).ivStatus 0 := by
  unfold State.opIv State.opIvCmd
  rw [State.onCmd_taken _ _ taken, bits_putBits_low v.toNat 1 (by decide)]
  exact congrArg (State.ivStatus · 0) (State.ivData_foldl (s := s.ivCommanded 1 v) (List.range 4) rfl)

theorem State.opIv_write {n : Nat} {e : BitVec 128} (index : s.regBits hepIvIndex 17 0 = n)
    (entry : ivWritten s.ivStaged (s.iv n) = e) (owner : (s.ivStaged.extractLsb' 96 16).toNat < s.instCap)
    (calm : e.getLsbD 125 = false) (other : e ≠ s.hep.ivDflt) :
    s.opIv 2 v = (s.ivCommanded 2 v).ivSet n e := by
  have holds : ((s.ivCommanded 2 v).ivSet n e).iv n = e := State.ivSet_iv n other
  rw [← State.ivCommanded_ivStaged s 2 v] at entry owner
  unfold State.opIv State.opIvCmd
  rw [State.onCmd_taken _ _ taken, bits_putBits_low v.toNat 2 (by decide)]
  refine (if_neg (Nat.not_le_of_lt owner)).trans ?_
  subst index
  show (if (((s.ivCommanded 2 v).ivSet _ (ivWritten (s.ivCommanded 2 v).ivStaged (s.iv _))).iv _).getLsbD 125 && _ then _
    else (s.ivCommanded 2 v).ivSet _ (ivWritten (s.ivCommanded 2 v).ivStaged (s.iv _))) = _
  rw [entry, holds, calm]
  rfl

end

end Sys2Proof.Machine
end

section
/-! PROOFS. What the work of other units leaves of the endpoint (chapter 11): operations that leave it as it is, and those
that leave its translations. -/

namespace Sys2Proof.Machine

variable {s t u : State}

/-! Operations that leave the endpoint as it is. -/

theorem State.countN_hep (s : State) (a n : Nat) : (s.countN a n).hep = s.hep := by
  obtain ⟨r, x, counted⟩ := s.countN_regs a n
  rw [counted]

theorem State.countTlp_hep (s : State) (r k a n : Nat) : (s.countTlp r k a n).hep = s.hep := by
  unfold State.countTlp
  dsimp only
  split <;> rfl

theorem State.land_hep (s : State) (a : Nat) (d : List Byte) : (s.land a d).hep = s.hep := by
  obtain ⟨c, p, lands⟩ := s.land_mem a d
  rw [lands]

theorem State.writePieces_hep (s : State) (p : Option (BitVec 20)) (r : ReqAttr) (l : List (Bool × Nat × Nat))
    (d : List Byte) : (s.writePieces p r l d).hep = s.hep := by
  induction l generalizing s d with
  | nil => rfl
  | cons x l ih =>
    obtain ⟨xl, a, n⟩ := x
    exact (ih _ _).trans (State.countTlp_hep _ _ _ _ _)

/-- R276: PF0's writes are not translated, and leave the endpoint as it is. -/
theorem State.putPf0_hep (s : State) (a : Nat) (d : List Byte) : (s.putPf0 a d).hep = s.hep := by
  unfold State.putPf0 State.hostPut State.putOrdered
  split
  · rfl
  · exact s.writePieces_hep _ _ _ _

theorem State.dbgStopped_hep (s : State) (t : Nat) : (s.dbgStopped t).hep = s.hep := by
  unfold State.dbgStopped
  dsimp only
  split <;> rfl

theorem State.leaveWait_hep (s : State) (t rd : Nat) (v : BitVec 64) : (s.leaveWait t rd v).hep = s.hep := by
  unfold State.leaveWait
  dsimp only
  split
  · exact State.dbgStopped_hep _ _
  · rfl

theorem State.threadEvent_hep (s : State) (t : Nat) (m : BitVec 29) : (s.threadEvent t m).hep = s.hep := by
  unfold State.threadEvent
  dsimp only
  split
  · split
    · rfl
    · exact State.leaveWait_hep _ _ _ _
  · rfl

theorem State.writeBack_hep (s : State) (c status : Nat) : (s.writeBack c status).hep = s.hep := by
  have lands (s : State) (a : Nat) (d : List Byte) : (if s.chBad c a d.length then s else s.land a d).hep = s.hep := by
    split
    · rfl
    · exact s.land_hep a d
  unfold State.writeBack
  dsimp only
  split
  · exact (State.putPf0_hep _ _ _).trans (State.putPf0_hep _ _ _)
  · exact (lands _ _ _).trans (lands _ _ _)

/-- R338: completions that are received change the credits of the endpoint. -/
theorem State.rxCpl_hep (s : State) (a n : Nat) : ∃ r x, (s.rxCpl a n).hep = { s.hep with rxAdv := r, rxUsed := x } := by
  unfold State.rxCpl State.rxCredits
  dsimp only
  rw [s.countTlp_hep]
  exact ⟨_, _, rfl⟩

/-! R276: operations that leave the translations held and those asked for. -/

/-- R276: t holds the translations that s holds, and has asked for those that s has asked for. -/
def KeepsAts (s t : State) : Prop := t.hep.cache = s.hep.cache ∧ t.hep.atsWait = s.hep.atsWait

theorem KeepsAts.trans (h : KeepsAts s t) (k : KeepsAts t u) : KeepsAts s u := ⟨k.1.trans h.1, k.2.trans h.2⟩

theorem KeepsAts.of_hep (same : t.hep = s.hep) : KeepsAts s t :=
  ⟨congrArg Hep.cache same, congrArg Hep.atsWait same⟩

theorem State.fireVector_keepsAts (s : State) (v : Nat) : KeepsAts s (s.fireVector v) := by
  unfold State.fireVector
  split
  · exact ⟨rfl, rfl⟩
  · split <;> exact ⟨rfl, rfl⟩

theorem State.setEvt_keepsAts (s : State) (a v : Nat) (m : Word) : KeepsAts s (s.setEvt a v m) := by
  unfold State.setEvt
  dsimp only
  split
  · exact ⟨rfl, rfl⟩
  · split
    · exact ⟨rfl, rfl⟩
    · exact State.fireVector_keepsAts _ v

theorem State.dmaEvent_keepsAts (s : State) (b : Nat) : KeepsAts s (s.dmaEvent b) := s.setEvt_keepsAts _ _ _

theorem State.halt_keepsAts (s : State) (c : Nat) : KeepsAts s (s.halt c) := State.dmaEvent_keepsAts _ 2

theorem State.progOver_keepsAts (s : State) (c status : Nat) : KeepsAts s (s.progOver c status) := by
  unfold State.progOver
  extract_lets x idle counted told
  have counts : counted.hep = s.hep := by
    unfold counted
    split
    case h_1 | h_7 => rfl
    all_goals exact State.countN_hep _ _ 1
  have tells : KeepsAts s told := by
    unfold told
    split
    · exact (KeepsAts.of_hep counts).trans (State.dmaEvent_keepsAts _ 1)
    · exact .of_hep counts
  split
  · exact tells.trans (.of_hep (State.threadEvent_hep _ _ _))
  · exact tells

theorem State.settleEnd_keepsAts (s : State) (c : Nat) : KeepsAts s (s.settleEnd c) := by
  unfold State.settleEnd
  dsimp only
  split
  case h_2 => exact ⟨rfl, rfl⟩
  case h_1 status _ =>
    split
    · exact ⟨rfl, rfl⟩
    split
    · exact s.progOver_keepsAts c status
    split
    · split
      · exact s.progOver_keepsAts c status
      · exact State.dmaEvent_keepsAts _ 2
    · exact (KeepsAts.of_hep (s.writeBack_hep c status)).trans (State.progOver_keepsAts _ c status)

theorem State.endProg_keepsAts (s : State) (c status : Nat) : KeepsAts s (s.endProg c status) :=
  State.settleEnd_keepsAts _ c

theorem State.issueRead_keepsAts {p : Option (BitVec 20)} {use : TagUse} {x : Bool × Nat × Nat} {b : Bool}
    (issued : s.issueRead p use x b = some t) : KeepsAts s t := by
  unfold State.issueRead at issued
  obtain ⟨n, -, rfl⟩ := Option.map_eq_some_iff.1 issued
  exact ⟨rfl, rfl⟩

end Sys2Proof.Machine
end

section
/-! PROOFS. Translations (R276, R277): a translation that the endpoint holds stays while the transfers that wait go on, and
what an invalidation takes out. -/

namespace Sys2Proof.Machine

variable {s t : State} {p : Option (BitVec 20)} {page x : Nat}

/-- R276: the endpoint holds x as the translation of a page, and has not asked for one. -/
def State.Translates (s : State) (p : Option (BitVec 20)) (page x : Nat) : Prop :=
  Map.get s.hep.cache (atsKey p page) = some x ∧ ∀ y ∈ s.hep.atsWait, y.pasid ≠ p ∨ y.page ≠ page

theorem KeepsAts.translates (kept : KeepsAts s t) (holds : s.Translates p page x) : t.Translates p page x := by
  unfold State.Translates
  rw [kept.1, kept.2]
  exact holds

/-- R276: a request for a translation goes out for a page of which the endpoint holds none. -/
theorem State.xlate_translates (holds : s.Translates p page x) (who : Option (BitVec 16)) (a n c : Nat) :
    (s.xlate who a n c).2.Translates p page x := by
  unfold State.xlate
  split
  · exact holds
  dsimp only
  split
  · exact holds
  rename_i miss missed
  split
  · exact holds
  split
  · exact holds
  refine ⟨holds.1, fun y waits => ?_⟩
  obtain waits | rfl := List.mem_append.1 waits |>.imp_right List.mem_singleton.1
  · exact holds.2 y waits
  by_contra same
  obtain ⟨rfl, rfl⟩ := not_or.1 same |>.imp not_not.1 not_not.1
  have none := List.find?_some missed
  rw [holds.1] at none
  exact Bool.false_ne_true none

theorem State.chHost_translates (holds : s.Translates p page x) (c a n : Nat) (w : Bool) :
    (s.chHost c a n w).2.2.Translates p page x := by
  unfold State.chHost
  split
  · split
    · split <;> exact holds
    · exact holds
  · exact State.xlate_translates holds _ a n c

theorem State.issueFlush_translates (holds : s.Translates p page x) (c : Nat) : (s.issueFlush c).Translates p page x := by
  unfold State.issueFlush
  dsimp only
  split
  · exact holds
  split
  case isFalse => exact holds
  split
  · exact (s.halt_keepsAts c).translates holds
  have asked := State.chHost_translates holds c (s.chan c).flushAt 1 false
  split <;> rename_i host <;> rw [host] at asked
  · split
    · rename_i issued
      exact (State.issueRead_keepsAts issued).translates asked
    · exact asked
  · exact asked
  · exact (State.endProg_keepsAts _ c 6).translates asked

theorem State.retryFlush_translates (holds : s.Translates p page x) : s.retryFlush.Translates p page x := by
  unfold State.retryFlush
  induction s.dma.ch generalizing s with
  | nil => exact holds
  | cons e l ih =>
    refine ih ?_
    dsimp only
    split
    · exact State.issueFlush_translates holds e.1
    · exact holds

/-- R276: a translation that the cache has room for is held from then on. -/
theorem State.cachePut_room {k : Nat} (room : s.hep.cache.length < 65536) :
    s.cachePut k x = { s with hep := { s.hep with cache := Map.put s.hep.cache k x } } := if_pos room

/-- R276: a Translation Completion has been received: nothing waits for its page any more. -/
def State.translated (s : State) (p : Option (BitVec 20)) (page : Nat) : State :=
  let u := s.rxCpl 0 8
  { u with hep := { u.hep with atsWait := u.hep.atsWait.filter (fun w => !(w.pasid = p && w.page = page)) } }

/-- R276: the translation that was waited for is held, and waited for no more. -/
theorem State.opAtsResult_translates {w : AtsWait} (on : s.hep.ats = true) (waits : w ∈ s.hep.atsWait)
    (pasid : w.pasid = p) (asks : w.page = page) (valid : ∀ i ∈ s.hep.inval, i.covers p page = false)
    (room : s.hep.cache.length < 65536) : (s.opAtsResult p page (some x)).Translates p page x := by
  have asked : s.hep.atsWait.any (fun w => w.pasid = p && w.page = page) = true :=
    List.any_eq_true.2 ⟨w, waits, by simp [pasid, asks]⟩
  have fresh : s.hep.inval.any (fun i => i.covers p page) = false :=
    List.any_eq_false.2 fun i stands => by simp [valid i stands]
  obtain ⟨a, b, received⟩ := s.rxCpl_hep 0 8
  have result : s.opAtsResult p page (some x) = ((s.translated p page).cachePut (atsKey p page) x).retryFlush := by
    unfold State.opAtsResult State.translated
    rw [asked]
    simp only [received, on, fresh]
    rfl
  have held : (s.translated p page).cachePut (atsKey p page) x = _ :=
    State.cachePut_room (show (s.rxCpl 0 8).hep.cache.length < 65536 by rw [received]; exact room)
  rw [result, held]
  refine State.retryFlush_translates ⟨Map.get_put_same _ _ _, fun y stays => ?_⟩
  simpa using (List.mem_filter.1 stays).2

/-! R277: invalidations. -/

theorem atsKey_page (q : Option (BitVec 20)) {n : Nat} (fits : n < 2 ^ 52) : atsKey q n % 2 ^ 52 = n := by
  unfold atsKey
  omega

theorem keyPasid_atsKey (q : Option (BitVec 20)) (n : Nat) : keyPasid (atsKey q n) = q := by
  unfold keyPasid atsKey
  have page : n % 2 ^ 52 < 2 ^ 52 := Nat.mod_lt _ (by decide)
  rw [Nat.mul_comm, Nat.mul_add_div (by decide), Nat.div_eq_of_lt page, Nat.add_zero]
  cases q with
  | none => rfl
  | some q => simp [q.isLt]

/-- R277: an invalidation covers each page of its range, for the PASIDs that its scope names. -/
theorem Inval.covers_scope {i : Inval} {q : Option (BitVec 20)} {n : Nat}
    (names : i.scope = .global ∨ (i.scope = .untagged ∧ q = none) ∨ ∃ r, i.scope = .pasid r ∧ q = some r)
    (least : i.page ≤ n) (most : n < i.page + i.pages) : i.covers q n = true := by
  unfold Inval.covers
  obtain all | ⟨none, rfl⟩ | ⟨r, one, rfl⟩ := names
  · simp [all, least, most]
  · simp [none, least, most]
  · simp [one, least, most]

/-- R277: the only invalidation that stands, with no request to wait for, is answered. -/
theorem State.checkInval_answers {i : Inval} (only : s.hep.inval = [i]) (reads : i.reads = []) (bursts : i.bursts = []) :
    s.checkInval = (({ s with hep := { s.hep with inval := [] } } : State).emit
      (.atsInvalidated i.itag)).stat statTxTlp := by
  unfold State.checkInval
  rw [only]
  unfold State.settleInval
  rw [only]
  dsimp only
  rw [reads, bursts]
  rfl

/-- R277: the endpoint without the translations in the range of an invalidation, when none stands. -/
def State.uncached (s : State) (i : Inval) : State :=
  { s with hep := { s.hep with
    cache := s.hep.cache.filter (fun e => !i.covers (keyPasid e.1) (e.1 % 2 ^ 52)), inval := [] } }

theorem State.uncached_get {i : Inval} {q : Option (BitVec 20)} {n : Nat} (covered : i.covers q n = true)
    (fits : n < 2 ^ 52) : Map.get (s.uncached i).hep.cache (atsKey q n) = none :=
  Map.get_filter_out s.hep.cache (fun k => !i.covers (keyPasid k) (k % 2 ^ 52)) (by
    rw [keyPasid_atsKey, atsKey_page q fits, covered]
    rfl)

/-- R277: an invalidation that finds no request to wait for is answered, and the translations in its range are gone. -/
theorem State.opAtsInval_free {u : State} {c : AtsScope} {pages : Nat} {itag : BitVec 5}
    (received : (s.rxPosted 8).stat statAtsInv = u) (tags : u.hep.tags = []) (first : u.hep.inval = [])
    (bursts : ∀ e ∈ u.dma.ch, e.2.queue = []) :
    s.opAtsInval c page pages itag =
      ((u.uncached { itag := itag, scope := c, page := page, pages := pages, reads := [] }).emit
        (.atsInvalidated itag)).stat statTxTlp := by
  have held (f : Nat × Chan → Burst → Bool) (g : Nat × Chan → Burst → Nat × Nat × Nat) :
      u.dma.ch.flatMap (fun e => (e.2.queue.filter (f e)).map (g e)) = [] :=
    List.flatMap_eq_nil_iff.2 fun e listed => by rw [bursts e listed]; rfl
  unfold State.opAtsInval State.uncached
  rw [received]
  dsimp only
  rw [first, tags, held]
  exact (if_neg (by decide)).trans ((State.checkInval_answers rfl rfl rfl).trans rfl)

end Sys2Proof.Machine
end

section
/-! PROOFS. SPDM requests (R278, R411): those that the responder answers alone, and those that it takes across the glove;
then the statement on the requests of the endpoint. -/

namespace Sys2Proof.Machine

variable {s : State} {r a : List Byte}

/-- R261: a configuration request is taken while the link is up and the function is ready. -/
theorem State.onCfg_ready {f : State → State} (up : s.hep.up = true) (ready : s.hep.crs = false)
    (stands : s.hep.flrAt = none) : s.onCfg f = (f s.rxRequest).stat statTxTlp := by
  unfold State.onCfg
  simp [up, ready, stands]

/-- R278: the responder takes a request: no reset runs, the request fits a data object, and none is in progress. -/
structure State.SpdmTakes (s : State) (r : List Byte) : Prop where
  up : s.hep.up = true
  ready : s.hep.crs = false
  stands : s.hep.flrAt = none
  fits : r.length ≤ 4088
  free : s.hep.doe = none

theorem State.opSpdm_version (takes : s.SpdmTakes r) (kind : spdmKind r = 1) : s.opSpdm r = s.spdmSay r spdmVersion := by
  obtain ⟨up, ready, stands, fits, free⟩ := takes
  simp [State.opSpdm, up, ready, stands, Nat.not_lt.2 fits, free, kind]

section
variable (takes : s.SpdmTakes r) (code : beAt r 0 1 = 0x12)
include takes code

/-- R278: capabilities are given once the version has been. -/
theorem State.opSpdm_capabilities (begun : s.hep.spdm ≠ 0) (kind : spdmKind r = 2) :
    s.opSpdm r = s.spdmSay r spdmCapabilities := by
  obtain ⟨up, ready, stands, fits, free⟩ := takes
  simp [State.opSpdm, State.spdmAlone, up, ready, stands, Nat.not_lt.2 fits, free, kind, begun, code]

theorem State.opSpdm_algorithms (begun : s.hep.spdm ≠ 0) (kind : spdmKind r = 3) :
    s.opSpdm r = s.spdmSay r (spdmAlgorithms r) := by
  obtain ⟨up, ready, stands, fits, free⟩ := takes
  simp [State.opSpdm, State.spdmAlone, up, ready, stands, Nat.not_lt.2 fits, free, kind, begun, code]

/-- R278: unsigned measurements are given once the algorithms have been. -/
theorem State.opSpdm_measurements (agreed : 3 ≤ s.hep.spdm) (kind : spdmKind r = 7) (life : s.field.life ≠ 3)
    (unsigned : measSigned r = false) (answers : s.measAnswer r (s.freeBytes 32) = some a) :
    s.opSpdm r = s.drawn.spdmSay r a := by
  obtain ⟨up, ready, stands, fits, free⟩ := takes
  have begun : s.hep.spdm ≠ 0 := by omega
  simp [State.opSpdm, State.spdmAlone, up, ready, stands, Nat.not_lt.2 fits, free, kind, begun, Nat.not_lt.2 agreed, code,
    life, unsigned, answers]

/-- R411: a certificate's chain is read across the glove. -/
theorem State.opSpdm_certificate (agreed : 3 ≤ s.hep.spdm) (kind : spdmKind r = 5) (slot : beAt r 2 1 % 16 ≤ 1)
    (peer : s.gloveH.peerUp = true) :
    s.opSpdm r = ({ s with hep := { s.hep with doe := some r } } : State).spdmAsk 0x2F32 (beAt r 2 1 % 16 + 1) 0 none := by
  obtain ⟨up, ready, stands, fits, free⟩ := takes
  have begun : s.hep.spdm ≠ 0 := by omega
  simp [State.opSpdm, State.spdmAlone, up, ready, stands, Nat.not_lt.2 fits, free, kind, begun, Nat.not_lt.2 agreed, code,
    Nat.not_lt.2 slot, peer]

end

/-! R278: the mailbox. -/

section
variable {dt : Nat} (up : s.hep.up = true) (ready : s.hep.crs = false) (stands : s.hep.flrAt = none)
include up ready stands

theorem exec_spdmRequest {t : State} (fits : r.length ≤ 4088) (op : (s.advance dt).rxRequest.opSpdm r = t) :
    exec (.spdmRequest dt r) s = .next (s.ended (t.stat statTxTlp)) :=
  congrArg (done s) ((State.onCfg_ready (s := s.advance dt) up ready stands).trans
    (congrArg (State.stat · statTxTlp) ((if_neg (Nat.not_lt.2 fits)).trans op)))

theorem exec_spdmRequest_long (long : 4088 < r.length) : let u := (s.advance dt).rxRequest
    exec (.spdmRequest dt r) s =
      .next (s.ended (({ u with hep := { u.hep with doeErr := true } } : State).stat statTxTlp)) :=
  congrArg (done s) ((State.onCfg_ready (s := s.advance dt) up ready stands).trans
    (congrArg (State.stat · statTxTlp) (if_pos long)))

end

/-- Settles O26: each command is its operation, whose case the premises decide. A translation that has come stays while the
transfers that waited for it go on, since a request goes out for a page of which the endpoint holds none. -/
theorem requestCommandsComplete : Obligations.RequestCommandsComplete := by
  refine ⟨?peerRead, ?peerWrite, ?peerClosed, ?peerLate, ?commit, ?commitRefused, ?cplData, ?cplFailed, ?cplEcrc, ?timeout,
    ?fire, ?held, ?pending, ?vector, ?entries, ?translation, ?invalidation, ?version, ?exchange, ?long⟩
  case peerRead =>
    intro s rid off n u e a opened hits reaches good
    exact congrArg (done s) (State.peerAccess_read rfl rfl opened hits reaches good)
  case peerWrite =>
    intro s rid off d u e a opened hits reaches
    exact congrArg (done s) (State.peerAccess_write rfl rfl opened hits reaches)
  case peerClosed =>
    intro s rid off n u e opened misses
    exact congrArg (done s) (State.peerAccess_closed rfl rfl opened misses)
  case peerLate =>
    intro s rid off n u opened hits
    exact congrArg (done s) (State.peerAccess_late rfl rfl opened hits)
  case commit =>
    intro s v taken idle go good
    refine .of_left (congrArg (done s) (State.opWinCommit_takes taken idle go good)) fun t b hep rest regs _ => ?_
    rw [hep, rest, regs]
    dsimp only
    exact ⟨rfl, fun w below => s.stagedWins_at below, rfl, rfl⟩
  case commitRefused =>
    intro s v w taken idle go below bad
    exact congrArg (done s) (State.opWinCommit_refuses taken idle go below bad)
  case cplData =>
    intro s dt tag d use u issued
    exact congrArg (done s) (State.opCpl_data issued)
  case cplFailed =>
    intro s dt tag use u issued
    exact ⟨congrArg (done s) (State.opCpl_error issued), congrArg (done s) (State.opCpl_poisoned issued)⟩
  case cplEcrc =>
    intro s dt tag u checks
    exact congrArg (done s) (State.opCpl_badEcrc checks)
  case timeout =>
    intro s dt tag use u issued
    exact congrArg (done s) (State.opCplTimeout_issued issued)
  case fire =>
    intro s v opened
    exact congrArg (done s) (State.fireVector_sent opened)
  case held =>
    intro s v shut
    exact congrArg (done s) (State.fireVector_held shut)
  case pending =>
    intro s v pends opened
    refine .of_left (congrArg (done s) (State.opMsixPending_sent pends opened)) fun t b hep rest _ out => ?_
    rw [hep, rest]
    exact ⟨out _ (List.mem_append_right _ (List.mem_singleton.2 rfl)), rfl, rfl⟩
  case vector =>
    intro s v g i x holds gen
    exact congrArg (done s) (State.opIvFire_current holds gen)
  case entries =>
    intro s v taken u n d e
    refine ⟨congrArg (done s) (State.opIv_read taken), fun owner calm other => ?_⟩
    refine .of_left (congrArg (done s) (State.opIv_write taken rfl rfl owner calm other)) fun t b hep rest _ _ => ?_
    unfold State.iv
    rw [hep, rest]
    exact ⟨State.ivSet_iv n other, rfl, rfl⟩
  case translation =>
    intro s dt p page x w on waits pasid asks valid room
    refine .of_left rfl fun t b hep _ _ _ => ?_
    rw [hep]
    exact State.opAtsResult_translates (s := s.advance dt) on waits pasid asks valid room
  case invalidation =>
    intro s c page pages itag tags first bursts
    refine .of_left (congrArg (done s) (State.opAtsInval_free rfl tags first bursts)) fun t b hep _ _ out => ?_
    rw [hep]
    exact ⟨out _ (List.mem_append_right _ (List.mem_singleton.2 rfl)), rfl,
      fun q n names least most fits => State.uncached_get (Inval.covers_scope names least most) fits⟩
  case version =>
    intro s dt r u up ready stands fits free kind
    exact exec_spdmRequest up ready stands fits (State.opSpdm_version ⟨up, ready, stands, fits, free⟩ kind)
  case exchange =>
    intro s dt r u up ready stands fits free code begun
    have takes : u.SpdmTakes r := ⟨up, ready, stands, fits, free⟩
    refine ⟨fun kind => ?_, fun kind => ?_, fun a agreed kind life unsigned measured => ?_,
      fun agreed kind slot peer => ?_⟩
    · exact exec_spdmRequest up ready stands fits (State.opSpdm_capabilities takes code begun kind)
    · exact exec_spdmRequest up ready stands fits (State.opSpdm_algorithms takes code begun kind)
    · exact exec_spdmRequest up ready stands fits
        (State.opSpdm_measurements takes code agreed kind life unsigned measured)
    · exact exec_spdmRequest up ready stands fits (State.opSpdm_certificate takes code agreed kind slot peer)
  case long =>
    intro s dt r u up ready stands long
    exact exec_spdmRequest_long up ready stands long

end Sys2Proof.Machine
end

section
/-! PROOFS. The machine as a whole: the step runs the command at the front of the queue, and every command that its interface
can carry completes. -/

namespace Sys2Proof.Machine

/-- Settles O53: the queue is empty or has a front, and the step answers each. -/
theorem stepRunsTheFrontCommand : Obligations.StepRunsTheFrontCommand := by
  refine ⟨fun s c q front => ?_, fun s empty => ?_, fun s n w => rfl⟩
  · rw [step, front]
  · have ticks : step s = .next (s.advance 1) := by rw [step, empty]
    exact ticks

/-- R308: an admin command whose entry is 64 bytes completes. -/
theorem entry_completes {e : List Byte} (wf : entryWf e = true) (s u : State) :
    ∃ t, (if e.length ≠ 64 then .fault .illFormed else done s u : Host.Outcome State Fault Refusal) = done s t :=
  ⟨u, if_neg (not_not_intro (of_decide_eq_true wf))⟩

/-- R308: an admin command whose entry is not 64 bytes is ill-formed. -/
theorem entry_illFormed {e : List Byte} (len : e.length ≠ 64) (s u : State) :
    (if e.length ≠ 64 then .fault .illFormed else done s u : Host.Outcome State Fault Refusal) = .fault .illFormed :=
  if_pos len

/-- Every command that its interface can carry is done with an effect. The commands of the admin queue are those whose
interface binds what they can be given. -/
theorem exec_completes (c : Instr) (s : State) (wf : c.wf = true) : ∃ t, exec c s = done s t := by
  cases c
  case adminNop | instCreate | instModify | instReset | instDestroy | instQuery | qCreate | qEnable | qDisable | qDestroy |
      qQuery | sessCreate | sessRead | sessModify | sessDestroy | medRespond => exact entry_completes wf _ _
  all_goals exact ⟨_, rfl⟩

/-- Settles O54: a well-formed command is done with an effect, an entry of another length is ill-formed, and whatever a
command answers is its end, which leaves the queue. -/
theorem everyWellFormedCommandCompletes : Obligations.EveryWellFormedCommandCompletes := by
  refine ⟨fun c s wf => ?_, fun s dt e len => ?_, fun c s t next => ?_⟩
  · obtain ⟨t, completes⟩ := exec_completes c s wf
    exact ⟨s.ended t, completes, rfl⟩
  · exact ⟨entry_illFormed len _ _, entry_illFormed len _ _, entry_illFormed len _ _⟩
  · obtain ⟨u, rfl⟩ := exec_ends c s t next
    rfl

end Sys2Proof.Machine
end

section
/-! PROOFS. Queues (R286 to R307, R312): what is fetched, how the entry at the device head begins, the placement of an item
that a receive queue takes, a completion queue that stays full; then the statement on the commands of the queues. -/

namespace Sys2Proof.Machine

variable {s v w z : State} {q : Nat} {x : Queue} {b h : List Byte} {l : List (List Byte)} {r : ReadData}

/-! R287: fetching. -/

/-- R287: slots that are read are taken up to the first head whose phase is not the expected one. -/
theorem State.opWorkFetch_reads {at_ : Word} {room : Nat} {all : List (List Byte)} (queue : x = s.queue q)
    (at_eq : at_ = x.head + BitVec.ofNat 32 x.fetched.length)
    (room_eq : room = min ((x.tail - x.head).toNat + 64 - x.fetched.length) (x.size - at_.toNat % x.size))
    (all_eq : all = x.fetched ++ slotsOf room b) (may : s.mayFetch q = true) (goes : x.stopped = false)
    (placed : s.place q = (true, v)) (some_ : slotsOf room b ≠ [])
    (read : v.unitRead x.owner (x.ring.toNat + 16 * (at_.toNat % x.size)) (16 * (slotsOf room b).length) (.ok b) =
      (some (some b), w)) :
    s.opWorkFetch q (.ok b) = w.modQueue q (fun y => { y with
      fetched := (x.goodSlots all.length x.head all).1, stopped := !(x.goodSlots all.length x.head all).2 }) := by
  subst queue at_eq room_eq all_eq
  have slots := mt List.length_eq_zero_iff.1 some_
  simp only [State.opWorkFetch, may, goes, placed, slots, read, Bool.not_true, Bool.or_self, Bool.false_eq_true, if_false]

/-! R286, R287, R291: the entry at the device head. -/

/-- R287: the entry of a queue that stands whole at the device head, published and fetched, with nothing before it that
waits for its buffer. -/
structure State.AtHead (s : State) (q : Nat) (x : Queue) (h : List Byte) (l : List (List Byte)) (n : Nat)
    (b : List Byte) : Prop where
  queue : x = s.queue q
  slots : n = x.taken x.head h
  bytes : b = (x.fetched.take n).flatten
  none_waits : x.ents.find? (fun e => e.waits x.kind) = none
  fetched : x.fetched = h :: l
  may : s.mayFetch q = true
  whole : n ≤ x.fetched.length
  published : n ≤ (x.tail - x.head).toNat
  fits : entryLen h ≤ n

section
variable {n : Nat} {g : Option (List Byte)}

theorem State.AtHead.begins (head : s.AtHead q x h l n b) :
    (!s.mayFetch q || decide (x.fetched.length < n) || decide ((x.tail - x.head).toNat < n)) = false := by
  rw [head.may, decide_eq_false (Nat.not_lt.2 head.whole), decide_eq_false (Nat.not_lt.2 head.published)]
  rfl

/-- R286: an entry of opcode 0 is passed over. -/
theorem State.opEntryBegin_passes (head : s.settleSends.AtHead q x h l n b) (free : s.settleSends.pipeHolds x = false)
    (nop : leAt b 1 1 = 0) (passed : s.settleSends.passHead q n true = (true, v)) : s.opEntryBegin q r true = v := by
  have begins := head.begins
  obtain ⟨queue, slots, bytes, none_waits, fetched, -, -, -, fits⟩ := head
  have whole : decide (n < entryLen h) = false := decide_eq_false (Nat.not_lt.2 fits)
  unfold State.opEntryBegin
  generalize s.settleSends = u at *
  simp only [fetched] at begins bytes
  simp only [← queue, free, none_waits, fetched, ← slots, ← bytes, begins, whole, nop, passed, decide_true, Bool.not_false,
    Bool.and_self, Bool.false_eq_true, if_false, if_true]

/-- R289, R334: an entry whose head has been passed goes on with its data, once it has its buffer if its kind has one. -/
def State.goOn (s : State) (q : Nat) (x : Queue) (b : List Byte) (g : Option (List Byte)) : State :=
  let data := entryData x.kind (leAt b 1 1) b g
  if decide (2 < x.kind) then s.goEntry q x.entNo b x.stampAt data none
  else match s.txBuffer x (entryBytes x.kind (leAt b 1 1) b) with
    | (none, s) => s.setEnt q x.entNo .waiting
    | (some h, s) => s.goEntry q x.entNo b x.stampAt data (some h)

theorem State.goOn_unbuffered (kind : 2 < x.kind) : s.goOn q x b g =
    s.goEntry q x.entNo b x.stampAt (entryData x.kind (leAt b 1 1) b g) none := if_pos (decide_eq_true kind)

theorem State.goOn_buffered {buf : Word} (kind : x.kind ≤ 2)
    (buffered : s.txBuffer x (entryBytes x.kind (leAt b 1 1) b) = (some buf, v)) : s.goOn q x b g =
    v.goEntry q x.entNo b x.stampAt (entryData x.kind (leAt b 1 1) b g) (some buf) := by
  have unbuffered : decide (2 < x.kind) = false := decide_eq_false (Nat.not_lt.2 kind)
  simp only [State.goOn, unbuffered, buffered, Bool.false_eq_true, if_false]

/-- R287, R291: a well-formed entry that finds its completion place begins. -/
theorem State.opEntryBegin_begins (head : s.settleSends.AtHead q x h l n b) (free : s.settleSends.pipeHolds x = false)
    (asks : leAt b 1 1 ≠ 0) (ready : (decide (x.kind ≤ 2) && s.settleSends.txWaits x) = false)
    (placed : s.settleSends.place q = (true, v)) (formed : v.malformed q b false = false)
    (read : v.entryRead x b r = (some g, w)) (passed : w.passHead q n true = (true, z)) :
    s.opEntryBegin q r true = (z.addEntry q b x.stampAt).goOn q x b g := by
  have begins := head.begins
  obtain ⟨queue, slots, bytes, none_waits, fetched, -, -, -, fits⟩ := head
  have whole : decide (n < entryLen h) = false := decide_eq_false (Nat.not_lt.2 fits)
  unfold State.opEntryBegin State.goOn
  generalize s.settleSends = u at *
  simp only [fetched] at begins bytes
  simp only [← queue, free, none_waits, fetched, ← slots, ← bytes, begins, whole, asks, ready, placed, formed, read, passed,
    decide_false, Bool.not_true, Bool.false_and, Bool.false_eq_true, if_false] <;> rfl

end

/-! R301, R302: receive placement. -/

section
variable {d : Delivery} {rest : List Delivery}

/-- The state from which the oldest delivery has been taken. -/
def State.delivTaken (s : State) (rest : List Delivery) : State := { s with qim := { s.qim with deliv := rest } }

/-- R301, R302: a delivery is placed, or joins the backlog where it cannot be placed now. -/
def State.placeOrKeep (s : State) (d : Delivery) : State :=
  match s.putItem d with
  | (some t, _) => t
  | (none, t) => t.toBacklog d

/-- R301: a delivery of the present generation goes to a receive queue that takes it and has no backlog. -/
theorem State.opPlacement_takes (oldest : s.qim.deliv = d :: rest)
    (current : d.gen = none ∨ d.gen = some ((s.delivTaken rest).queueGen d.queue))
    (receives : ((s.delivTaken rest).queue d.queue).kind = 3)
    (enabled : ((s.delivTaken rest).queue d.queue).st = .enabled)
    (runs : (s.delivTaken rest).ownerRuns ((s.delivTaken rest).queue d.queue) = true)
    (none_back : ((s.delivTaken rest).queue d.queue).back = []) :
    s.opPlacement = (s.delivTaken rest).placeOrKeep d := by
  have isCurrent : ¬ ((d.gen.map (fun (g : Byte) => decide (g ≠ (s.delivTaken rest).queueGen d.queue))).getD false) =
      true := by
    rcases current with none_ | same
    · simp [none_]
    · simp [same]
  have receiving : ¬ (((s.delivTaken rest).queue d.queue).kind ≠ 3 || ((s.delivTaken rest).queue d.queue).st ≠ .enabled ||
      !(s.delivTaken rest).ownerRuns ((s.delivTaken rest).queue d.queue)) = true := by simp [receives, enabled, runs]
  have empty : ((s.delivTaken rest).queue d.queue).back.isEmpty = true := by rw [none_back]; rfl
  unfold State.opPlacement
  rw [oldest]
  exact (if_neg isCurrent).trans ((if_neg receiving).trans (if_pos empty))

/-- R302: the oldest item of the backlog of a queue of PF0 leaves the backlog once it is placed. -/
theorem State.opBacklog_places (oldest : (s.queue q).back = d :: rest) (enabled : (s.queue q).st = .enabled)
    (runs : s.ownerRuns (s.queue q) = true) (pf0 : (s.queue q).owner = none) (placed : s.putItem d = (some v, w)) :
    s.opBacklog q = v.modQueue q (fun x => { x with back := rest }) := by
  simp only [State.opBacklog, oldest, enabled, runs, pf0, placed, ne_eq, not_true_eq_false, decide_false, Bool.not_true,
    Bool.or_self, Bool.false_eq_true, if_false]

end

/-! R303: a completion queue that stays full. -/

/-- R312: an instance event leaves the instances as they were. -/
theorem State.instEvent_inst (s : State) (cause i q k : Nat) : (s.instEvent cause i q).inst k = s.inst k := by
  have kept : (s.instEvent cause i q).qim.inst = s.qim.inst := by
    unfold State.instEvent
    split
    · exact (congrArg Qim.inst (State.setEvt_reports _ _ _ _).qim).trans rfl
    · exact congrArg Qim.inst (s.count_reports _).qim
  rw [State.inst, kept, State.inst]

/-- R303: the stall of a completion queue of an ACTIVE instance puts the instance in ERROR. -/
theorem State.opCqStall_errs {since : Nat} {i : BitVec 16} (full : (s.queue q).fullAt = some since)
    (kind : (s.queue q).kind = 7) (due : s.due since (msec (s.regBits qimCqStall 15 0)) = true)
    (owned : (s.queue q).owner = some i) (active : (s.inst i.toNat).st = .active) :
    ((s.opCqStall q).inst i.toNat).st = .error := by
  simp only [State.opCqStall, full, kind, due, owned, active, decide_true, Bool.and_self, if_true]
  rw [State.instEvent_inst, State.inst_modInst_ne _ _ _ (fun h => InstSt.noConfusion (congrArg Inst.st h))]

/-- R307: a tail within the ring's bounds is published. -/
theorem State.opAqTail_publishes {v : Word} (forward : 0 ≤ (v - s.getReg qimAqTail).toInt)
    (fits : (v - s.qim.aqHead).toNat ≤ 2 ^ s.regBits qimAqCfg 4 0) : s.opAqTail v = s.setReg qimAqTail v :=
  if_neg (by omega)

/-- R305: a reset that has had its 2 µs ends. -/
theorem State.opResetDone_due {i since : Nat} {destroyed : Bool} (resets : (s.inst i).resetAt = some (since, destroyed))
    (past : since + usec 2 ≤ s.clock) : s.opResetDone i = s.endReset i := by
  rw [State.opResetDone, resets]
  exact if_pos (decide_eq_true past)

theorem State.ended_inst (s t : State) (i : Nat) : (s.ended t).inst i = t.inst i :=
  congrArg (fun x : Qim => Map.at_ x.inst i {}) (s.ended_qim t)

/-- Settles O27: each command is its operation, whose case the premises decide. -/
theorem queueCommandsComplete : Obligations.QueueCommandsComplete := by
  refine ⟨?fetch, ?nop, ?begins, ?transmit, ?completion, ?placement, ?backlog, ?stall, ?tail, ?resetDone, ?next⟩
  case fetch =>
    intro s v w dt q b u x at_ room all r may goes placed some_ read
    exact congrArg (done s) (State.opWorkFetch_reads rfl rfl rfl rfl may goes placed some_ read)
  case nop =>
    intro s v dt q r h l u x n free none_waits fetched may whole published fits nop passed
    have head : u.AtHead q.toNat x h l n _ := ⟨rfl, rfl, rfl, none_waits, fetched, may, whole, published, fits⟩
    exact congrArg (done s) (State.opEntryBegin_passes (s := s.advance dt) head free nop passed)
  case begins =>
    intro s v w z dt q h r g l u x n b none_waits fetched may whole published fits asks kind placed formed read passed
    have head : u.AtHead q.toNat x h l n b := ⟨rfl, rfl, rfl, none_waits, fetched, may, whole, published, fits⟩
    have free : u.pipeHolds x = false := by
      rw [State.pipeHolds, decide_eq_false (by omega), Bool.false_and, Bool.false_and]
    have ready : (decide (x.kind ≤ 2) && u.txWaits x) = false := by
      rw [decide_eq_false (Nat.not_le.2 kind), Bool.false_and]
    exact congrArg (done s) ((State.opEntryBegin_begins (s := s.advance dt) head free asks ready placed formed read
      passed).trans (State.goOn_unbuffered kind))
  case transmit =>
    intro s v w z y dt q h r g l buf u x n b free none_waits fetched may whole published fits asks kind unwaited placed
      formed read passed buffered
    have head : u.AtHead q.toNat x h l n b := ⟨rfl, rfl, rfl, none_waits, fetched, may, whole, published, fits⟩
    have ready : (decide (x.kind ≤ 2) && u.txWaits x) = false := by rw [unwaited, Bool.and_false]
    exact congrArg (done s) ((State.opEntryBegin_begins (s := s.advance dt) head free asks ready placed formed read
      passed).trans (State.goOn_buffered kind buffered))
  case completion =>
    intro s dt q u
    rfl
  case placement =>
    intro s v dt d l u w oldest current receives enabled runs none_back
    have takes : u.opPlacement = w.placeOrKeep d :=
      State.opPlacement_takes oldest current receives enabled runs none_back
    refine ⟨fun x placed => congrArg (done s) (takes.trans ?_), fun waits => congrArg (done s) (takes.trans ?_)⟩
    · rw [State.placeOrKeep, placed]
    · rw [State.placeOrKeep, waits]
  case backlog =>
    intro s v w dt q d l u oldest enabled runs pf0 placed
    exact congrArg (done s) (State.opBacklog_places oldest enabled runs pf0 placed)
  case stall =>
    intro s dt q x i u full kind due owned active
    exact .of_op rfl ((congrArg Inst.st (s.ended_inst _ _)).trans (State.opCqStall_errs full kind due owned active))
  case tail =>
    intro s v taken forward fits
    exact congrArg (done s) ((s.onCmd_taken _ taken).trans (State.opAqTail_publishes forward fits))
  case resetDone =>
    intro s dt i x b u resets past
    exact congrArg (done s) (State.opResetDone_due resets past)
  case next =>
    intro s v taken asks
    exact congrArg (done s) ((s.onCmd_taken _ taken).trans (if_pos asks))

end Sys2Proof.Machine
end

section
/-! PROOFS. The admin queue (R307, R308): commands that wait, and the commands for instances (R281, R284, R305). -/

namespace Sys2Proof.Machine

variable {s u v t w : State} {dt : Nat} {e : List Byte} {x y : Inst}

/-- R307: a command that waits leaves the admin queue busy, in the state that its operation leaves. -/
theorem State.admin_waits {f : State → Option (Nat × Nat) × State} (h : u.takesAdmin e v) (hf : f v = (none, t)) :
    u.admin e f = t := by
  obtain ⟨-, ready, phase, kind, w, read, rfl⟩ := h
  simp only [State.admin, ready, phase, read, kind, hf, ne_eq, not_true_eq_false, decide_false, Bool.not_true,
    Bool.or_self, Bool.false_eq_true, if_false]

/-- R307: a command of an entry of 64 bytes ends with what its operation leaves. -/
theorem entry_done (len : e.length = 64) (op : u = t) :
    (if e.length ≠ 64 then .fault .illFormed else done s u : Host.Outcome State Fault Refusal) = .next (s.ended t) :=
  op ▸ if_neg (not_not_intro len)

section
variable (h : u.takesAdmin e v)
include h

/-! R281, R308: instances. -/

theorem State.opNop_done (op : leAt e 1 1 = 0) : u.opNop e = v.adminDone (entTag e) 0 0 :=
  State.admin_done h (by rw [op]; rfl)

theorem State.opInstCreate_done (new : x = instOf e { st := .active, gen := (v.inst (entInst e)).gen, made := slice e 8 36 })
    (free : (v.inst (entInst e)).st = .free) (good : x.badArg = false)
    (inCap : entInst e < v.instCap) (inFunctions : entInst e < v.regBits (QIM + 0x050) 16 0)
    (queues : x.qbase + x.qcount ≤ v.queueCap) (apart : v.instOverlaps (entInst e) x = false) :
    u.opInstCreate e = (v.modInst (entInst e) (fun _ => x)).adminDone (entTag e) 0 (entInst e) :=
  State.admin_done h (by
    have within : ¬ (min v.instCap (v.regBits (QIM + 0x050) 16 0) ≤ entInst e ∨ v.queueCap < x.qbase + x.qcount) := by omega
    simp only [free, ← new, good, within, apart, ne_eq, not_true_eq_false, Bool.false_eq_true, if_false])

theorem State.opInstCreate_taken (used : (v.inst (entInst e)).st ≠ .free) :
    u.opInstCreate e = v.adminDone (entTag e) 0x84 (entInst e) :=
  State.admin_done h (if_pos used)

theorem State.opInstModify_done (new : y = instOf e (v.inst (entInst e))) (used : (v.inst (entInst e)).st ≠ .free)
    (good : y.badArg = false) (queues : y.qbase + y.qcount ≤ v.queueCap) (disabled : v.allDisabled (entInst e) = true)
    (keeps : v.qim.queue.any (fun (q : Nat × Queue) => decide (q.2.owner = some (BitVec.ofNat 16 (entInst e))) &&
      decide (y.qcount ≤ q.2.local_)) = false) (apart : v.instOverlaps (entInst e) y = false) :
    u.opInstModify e = (((v.modInst (entInst e) (fun _ => y)).moveQueues (entInst e) (v.inst (entInst e)).qbase
      y.qbase).checkInst (entInst e)).adminDone (entTag e) 0 (entInst e) :=
  State.admin_done h (by
    simp only [← new, used, good, keeps, Nat.not_lt.2 queues, disabled, apart, Bool.or_self, Bool.not_true, Bool.and_false,
      Bool.false_eq_true, if_false])

theorem State.opInstReset_waits (live : (v.inst (entInst e)).st = .active ∨ (v.inst (entInst e)).st = .error) :
    u.opInstReset e = v.resetInst (entInst e) false (some (entTag e, 0)) :=
  State.admin_waits h (by rcases live with live | live <;> simp only [live])

theorem State.opInstReset_free (free : (v.inst (entInst e)).st = .free) :
    u.opInstReset e = v.adminDone (entTag e) 0x83 (entInst e) :=
  State.admin_done h (by simp only [free])

theorem State.opInstDestroy_free (free : (v.inst (entInst e)).st = .free) :
    u.opInstDestroy e = v.adminDone (entTag e) 0x83 (entInst e) :=
  State.admin_done h (by simp only [free])

theorem State.opInstDestroy_waits (live : (v.inst (entInst e)).st = .active ∨ (v.inst (entInst e)).st = .error)
    (sessions : v.sessUsed (entInst e) = 0)
    (queues : v.qim.queue.any (fun (q : Nat × Queue) => decide (q.2.owner = some (BitVec.ofNat 16 (entInst e))) &&
      q.2.st ≠ .none) = false) :
    u.opInstDestroy e = v.resetInst (entInst e) true (some (entTag e, 0)) :=
  State.admin_waits h (by
    have empty : (false || decide (0 < v.sessUsed (entInst e))) = false := by rw [sessions]; rfl
    rcases live with live | live <;> simp only [live, queues, empty, Bool.false_eq_true, if_false])

theorem State.opInstQuery_done (used : (v.inst (entInst e)).st ≠ .free) (keeps : entClr e = false)
    (put : v.unitPut 6 none (leAt e 16 8) (slicePad (List.replicate 8 0 ++ slicePad (v.inst (entInst e)).made 0 36 ++
      [BitVec.ofNat 8 (v.inst (entInst e)).st.code, (v.inst (entInst e)).gen, if v.overQuota (entInst e) then 1 else 0, 0] ++
      leBytes 4 (v.inst (entInst e)).err ++ leBytes 4 (kib (v.instBacklog (entInst e)))) 0 64) = (some true, w)) :
    u.opInstQuery e = w.adminDone (entTag e) 0 (entInst e) :=
  State.admin_done h (by
    simp only [used, State.answer, put, keeps, Bool.false_and, Bool.false_eq_true, if_false])

theorem State.opMedRespond_done (used : (v.inst (entInst e)).st ≠ .free)
    (current : (v.inst (entInst e)).gen.toNat = leAt e 13 1) (busy : (v.inst (entInst e)).busy = true) :
    u.opMedRespond e = (((v.medEnd (entInst e) (e.getD 12 0)).modInst (entInst e) (fun x => { x with
      response := (slicePad e 16 32).zipIdx.foldl (fun (m : Map Byte) (b : Byte × Nat) => Map.set m b.2 b.1 0) [] })).fireInst
        (entInst e) 0).adminDone (entTag e) 0 (entInst e) :=
  State.admin_done h (by
    simp only [used, current, busy, ne_eq, not_true_eq_false, Bool.not_true, Bool.false_eq_true, if_false])

end

/-- Settles O50: each command is its operation on the taken entry, whose status the premises decide. -/
theorem instanceAdminCompletes : Obligations.InstanceAdminCompletes := by
  intro s v dt e h i x y ends
  have len : e.length = 64 := h.1
  refine ⟨?nop, ?create, ?taken, ?modify, ?reset, ?free, ?destroy, ?query, ?respond⟩
  case nop => exact fun op => entry_done len (State.opNop_done h op)
  case create =>
    intro free good inCap inFunctions queues apart
    exact entry_done len (State.opInstCreate_done h rfl free good inCap inFunctions queues apart)
  case taken => exact fun used => entry_done len (State.opInstCreate_taken h used)
  case modify =>
    intro used good queues disabled keeps apart
    exact entry_done len (State.opInstModify_done h rfl used good queues disabled keeps apart)
  case reset => exact fun live => entry_done len (State.opInstReset_waits h live)
  case free =>
    exact fun free => ⟨entry_done len (State.opInstReset_free h free), entry_done len (State.opInstDestroy_free h free)⟩
  case destroy =>
    exact fun live sessions queues => entry_done len (State.opInstDestroy_waits h live sessions queues)
  case query => exact fun w used keeps put => entry_done len (State.opInstQuery_done h used keeps put)
  case respond => exact fun used current busy => entry_done len (State.opMedRespond_done h used current busy)

end Sys2Proof.Machine
end

section
/-! PROOFS. The admin queue's commands for queues (R289, R290, R304, R308). -/

namespace Sys2Proof.Machine

variable {u v t w : State} {e : List Byte} {owner : Option (BitVec 16)} {base count : Nat} {x : Queue}

/-! R308: a queue that is created. -/

theorem State.opQCreate_offered (h : u.takesAdmin e v) (of_ : v.ownerOf e = some (owner, base, count))
    (new : x = queueOfEntry e owner base) (good : v.badQueue x count (leAt e 32 2) = false)
    (endpoint : x.kind = 1 → leAt e 36 4 < 2 ^ 20) (inCap : base + entLocal e < v.queueCap)
    (free : (v.queue (base + entLocal e)).st = .none) (completes : x.kind = 7 ∨ (v.queue x.cq).st ≠ .none)
    (runs : v.ownerRuns x = true) :
    u.opQCreate e = if v.offered x = true
      then (v.modQueue (base + entLocal e) (fun _ => x)).adminDone (entTag e) 0 (base + entLocal e)
      else v.unavailable.adminDone (entTag e) 0x87 (base + entLocal e) := by
  have local_ : x.local_ = entLocal e := by rw [new]; rfl
  have fits : (decide (x.kind = 1) && decide (2 ^ 20 ≤ leAt e 36 4)) = false := by
    simpa using endpoint
  have bound : (decide (x.kind ≠ 7) && decide ((v.queue x.cq).st = .none)) = false := by
    rcases completes with cq | made
    · simp [cq]
    · simp [made]
  split
  case isTrue on =>
    refine State.admin_done h ?_
    simp only [of_, ← new, local_, good, fits, Nat.not_le.2 inCap, free, bound, runs, on, ne_eq, not_true_eq_false,
      Bool.not_true, Bool.or_self, Bool.false_eq_true, if_false]
  case isFalse off =>
    refine State.admin_done h ?_
    simp only [of_, ← new, local_, good, fits, Nat.not_le.2 inCap, free, bound, runs, off, ne_eq, not_true_eq_false,
      Bool.not_true, Bool.not_false, Bool.or_self, Bool.false_eq_true, if_false, if_true]

/-! R308: a command that names a queue. -/

section
variable (h : u.takesAdmin e v) (of_ : v.ownerOf e = some (owner, base, count)) (below : entLocal e < count)
include h of_ below

theorem State.named_done {f : Nat → State → Option (Nat × Nat) × State} {st d : Nat}
    (made : (v.queue (base + entLocal e)).st ≠ .none) (hf : f (base + entLocal e) v = (some (st, d), t)) :
    u.named e f = t.adminDone (entTag e) st d :=
  State.admin_done h (by simp only [of_, Nat.not_le.2 below, made, hf, if_false])

theorem State.named_waits {f : Nat → State → Option (Nat × Nat) × State}
    (made : (v.queue (base + entLocal e)).st ≠ .none) (hf : f (base + entLocal e) v = (none, t)) : u.named e f = t :=
  State.admin_waits h (by simp only [of_, Nat.not_le.2 below, made, hf, if_false])

theorem State.named_missing {f : Nat → State → Option (Nat × Nat) × State}
    (missing : (v.queue (base + entLocal e)).st = .none) :
    u.named e f = v.adminDone (entTag e) 0x83 (base + entLocal e) :=
  State.admin_done h (by simp only [of_, Nat.not_le.2 below, missing, if_false, if_true])

theorem State.opQEnable_done (disabled : (v.queue (base + entLocal e)).st = .disabled) :
    u.opQEnable e = (v.modQueue (base + entLocal e) (fun x => { x with st := .enabled, stopped := false })).adminDone
      (entTag e) 0 (base + entLocal e) :=
  State.named_done h of_ below (by rw [disabled]; exact fun same => QSt.noConfusion same) (if_pos disabled)

/-- R304: a completion queue is DISABLED at once. -/
theorem State.opQDisable_completion (made : (v.queue (base + entLocal e)).st ≠ .none)
    (enabled : (v.settleSends.queue (base + entLocal e)).st ≠ .disabled)
    (kind : (v.settleSends.queue (base + entLocal e)).kind = 7) :
    u.opQDisable e = (v.settleSends.modQueue (base + entLocal e) (fun x => { x with st := .disabled })).adminDone
      (entTag e) 0 (base + entLocal e) := by
  refine State.named_done h of_ below made ?_
  generalize v.settleSends = z at *
  have notSend : decide (7 = 4) = false := rfl
  simp only [enabled, kind, notSend, decide_false, Bool.false_and, Bool.or_self, Bool.false_eq_true, if_false, if_true]

/-- R304: an entry that waits for what the device gives it ends without effect when its queue is disabled. -/
def Queue.stopWaiting (x : Queue) (y : Entry) : Entry :=
  if (x.kind = 3 ∨ x.kind = 6) ∧ y.st = .waiting then { y with st := .finished 0, len := 0 } else y

/-- R304: a work queue, but one of an active session, begins to stop, and waits for its entries. -/
theorem State.opQDisable_work {z : State} (settled : z = v.settleSends)
    (made : (v.queue (base + entLocal e)).st ≠ .none) (enabled : (z.queue (base + entLocal e)).st ≠ .disabled)
    (kind : (z.queue (base + entLocal e)).kind ≠ 7)
    (session : (z.queue (base + entLocal e)).kind = 4 → ∀ n, z.sessionOf (base + entLocal e) = some n → (z.sess n).st ≠ 1) :
    u.opQDisable e = (z.modQueue (base + entLocal e) (fun x => { x with
      fetched := [], ents := x.ents.map (z.queue (base + entLocal e)).stopWaiting, disabling := some (entTag e, 0)
      st := .disabled })).tryDisable (base + entLocal e) := by
  refine State.named_waits h of_ below made ?_
  generalize base + entLocal e = g at *
  have may : ¬ ((z.queue g).st = .disabled || (decide ((z.queue g).kind = 4) &&
      (match z.sessionOf g with | some n => decide ((z.sess n).st = 1) | none => false))) = true := by
    by_cases send : (z.queue g).kind = 4
    · cases of_ : z.sessionOf g with
      | none => simp [enabled]
      | some n => simp [enabled, session send n of_]
    · simp [enabled, send]
  have stop : (fun y : Entry => if ((z.queue g).kind = 3 || (z.queue g).kind = 6) && y.st = .waiting then
      { y with st := .finished 0, len := 0 } else y) = (z.queue g).stopWaiting := by
    funext y
    simp [Queue.stopWaiting]
  rw [← settled]
  refine (if_neg may).trans ((if_neg kind).trans ?_)
  rw [← stop]

theorem State.opQDestroy_done (disabled : (v.queue (base + entLocal e)).st = .disabled)
    (unbound : (v.queue (base + entLocal e)).kind ≠ 7 ∨ v.boundTo (base + entLocal e) = [])
    (empty : (v.queue (base + entLocal e)).back = []) :
    u.opQDestroy e = (match (v.queue (base + entLocal e)).owner with
      | some i => (v.modQueue (base + entLocal e) (fun _ => {})).checkInst i.toNat
      | none => v.modQueue (base + entLocal e) (fun _ => {})).adminDone (entTag e) 0 (base + entLocal e) := by
  refine State.named_done h of_ below (by rw [disabled]; exact fun same => QSt.noConfusion same) ?_
  have may : ¬ ((v.queue (base + entLocal e)).st ≠ .disabled || (decide ((v.queue (base + entLocal e)).kind = 7) &&
      !(v.boundTo (base + entLocal e)).isEmpty)) = true := by
    rcases unbound with work | unbound
    · simp [disabled, work]
    · simp [disabled, unbound]
  refine (if_neg may).trans ?_
  dsimp only
  rw [empty]
  rfl

/-- R308: what a query of a completion queue writes to BUF. -/
def State.cqAnswer (s : State) (g : Nat) : List Byte :=
  slicePad (leBytes 1 7 ++ leBytes 1 (s.queue g).st.code ++
    leBytes 2 ((if (s.queue g).cqBack = [] then 0 else 1) + (if (s.queue g).armed then 2 else 0)) ++
    leBytes 4 (s.queue g).head.toNat ++ leBytes 4 (s.queue g).tail.toNat ++ leBytes 4 (s.queue g).pub.toNat ++
    leBytes 4 (s.queue g).prod.toNat ++ leBytes 4 (s.queue g).cons.toNat ++ leBytes 4 (kib (s.backlog g)) ++
    leBytes 4 (s.queue g).rxDrop) 0 64

theorem State.opQQuery_completion (kind : (v.queue (base + entLocal e)).kind = 7) (keeps : entClr e = false)
    (put : v.unitPut 6 none (leAt e 16 8) (v.cqAnswer (base + entLocal e)) = (some true, w)) :
    u.opQQuery e = w.adminDone (entTag e) 0 (base + entLocal e) := by
  refine State.admin_done h ?_
  unfold State.cqAnswer at put
  simp only [of_, Nat.not_le.2 below, kind, decide_true, Bool.true_or, List.isEmpty_iff, State.answer, put, keeps,
    Bool.false_and, Bool.false_eq_true, if_false, if_true]

end

/-- Settles O51: each command is its operation on the taken entry, whose status the premises decide. -/
theorem queueAdminCompletes : Obligations.QueueAdminCompletes := by
  intro s v dt e owner base count h of_ x g z ends
  have len : e.length = 64 := h.1
  refine ⟨?create, fun below => ⟨?enable, ?missing, ?completion, ?work, ?destroy, ?query⟩⟩
  case create =>
    intro good endpoint inCap free completes runs
    have created := State.opQCreate_offered h of_ rfl good endpoint inCap free completes runs
    split
    case isTrue on => exact entry_done len (created.trans (if_pos on))
    case isFalse off => exact entry_done len (created.trans (if_neg off))
  case enable => exact fun disabled => entry_done len (State.opQEnable_done h of_ below disabled)
  case missing =>
    exact fun missing => ⟨entry_done len (State.named_missing h of_ below missing),
      entry_done len (State.named_missing h of_ below missing), entry_done len (State.named_missing h of_ below missing)⟩
  case completion =>
    exact fun made enabled kind => entry_done len (State.opQDisable_completion h of_ below made enabled kind)
  case work =>
    exact fun made enabled kind session =>
      entry_done len (State.opQDisable_work h of_ below rfl made enabled kind session)
  case destroy =>
    exact fun disabled unbound empty => entry_done len (State.opQDestroy_done h of_ below disabled unbound empty)
  case query => exact fun w kind made keeps put => entry_done len (State.opQQuery_completion h of_ below kind keeps put)

end Sys2Proof.Machine
end

section
/-! PROOFS. Buffers (chapter 13): a double free on a table of pools that lists a pool twice. -/

namespace Sys2Proof.Machine

/-- Pool 0 is enabled with two buffers, neither of which was ever allocated, and the table of pools, which no canonical form
binds, lists pool 0 twice: first with what it holds after reset, then with a free in its check queue. -/
def poolListedTwice : State :=
  { State.reset with
    regs := [(bpmPoolCfg 0, 0x80000002)]
    mem := { pools := [(0, {}), (0, { check := [(1, handleOf 0 1)] })] } }

/-- R336, R337: the check queue of the first entry is served, the entry then equals what an unlisted pool reads as and leaves
the table, and the check queue of the second entry is served too. -/
theorem poolListedTwice_df :
    ((poolListedTwice.advance 0).opFree 0 (handleOf 0 0)).mem.df.map (·.handle) = [handleOf 0 0, handleOf 0 1] := by
  decide +kernel

/-- Refutes O30: in a state that lists pool 0 twice, the free of a handle that is not allocated (R336) leaves two entries in
the double-free FIFO: the one of that free, and one of a free that the second entry's check queue holds. -/
theorem not_bufferCommandsComplete : ¬ Obligations.BufferCommandsComplete := by
  rintro ⟨-, -, -, -, -, -, doubleFree, -⟩
  obtain ⟨t, ran, -, left, -⟩ := doubleFree poolListedTwice 0 0 (handleOf 0 0) (by decide +kernel) (by decide +kernel)
    (by decide +kernel) rfl (fun a listed => nomatch listed) (by decide)
  have ends : poolListedTwice.ended ((poolListedTwice.advance 0).opFree 0 (handleOf 0 0)) = t :=
    Host.Outcome.next.inj ran
  have one : ((poolListedTwice.advance 0).opFree 0 (handleOf 0 0)).mem.df.map (·.handle) = [handleOf 0 0] := by
    rw [← State.ended_mem poolListedTwice, ends, left]
    rfl
  rw [poolListedTwice_df] at one
  exact absurd one (by decide)

end Sys2Proof.Machine
end

section
/-! PROOFS. DMA channels (R316 to R325, R340): the commands of a channel and its instructions. -/

namespace Sys2Proof.Machine

variable {s : State} {c : Nat} {v : Word} {prog : ReadData}

/-! R317, R325, R340: commands. -/

/-- R340: a channel's command register holds no part of its program's address. -/
theorem State.getReg64_setReg_dmaCmd (s : State) (c : Nat) (w : Word) :
    (s.setReg (dmaCmd c) w).getReg64 (dmaPaddr c) = s.getReg64 (dmaPaddr c) := by
  have apart : dmaPaddr c + 4 ≠ dmaCmd c ∧ dmaPaddr c ≠ dmaCmd c := by unfold dmaPaddr dmaCmd; omega
  rw [State.getReg64, State.getReg64, State.getReg_setReg_other _ _ apart.1, State.getReg_setReg_other _ _ apart.2]

section
variable (taken : s.cmdTaken (dmaCmd c) = true) (own : 512 ≤ c)
include taken own

theorem State.opDmaStart_starts (op : bits v.toNat 3 0 = 1) (idle : (s.chan c).st = .idle) :
    s.opDmaStart c v prog = (s.setReg (dmaCmd c) (v &&& 0x3F)).startProg c (bits v.toNat 5 4 = 1)
      ((s.setReg (dmaCmd c) (v &&& 0x3F)).getReg64 (dmaPaddr c)) none prog := by
  rw [State.getReg64_setReg_dmaCmd]
  exact (s.onCmd_taken _ taken).trans ((if_neg (Nat.not_lt.2 own)).trans (if_pos ⟨op, idle⟩))

theorem State.opDmaAbort_ends (op : bits v.toNat 3 0 = 2) (busy : (s.chan c).st ≠ .idle) :
    s.opDmaAbort c v = (s.setReg (dmaCmd c) (v &&& 0x3F)).endProg c 0x13 := by
  have aborts : (s.setReg (dmaCmd c) (v &&& 0x3F)).abortChan c = (s.setReg (dmaCmd c) (v &&& 0x3F)).endProg c 0x13 := by
    unfold State.abortChan
    split
    · exact absurd ‹_› busy
    · rfl
  exact (s.onCmd_taken _ taken).trans ((if_neg (Nat.not_lt.2 own)).trans ((if_pos ⟨op, busy⟩).trans aborts))

theorem State.opDmaResume_enters (op : bits v.toNat 3 0 = 3) (halted : (s.chan c).st = .haltedBme) (bme : s.bmeOn = true)
    (runs : (s.chan c).ending = none) (unflushed : (s.chan c).flush = 0) (loaded : (s.chan c).prog ≠ []) :
    s.opDmaResume c v prog = ((s.setReg (dmaCmd c) (v &&& 0x3F)).modChan c
      (fun x => { x with st := .running, issued := 0 })).enterInstr c := by
  refine (s.onCmd_taken _ taken).trans ((if_neg (Nat.not_lt.2 own)).trans ((if_pos ⟨op, halted⟩).trans ?_))
  simp only [bme, runs, unflushed, loaded, Bool.not_true, Option.isSome_none, ne_eq, not_true_eq_false, Bool.false_eq_true,
    if_false]

end

/-! R320 to R323: instructions. -/

/-- A channel that executes an instruction of an opcode. -/
theorem Chan.executes {x : Chan} {op : Nat} (active : x.active = true) (unflushed : x.flush = 0) (op_ : x.op = op) :
    (x.active && x.flush = 0 && x.op = op) = true := by
  simp [active, unflushed, op_]

theorem State.opMove_served (ready : s.chReady c (s.chan c) = true) (turn : s.arbiter = some c) :
    s.opMove c = s.moveBurst c := if_pos (by simp [ready, turn])

theorem State.opWaitTimeout_late (waits : (s.chan c).st = .waiting)
    (limit : leAt ((s.chan c).instr (s.chan c).pc) 12 4 ≠ 0)
    (late : (s.chan c).waitAt + usec (leAt ((s.chan c).instr (s.chan c).pc) 12 4) ≤ s.repTime 2) :
    s.opWaitTimeout c = s.endProg c 0x12 := if_pos ⟨waits, limit, late⟩

theorem State.opSignal_silent (active : (s.chan c).active = true) (unflushed : (s.chan c).flush = 0)
    (op : (s.chan c).op = 4) (left : (s.chan c).queue = [])
    (silent : bit (leAt ((s.chan c).instr (s.chan c).pc) 1 1) 0 = false) :
    s.opSignal c = (s.setReg (dmaSync (leAt ((s.chan c).instr (s.chan c).pc) 4 2))
      (s.getReg (dmaSync (leAt ((s.chan c).instr (s.chan c).pc) 4 2)) +
        BitVec.ofNat 32 (leAt ((s.chan c).instr (s.chan c).pc) 8 4))).gotoInstr c ((s.chan c).pc + 1) := by
  simp only [State.opSignal, active, unflushed, op, left, silent, decide_true, List.isEmpty_nil, Bool.and_self,
    Bool.false_eq_true, if_false, if_true]

/-- R322: the flush reads of a channel's program leave the tags, and invalidations that waited for them are answered. -/
def State.flushOver (s : State) (c : Nat) : State :=
  let mine := fun (u : TagUse) => match u with
    | .flush d run _ => d = c && run = (s.chan c).run
    | .dma .. => false
  { s with hep := { s.hep with tags := s.hep.tags.filter (fun e => !mine e.2) } }.checkInval.modChan c
    (fun x => { x with flush := 0 })

theorem State.opFlushReturn_returns {ok : Bool} (flushes : (s.chan c).flush = 2) (runs : (s.chan c).st = .running)
    (unended : (s.chan c).ending = none) : s.opFlushReturn c ok =
      if ok then (s.flushOver c).gotoInstr c ((s.chan c).pc + 1) else (s.flushOver c).endProg c 0x14 := by
  have mine : ¬ ((s.chan c).flush ≠ 2 ∨ (s.chan c).st ≠ .running) := by simp [flushes, runs]
  have goes : ¬ (s.chan c).ending.isSome = true := by simp [unended]
  exact (if_neg mine).trans (if_neg goes)

/-- Settles O28: each command is its operation, whose case the premises decide. -/
theorem channelCommandsComplete : Obligations.ChannelCommandsComplete := by
  refine ⟨?start, ?abort, ?resume, ?move, ?loop, ?wait, ?satisfied, ?timeout, ?signal, ?end_, ?flush⟩
  case start =>
    intro s dt c v prog u taken own op idle
    exact congrArg (done s) (State.opDmaStart_starts taken own op idle)
  case abort =>
    intro s c v taken own op busy
    exact congrArg (done s) (State.opDmaAbort_ends taken own op busy)
  case resume =>
    intro s c v prog u x taken own op halted bme runs unflushed loaded
    exact congrArg (done s) (State.opDmaResume_enters taken own op halted bme runs unflushed loaded)
  case move =>
    intro s dt c u ready turn
    exact congrArg (done s) (State.opMove_served ready turn)
  case loop =>
    intro s dt c u x b runs active unflushed op
    exact congrArg (done s) (if_pos (Chan.executes active unflushed op))
  case wait =>
    intro s dt c u x active unflushed op
    exact congrArg (done s) (if_pos (Chan.executes active unflushed op))
  case satisfied =>
    intro s c waits met
    exact congrArg (done s) (if_pos ⟨waits, met⟩)
  case timeout =>
    intro s dt c u n waits limit late
    exact congrArg (done s) (State.opWaitTimeout_late waits limit late)
  case signal =>
    intro s dt c u x b r active unflushed op left silent
    exact congrArg (done s) (State.opSignal_silent active unflushed op left silent)
  case end_ =>
    intro s dt c u active unflushed op
    exact congrArg (done s) (if_pos (Chan.executes active unflushed op))
  case flush =>
    intro s dt c u x mine v flushes runs unended
    exact ⟨congrArg (done s) (State.opFlushReturn_returns flushes runs unended),
      congrArg (done s) (State.opFlushReturn_returns flushes runs unended)⟩

end Sys2Proof.Machine
end

section
/-! PROOFS. Memory errors (R326 to R331): the loss of HBM, what the code makes of a word, and the scrubs. -/

namespace Sys2Proof.Machine

variable {s t : State} {a k : Nat} {f : List (Fin 72)}

/-! R271: an event register's bit. -/

/-- R271: after an event its bit stands in a register that reads 0 after reset. -/
theorem State.setEvt_sets (s : State) {a b : Nat} (v : Nat) (above : intrSent + 4 < a) (zero : porOf a = 0) (fits : b < 32) :
    ((s.setEvt a v (BitVec.ofNat 32 (2 ^ b))).getReg a).getLsbD b = true := by
  have bit : (s.getReg a ||| BitVec.ofNat 32 (2 ^ b)).getLsbD b = true := by
    rw [BitVec.getLsbD_or, BitVec.getLsbD_ofNat, Nat.testBit_two_pow_self, decide_eq_true fits]
    exact Bool.or_true _
  have changes : s.getReg a ||| BitVec.ofNat 32 (2 ^ b) ≠ porOf a := by
    rw [zero]
    intro none
    rw [none] at bit
    exact Bool.false_ne_true (BitVec.getLsbD_zero.symm.trans bit)
  rw [State.getReg_setEvt s v above changes]
  exact bit

theorem porOf_memEvt : porOf memEvt = 0 := by decide +kernel

/-! R329: the loss of HBM. -/

theorem State.opHbmFail_fails (stands : s.mem.hbmFail = false) (full : s.mem.reduced = false) :
    s.opHbmFail.mem = { s.mem with hbmFail := true } ∧ (s.opHbmFail.getReg memEvt).getLsbD 0 = true := by
  have goes : ¬ (s.mem.hbmFail || s.mem.reduced) = true := by simp [stands, full]
  let u : State := { s with mem := { s.mem with hbmFail := true } }
  have fails : s.opHbmFail = (u.memEvent 0).mainEvent 0x0004 5 (u.repTime 2) [] := if_neg goes
  rw [fails]
  constructor
  · exact ((State.mainEvent_reports _ _ _ _ _).mem).trans (State.setEvt_reports u _ _ _).mem
  · rw [State.getReg_mainEvent_other _ (by decide)]
    exact State.setEvt_sets u 5 (by decide) porOf_memEvt (by decide)

/-! R326: the code. -/

theorem eccOf_two (s : State) {b c : Fin 72} (differ : b ≠ c) : s.eccOf [b, c] = .uncorrectable := by
  have two : [b, c].eraseDups = [b, c] := by
    simp [List.eraseDups_cons, differ.symm]
  rw [State.eccOf, two]
  rfl

/-! R328: the scrubs. -/

/-- R328, R437: what a scrub read makes of a word, by what the code makes of it. -/
theorem State.opScrub_good (ecc : s.eccOf f = .good) : s.opScrub a f = s.misread (a / 8 * 8) f := by
  rw [State.opScrub, ecc]

theorem State.opScrub_corrected (ecc : s.eccOf f = .corrected) :
    s.opScrub a f = (s.misread (a / 8 * 8) f).corrected (a / 8 * 8) := by
  rw [State.opScrub, ecc]

theorem State.opScrub_uncorrectable (ecc : s.eccOf f = .uncorrectable) : s.opScrub a f = s.uncorrectable (a / 8 * 8) := by
  rw [State.opScrub, ecc]

section
variable (full : s.mem.reduced = false) (on : s.powered 6 = true) (within : a < 2 ^ 34)
include full on within

theorem State.opPatrol_reads (stands : s.mem.hbmFail = false) : s.opPatrol a f = s.opScrub a f := by
  have there : ¬ (s.mem.reduced || !s.powered 6 || decide (2 ^ 34 ≤ a)) = true := by
    rw [full, on, decide_eq_false (Nat.not_le.2 within)]
    decide
  exact (if_neg there).trans (if_neg (by simp [stands]))

theorem State.opPatrol_failed (failed : s.mem.hbmFail = true) : s.opPatrol a f = s.uncorrectable (a / 8 * 8) := by
  have there : ¬ (s.mem.reduced || !s.powered 6 || decide (2 ^ 34 ≤ a)) = true := by
    rw [full, on, decide_eq_false (Nat.not_le.2 within)]
    decide
  exact (if_neg there).trans (if_pos failed)

/-- R328: a patrol read of a word that the code can read brings nothing more. -/
theorem State.patrolRead_readable (stands : s.mem.hbmFail = false) (ecc : s.eccOf f ≠ .uncorrectable) :
    s.patrolRead a f = s.opScrub a f :=
  (if_neg (by simp [stands, ecc])).trans (State.opPatrol_reads full on within stands)

end

/-- R327, R330: an unreadable word of the device context area brings what its context's loss brings. -/
theorem State.patrolRead_unreadable (full : s.mem.reduced = false) (on : s.powered 6 = true)
    (bad : (s.mem.hbmFail || decide (s.eccOf f = .uncorrectable)) = true)
    (read : s.opPatrol a f = s.uncorrectable (a / 8 * 8)) :
    s.patrolRead a f = if s.contextBase ≤ a ∧ a < s.ledgerBase then (s.uncorrectable (a / 8 * 8)).areaBad
      else s.uncorrectable (a / 8 * 8) := by
  rw [State.patrolRead, read]
  simp only [bad, full, on, Bool.not_false, Bool.and_self, Bool.true_and, decide_eq_true_eq]

theorem State.sramRead_sram (there : memOf a 1 = some 1) (on : s.powered (9 + (a - 0x001000000000) / 0x800000) = true) :
    s.sramRead (.sram a) f = s.opScrub a f := if_pos (by simp [there, on])

/-! R331: the context cache. -/

theorem State.fireInst_reports (s : State) (i v : Nat) : Reports s (s.fireInst i v) := by
  unfold State.fireInst State.fireIv
  dsimp only
  split
  · split
    · exact (((s.emit_reports _).trans (State.stat_reports _ _)).trans (State.stat_reports _ _)).trans
        (State.setIv_reports _ _ _)
    · exact s.setIv_reports _ _
  · exact s.count_reports _

theorem State.instEvent_mem (s : State) (cause i q : Nat) : (s.instEvent cause i q).mem = s.mem := by
  unfold State.instEvent
  split
  · exact (State.setEvt_reports _ _ _ _).mem.trans rfl
  · exact (s.count_reports _).mem

theorem State.queueError_mem (s : State) (q : Nat) : (s.queueError q).mem = s.mem := by
  unfold State.queueError
  dsimp only
  split
  · exact (State.fireInst_reports _ _ _).mem.trans ((State.instEvent_mem _ _ _ _).trans rfl)
  · rfl

theorem State.modNode_mem (s : State) (lvl i : Nat) (g : Node → Node) : (s.modNode lvl i g).mem = s.mem := by
  unfold State.modNode State.setNodes
  split <;> rfl

theorem State.areaBad_mem (s : State) : s.areaBad.mem = s.mem := by
  unfold State.areaBad
  dsimp only
  split
  · exact State.queueError_mem _ _
  · exact State.modNode_mem _ _ _ _
  · rfl

theorem State.lineBad_badLines (s : State) : s.lineBad.mem.badLines = s.mem.badLines := by
  unfold State.lineBad
  dsimp only
  split
  · rfl
  · exact congrArg Mem.badLines (State.areaBad_mem _)

section
variable (within : k < 524288) (on : s.powered 87 = true)
include within on

theorem State.sramRead_cache_corrected (ecc : s.eccOf f = .corrected) :
    s.sramRead (.cache k) f = s.corrected (k * 64) := by
  have there : ¬ (524288 ≤ k ∨ s.powered 87 = false) := by simp [Nat.not_le.2 within, on]
  have read : s.opSramScrub (.cache k) f = s.corrected (k * 64) := (if_neg there).trans (by rw [ecc])
  exact (if_neg (by simp [ecc])).trans read

/-- R327, R328: a line that the code cannot read is among the marked ones. -/
theorem State.sramRead_cache_marks (ecc : s.eccOf f = .uncorrectable) :
    k ∈ (s.sramRead (.cache k) f).mem.badLines := by
  have there : ¬ (524288 ≤ k ∨ s.powered 87 = false) := by simp [Nat.not_le.2 within, on]
  have marks : k ∈ (s.opSramScrub (.cache k) f).mem.badLines := by
    simp only [State.opSramScrub, if_neg there, ecc]
    split
    · exact List.contains_iff_mem.1 ‹_›
    · exact List.mem_append_right _ (List.mem_singleton.2 rfl)
  have lost : s.sramRead (.cache k) f = (s.opSramScrub (.cache k) f).lineBad := if_pos (by simp [ecc, within, on])
  rw [lost, State.lineBad_badLines]
  exact marks

end

/-- Settles O29: a loss of HBM sets its flag and its event, and each scrub read does what the code makes of its word. -/
theorem memoryErrorsComplete : Obligations.MemoryErrorsComplete := by
  refine ⟨?fail, ?code, ?patrol, ?failed, ?sram, ?cache⟩
  case fail =>
    intro s dt stands full
    obtain ⟨mem, event⟩ := State.opHbmFail_fails (s := s.advance dt) stands full
    refine .of_op rfl ⟨?_, ?_, ?_⟩
    · rw [State.ended_mem, mem]
    · rw [State.ended_getReg]
      exact event
    · rw [State.ended_mem, mem]
      rfl
  case code => exact fun s => ⟨rfl, fun b => rfl, fun b c differ => eccOf_two s differ⟩
  case patrol =>
    intro s dt a f u w full stands on within
    have reads := State.opPatrol_reads (f := f) full on within stands
    refine ⟨fun ecc => congrArg (done s) ?_, fun ecc => congrArg (done s) ?_, fun ecc => congrArg (done s) ?_⟩
    · exact (State.patrolRead_readable full on within stands (by simp [ecc])).trans (State.opScrub_good ecc)
    · exact (State.patrolRead_readable full on within stands (by simp [ecc])).trans (State.opScrub_corrected ecc)
    · exact State.patrolRead_unreadable full on (Bool.or_eq_true_iff.2 (.inr (decide_eq_true ecc))) (reads.trans (State.opScrub_uncorrectable ecc))
  case failed =>
    intro s dt a f u full failed on within
    exact congrArg (done s) (State.patrolRead_unreadable full on (Bool.or_eq_true_iff.2 (.inl failed))
      (State.opPatrol_failed full on within failed))
  case sram =>
    intro s dt a f u w there on
    have reads := State.sramRead_sram (f := f) there on
    exact ⟨fun ecc => congrArg (done s) (reads.trans (State.opScrub_good ecc)),
      fun ecc => congrArg (done s) (reads.trans (State.opScrub_corrected ecc)),
      fun ecc => congrArg (done s) (reads.trans (State.opScrub_uncorrectable ecc))⟩
  case cache =>
    intro s dt k f u within on
    refine ⟨fun ecc => congrArg (done s) (State.sramRead_cache_corrected within on ecc), fun ecc => .of_op rfl ?_⟩
    rw [State.ended_mem]
    exact State.sramRead_cache_marks within on ecc

end Sys2Proof.Machine
end

section
/-! PROOFS. The base instructions of a thread (R343): one lemma for each opcode that the interpreter distinguishes. -/

namespace Sys2Proof.Machine

variable {u : State} {t : Nat} {w : Word} {dbg : State → Word → State}

/-- R343: a fetched 32-bit word. -/
def wordOf (w : Word) : Fetched := { raw := w, word := some w, len := 4 }

/-- R343: a running thread that stands at no breakpoint executes the word it fetches. -/
theorem State.threadStep_runs {f : Fetched} (runs : u.thRuns t = true) (free : u.atBreak t = false)
    (fetched : u.fetchInstr t = .inr f) : State.threadStep dbg u t = State.rvExec dbg u t f := by
  rw [State.threadStep, runs, free, fetched]
  rfl

theorem State.rvExec_jump (op : bits w.toNat 6 0 = 0x6F) : State.rvExec dbg u t (wordOf w) =
    u.rvRetire t (bits w.toNat 11 7) ((u.thread t).pc + 4) ((u.thread t).pc + immJ w.toNat) := by
  simp only [State.rvExec, wordOf, op]
  rfl

theorem State.rvExec_branch {c : Bool} (op : bits w.toNat 6 0 = 0x63)
    (cond : rvBranch (bits w.toNat 14 12) (u.xreg t (bits w.toNat 19 15)) (u.xreg t (bits w.toNat 24 20)) = some c) :
    State.rvExec dbg u t (wordOf w) =
      u.rvRetire t 0 0 (if c then (u.thread t).pc + immB w.toNat else (u.thread t).pc + 4) := by
  unfold State.xreg at cond
  simp only [State.rvExec, wordOf, op, cond]
  rfl

theorem State.rvExec_load (op : bits w.toNat 6 0 = 0x03) (width : bits w.toNat 14 12 < 7) :
    State.rvExec dbg u t (wordOf w) = u.rvLoad t (bits w.toNat 14 12) (bits w.toNat 11 7)
      (u.xreg t (bits w.toNat 19 15) + sx 12 (bits w.toNat 31 20)) ((u.thread t).pc + 4) := by
  simp only [State.rvExec, wordOf, op, if_pos width]
  rfl

theorem State.rvExec_store (op : bits w.toNat 6 0 = 0x23) (width : bits w.toNat 14 12 < 4) :
    State.rvExec dbg u t (wordOf w) = State.rvStore dbg u t (bits w.toNat 14 12)
      (u.xreg t (bits w.toNat 19 15) + immS w.toNat) (u.xreg t (bits w.toNat 24 20)) ((u.thread t).pc + 4) := by
  simp only [State.rvExec, wordOf, op, if_pos width]
  rfl

theorem State.rvExec_ecall (word : w.toNat = 0x73) : State.rvExec dbg u t (wordOf w) = u.thFault t 2 0x73 := by
  obtain rfl : w = 0x73 := BitVec.eq_of_toNat_eq word
  rfl

/-- R343: an instruction of OP or OP-IMM puts its result in rd. -/
theorem State.rvExec_compute {v : BitVec 64} (op : bits w.toNat 6 0 = 0x13 ∨ bits w.toNat 6 0 = 0x33)
    (result : rvCompute w (u.thread t).pc (u.xreg t (bits w.toNat 19 15)) (u.xreg t (bits w.toNat 24 20)) = some v) :
    State.rvExec dbg u t (wordOf w) = u.rvRetire t (bits w.toNat 11 7) v ((u.thread t).pc + 4) := by
  unfold State.xreg at result
  rcases op with op | op <;> simp only [State.rvExec, wordOf, op, result] <;> rfl

theorem rvCompute_addi {pc a b : BitVec 64} (op : bits w.toNat 6 0 = 0x13) (f3 : bits w.toNat 14 12 = 0) :
    rvCompute w pc a b = some (a + sx 12 (bits w.toNat 31 20)) := by
  simp [rvCompute, op, f3, intOp]

theorem rvCompute_add {pc a b : BitVec 64} (op : bits w.toNat 6 0 = 0x33) (f3 : bits w.toNat 14 12 = 0)
    (f7 : bits w.toNat 31 25 = 0) : rvCompute w pc a b = some (a + b) := by
  simp [rvCompute, op, f3, f7, intOp]

/-- R346: an aligned load of readable memory. -/
theorem State.rvLoad_mem {f3 rd x : Nat} {a npc : BitVec 64} (aligned : a.toNat % rvWidth f3 = 0)
    (place : u.thPlace t a.toNat (rvWidth f3) = .mem x) (good : u.readBad x (rvWidth f3) = false) :
    u.rvLoad t f3 rd a npc = u.rvRetire t rd (rvLoaded f3 (u.readBytes x (rvWidth f3))) npc := by
  have loads : u.thLoad t a.toNat (rvWidth f3) = (.inr (u.readBytes x (rvWidth f3)), u) := by
    simp [State.thLoad, aligned, place, good]
  rw [State.rvLoad, loads]

theorem State.thStore_mem {x : Nat} {a : Nat} {d : List Byte} (aligned : a % d.length = 0)
    (place : u.thPlace t a d.length = .mem x) : State.thStore dbg u t a d = .inr (u.land x d) := by
  simp [State.thStore, aligned, place]

/-- Settles O33: each instruction is at its opcode's branch of the interpreter. -/
theorem baseInstructionsComplete : Obligations.BaseInstructionsComplete := by
  intro s dt th w u t n rd a b pc runs free fetched
  have ran (v : State) (means : State.rvExec State.opDbgCmd u t (wordOf w) = v) :
      exec (.threadBaseInstruction dt th) s = done s v :=
    congrArg (done s) ((State.threadStep_runs runs free fetched).trans means)
  refine ⟨?addi, ?add, ?beq, ?jal, ?ld, ?sd, ?ecall⟩
  case addi => exact fun op f3 => ran _ (State.rvExec_compute (.inl op) (rvCompute_addi op f3))
  case add => exact fun op f3 f7 => ran _ (State.rvExec_compute (.inr op) (rvCompute_add op f3 f7))
  case beq =>
    intro op f3
    refine ran _ ((State.rvExec_branch (c := decide (a = b)) op ?_).trans ?_)
    · rw [f3]
      rfl
    · simp only [decide_eq_true_eq]
      rfl
  case jal => exact fun op => ran _ (State.rvExec_jump op)
  case ld =>
    intro op f3 x q aligned place good
    refine ran _ ((State.rvExec_load op (by rw [f3]; decide)).trans ?_)
    rw [f3]
    exact State.rvLoad_mem (f3 := 3) aligned place good
  case sd =>
    intro op f3 x q aligned place
    refine ran _ ((State.rvExec_store op (by rw [f3]; decide)).trans ?_)
    rw [f3, State.rvStore, State.thStore_mem (x := x) aligned place]
    rfl
  case ecall => exact fun word => ran _ (State.rvExec_ecall word)

end Sys2Proof.Machine
end

section
/-! PROOFS. The thread instructions (R353, R354): FORK, JOIN, TWAIT, TSEND, YIELD and YIELD.E of a running thread. -/

namespace Sys2Proof.Machine

variable {s : State} {t c slot : Nat} {rd rs1 rs2 : Nat}

/-- R353: a running thread, the only one that an instruction of the array is executed for. -/
theorem not_thRuns_eq {s : State} {t : Nat} (runs : s.thRuns t = true) : ¬ (!s.thRuns t) = true := by
  rw [runs]
  decide

/-! R353: FORK. -/

theorem State.opFork_forks {th : BitVec 10} {detached : Bool} (runs : s.thRuns th.toNat = true)
    (place : s.forkPlace (th.toNat / 128) = some c) (slots : s.slotOf (th.toNat / 128) = some slot) :
    s.opFork th.toNat rd rs1 rs2 detached = (s.modThread c (fun _ =>
      (((({ st := .running, pc := s.xreg th.toNat rs1, joinable := !detached
            parent := if detached then none else some th } : Thread).setReg 10 (s.xreg th.toNat rs2)).setReg 11
          (th.setWidth 64)).setReg 2 (BitVec.ofNat 64 (0x40000 - s.desc slot 0x10 4 * (c % 16)))))).retire
      th.toNat rd (BitVec.ofNat 64 c) := by
  have narrow : BitVec.ofNat 10 th.toNat = th := (BitVec.ofNat_toNat 10 th).trans (BitVec.setWidth_eq th)
  have wide : BitVec.ofNat 64 th.toNat = th.setWidth 64 := BitVec.ofNat_toNat 64 th
  refine (if_neg (not_thRuns_eq runs)).trans ?_
  rw [place, slots]
  simp only [narrow, wide]

theorem State.opFork_full {detached : Bool} (runs : s.thRuns t = true) (full : s.forkPlace (t / 128) = none) :
    s.opFork t rd rs1 rs2 detached = s.retire t rd (-1) := by
  refine (if_neg (not_thRuns_eq runs)).trans ?_
  rw [full]

/-! R353: JOIN. -/

/-- R353: the child that a JOIN names: joinable, and of that thread. -/
theorem State.opJoin_child {th : BitVec 10} {rd : Fin 32} (runs : s.thRuns th.toNat = true) (named : (s.xreg th.toNat rs1).toNat = c)
    (within : c < 1024) (joins : (s.thread c).joinable = true) (parent : (s.thread c).parent = some th) :
    s.opJoin th.toNat rd rs1 =
      if (s.thread c).st = .ended then (s.modThread c (fun _ => {})).retire th.toNat rd.val (s.thread c).exit
      else s.beginWait th.toNat (.join rd (BitVec.ofNat 10 c)) := by
  subst named
  refine (if_neg (not_thRuns_eq runs)).trans (if_neg ?_)
  simp [Nat.not_le.2 within, joins, parent]

theorem State.opJoin_stranger {th : BitVec 10} {rd : Fin 32} (runs : s.thRuns th.toNat = true)
    (named : (s.xreg th.toNat rs1).toNat = c)
    (not : 1024 ≤ c ∨ (s.thread c).joinable = false ∨ (s.thread c).parent ≠ some th) :
    s.opJoin th.toNat rd rs1 = s.retire th.toNat rd.val (-2) := by
  subst named
  refine (if_neg (not_thRuns_eq runs)).trans (if_pos ?_)
  rcases not with beyond | loose | other
  · simp [beyond]
  · simp [loose]
  · have differs : (s.thread (s.xreg th.toNat rs1).toNat).parent.map (fun (p : BitVec 10) => p.toNat) ≠ some th.toNat := by
      intro same
      obtain ⟨p, named, value⟩ := Option.map_eq_some_iff.1 same
      exact other (named.trans (congrArg some (BitVec.eq_of_toNat_eq value)))
    simp [differs]

/-! R354: TWAIT and TSEND. -/

theorem State.opTwait_runs {rd : Fin 32} (runs : s.thRuns t = true) :
    s.opTwait t rd rs1 rs2 =
      if (s.eventsOf t).setWidth 64 &&& s.xreg t rs1 ≠ 0 then
        (s.modThread t (fun x => { x with
          events := x.events &&& ~~~(((s.eventsOf t).setWidth 64 &&& s.xreg t rs1).setWidth 29) })).retire t rd.val
          ((s.eventsOf t).setWidth 64 &&& s.xreg t rs1)
      else if s.xreg t rs2 ≠ 0 ∧ (s.xreg t rs2).toNat ≤ s.repTime (30 + t / 128) then s.retire t rd.val 0
      else s.beginWait t (.twait rd (s.xreg t rs1) (s.xreg t rs2)) := by
  refine (if_neg (not_thRuns_eq runs)).trans ?_
  simp only [Bool.and_eq_true, decide_eq_true_eq]

theorem State.opTwaitDeadline_passed {rd : Fin 32} {m d : BitVec 64} (waits : (s.thread t).st = .waiting)
    (wait : (s.thread t).wait = .twait rd m d) (set : d ≠ 0) (past : d.toNat ≤ s.repTime (30 + t / 128)) :
    s.opTwaitDeadline t = s.leaveWait t rd.val 0 := by
  rw [State.opTwaitDeadline, waits, wait]
  exact if_pos ⟨set, past⟩

theorem State.opTsend_sends (runs : s.thRuns t = true) (named : (s.xreg t rs1).toNat = c) (near : c / 128 = t / 128)
    (live : (s.thread c).st ≠ .free) (unended : (s.thread c).st ≠ .ended) :
    s.opTsend t rd rs1 rs2 = (s.threadEvent c (((s.xreg t rs2).setWidth 24).setWidth 29)).retire t rd 0 := by
  subst named
  exact (if_neg (not_thRuns_eq runs)).trans (if_neg (by simp [near, live, unended]))

/-- Settles O31: each instruction of a running thread takes its branch. -/
theorem threadInstructionsComplete : Obligations.ThreadInstructionsComplete := by
  refine ⟨?fork, ?full, ?join, ?stranger, ?twait, ?deadline, ?tsend, ?yield, ?ends, ?supervisor⟩
  case fork =>
    intro s dt th rd rs1 rs2 b c slot u x runs place slots
    exact congrArg (done s) (State.opFork_forks runs place slots)
  case full => exact fun s dt th rd rs1 rs2 b runs full => congrArg (done s) (State.opFork_full runs full)
  case join =>
    intro s dt th rd rs1 u c runs within joins parent
    exact congrArg (done s) (State.opJoin_child runs rfl within joins parent)
  case stranger =>
    intro s dt th rd rs1 u c runs not
    exact congrArg (done s) (State.opJoin_stranger runs rfl not)
  case twait =>
    intro s dt th rd rs1 rs2 u got d runs
    exact congrArg (done s) (State.opTwait_runs runs)
  case deadline =>
    exact fun s dt th rd m d waits wait set past => congrArg (done s) (State.opTwaitDeadline_passed waits wait set past)
  case tsend =>
    intro s dt th rd rs1 rs2 u c runs near live unended
    exact congrArg (done s) (State.opTsend_sends runs rfl near live unended)
  case yield => exact fun s dt th runs => congrArg (done s) (if_pos runs)
  case ends =>
    exact fun s dt th rs1 runs pooled => congrArg (done s) ((if_neg (not_thRuns_eq runs)).trans (if_neg pooled))
  case supervisor =>
    exact fun s dt th rs1 runs first => congrArg (done s) ((if_neg (not_thRuns_eq runs)).trans (if_pos first))

end Sys2Proof.Machine
end

section
/-! PROOFS. The channel instructions, LKUP, DMAGO and STAMP (R355 to R357, R359). -/

namespace Sys2Proof.Machine

variable {s v : State} {t k i a r slot len rd rs1 rs2 : Nat} {m : ChMsg} {l : List ChMsg}

/-! R359: CHRES. -/

section
variable {x : Fin 32} {nowait : Bool} (runs : s.thRuns t = true)
    (named : s.threadChan t (s.xreg t rs1).toNat = some (k, i)) (whole : 1 ≤ (s.xreg t rs2).toNat)
    (fits : (s.xreg t rs2).toNat ≤ (s.channel k i).maxMsg)
include runs named whole fits

theorem State.opChres_reserves {h : BitVec 64}
    (room : s.chanReserve k i t (s.xreg t rs2).toNat = (some h, v)) :
    s.opChres t x rs1 rs2 nowait = v.retire t x.val h := by
  refine (if_neg (not_thRuns_eq runs)).trans ?_
  simp only [named, if_neg (not_or_intro (Nat.not_lt.2 whole) (Nat.not_lt.2 fits)), room]

theorem State.opChres_waits (full : s.chanReserve k i t (s.xreg t rs2).toNat = (none, v)) :
    s.opChres t x rs1 rs2 nowait = if nowait = true then v.retire t x.val (-1)
      else v.beginWait t (.chres x (BitVec.ofNat 11 (s.xreg t rs1).toNat) (s.xreg t rs2).toNat) := by
  refine (if_neg (not_thRuns_eq runs)).trans ?_
  simp only [named, if_neg (not_or_intro (Nat.not_lt.2 whole) (Nat.not_lt.2 fits)), full]

end

/-! R359: CHPUT and CHCOMMIT. -/

section
variable (runs : s.thRuns t = true) (held : s.findHandle t (s.xreg t rs1) = some (k, i, m))
include runs held

theorem State.opChput_puts {n : Nat} (room : m.cursor + 8 * (n + 1) ≤ m.body.length)
    (place : s.thMem t (s.xreg t rs2).toNat (8 * (n + 1)) = some a) (good : s.readBad a (8 * (n + 1)) = false) :
    s.opChput t rd rs1 rs2 n = (s.modChannel k i (fun c => { c with
      msgs := c.msgs.map (fun x => if x.handle = m.handle ∧ x.st = .reserved then
        { x with body := splice m.body m.cursor (s.readBytes a (8 * (n + 1))), cursor := x.cursor + 8 * (n + 1) }
        else x) })).retire t rd (BitVec.ofNat 64 (m.body.length - (m.cursor + 8 * (n + 1)))) := by
  refine (if_neg (not_thRuns_eq runs)).trans ?_
  simp only [held, if_neg (Nat.not_lt.2 room), place, good, Bool.false_eq_true, if_false, Bool.and_eq_true,
    decide_eq_true_eq]

/-- R358, R359: the message of a service channel is committed unstamped. -/
theorem State.opChcommit_commits : s.opChcommit t rd rs1 =
    if (s.channel k i).kind = 0 then
      (s.retire t rd 0).chanCommit k i (fun x => x.handle = m.handle && x.st = .reserved) {}
    else ((s.countStamp (s.stampTag (.thread (t / 128)) 0 17)).retire t rd 0).chanCommit k i
      (fun x => x.handle = m.handle && x.st = .reserved) (s.stampTag (.thread (t / 128)) 0 17) := by
  refine (if_neg (not_thRuns_eq runs)).trans ?_
  by_cases service : (s.channel k i).kind = 0
  · simp only [held, service, ne_eq, not_true_eq_false, if_false, if_true]
  · simp only [held, service, ne_eq, not_false_eq_true, if_true, if_false]

end

/-! R359: CHGET. -/

theorem State.opChget_takes {x : Fin 32} {nowait : Bool} (runs : s.thRuns t = true)
    (named : s.threadChan t (s.xreg t rs1).toNat = some (k, i)) (out : (s.channel k i).kind ≠ 1)
    (port : (s.channel k i).kind ≠ 3) (head : (s.channel k i).msgs = m :: l) (committed : m.st = .committed)
    (place : s.thMem t (s.xreg t rs2).toNat m.body.length = some a) :
    s.opChget t x rs1 rs2 nowait = (((s.chanTake k i).thCopy t (s.xreg t rs2).toNat m.body).retire t x.val
      (BitVec.ofNat 64 m.body.length)).chanSettle k i := by
  refine (if_neg (not_thRuns_eq runs)).trans ?_
  simp only [named, if_neg (not_or_intro out port), head, List.head?_cons, Option.bind_some, committed, if_true, place,
    Option.isNone_some, Bool.false_eq_true, if_false]

/-! R355: LKUP. -/

/-- R355: a key as its target reads it. -/
def lkupKey (target : Nat) (b : List Byte) : Nat :=
  if target = 2 then beNat b else if target = 1 then leNat b else leNat b % 2 ^ 20

section
variable {target table : Nat} (runs : s.fwtSettle.thRuns t = true) (slots : s.fwtSettle.slotOf (t / 128) = some slot)
    (allowed : bit (s.fwtSettle.desc slot 0x16 1) target = true)
    (keyed : s.fwtSettle.thMem t (s.fwtSettle.xreg t rs1).toNat (lkupLen target) = some a)
    (result : s.fwtSettle.thMem t (s.fwtSettle.xreg t rs2).toNat 32 = some r)
    (good : s.fwtSettle.readBad a (lkupLen target) = false)
include runs slots allowed keyed result good

theorem State.opLkup_answered : s.opLkup t rd rs1 rs2 target table true =
    match s.fwtSettle.globalAnswer table target (lkupKey target (s.fwtSettle.readBytes a (lkupLen target))) with
      | some v => (s.fwtSettle.land r (leBytes 32 v)).retire t rd 1
      | none => (s.fwtSettle.land r (leBytes 32 0)).retire t rd 0 := by
  unfold State.opLkup
  simp only [runs, slots, allowed, keyed, result, good, Bool.not_true, Bool.false_eq_true, if_false] <;> rfl

theorem State.opLkup_unanswered :
    s.opLkup t rd rs1 rs2 target table false = s.fwtSettle.retire t rd (-1) := by
  unfold State.opLkup
  simp only [runs, slots, allowed, keyed, result, good, Bool.not_true, Bool.not_false, Bool.false_eq_true, if_false,
    if_true]

end

/-! R356, R357: DMAGO and STAMP. -/

theorem State.opDmago_starts {th : BitVec 10} {c : Nat} (runs : s.thRuns th.toNat = true)
    (named : (s.xreg th.toNat rs1).toNat = c) (from512 : 512 ≤ c) (within : c < 4096) (owner : s.chOwner c = 1)
    (home : s.chCluster c = th.toNat / 128) (idle : (s.chan c).st = .idle)
    (place : State.thLocal th.toNat (s.xreg th.toNat rs2).toNat 32 = some a) :
    s.opDmago th.toNat rd rs1 rs2 =
      (s.startProg c false (BitVec.ofNat 64 a) (some th) .error).retire th.toNat rd 0 := by
  subst named
  have narrow : BitVec.ofNat 10 th.toNat = th := (BitVec.ofNat_toNat 10 th).trans (BitVec.setWidth_eq th)
  refine (if_neg (not_thRuns_eq runs)).trans ((if_neg ?_).trans ((if_neg (not_not_intro idle)).trans ?_))
  · simp [Nat.not_lt.2 from512, Nat.not_le.2 within, owner, home]
  · simp only [place, narrow]

theorem State.opStamp_reads (runs : s.thRuns t = true) : s.opStamp t rd 0 =
    (s.countStamp (s.stampTag (.thread (t / 128)) 0 17)).retire t rd (s.stampTag (.thread (t / 128)) 0 17).raw.time :=
  (if_neg (not_thRuns_eq runs)).trans (if_pos rfl)

theorem State.opStamp_writes (runs : s.thRuns t = true) (named : rs1 ≠ 0)
    (place : s.thMem t (s.xreg t rs1).toNat 32 = some a) : s.opStamp t rd rs1 =
    ((s.countStamp (s.stampTag (.thread (t / 128)) 0 17)).land a
      (stampRecord (s.stampTag (.thread (t / 128)) 0 17))).retire t rd (s.stampTag (.thread (t / 128)) 0 17).raw.time := by
  refine (if_neg (not_thRuns_eq runs)).trans ((if_neg named).trans ?_)
  simp only [place]

/-- Settles O32: each instruction of a running thread takes its branch. -/
theorem channelInstructionsComplete : Obligations.ChannelInstructionsComplete := by
  refine ⟨?reserve, ?full, ?put, ?commit, ?get, ?lookup, ?dmago, ?stamp⟩
  case reserve =>
    intro s v dt th rd rs1 rs2 nowait k i h u len runs named whole fits room
    exact congrArg (done s) (State.opChres_reserves runs named whole fits room)
  case full =>
    intro s v dt th rd rs1 rs2 nowait k i u num len runs named whole fits full
    exact congrArg (done s) (State.opChres_waits runs named whole fits full)
  case put =>
    intro s dt th rd rs1 rs2 n k i a m u len runs held room place good
    exact congrArg (done s) (State.opChput_puts runs held room place good)
  case commit =>
    intro s dt th rd rs1 k i m u g runs held
    exact congrArg (done s) (State.opChcommit_commits runs held)
  case get =>
    intro s dt th rd rs1 rs2 nowait k i a m l u dst runs named out port head committed place
    exact congrArg (done s) (State.opChget_takes runs named out port head committed place)
  case lookup =>
    intro s dt th rd rs1 rs2 target table k r slot u n b key runs slots allowed keyed result good
    exact ⟨congrArg (done s) (State.opLkup_answered (s := s.advance dt) runs slots allowed keyed result good),
      congrArg (done s) (State.opLkup_unanswered (s := s.advance dt) runs slots allowed keyed result good)⟩
  case dmago =>
    intro s dt th rd rs1 rs2 a u c runs from512 within owner home idle place
    exact congrArg (done s) (State.opDmago_starts runs rfl from512 within owner home idle place)
  case stamp =>
    intro s dt th rd rs1 u g runs
    refine ⟨?_, fun a named place => congrArg (done s) (State.opStamp_writes runs (Fin.val_ne_of_ne named) place)⟩
    rintro rfl
    exact congrArg (done s) (State.opStamp_reads runs)

end Sys2Proof.Machine
end

section
/-! PROOFS. The cluster commands (R360, R362 to R366): frame-out messages, held heads and deadlocks, the supervisor's page,
the watchdog and step 3 of a cluster reset. -/

namespace Sys2Proof.Machine

variable {s v : State} {k i t slot : Nat} {m : ChMsg} {l : List ChMsg}

/-! R360: frame-out messages. -/

/-- R360: a committed frame-out message that leaves: its frame is a legal one, its pipeline is powered with room, and
nothing of its cluster waits for a buffer. -/
structure FrameLeaves (s : State) (k i : Nat) (m : ChMsg) (l : List ChMsg) : Prop where
  head      : (s.channel k i).msgs = m :: l
  kind      : (s.channel k i).kind = 1
  committed : m.st = .committed
  least     : 14 ≤ leAt m.body 2 2
  most      : leAt m.body 2 2 ≤ 9596
  whole     : 16 + leAt m.body 2 2 ≤ m.body.length
  on        : s.powered (49 + leAt m.body 0 1 % 4) = true
  room      : (s.pipe (leAt m.body 0 1 % 4)).internalFull = false
  ungranted : s.takeGranted 35 k = none
  unwaited  : s.mem.waits.any (fun w => w.requester = 35 && w.inst = k) = false

/-- R360: the item that a frame-out message becomes. -/
def frameOutItem (k : Nat) (c : Channel) (m : ChMsg) (h : Word) : Item :=
  { frame := slice m.body 16 (leAt m.body 2 2), orig := slice m.body 16 (leAt m.body 2 2), tag := m.tag
    prio := leAt m.body 1 1 % 8, src := 3 * 2 ^ 16 + sourceOf k c, bufs := [h], holder := 35 }

theorem State.opFrameOut_sends {h : Word} (leaves : FrameLeaves s k i m l)
    (got : s.allocLen 35 k false (leAt m.body 2 2) none = (.granted h, v)) :
    s.opFrameOut k i = (((v.chanTake k i).modPipe (leAt m.body 0 1 % 4) (fun x => { x with
      thread := x.thread ++ [frameOutItem k (s.channel k i) m h] })).chanSettle k i) := by
  obtain ⟨head, kind, committed, least, most, whole, on, room, ungranted, unwaited⟩ := leaves
  have legal : ¬ (m.body.length < 16 ∨ leAt m.body 2 2 < 14 ∨ 9596 < leAt m.body 2 2 ∨
      m.body.length < 16 + leAt m.body 2 2 ∨ s.powered (49 + leAt m.body 0 1 % 4) = false) := by
    rw [on]
    simp
    omega
  unfold State.opFrameOut
  simp only [head, List.head?_cons, kind, committed, ne_eq, not_true_eq_false, decide_false, Bool.or_self,
    Bool.false_eq_true, if_false, if_neg legal, room, ungranted, unwaited, got]
  rfl

/-! R363, R364: held heads and deadlocks. -/

theorem State.opChanHeld_tells {x : Nat} (head : (s.channel k i).msgs = m :: l) (reserved : m.st = .reserved)
    (untold : m.told = false) (since : m.headAt = some x) (late : s.clocksPast x 65536 = true) :
    s.opChanHeld k i =
      ((s.modChannel k i (fun y => { y with msgs := { m with told := true } :: l })).count (cluCnt k 1)).supEvent k 2 0
        m.th.toNat
        (BitVec.ofNat 64 (256 * ((s.modChannel k i (fun y => { y with msgs := { m with told := true } :: l })).cluster
          k).scluster + i))
        (BitVec.ofNat 64 (3 * ((s.modChannel k i (fun y => { y with msgs := { m with told := true } :: l })).clock - x) / 8)) := by
  unfold State.opChanHeld
  simp only [head, reserved, untold, since, Option.getD_some, late, decide_true, Bool.not_false, Bool.and_self, if_true]

/-- R364: the pooled threads of a cluster that live. -/
def State.livePooled (s : State) (k : Nat) : List Nat :=
  ((List.range 127).map (fun i => 128 * k + 1 + i)).filter (fun t => (s.thread t).st ≠ .free && (s.thread t).st ≠ .ended)

/-- R364: the cluster that has told of its deadlock. -/
def State.deadTelling (s : State) (k : Nat) (c : Cluster) : Cluster :=
  { c with
    waitSet := BitVec.ofNat 128 ((s.livePooled k).foldl (fun n t => n + 2 ^ (t % 128)) 0)
    waitInfo := (List.range 128).foldl (fun (m : Map Word) i =>
      Map.set m i (BitVec.ofNat 32 (waitInfo (s.thread (128 * k + i)))) 0) []
    deadTold := true }

theorem State.opDeadlock_tells (some_live : s.livePooled k ≠ [])
    (stuck : ∀ t ∈ s.livePooled k, (s.thread t).st = .waiting ∧ s.clocksPast (s.thread t).waitAt 4096 = true ∧
      s.armed t = false) (untold : (s.cluster k).deadTold = false) :
    s.opDeadlock k = (((s.modCluster k (s.deadTelling k)).count (cluCnt k 2)).thaEvent k).supEvent k 3 0 0 0 0 := by
  have all : (s.livePooled k).all (fun t => (s.thread t).st = .waiting && s.clocksPast (s.thread t).waitAt 4096 &&
      !s.armed t) = true := by
    refine List.all_eq_true.2 fun t mem => ?_
    obtain ⟨waits, late, unarmed⟩ := stuck t mem
    simp [waits, late, unarmed]
  have live : (s.livePooled k).isEmpty = false := List.isEmpty_eq_false_iff.2 some_live
  have quiet (b : Bool) (waits : b = true) : ¬ ((s.livePooled k).isEmpty || !b || (s.cluster k).deadTold) = true := by
    rw [live, waits, untold]
    decide
  exact if_neg (quiet _ all)

/-! R362: the supervisor's page. -/

theorem State.bySup_runs {f : State → State} (runs : s.thRuns (128 * k) = true) : s.bySup k f = f s := if_pos runs

theorem supTarget_pooled {v : Word} (own : bits v.toNat 9 0 / 128 = k) (pooled : bits v.toNat 9 0 % 128 ≠ 0) :
    supTarget k v = some (bits v.toNat 9 0) := if_pos ⟨own, pooled⟩

theorem State.opKill_ends {v : Word} (target : supTarget k v = some t) (live : (s.thread t).st ≠ .free)
    (unended : (s.thread t).st ≠ .ended) :
    s.opKill k v = if (s.thread t).st = .waiting then (s.endThread t (-1)).modCluster k (fun c => { c with deadTold := false })
      else s.endThread t (-1) := by
  cases st : (s.thread t).st with
  | free => exact absurd st live
  | ended => exact absurd st unended
  | waiting => simp only [State.opKill, target, st, if_true]
  | running => simp only [State.opKill, target, st, reduceCtorEq, if_false]
  | stopped => simp only [State.opKill, target, st, reduceCtorEq, if_false]

theorem State.opResume_resumes {v : Word} (target : supTarget k v = some t) (stopped : (s.thread t).st = .stopped)
    (faulted : (s.thread t).faulted = true) : s.opResume k v =
    s.modThread t (fun x => { x with st := .running, faulted := false, pc := (s.cluster k).supPc }) := by
  unfold State.opResume
  rw [target]
  exact if_pos ⟨stopped, faulted⟩

/-! R365, R366: the watchdog and step 3 of a reset. -/

theorem State.opWatchdog_resets (slots : s.slotOf k = some slot) (up : s.field.up = true)
    (counts : (s.cluster k).wdtStop = none) (late : (s.cluster k).kickAt + msec (s.desc slot 0x28 4) ≤ s.clock) :
    s.opWatchdog k = s.startReset k 1 := by
  have run : s.wdtRun k = s.clock - (s.cluster k).kickAt := by rw [State.wdtRun, counts]; rfl
  have past : msec (s.desc slot 0x28 4) ≤ s.wdtRun k := by rw [run]; exact Nat.le_sub_of_add_le' late
  unfold State.opWatchdog
  rw [slots]
  exact if_pos (by simp [up, counts, past])

theorem State.writeBytes_tha (s : State) (a : Nat) (d : List Byte) : (s.writeBytes a d).tha = s.tha := by
  obtain ⟨c, same⟩ := s.writeBytes_mem a d
  rw [same]

/-- R366: the sections of a service are memory alone. -/
theorem State.loadCluster_tha (s : State) (slot k : Nat) : (s.loadCluster slot k).tha = s.tha := by
  unfold State.loadCluster
  refine List.foldlRecOn (motive := fun t : State => t.tha = s.tha) _ _ rfl fun t same j _ => ?_
  refine List.foldlRecOn (motive := fun t : State => t.tha = s.tha) _ _ same fun t same c _ => ?_
  dsimp only
  split
  · exact (t.writeBytes_tha _ _).trans same
  · exact same

/-- R350: a supervisor's start leaves its cluster with its service. -/
theorem State.startSup_slotOf (slots : s.slotOf k = some slot) : (s.startSup slot k).slotOf k = some slot := by
  obtain ⟨x, named, -⟩ := Option.map_eq_some_iff.1 slots
  have kept : ((s.startSup slot k).cluster k).slot = (s.cluster k).slot := by
    unfold State.startSup State.cluster
    refine (congrArg Cluster.slot (Map.at_set_ne _ _ _ fun none => ?_)).trans rfl
    have gone : (s.cluster k).slot = Option.none := congrArg Cluster.slot none
    exact Option.some_ne_none x (named.symm.trans gone)
  exact (congrArg (Option.map Fin.val) kept).trans slots

theorem State.resetStep3_notes {cause : Nat} (slots : s.slotOf k = some slot) :
    s.resetStep3 slot k cause =
      ((((((s.loadCluster slot k).startSup slot k).modService slot (fun y => { y with
        resets := y.resets + 1, cause := cause })).count (cluCnt k 3)).thaEvent (8 + k)).mainEvent 5 12
        ((((s.loadCluster slot k).startSup slot k).modService slot (fun y => { y with
          resets := y.resets + 1, cause := cause })).repTime (30 + k)) [BitVec.ofNat 8 k]) := by
  have loaded : (s.loadCluster slot k).slotOf k = some slot := by
    unfold State.slotOf State.cluster at slots ⊢
    rw [State.loadCluster_tha]
    exact slots
  unfold State.resetStep3 State.noteReset
  rw [State.startSup_slotOf loaded]

theorem State.opClusterReset_resets {x : Nat} (begun : (s.cluster k).resetAt = some x) (slots : s.slotOf k = some slot)
    (late : s.due x (usec 20) = true) : s.opClusterReset k = s.resetStep3 slot k (s.cluster k).resetBy := by
  unfold State.opClusterReset
  rw [begun, slots]
  exact if_pos late

/-- Settles O34: each command finds its cluster as its rule asks, and does what the rule gives. -/
theorem clusterCommandsComplete : Obligations.ClusterCommandsComplete := by
  refine ⟨?frame, ?held, ?deadlock, ?kill, ?resume, ?next, ?kick, ?watchdog, ?reset⟩
  case frame =>
    intro s v dt k c m l h u ch len p f head kind committed least most whole on room ungranted unwaited got
    have leaves : FrameLeaves u k.val c.toNat m l :=
      ⟨head, kind, committed, least, most, whole, on, room, ungranted, unwaited⟩
    exact congrArg (done s) (State.opFrameOut_sends leaves got)
  case held =>
    intro s dt k c m l x u v head reserved untold since late
    exact congrArg (done s) (State.opChanHeld_tells head reserved untold since late)
  case deadlock =>
    intro s dt k u live v some_live stuck untold
    exact congrArg (done s) (State.opDeadlock_tells some_live stuck untold)
  case kill =>
    intro s k v t runs own pooled live unended
    exact congrArg (done s) ((State.bySup_runs runs).trans (State.opKill_ends (supTarget_pooled own pooled) live unended))
  case resume =>
    intro s k v t runs own pooled stopped faulted
    exact congrArg (done s) ((State.bySup_runs runs).trans
      (State.opResume_resumes (supTarget_pooled own pooled) stopped faulted))
  case next =>
    exact fun s k v runs head => congrArg (done s) ((State.bySup_runs runs).trans (if_pos head))
  case kick =>
    intro s dt k u runs
    exact congrArg (done s) (State.bySup_runs runs)
  case watchdog =>
    intro s dt slot k u slots up counts late
    exact congrArg (done s) (State.opWatchdog_resets slots up counts late)
  case reset =>
    intro s dt slot x k u v begun slots late
    exact congrArg (done s) ((State.opClusterReset_resets begun slots late).trans (State.resetStep3_notes slots))

end Sys2Proof.Machine
end

section
/-! PROOFS. The service commands (R350, R351, R387). -/

namespace Sys2Proof.Machine

variable {s : State} {lvl slot : Nat}

theorem State.serviceCmd_runs (level : lvl ≠ 0) (runs : s.running = true) (v : Nat) : s.serviceCmd lvl slot v =
    if v = 1 then s.startChecked slot else if v = 2 then s.opStop slot else s.opRestart slot := by
  have open_ : ¬ lvl < 1 := Nat.not_lt.2 (Nat.one_le_iff_ne_zero.2 level)
  exact (if_neg open_).trans (if_neg (by rw [runs]; decide))

/-- R350, R387: a start of a slot with an image that is accepted again. -/
theorem State.startChecked_starts (held : (s.service slot).state ≠ 0) (stands : (s.service slot).state ≠ 2)
    (good : s.imageResult (s.service slot).file (0x10 + slot) = 0) : s.startChecked slot =
    (0, if ((s.startService slot).service slot).state = 2 then (s.startService slot).sendService slot
      else s.startService slot) := by
  have starts : s.opStart slot = (0, s.startService slot) := if_neg stands
  unfold State.startChecked
  simp only [if_neg held, if_neg stands, good, ne_eq, not_true_eq_false, if_false, starts]

/-- Settles O35: a command of a slot, at a level that may give it, on a main die that runs. -/
theorem serviceCommandsComplete : Obligations.ServiceCommandsComplete := by
  intro s dt lvl slot u taken runs level
  have allowed : lvl.val ≠ 0 := Fin.val_ne_of_ne level
  refine ⟨?start, ?stop, ?restart⟩
  case start =>
    intro held stands good
    exact congrArg (done s) (State.rowWrite_taken taken
      ((State.serviceCmd_runs allowed runs 1).trans (State.startChecked_starts held stands good)))
  case stop =>
    exact fun active => congrArg (done s) (State.rowWrite_taken taken
      ((State.serviceCmd_runs allowed runs 2).trans (if_neg (not_not_intro active))))
  case restart =>
    exact fun active => congrArg (done s) (State.rowWrite_taken taken
      ((State.serviceCmd_runs allowed runs 3).trans (if_neg (not_not_intro active))))

end Sys2Proof.Machine
end

section
/-! PROOFS. The debugger (R367): the operations of THA_DBG_CMD, and a breakpoint's hit. -/

namespace Sys2Proof.Machine

variable {s : State} {t op n x : Nat} {arg data : BitVec 64} {v : Word}

/-- R369: the command register as a command of one operation leaves it. -/
def dbgWord (op : Nat) (v : Word) : Word := BitVec.ofNat 32 (putBits v.toNat 3 0 op) &&& 0xF

/-- R367, R369: what the debugger's registers hold: the thread, the argument and the data. -/
structure DbgAsks (s : State) (t : Nat) (arg data : BitVec 64) : Prop where
  thread : s.regBits (THA + 0x1004) 9 0 = t
  arg    : s.getReg64 thaDbgArg = arg
  data   : s.getReg64 thaDbgData = data

/-- R369: the command register holds none of them. -/
theorem DbgAsks.setReg (w : Word) (asks : DbgAsks s t arg data) : DbgAsks (s.setReg thaDbgCmd w) t arg data := by
  obtain ⟨thread, argument, datum⟩ := asks
  have other (a : Nat) (apart : a ≠ thaDbgCmd) : (s.setReg thaDbgCmd w).getReg a = s.getReg a :=
    s.getReg_setReg_other w apart
  refine ⟨?_, ?_, ?_⟩
  · rw [← thread, State.regBits, State.regBits, State.regNat, State.regNat, other _ (by decide)]
  · rw [← argument, State.getReg64, State.getReg64, other _ (by decide), other _ (by decide)]
  · rw [← datum, State.getReg64, State.getReg64, other _ (by decide), other _ (by decide)]

/-- R367: while debug is open, the operation of a command runs on a thread whose cluster is powered. -/
theorem State.opDbg_runs (asks : DbgAsks s t arg data) (taken : s.cmdTaken thaDbgCmd = true)
    (opened : s.field.debugOpen = true) (on : s.powered (71 + t / 128) = true) (fits : op < 16) (runs : op ≠ 0) :
    s.opDbg op v = (s.setReg thaDbgCmd (dbgWord op v)).dbgRun op := by
  have named : (s.setReg thaDbgCmd (dbgWord op v)).regBits (THA + 0x1004) 9 0 = t := (asks.setReg _).thread
  have powered : (s.setReg thaDbgCmd (dbgWord op v)).powered (71 + t / 128) = true := on
  have unlocked : ¬ (!s.field.debugOpen) = true := by
    rw [opened]
    decide
  have there : ¬ (!(s.setReg thaDbgCmd (dbgWord op v)).powered
      (71 + (s.setReg thaDbgCmd (dbgWord op v)).regBits (THA + 0x1004) 9 0 / 128)) = true := by
    rw [named, powered]
    decide
  unfold State.opDbg State.opDbgCmd
  rw [s.onCmd_taken _ taken]
  dsimp only
  rw [if_neg unlocked, bits_putBits_low _ _ fits, if_neg runs]
  exact if_neg there

/-! The operations. -/

/-- R367: an argument from 1 to 31 names a register, and not the pc. -/
theorem dbgRegister_legal (least : 1 ≤ n) (most : n ≤ 31) : (BitVec.ofNat 64 n).toNat = n ∧
    ¬ (BitVec.ofNat 64 n = 0 ∨ 32 < n) ∧ BitVec.ofNat 64 n ≠ 32 := by
  have value : (BitVec.ofNat 64 n).toNat = n := by rw [BitVec.toNat_ofNat]; omega
  refine ⟨value, ?_, ?_⟩
  · rw [← BitVec.toNat_inj, value]
    simp
    omega
  · rw [ne_eq, ← BitVec.toNat_inj, value]
    simp
    omega

section
variable (asks : DbgAsks s t arg data)
include asks

theorem State.dbgRun_stop (runs : s.thRuns t = true) : s.dbgRun 1 = (s.dbgStopped t).dbgStatus 0 := by
  obtain ⟨rfl, -, -⟩ := asks
  exact if_pos runs

theorem State.dbgRun_discard {w : State} (finds : s.dbgDiscard t (arg.toNat % 2048) = some w) :
    s.dbgRun 10 = w.dbgStatus 0 := by
  obtain ⟨rfl, rfl, -⟩ := asks
  simp only [State.dbgRun, finds]

section
variable (stopped : (s.thread t).st = .stopped)
include stopped

theorem State.dbgRun_run : s.dbgRun 2 = (s.dbgGo t).dbgStatus 0 := by
  obtain ⟨rfl, -, -⟩ := asks
  exact if_pos stopped

theorem State.dbgRun_step : s.dbgRun 3 = (s.dbgStep t).dbgStatus 0 := by
  obtain ⟨rfl, -, -⟩ := asks
  exact if_pos stopped

section
variable (named : arg = BitVec.ofNat 64 n) (least : 1 ≤ n) (most : n ≤ 31)
include named least most

theorem State.dbgRun_readReg : s.dbgRun 4 = (s.setReg64 thaDbgData (s.xreg t n)).dbgStatus 0 := by
  obtain ⟨rfl, rfl, -⟩ := asks
  obtain ⟨value, legal, register⟩ := dbgRegister_legal least most
  simp only [State.dbgRun, named, value, if_neg legal, stopped, decide_true, Bool.not_true, Bool.false_eq_true, if_false,
    if_neg register]

theorem State.dbgRun_writeReg : s.dbgRun 5 = (s.modThread t (fun x => x.setReg n data)).dbgStatus 0 := by
  obtain ⟨rfl, rfl, rfl⟩ := asks
  obtain ⟨value, legal, register⟩ := dbgRegister_legal least most
  simp only [State.dbgRun, named, value, if_neg legal, stopped, decide_true, Bool.not_true, Bool.false_eq_true, if_false,
    if_neg register]

end

section
variable (pc : arg = 32)
include pc

theorem State.dbgRun_readPc : s.dbgRun 4 = (s.setReg64 thaDbgData (s.thread t).pc).dbgStatus 0 := by
  obtain ⟨rfl, rfl, -⟩ := asks
  simp [State.dbgRun, pc, stopped]

theorem State.dbgRun_writePc :
    s.dbgRun 5 = (s.modThread t (fun x => { x with pc := data, past := false })).dbgStatus 0 := by
  obtain ⟨rfl, rfl, rfl⟩ := asks
  simp [State.dbgRun, pc, stopped]

end

end

section
variable (aligned : arg.toNat % 8 = 0) (place : s.thPlace t arg.toNat 8 = .mem x)
include aligned place

theorem State.dbgRun_readMem (good : s.readBad x 8 = false) :
    s.dbgRun 6 = (s.setReg64 thaDbgData (BitVec.ofNat 64 (leNat (s.readBytes x 8)))).dbgStatus 0 := by
  obtain ⟨rfl, rfl, -⟩ := asks
  have loads : s.thLoad (s.regBits (THA + 0x1004) 9 0) (s.getReg64 thaDbgArg).toNat 8 = (.inr (s.readBytes x 8), s) := by
    simp [State.thLoad, aligned, place, good]
  simp only [State.dbgRun, loads]

theorem State.dbgRun_writeMem : s.dbgRun 7 = (s.land x (leBytes 8 data.toNat)).dbgStatus 0 := by
  obtain ⟨rfl, rfl, rfl⟩ := asks
  have stores := State.thStore_mem (dbg := State.dbgBusy) (d := leBytes 8 (s.getReg64 thaDbgData).toNat) aligned place
  simp only [State.dbgRun, stores]

end

theorem State.dbgRun_setBreak : s.dbgRun 8 = (s.modCluster (t / 128) (fun c => { c with
    breaks := Map.put c.breaks (4 * (t / 16 % 8) + data.toNat % 4) arg })).dbgStatus 0 := by
  obtain ⟨rfl, rfl, rfl⟩ := asks
  rfl

theorem State.dbgRun_clearBreak
    (set : (Map.get (s.cluster (t / 128)).breaks (4 * (t / 16 % 8) + data.toNat % 4)).isSome = true) :
    s.dbgRun 9 = (s.modCluster (t / 128) (fun c => { c with
      breaks := Map.del c.breaks (4 * (t / 16 % 8) + data.toNat % 4) })).dbgStatus 0 := by
  obtain ⟨rfl, -, rfl⟩ := asks
  exact if_neg (by rw [Option.isNone_eq_false_iff.2 set]; decide)

end

/-- Settles O36: each operation on a thread as its rule asks for it, and the hit of a breakpoint. -/
theorem debugCommandsComplete : Obligations.DebugCommandsComplete := by
  refine ⟨?ops, ?step, ?hit⟩
  case ops =>
    intro s v w u t arg data key taken opened on
    have asks : DbgAsks s t arg data := ⟨rfl, rfl, rfl⟩
    have after (op : Nat) : DbgAsks (u op) t arg data := asks.setReg _
    have runs (op : Nat) (fits : op < 16) (some : op ≠ 0) {z : State} (means : (u op).dbgRun op = z) :
        done s (s.opDbg op v) = done s z :=
      congrArg (done s) ((State.opDbg_runs asks taken opened on fits some).trans means)
    refine ⟨?stop, ?run, ?register, ?pc, ?readMem, ?writeMem, ?set, ?clear, ?discard⟩
    case stop => exact fun running => runs 1 (by decide) (by decide) (State.dbgRun_stop (after 1) running)
    case run => exact fun stopped => runs 2 (by decide) (by decide) (State.dbgRun_run (after 2) stopped)
    case register =>
      intro n stopped named least most
      exact ⟨runs 4 (by decide) (by decide) (State.dbgRun_readReg (after 4) stopped named least most),
        runs 5 (by decide) (by decide) (State.dbgRun_writeReg (after 5) stopped named least most)⟩
    case pc =>
      intro stopped named
      exact ⟨runs 4 (by decide) (by decide) (State.dbgRun_readPc (after 4) stopped named),
        runs 5 (by decide) (by decide) (State.dbgRun_writePc (after 5) stopped named)⟩
    case readMem =>
      exact fun x aligned place good =>
        runs 6 (by decide) (by decide) (State.dbgRun_readMem (after 6) aligned place good)
    case writeMem =>
      exact fun x aligned place => runs 7 (by decide) (by decide) (State.dbgRun_writeMem (after 7) aligned place)
    case set => exact runs 8 (by decide) (by decide) (State.dbgRun_setBreak (after 8))
    case clear => exact fun set => runs 9 (by decide) (by decide) (State.dbgRun_clearBreak (after 9) set)
    case discard =>
      exact fun z finds => runs 10 (by decide) (by decide) (State.dbgRun_discard (after 10) finds)
  case step =>
    intro s dt v u t taken opened on stopped
    have asks : DbgAsks u t (u.getReg64 thaDbgArg) (u.getReg64 thaDbgData) := ⟨rfl, rfl, rfl⟩
    exact congrArg (done s) ((State.opDbg_runs asks taken opened on (by decide) (by decide)).trans
      (State.dbgRun_step (asks.setReg _) stopped))
  case hit =>
    intro s th running breaks
    exact congrArg (done s) ((if_neg (not_thRuns_eq running)).trans (if_pos breaks))

end Sys2Proof.Machine
end

section
/-! PROOFS. The glove (R371 to R373, R394): messages received and sent again, the loss of the peer, the link that comes
up, object requests and their answers. -/

namespace Sys2Proof.Machine

variable {s v x : State} {p b val : List Byte} {d : Side} {m : GloveMsg}

/-! R371: messages. -/

@[simp] theorem State.glove_setGlove (s : State) (d : Side) (g : GloveEnd) : (s.setGlove d g).glove d = g := by
  cases d <;> rfl

/-- R371: the next message of the other side, good, is acknowledged and delivered; a notice stays at the main die's
border. -/
theorem State.opGloveReceive_delivers (runs : s.sideRuns d = true) (next : seqOrder (s.glove d).last m.seq = 0)
    (good : gloveGood d m = true) :
    s.opGloveReceive d m (gloveCrc m) =
      let v := ((s.setGlove d { s.glove d with heardAt := s.clock }).emit (.gloveAck d m.seq)).gloveAcked (otherSide d) m.seq
      v.setGlove d { v.glove d with last := some m.seq, inbox :=
        if d = .host ∧ m.typ = 0x30 then (v.glove d).inbox else (v.glove d).inbox ++ [m] } := by
  unfold State.opGloveReceive
  simp only [runs, Bool.not_true, Bool.false_eq_true, if_false, State.glove_setGlove, next, ne_eq, not_true_eq_false,
    decide_false, Bool.or_self, OfNat.zero_ne_ofNat, Nat.zero_ne_one, good, if_true, Bool.and_eq_true, decide_eq_true_eq]

/-- R371: a side's messages that have no acknowledgement leave again. -/
def State.sendAgain (s : State) (d : Side) (l : List GloveMsg) : State := l.foldl (fun w m => w.emit (.glove d m (gloveCrc m))) s

theorem State.sendAgain_reports (s : State) (d : Side) (l : List GloveMsg) : Reports s (s.sendAgain d l) :=
  Reports.foldl _ (fun _ _ => State.emit_reports _ _) l s

section
variable (runs : s.sideRuns d = true) (some_sent : (s.glove d).sent ≠ []) (late : s.due (s.glove d).retryAt (usec 20) = true)
include runs some_sent late

theorem State.retransmit_due : ¬ (!s.sideRuns d || (s.glove d).sent.isEmpty || !s.due (s.glove d).retryAt (usec 20)) = true := by
  rw [runs, late, List.isEmpty_eq_false_iff.2 some_sent]
  decide

theorem State.opRetransmit_again (few : (s.glove d).fails + 1 < 16) : s.opRetransmit d =
    (s.setGlove d { s.glove d with fails := (s.glove d).fails + 1, retryAt := s.clock }).sendAgain d (s.glove d).sent :=
  (if_neg (State.retransmit_due runs some_sent late)).trans (if_pos few)

/-- R371: the sixteenth failure resets the link. -/
theorem State.opRetransmit_resets (last : (s.glove d).fails = 15) (on : s.powered 95 = true) :
    s.opRetransmit d =
      let v := (s.setGlove d { s.glove d with fails := 0, retryAt := s.clock }).sendAgain d (s.glove d).sent
      { v with gloveH := { v.gloveH with err := true } }.count glvLinkReset := by
  have many : ¬ (s.glove d).fails + 1 < 16 := by omega
  have kept : ((s.setGlove d { s.glove d with fails := 0, retryAt := s.clock }).sendAgain d (s.glove d).sent).powered 95 =
      true := by
    refine ((State.sendAgain_reports _ d _).powered 95).trans ?_
    cases d <;> exact on
  exact (if_neg (State.retransmit_due runs some_sent late)).trans ((if_neg many).trans (if_pos kept))

end

/-! R371, R393, R394: the peer is lost. -/

theorem State.peerDown_due (runs : s.sideRuns d = true) (up : (s.glove d).peerUp = true)
    (late : s.due (s.glove d).heardAt (msec 5) = true) :
    ¬ (!s.sideRuns d || !(s.glove d).peerUp || !s.due (s.glove d).heardAt (msec 5)) = true := by
  rw [runs, up, late]
  decide

/-- R374: a frame of the node leaves the requests that wait for the main die. -/
theorem State.busOut_asked (s : State) (ok : Bool) (dst : Byte) (b : List Byte) :
    (s.busOut ok dst b).field.asked = s.field.asked := by
  unfold State.busOut
  split <;> rfl

theorem State.busSend_asked (s : State) (typ : Nat) (dst : Byte) (tid : BitVec 16) (sid : Word) (p : List Byte) (ok : Bool) :
    (s.busSend typ dst tid sid p ok).field.asked = s.field.asked := by
  unfold State.busSend
  dsimp only
  split
  · rfl
  · split
    · exact s.busOut_asked _ _ _
    · split
      · rfl
      · exact (State.busOut_asked _ _ _ _).trans rfl

/-- R373: every request that waits is answered; the ends of the glove stay as they were. -/
theorem State.dropAsked_ends (s : State) :
    s.dropAsked.field.asked = [] ∧ s.dropAsked.gloveF = s.gloveF ∧ s.dropAsked.gloveH = s.gloveH := by
  refine List.foldlRecOn (motive := fun t : State => t.field.asked = [] ∧ t.gloveF = s.gloveF ∧ t.gloveH = s.gloveH)
    s.field.asked _ ⟨rfl, rfl, rfl⟩ fun t kept q _ => ?_
  obtain ⟨asked, ends⟩ := kept
  obtain ⟨f, o, sent⟩ := t.busSend_parts 0x06 q.hdr.src q.hdr.tid q.hdr.session
    (beBytes 2 (beAt q.data 0 2) ++ beBytes 1 (beAt q.data 2 1) ++ [0] ++ beBytes 2 7) q.hdr.sent
  refine ⟨(t.busSend_asked _ _ _ _ _ _).trans asked, ?_⟩
  unfold State.busAbort
  rw [sent]
  exact ends

/-- R371, R393, R394: the host side with nothing that waits for an acknowledgement and no cluster of a service. -/
theorem State.opPeerDown_host (runs : s.sideRuns .host = true) (up : s.gloveH.peerUp = true)
    (late : s.due s.gloveH.heardAt (msec 5) = true) (acked : s.gloveH.sent = []) (few : s.gloveH.evq.length ≤ 64)
    (clusterless : s.tha.clusters = []) :
    let v := { s with gloveH := { s.gloveH with
      peerUp := false, lost := true, sent := [], evq := s.gloveH.evq.take 64 } }.countN glvEvtLost 0
    let hold := fun (m : Mbox) => { m with held := m.held || m.full }
    let w : State := { v with field := { v.field with
      h2f := v.field.h2f.map (fun (e : Nat × Mbox) => (e.1, hold e.2))
      thaTo := v.field.thaTo.map (fun (e : Nat × Mbox) => (e.1, hold e.2)) } }
    s.opPeerDown .host = w.pendOutstanding.spdmBusy.glvEvent 0 := by
  intro v hold w
  have free (k : Nat) : (w.cluster k).slot.isSome = false := by
    have none : w.cluster k = {} := by
      change Map.at_ s.tha.clusters k {} = {}
      rw [clusterless]
      rfl
    rw [none]
    rfl
  have unheld : (List.range 8).foldl (fun s k => if (s.cluster k).slot.isSome then s.holdWdt k else s) w = w :=
    List.foldl_fixed' (fun k => if_neg (by rw [free k]; decide)) _
  have kept : s.gloveH.evq.length - 64 = 0 := Nat.sub_eq_zero_of_le few
  refine (if_neg (State.peerDown_due runs up late)).trans ?_
  refine Eq.trans ?_ (congrArg (fun t : State => t.pendOutstanding.spdmBusy.glvEvent 0) unheld)
  simp only [State.glove, acked, List.filter_nil, List.map_nil, List.foldl_nil, List.append_nil, kept]
  rfl

/-! R394: the link comes up. -/

theorem State.sendSeal_none (none : s.sql.pendSeal = none) : s.sendSeal = s := by
  unfold State.sendSeal
  rw [none]

/-- R393: where no mailbox has been written, none is held. -/
theorem State.sendHeld_none (h2f : s.field.h2f = []) (f2h : s.field.f2h = []) (thaTo : s.field.thaTo = [])
    (thaFrom : s.field.thaFrom = []) : s.sendHeld = s := by
  have free (k c : Nat) : (s.mbox k c).held = false := by
    unfold State.mbox
    split <;> simp only [h2f, f2h, thaTo, thaFrom] <;> rfl
  have idle (k c : Nat) : (!(s.mbox k c).held) = true := by
    rw [free]
    rfl
  unfold State.sendHeld
  dsimp only
  rw [List.foldl_fixed' (a := s), List.foldl_fixed' (a := s), List.foldl_fixed' (a := s), List.foldl_fixed' (a := s)]
  · exact fun c => if_pos (idle 3 c)
  · exact fun c => if_pos (idle 2 c)
  · exact fun c => if_pos (idle 1 c)
  · exact fun c => if_pos (idle 0 c)

/-- R394: a restart of the supervisors' watchdogs is the thread array's alone. -/
theorem State.freshWdt_parts (s : State) : ∃ a, s.freshWdt = { s with tha := a } := by
  refine List.foldlRecOn (motive := fun t : State => ∃ a, t = { s with tha := a }) _ _ ⟨_, rfl⟩ fun t kept k _ => ?_
  obtain ⟨a, rfl⟩ := kept
  dsimp only
  split <;> exact ⟨_, rfl⟩

/-- R394: both ends of the glove as the link comes up. -/
def State.linkFresh (s : State) : State := { s with
  gloveH := { s.gloveH with
    peerUp := true, heardAt := s.clock, last := if s.field.restartAt.isSome then none else s.gloveH.last
    err := false, lost := false, fails := 0
    restarts := if s.gloveH.lost then min 0xFFFF (s.gloveH.restarts + 1) else s.gloveH.restarts }
  gloveF := { s.gloveF with peerUp := true, heardAt := s.clock, last := none, lost := false, fails := 0 } }

/-- R394: the time-quality report is sent. -/
def State.linkReport (s : State) : State :=
  let u := s.gloveSend .host 0x60 s.tqrBytes
  { u with tim := { u.tim with tqrAt := some u.clock, tqrDue := false } }

/-- R394: what follows once the held mailbox messages have been sent. -/
def State.linkRest (s : State) : State :=
  let u := (s.gloveH.evq.foldl (fun (s : State) p => s.gloveSend .host 0x30 p)
    { s with gloveH := { s.gloveH with evq := [] } }).freshWdt.glvEvent 1
  let v := if u.running then u.deliverHeld else u
  if v.field.restartAt.isSome then
    State.fieldEvent { v with field := { v.field with restarts := v.field.restarts + 1, restartAt := none } } 9 15 0 []
  else v

theorem State.opLinkUpGlove_eq (field : s.sideRuns .field = true) (host : s.sideRuns .host = true)
    (down : s.gloveH.peerUp = false) : s.opLinkUpGlove = s.linkFresh.sendSeal.linkReport.sendHeld.linkRest := by
  have go : ¬ (!s.sideRuns .field || !s.sideRuns .host || s.gloveH.peerUp) = true := by
    rw [field, host, down]
    decide
  unfold State.opLinkUpGlove State.linkRest State.linkReport State.linkFresh
  rw [if_neg go]

/-- R394: on a main die that does not run, with no notice that waits and a field side that has not restarted. -/
theorem State.linkRest_quiet (evq : s.gloveH.evq = []) (idle : s.running = false) (standing : s.field.restartAt = none) :
    s.linkRest = s.freshWdt.glvEvent 1 := by
  have same : { s with gloveH := { s.gloveH with evq := [] } } = s := by rw [← evq]
  obtain ⟨a, fresh⟩ := s.freshWdt_parts
  have reports : Reports s.freshWdt (s.freshWdt.glvEvent 1) := State.setEvt_reports _ _ _ _
  have unrun : ¬ (s.freshWdt.glvEvent 1).running = true := by
    unfold State.running at idle ⊢
    rw [reports.field, fresh, idle]
    decide
  have unrestarted : ¬ (s.freshWdt.glvEvent 1).field.restartAt.isSome = true := by
    rw [reports.field, fresh, standing]
    decide
  unfold State.linkRest
  simp only [evq, List.foldl_nil, same, if_neg unrun, if_neg unrestarted]

/-- R394: the link of a main die that does not run comes up with nothing that waits: the report alone crosses. -/
theorem State.opLinkUpGlove_tells (field : s.sideRuns .field = true) (host : s.sideRuns .host = true)
    (down : s.gloveH.peerUp = false) (evq : s.gloveH.evq = []) (unsealed : s.sql.pendSeal = none)
    (idle : s.running = false) (standing : s.field.restartAt = none) (h2f : s.field.h2f = []) (f2h : s.field.f2h = [])
    (thaTo : s.field.thaTo = []) (thaFrom : s.field.thaFrom = []) :
    s.opLinkUpGlove = s.linkFresh.linkReport.freshWdt.glvEvent 1 := by
  have sealed : s.linkFresh.sendSeal = s.linkFresh := State.sendSeal_none unsealed
  have held : s.linkFresh.linkReport.sendHeld = s.linkFresh.linkReport := State.sendHeld_none h2f f2h thaTo thaFrom
  rw [State.opLinkUpGlove_eq field host down, sealed, held]
  exact State.linkRest_quiet evq idle standing

/-- R388: an event of the glove block leaves both ends of the glove. -/
theorem State.glvEvent_ends (s : State) (b : Nat) :
    (s.glvEvent b).gloveH = s.gloveH ∧ (s.glvEvent b).gloveF = s.gloveF ∧ (s.glvEvent b).tim = s.tim := by
  obtain ⟨r, h, o, same⟩ := s.setEvt_parts glvEvt 15 (BitVec.ofNat 32 (2 ^ b))
  unfold State.glvEvent
  rw [same]
  exact ⟨rfl, rfl, rfl⟩

/-! R373: object requests and answers. -/

theorem State.opObjReq_host (taken : s.takeMsg .host 0x01 = some (p, v)) (served : v.hostServe p = (b, x)) :
    s.opObjReq .host = x.gloveSend .host 0x02 b := by
  unfold State.opObjReq
  simp only [taken, served]

theorem State.opObjReq_field (taken : s.takeMsg .field 0x01 = some (p, v)) (served : v.fieldServe p = (b, x)) :
    s.opObjReq .field = x.gloveSend .field 0x02 b := by
  unfold State.opObjReq
  simp only [taken, served]

theorem readAnswer_within {typ : Nat} (within : beAt p 4 4 ≤ val.length) : readAnswer p typ val =
    slicePad p 0 3 ++ beBytes 1 typ ++ beBytes 4 (beAt p 4 4) ++ beBytes 4 val.length ++ slice val (beAt p 4 4) 1024 :=
  if_neg (Nat.not_lt.2 within)

section
variable {typ : Nat}

theorem State.hostServe_reads (whole : p.length = 8) (bound : objBound (beAt p 0 2) (beAt p 2 1) = true)
    (runs : s.running = true) (read : s.readObject 3 (beAt p 0 2) (beAt p 2 1) = (0, typ, b)) :
    s.hostServe p = (readAnswer p typ (if beAt p 2 1 ≠ 0 ∧ objTold (beAt p 0 2) = true
      then s.mainBytes (beAt p 0 2) (beAt p 2 1) else b), s) := by
  unfold State.hostServe
  simp only [bound, runs, whole, read, Bool.not_true, Bool.false_eq_true, if_false, if_true, ne_eq, not_true_eq_false,
    Bool.and_eq_true, decide_eq_true_eq]

theorem State.hostServe_writes (whole : 12 ≤ p.length) (bound : objBound (beAt p 0 2) (beAt p 2 1) = true)
    (runs : s.running = true)
    (good : s.writeCheck 3 (beAt p 0 2) (beAt p 2 1) (p.drop 12).length (some (p.drop 12)) = 0)
    (writes : s.boundWrite (beAt p 0 2) (beAt p 2 1) (p.drop 12) = (0, x)) :
    s.hostServe p = (slicePad p 0 3 ++ [0] ++ beBytes 4 (p.length - 12), x) := by
  have long : ¬ p.length = 8 := by omega
  unfold State.hostServe
  simp only [bound, runs, good, writes, Bool.not_true, Bool.false_eq_true, if_false, ne_eq, not_true_eq_false,
    if_neg long, if_neg (Nat.not_lt.2 whole)]
  rfl

theorem State.fieldServe_reads (whole : p.length = 8) (other : beAt p 0 2 ≠ 0x2F60)
    (read : s.readObject 0 (beAt p 0 2) (beAt p 2 1) = (0, typ, b)) : s.fieldServe p = (readAnswer p typ b, s) := by
  unfold State.fieldServe
  simp only [whole, if_true, if_neg other, read, ne_eq, not_true_eq_false, if_false]

end

theorem State.opObjRsp_field (taken : s.takeMsg .field 0x02 = some (p, v)) : s.opObjRsp .field = v.fieldAnswered p := by
  unfold State.opObjRsp
  simp only [taken]

theorem State.opObjRsp_host {r : List Byte} (taken : s.takeMsg .host 0x02 = some (p, v)) (waits : v.hep.doe = some r) :
    s.opObjRsp .host = v.spdmGo r p := by
  unfold State.opObjRsp
  simp only [taken, waits]

/-- R411: the signature has come. -/
theorem State.spdmGo_says {r : List Byte} (answered : beAt p 3 1 ≠ 0xFF) (signature : beAt p 0 2 = 0x2F60)
    (sub : beAt p 2 1 = 2) : s.spdmGo r p = s.spdmSay r (s.hep.doePart ++ p.drop 12) := by
  unfold State.spdmGo
  simp only [if_neg answered, signature, sub, if_true, OfNat.ofNat_ne_one, if_false]

/-- Settles O37: each command is its operation on a side that runs. -/
theorem gloveCommandsComplete : Obligations.GloveCommandsComplete := by
  refine ⟨?receive, ?again, ?fieldDown, ?hostDown, ?linkUp, ?read, ?write, ?answered, ?signed⟩
  case receive =>
    intro s dt d m u v runs next good
    exact congrArg (done s) (State.opGloveReceive_delivers runs next good)
  case again =>
    intro s dt d u g again runs some_sent late
    exact ⟨fun few => congrArg (done s) (State.opRetransmit_again runs some_sent late few),
      fun last on => congrArg (done s) (State.opRetransmit_resets runs some_sent late last on)⟩
  case fieldDown =>
    intro s dt u runs up late
    have down : u.opPeerDown .field = State.dropAsked { u with gloveF := { u.gloveF with peerUp := false, lost := true } } :=
      if_neg (State.peerDown_due runs up late)
    obtain ⟨asked, gloveF, gloveH⟩ :=
      State.dropAsked_ends { u with gloveF := { u.gloveF with peerUp := false, lost := true } }
    refine .of_op (congrArg (done s) down) ?_
    rw [State.ended_gloveF, State.ended_gloveH, State.ended_field, asked, gloveF, gloveH]
    exact ⟨rfl, rfl, rfl, rfl⟩
  case hostDown =>
    intro s dt u runs up late acked few clusterless _ v hold w
    exact congrArg (done s) (State.opPeerDown_host runs up late acked few clusterless)
  case linkUp =>
    intro s dt u field host down evq unsealed idle standing h2f f2h thaTo thaFrom
    have up := State.opLinkUpGlove_tells field host down evq unsealed idle standing h2f f2h thaTo thaFrom
    obtain ⟨a, fresh⟩ := u.linkFresh.linkReport.freshWdt_parts
    obtain ⟨gloveH, gloveF, tim⟩ := State.glvEvent_ends u.linkFresh.linkReport.freshWdt 1
    refine .of_op (congrArg (done s) up) ?_
    rw [State.ended_gloveF, State.ended_gloveH, State.ended_tim, gloveF, gloveH, tim, fresh]
    exact ⟨rfl, rfl, ⟨_, List.mem_append_right _ (List.mem_singleton.2 rfl), rfl⟩, rfl⟩
  case read =>
    intro s v p val b typ d idx sub off taken whole side within
    cases d with
    | host =>
      obtain ⟨bound, runs, read, rfl⟩ := side
      exact congrArg (done s) (State.opObjReq_host taken ((State.hostServe_reads whole bound runs read).trans
        (congrArg (·, v) (readAnswer_within within))))
    | field =>
      obtain ⟨other, read⟩ := side
      exact congrArg (done s) (State.opObjReq_field taken ((State.fieldServe_reads whole other read).trans
        (congrArg (·, v) (readAnswer_within within))))
  case write =>
    intro s v x p idx sub val taken whole bound runs good writes
    exact congrArg (done s) (State.opObjReq_host taken (State.hostServe_writes whole bound runs good writes))
  case answered =>
    intro s v p taken mine
    refine ⟨fun none => congrArg (done s) ((State.opObjRsp_field taken).trans ?_),
      fun q found => congrArg (done s) ((State.opObjRsp_field taken).trans ?_)⟩
    · unfold State.fieldAnswered
      rw [none]
    · unfold State.fieldAnswered
      rw [found]
  case signed =>
    intro s v p r taken waits
    have goes := State.opObjRsp_host taken waits
    exact ⟨congrArg (done s) goes, fun answered signature sub =>
      congrArg (done s) (goes.trans (State.spdmGo_says answered signature sub))⟩

end Sys2Proof.Machine
end

section
/-! PROOFS. The frame of the field side: what its commands leave as it was. -/

namespace Sys2Proof.Machine

variable {s t u : State}

/-- What the field side's commands change before they end: the field side, what leaves the device, the time and the free
values. -/
def FieldWork (s t : State) : Prop := t = { s with clock := t.clock, fresh := t.fresh, out := t.out, field := t.field }

theorem FieldWork.refl (s : State) : FieldWork s s := rfl

theorem FieldWork.trans (h : FieldWork s t) (k : FieldWork t u) : FieldWork s u := by
  unfold FieldWork at *
  rw [k, h]

theorem FieldWork.ite {p : Prop} [Decidable p] (h : FieldWork s t) (k : FieldWork s u) :
    FieldWork s (if p then t else u) := by
  split
  · exact h
  · exact k

theorem FieldWork.ite_snd {p : Prop} [Decidable p] {x y : Nat × State} (h : FieldWork s x.2) (k : FieldWork s y.2) :
    FieldWork s (if p then x else y).2 := by
  split
  · exact h
  · exact k

/-- A command that only works on the field side changes, as it ends, INTA beside it. -/
theorem FieldWork.onlyField (h : FieldWork s u) : s.onlyField (s.ended u) := by
  obtain ⟨b, o, e⟩ := u.intxUpdate_parts
  unfold FieldWork at h
  unfold State.onlyField State.ended
  rw [e, h]

theorem State.advance_fieldWork (s : State) (dt : Nat) : FieldWork s (s.advance dt) := rfl

/-- A command whose operation only works on the field side. -/
theorem FieldWork.frame (work : FieldWork s u) (ran : done s u = .next t) : s.onlyField t := by
  obtain rfl : s.ended u = t := Host.Outcome.next.inj ran
  exact work.onlyField

theorem State.fieldEvent_fieldWork (s : State) (c u n : Nat) (d : List Byte) : FieldWork s (s.fieldEvent c u n d) := by
  obtain ⟨f, o, n, e⟩ := s.fieldEvent_parts c u n d
  rw [e]
  rfl

/-- R383: a write of one object works on the field side where its effect does. -/
theorem State.rowWrite_fieldWork {idx sub : Nat} {f : State → Nat × State} (work : FieldWork s (f s).2) :
    FieldWork s (s.rowWrite idx sub f) :=
  .ite (.refl s) (.ite rfl (work.trans rfl))

/-! R384, R385: sessions and logins. -/

theorem State.opLoginTimeout_fieldWork (s : State) (sid : Word) : FieldWork s (s.opLoginTimeout sid) := .ite rfl (.refl s)

theorem State.opSessionIdle_fieldWork (s : State) (sid : Word) : FieldWork s (s.opSessionIdle sid) := .ite rfl (.refl s)

theorem State.opLockoutEnd_fieldWork (s : State) (lvl : Nat) : FieldWork s (s.opLockoutEnd lvl) := by
  unfold State.opLockoutEnd
  split
  · exact .ite rfl (.refl s)
  · exact .refl s

/-- R378, R379, R385: taking a frame works on the field side, and leaves the requests that wait. -/
theorem State.busTake_fieldWork (s : State) (typ : Nat) (h : BusHdr) (p : List Byte) :
    FieldWork s (s.busTake typ h p).2 ∧ (s.busTake typ h p).2.field.later = s.field.later := by
  unfold State.busTake
  dsimp only
  split
  · exact ⟨rfl, rfl⟩
  · split
    · exact ⟨rfl, rfl⟩
    · split
      · exact ⟨rfl, rfl⟩
      · split
        · exact ⟨rfl, rfl⟩
        · split
          · exact ⟨rfl, rfl⟩
          · split <;> exact ⟨rfl, rfl⟩

/-- R381: with nothing that waits, there is nothing to serve. -/
theorem State.serveLater_none (none : s.field.later = []) : s.serveLater = s := by
  have same : { s with field := { s.field with later := [] } } = s := by rw [← none]
  unfold State.serveLater
  rw [none]
  exact same

/-- R381, R385: a LOGOUT that is served ends its session, or waits. -/
theorem State.busServe_logout_fieldWork {q : BusReq} (s : State) (logout : q.kind = .logout) : FieldWork s (s.busServe q) := by
  unfold State.busServe
  rw [logout]
  exact .ite rfl rfl

theorem State.opLogout_fieldWork (h : BusHdr) (none : s.field.later = []) : FieldWork s (s.opLogout h) := by
  obtain ⟨work, later⟩ := s.busTake_fieldWork 0x14 h []
  unfold State.opLogout
  split
  next l u taken =>
    rw [taken] at work later
    refine .ite work (work.trans ?_)
    rw [State.serveLater_none (later.trans none)]
    exact State.busServe_logout_fieldWork u rfl
  next u taken =>
    rw [taken] at work
    exact work

theorem State.opEventAck_fieldWork (s : State) (h : BusHdr) (p : List Byte) : FieldWork s (s.opEventAck h p) := by
  obtain ⟨work, -⟩ := s.busTake_fieldWork 0x21 h p
  unfold State.opEventAck
  split
  next l u taken =>
    rw [taken] at work
    exact work.trans rfl
  next u taken =>
    rw [taken] at work
    exact work

/-! R398, R407, R408: ownership. -/

theorem State.opEnrol_fieldWork (s : State) (lvl : Nat) : FieldWork s (s.opEnrol lvl).2 :=
  .ite_snd rfl (.ite_snd rfl (.ite_snd rfl rfl))

theorem State.opEnrolled_fieldWork (s : State) : FieldWork s s.opEnrolled := .ite (.refl s) rfl

theorem State.opReleaseOwner_fieldWork (s : State) (lvl : Nat) : FieldWork s (s.opReleaseOwner lvl).2 :=
  .ite_snd rfl (.ite_snd rfl (.ite_snd rfl rfl))

theorem State.opDecommission_fieldWork (s : State) (lvl : Nat) : FieldWork s (s.opDecommission lvl).2 :=
  .ite_snd rfl (.ite_snd rfl (.ite_snd rfl rfl))

/-- R415: a main die that does not run is not told of the doors. -/
theorem State.tellDoors_fieldWork (idle : s.running = false) (v : Byte) : FieldWork s (s.tellDoors v) := by
  have same : s.tellDoors v = s := if_neg (by rw [idle]; decide)
  rw [same]
  rfl

theorem State.opProvision_fieldWork (lvl : Nat) (idle : s.running = false) : FieldWork s (s.opProvision lvl).2 := by
  have changed : FieldWork s { s with field := { s.field with life := 1 } } := rfl
  exact .ite_snd rfl (.ite_snd rfl (.ite_snd rfl (changed.trans (State.tellDoors_fieldWork (by exact idle) _))))

/-! R423, R428: telemetry and the VDD setpoint. -/

theorem State.opTelemetry_fieldWork (s : State) (m b f : Int) (c : Word) : FieldWork s (s.opTelemetry m b f c) := by
  unfold State.opTelemetry
  refine .ite (.refl s) ?_
  dsimp only
  generalize sampled : ({ s with field := _ } : State) = u
  have work : FieldWork s u := by
    rw [← sampled]
    rfl
  have warned : FieldWork s (if (warnOf s.field.warned (10 * (s.objNat 0xF020 7 : Int)) m).1 = true
      then u.fieldEvent 0xB 15 0 [] else u) := .ite (work.trans (u.fieldEvent_fieldWork _ _ _ _)) work
  exact .ite (warned.trans (State.fieldEvent_fieldWork _ _ _ _ _)) warned

/-- Settles O59: each operation works on the field side alone; the step of the setpoint is the power unit's. -/
theorem fieldCommandsFrame : Obligations.FieldCommandsFrame := by
  intro s t dt sid lvl h p m b f c n
  have after := s.advance_fieldWork dt
  refine ⟨?timeout, ?logout, ?lockout, ?idle, ?ack, ?enrol, ?enrolled, ?release, ?decommission, ?provision, ?telemetry, ?avs⟩
  case timeout => exact (after.trans (State.opLoginTimeout_fieldWork _ sid)).frame
  case logout => exact fun none => (after.trans (State.opLogout_fieldWork (s := s.advance dt) h none)).frame
  case lockout => exact (after.trans (State.opLockoutEnd_fieldWork _ lvl.val)).frame
  case idle => exact (after.trans (State.opSessionIdle_fieldWork _ sid)).frame
  case ack => exact (s.opEventAck_fieldWork h p).frame
  case enrol => exact (after.trans (State.rowWrite_fieldWork (State.opEnrol_fieldWork _ lvl.val))).frame
  case enrolled => exact (after.trans (State.opEnrolled_fieldWork _)).frame
  case release => exact (State.rowWrite_fieldWork (s.opReleaseOwner_fieldWork lvl.val)).frame
  case decommission => exact (State.rowWrite_fieldWork (s.opDecommission_fieldWork lvl.val)).frame
  case provision => exact fun idle => (State.rowWrite_fieldWork (State.opProvision_fieldWork lvl.val idle)).frame
  case telemetry => exact (after.trans (State.opTelemetry_fieldWork _ m b f c)).frame
  case avs =>
    intro ran
    obtain rfl : s.ended ((s.advance dt).opAvs n) = t := Host.Outcome.next.inj ran
    obtain ⟨x, o, e⟩ := ((s.advance dt).opAvs n).intxUpdate_parts
    obtain ⟨w, moved⟩ : ∃ w, (s.advance dt).opAvs n = { s.advance dt with pwr := w } := by
      unfold State.opAvs
      split
      · exact ⟨_, rfl⟩
      · exact ⟨_, rfl⟩
    unfold State.ended
    rw [e, moved]
    rfl

end Sys2Proof.Machine
end

section
/-! PROOFS. The mailboxes (R389 to R392): messages that arrive and are acknowledged, SEND, return codes and bodies. -/

namespace Sys2Proof.Machine

variable {s v : State} {p : List Byte} {k c n : Nat}

/-! R390 to R392: what crosses the glove. -/

/-- R389, R392: a mailbox channel that is there. -/
def mbxThere (k c : Nat) : Bool := if k ≤ 1 then decide (c < 64) else k ≤ 3 && decide (c < 16)

/-- R372, R390: an MBX message of a good channel and length. -/
structure MbxGood (p : List Byte) : Prop where
  there : mbxThere (beAt p 0 1) (beAt p 1 1) = true
  some  : 1 ≤ beAt p 8 4
  fits  : beAt p 8 4 ≤ 256
  whole : (slice p 12 (beAt p 8 4)).length = beAt p 8 4

theorem MbxGood.goes (good : MbxGood p) : ¬ (!mbxThere (beAt p 0 1) (beAt p 1 1) || beAt p 8 4 = 0 ||
    decide (256 < beAt p 8 4) || (slice p 12 (beAt p 8 4)).length ≠ beAt p 8 4) = true := by
  obtain ⟨there, some, fits, whole⟩ := good
  simp only [there, whole, Bool.not_true, Bool.false_or, ne_eq, not_true_eq_false, decide_false, Bool.or_false,
    Bool.or_eq_true, decide_eq_true_eq]
  omega

theorem State.opMbx_field (good : MbxGood p) (taken : s.takeMsg .field 0x10 = some (p, v))
    (dest : beAt p 0 1 = 0 ∨ beAt p 0 1 = 2) : s.opMbx .field = v.modMbox (beAt p 0 1) (beAt p 1 1) (fun m =>
      { m with state := 1, shown := slice p 12 (beAt p 8 4), who := BitVec.ofNat 32 (beAt p 4 4), old := false }) := by
  unfold State.opMbx
  rw [taken]
  exact (if_neg good.goes).trans (if_pos dest)

theorem State.opMbx_host (good : MbxGood p) (taken : s.takeMsg .host 0x10 = some (p, v)) (dest : beAt p 0 1 = 1) :
    s.opMbx .host = v.modMbox (beAt p 0 1) (beAt p 1 1) (fun m =>
      { m with full := true, shown := slice p 12 (beAt p 8 4), who := BitVec.ofNat 32 (beAt p 4 4) }) := by
  unfold State.opMbx
  rw [taken]
  exact (if_neg good.goes).trans ((if_pos (.inl dest)).trans (if_neg (by omega)))

theorem State.opMbx_thread (good : MbxGood p) (taken : s.takeMsg .host 0x10 = some (p, v)) (dest : beAt p 0 1 = 3) :
    s.opMbx .host = (v.modMbox (beAt p 0 1) (beAt p 1 1) (fun m =>
      { m with full := true, shown := slice p 12 (beAt p 8 4), who := BitVec.ofNat 32 (beAt p 4 4) })).mbxArrival
        (beAt p 1 1) := by
  unfold State.opMbx
  rw [taken]
  exact (if_neg good.goes).trans ((if_pos (.inr dest)).trans (if_pos dest))

/-- R391: an acknowledgement of a channel that is there. -/
theorem mbxAck_there (there : mbxThere k c = true) : ¬ (if k ≤ 1 then decide (64 ≤ c) else decide (3 < k) || decide (16 ≤ c)) = true := by
  unfold mbxThere at there
  split at there
  next low =>
    rw [if_pos low]
    simpa using there
  next high =>
    rw [if_neg high]
    simpa using there

theorem State.opMbxAck_host (taken : s.takeMsg .host 0x11 = some (p, v)) (there : mbxThere (beAt p 0 1) (beAt p 1 1) = true)
    (dest : beAt p 0 1 = 0 ∨ beAt p 0 1 = 2) (full : (v.mbox (beAt p 0 1) (beAt p 1 1)).full = true) :
    s.opMbxAck .host = v.modMbox (beAt p 0 1) (beAt p 1 1) (fun m =>
      { m with full := false, done := true, held := false, code := BitVec.ofNat 16 (beAt p 2 2) }) := by
  unfold State.opMbxAck
  rw [taken]
  exact (if_neg (mbxAck_there there)).trans (if_pos ⟨dest, full⟩)

theorem State.opMbxAck_field (taken : s.takeMsg .field 0x11 = some (p, v))
    (there : mbxThere (beAt p 0 1) (beAt p 1 1) = true) (dest : beAt p 0 1 = 1 ∨ beAt p 0 1 = 3)
    (shown : (v.mbox (beAt p 0 1) (beAt p 1 1)).state = 2) : s.opMbxAck .field =
      v.modMbox (beAt p 0 1) (beAt p 1 1) (fun m => { m with state := 3, code := BitVec.ofNat 16 (beAt p 2 2) }) := by
  unfold State.opMbxAck
  rw [taken]
  exact (if_neg (mbxAck_there there)).trans (if_pos ⟨dest, shown⟩)

theorem mbxThere_host (dest : k ≤ 1) (within : c < 64) : mbxThere k c = true := (if_pos dest).trans (decide_eq_true within)

theorem mbxThere_thread (dest : k = 2 ∨ k = 3) (within : c < 16) : mbxThere k c = true := by
  rcases dest with rfl | rfl <;> exact (decide_eq_true within : decide (c < 16) = true)

/-! R389, R390: SEND. -/

theorem State.opMbxSend_host {req : Requester} {i : Fin 64} {w : Word} (on : s.powered 95 = true)
    (owns : s.ownsMbx req i.val = true) (free : (s.mbox 0 i.val).full = false) (some : 1 ≤ bits w.toNat 8 0)
    (fits : bits w.toNat 8 0 ≤ 256) : s.opMbxSend req (.host i) w = s.postMbx 0 i.val (senderOf req)
      (((List.range 64).map (fun w => leBytes 4 (s.regNat (h2fData i.val w)))).flatten.take (bits w.toNat 8 0)) := by
  have whole : (decide (bits w.toNat 8 0 = 0) || decide (256 < bits w.toNat 8 0)) = false := by
    rw [decide_eq_false (by omega), decide_eq_false (by omega)]
    rfl
  simp only [State.opMbxSend, on, owns, free, whole, Bool.not_true, Bool.false_eq_true, if_false]

theorem State.opMbxSend_thread {th : BitVec 10} {i : Fin 16} {w : Word} {slot : Nat} (on : s.powered 95 = true)
    (owns : s.ownsThaMbx th.toNat i.val = true) (free : (s.mbox 2 i.val).full = false) (some : 1 ≤ bits w.toNat 8 0)
    (fits : bits w.toNat 8 0 ≤ 256) (slots : s.slotOf (th.toNat / 128) = .some slot) :
    s.opMbxSend (.thread th) (.thread i) w = s.postMbx 2 i.val
      ((0x80000000 ||| th.setWidth 32) ||| BitVec.ofNat 32 (slot * 2 ^ 10))
      (slicePad (s.mbox 2 i.val).data 0 (bits w.toNat 8 0)) := by
  have whole : (decide (bits w.toNat 8 0 = 0) || decide (256 < bits w.toNat 8 0)) = false := by
    rw [decide_eq_false (by omega), decide_eq_false (by omega)]
    rfl
  have goes : ¬ (!s.powered 95 || !s.ownsThaMbx th.toNat i.val || (s.mbox 2 i.val).full ||
      decide (bits w.toNat 8 0 = 0) || decide (256 < bits w.toNat 8 0)) = true := by
    rw [Bool.or_assoc, whole, on, owns, free]
    decide
  refine (if_neg goes).trans ?_
  rw [slots]
  rfl

/-- R345, R389: a word of a thread-array channel, for a thread of the service that owns it. -/
theorem State.thPlace_mbx {t i o : Nat} (within : i < 16) (inside : o + 4 ≤ 0x1000) (owns : s.ownsThaMbx t i = true)
    (on : s.powered 95 = true) : s.thPlace t (thaData i + o) 4 = .mbx i o := by
  have page : ¬ (0x02000000 ≤ thaData i + o ∧ thaData i + o + 4 ≤ 0x02001000) := by unfold thaData; omega
  have sup : ¬ (0x03000000 ≤ thaData i + o ∧ thaData i + o + 4 ≤ 0x03001000) := by unfold thaData; omega
  have there : 0x04000000 ≤ thaData i + o ∧ thaData i + o + 4 ≤ 0x04010000 := by unfold thaData; omega
  have channel : (thaData i + o - 0x04000000) / 0x1000 = i := by unfold thaData; omega
  have offset : (thaData i + o - 0x04000000) % 0x1000 = o := by unfold thaData; omega
  unfold State.thPlace
  simp only [if_neg page, if_neg sup, if_pos there, channel, offset, owns, on, true_or, and_self, if_true]

/-- R390: a thread's store to SEND posts, and does not fault. -/
theorem State.byStore_send {th : BitVec 10} {i : Fin 16} {w : Word} (runs : s.thRuns th.toNat = true)
    (owns : s.ownsThaMbx th.toNat i.val = true) (on : s.powered 95 = true) :
    s.byStore th.toNat (thaData i.val + 0x100) (leBytes 4 w.toNat) = s.opMbxSend (.thread th) (.thread i) w := by
  have place : s.thPlace th.toNat (thaData i.val + 0x100) (leBytes 4 w.toNat).length = .mbx i.val 0x100 := by
    rw [leBytes_length]
    exact State.thPlace_mbx i.isLt (by decide) owns on
  have aligned : (thaData i.val + 0x100) % (leBytes 4 w.toNat).length = 0 := by
    rw [leBytes_length]
    unfold thaData
    omega
  have value : BitVec.ofNat 32 (leNat (leBytes 4 w.toNat)) = w := by
    rw [leNat_leBytes, Nat.mod_eq_of_lt (show w.toNat < 256 ^ 4 from w.isLt), BitVec.ofNat_toNat, BitVec.setWidth_eq]
  have thread : BitVec.ofNat 10 th.toNat = th := by rw [BitVec.ofNat_toNat, BitVec.setWidth_eq]
  have channel : Fin.ofNat 16 i.val = i := Fin.ofNat_val_eq_self i
  have stores : State.thStore State.opDbgCmd s th.toNat (thaData i.val + 0x100) (leBytes 4 w.toNat) =
      .inr (s.opMbxSend (.thread th) (.thread i) w) := by
    unfold State.thStore State.mbxStore
    simp only [aligned, place, value, thread, channel, ne_eq, not_true_eq_false, if_false, Nat.lt_irrefl, if_true]
  refine (if_neg (not_thRuns_eq runs)).trans ?_
  rw [stores]

/-! R390, R391: return codes and bodies of the operator, and the manager's acknowledgement. -/

theorem State.opMbxReturn_returns {lvl : Nat} {code : BitVec 16} (level : lvl ≠ 0) (shown : (s.mbox k c).state = 1)
    (fresh : (s.mbox k c).old = false) : s.opMbxReturn lvl k c code =
      (0, (s.modMbox k c (fun m => { m with state := 0, old := false })).gloveSend .field 0x11 (mbxAckPayload k c code)) := by
  have allowed : ¬ lvl < 1 := by omega
  simp only [State.opMbxReturn, if_neg allowed, shown, fresh, ne_eq, not_true_eq_false, if_false, Bool.false_eq_true]

/-- R391: the slot of a body that crosses at once. -/
def mbxSent (m : Mbox) (lvl : Nat) (node : Byte) (body : List Byte) : Mbox :=
  { m with state := 2, body := body, sender := BitVec.ofNat 32 (lvl * 256 + node.toNat) }

theorem State.opF2hBody_sends {lvl : Nat} {node : Byte} {body : List Byte} (level : lvl ≠ 0) (some : 1 ≤ body.length)
    (fits : body.length ≤ 256) (free : (s.mbox k c).state = 0 ∨ (s.mbox k c).state = 3) (runs : s.running = true)
    (up : s.gloveF.peerUp = true) : s.opF2hBody lvl node k c body =
      (0, (s.modMbox k c (fun _ => mbxSent (s.mbox k c) lvl node body)).gloveSend .field 0x10
        (mbxPayload k c (mbxSent (s.mbox k c) lvl node body))) := by
  have allowed : ¬ lvl < 1 := by omega
  have legal : ¬ (body.isEmpty || decide (256 < body.length)) = true := by
    rw [List.isEmpty_eq_false_iff.2 (List.length_pos_iff.1 some), decide_eq_false (Nat.not_lt.2 fits)]
    decide
  have idle : ¬ ((s.mbox k c).state ≠ 0 && (s.mbox k c).state ≠ 3) = true := by
    rcases free with free | free <;> rw [free] <;> decide
  refine (if_neg allowed).trans ((if_neg legal).trans ((if_neg idle).trans ?_))
  simp only [runs, up, Bool.and_self, if_true]
  rfl

theorem State.opF2hAck_host {req : Requester} {i : Fin 64} {code : Word} (on : s.powered 95 = true)
    (full : (s.mbox 1 i.val).full = true) (up : s.gloveH.peerUp = true) : s.opF2hAck req (.host i) code =
      (s.modMbox 1 i.val (fun m => { m with full := false, held := false })).gloveSend .host 0x11
        (mbxAckPayload 1 i.val (code.setWidth 16)) := by
  have still : (s.modMbox 1 i.val (fun m => { m with full := false, held := false })).gloveH.peerUp = true := up
  simp only [State.opF2hAck, on, full, up, still, Bool.not_true, Bool.false_eq_true, if_false, if_true]

theorem State.opSendRow_pcie {id : BitVec 16} {x : Option (BitVec 20)} {i : Fin 64} {w : Word}
    (opened : (s.rxPosted 4).barOpen = true) :
    s.opSendRow (.pcie id x) (.host i) w = (s.rxPosted 4).opMbxSend (.pcie id x) (.host i) w :=
  if_pos opened

theorem State.opAckRow_pcie {id : BitVec 16} {x : Option (BitVec 20)} {i : Fin 64} {w : Word}
    (opened : (s.rxPosted 4).barOpen = true) :
    s.opAckRow (.pcie id x) (.host i) w = (s.rxPosted 4).opF2hAck (.pcie id x) (.host i) w :=
  if_pos opened

/-- Settles O39: each command is its operation on a channel as its rule asks for it. -/
theorem mailboxCommandsComplete : Obligations.MailboxCommandsComplete := by
  refine ⟨?message, ?ack, ?send, ?threadSend, ?code, ?body, ?f2hAck⟩
  case message =>
    intro s v p k c n body who some fits whole
    have good (there : mbxThere k c = true) : MbxGood p := ⟨there, some, fits, whole⟩
    refine ⟨fun taken channel => congrArg (done s) ?_, fun taken dest within => congrArg (done s) ?_,
      fun taken dest within => congrArg (done s) ?_⟩
    · rcases channel with ⟨dest, within⟩ | ⟨dest, within⟩
      · exact State.opMbx_field (good (mbxThere_host (by omega) within)) taken (.inl dest)
      · exact State.opMbx_field (good (mbxThere_thread (.inl dest) within)) taken (.inr dest)
    · exact State.opMbx_host (good (mbxThere_host (by omega) within)) taken dest
    · exact State.opMbx_thread (good (mbxThere_thread (.inr dest) within)) taken dest
  case ack =>
    intro s v p k c code
    refine ⟨fun taken channel full => congrArg (done s) ?_, fun taken channel shown => congrArg (done s) ?_⟩
    · rcases channel with ⟨dest, within⟩ | ⟨dest, within⟩
      · exact State.opMbxAck_host taken (mbxThere_host (by omega) within) (.inl dest) full
      · exact State.opMbxAck_host taken (mbxThere_thread (.inl dest) within) (.inr dest) full
    · rcases channel with ⟨dest, within⟩ | ⟨dest, within⟩
      · exact State.opMbxAck_field taken (mbxThere_host (by omega) within) (.inl dest) shown
      · exact State.opMbxAck_field taken (mbxThere_thread (.inr dest) within) (.inr dest) shown
  case send =>
    intro s dt id x c v u len body opened on owns free some fits
    exact congrArg (done s) ((State.opSendRow_pcie opened).trans (State.opMbxSend_host on owns free some fits))
  case threadSend =>
    intro s dt slot th t v u len runs on owns free some fits slots
    exact congrArg (done s) ((State.byStore_send runs owns on).trans
      (State.opMbxSend_thread on owns free some fits slots))
  case code =>
    intro s lvl ch code k c taken level shown fresh
    exact congrArg (done s) (State.rowWrite_taken taken
      (State.opMbxReturn_returns (Fin.val_ne_of_ne level) shown fresh))
  case body =>
    intro s lvl node ch body k c x taken level some fits free runs up
    exact congrArg (done s) (State.rowWrite_taken taken
      (State.opF2hBody_sends (Fin.val_ne_of_ne level) some fits free runs up))
  case f2hAck =>
    intro s id x c code u opened on full up
    exact congrArg (done s) ((State.opAckRow_pcie opened).trans (State.opF2hAck_host on full up))

end Sys2Proof.Machine
end

section
/-! PROOFS. Object access (R381 to R383): a request that the node takes is served once the session's earlier ones have
been, or waits for them. -/

namespace Sys2Proof.Machine

variable {s v w x : State} {l typ : Nat} {h : BusHdr} {p val data : List Byte}

/-! R380, R381: requests. -/

theorem State.busRequest_taken {n : Nat} {f : Nat → State → State} (taken : s.busTake n h p = (some l, v))
    (node : h.dst ≠ 255) : s.busRequest n h p f = f l v := by
  unfold State.busRequest
  rw [taken]
  exact if_neg node

theorem State.busAsk_taken {n : Nat} {kind : BusKind} {ok : Bool} (taken : s.busTake n h p = (some l, v))
    (node : h.dst ≠ 255) : s.busAsk n kind h p ok =
      v.serveLater.busServe { kind := kind, hdr := h, lvl := l, data := p, flashOk := ok } :=
  State.busRequest_taken taken node

/-- R381: a request waits for an earlier one of its session. -/
theorem State.busServe_waits {q : BusReq} (busy : s.sessBusy q.hdr = true) :
    s.busServe q = { s with field := { s.field with later := s.field.later ++ [q] } } := if_pos busy

theorem State.busServe_read {q : BusReq} (kind : q.kind = .read) (free : s.sessBusy q.hdr = false) :
    s.busServe q = s.serveRead q := by
  unfold State.busServe
  rw [free, kind]
  rfl

theorem State.busServe_write {q : BusReq} (kind : q.kind = .write) (free : s.sessBusy q.hdr = false) :
    s.busServe q = s.serveWrite q := by
  unfold State.busServe
  rw [free, kind]
  rfl

theorem State.opLogout_taken (taken : s.busTake 0x14 h [] = (some l, v)) (session : h.session ≠ 0) :
    s.opLogout h = v.serveLater.busServe { kind := .logout, hdr := h, lvl := l, data := [], flashOk := true } := by
  unfold State.opLogout
  rw [taken]
  exact if_neg session

/-! R382, R383: reads. -/

section
variable {q : BusReq} (whole : q.data.length = 8)
    (read : s.readObject q.lvl (beAt q.data 0 2) (beAt q.data 2 1) = (0, typ, val))
include whole read

theorem State.serveRead_asks (main : (findObj (beAt q.data 0 2) (beAt q.data 2 1)).any (fun r => r.main) = true) :
    s.serveRead q = s.askMain q q.data := by
  unfold State.serveRead
  simp only [read, whole, main, ne_eq, not_true_eq_false, decide_false, Bool.false_and, Bool.false_eq_true, if_false,
    if_true]

theorem State.serveRead_answers (own : (findObj (beAt q.data 0 2) (beAt q.data 2 1)).any (fun r => r.main) = false)
    (within : beAt q.data 4 4 ≤ val.length) : s.serveRead q = s.busSend 0x02 q.hdr.src q.hdr.tid q.hdr.session
      (q.data.take 3 ++ beBytes 1 typ ++ beBytes 4 (beAt q.data 4 4) ++ beBytes 4 val.length ++
        slice val (beAt q.data 4 4) 1024) q.hdr.sent := by
  unfold State.serveRead
  simp only [read, whole, own, ne_eq, not_true_eq_false, decide_false, Bool.false_and, Bool.false_eq_true, if_false,
    if_neg (Nat.not_lt.2 within)]

end

/-! R382, R383: whole writes. -/

/-- R382, R383: a chunk that is a whole value, and passes the checks before its value is looked at. -/
structure WholeChunk (s : State) (q : BusReq) : Prop where
  header : 12 ≤ q.data.length
  fits   : (q.data.drop 12).length ≤ 1024
  first  : beAt q.data 4 4 = 0
  whole  : beAt q.data 8 4 = (q.data.drop 12).length
  passes : s.writeCheck q.lvl (beAt q.data 0 2) (beAt q.data 2 1) (q.data.drop 12).length none = 0

theorem State.serveWrite_whole {q : BusReq} (chunk : WholeChunk s q) : s.serveWrite q =
    (s.setPart q.hdr.session (objKey (beAt q.data 0 2) (beAt q.data 2 1)) none).writeWhole q (beAt q.data 0 2)
      (beAt q.data 2 1) (q.data.drop 12) := by
  obtain ⟨header, fits, first, whole, passes⟩ := chunk
  have legal : ¬ (q.data.length < 12 || 1024 < (q.data.drop 12).length) = true := by
    rw [decide_eq_false (Nat.not_lt.2 header), decide_eq_false (Nat.not_lt.2 fits)]
    decide
  unfold State.serveWrite
  simp only [first, whole, passes, ne_eq, not_true_eq_false, decide_false, Bool.false_and, Bool.false_eq_true, if_false,
    if_neg legal, decide_true, Bool.and_self, if_true]

section
variable {q : BusReq} {idx sub : Nat} (passes : s.writeCheck q.lvl idx sub data.length (some data) = 0)
include passes

theorem State.writeWhole_asks (main : (findObj idx sub).any (fun r => r.main) = true) :
    s.writeWhole q idx sub data = s.askMain q (wholeWrite idx sub data) := by
  unfold State.writeWhole
  simp only [passes, main, ne_eq, not_true_eq_false, if_false, if_true]

/-- R383: the answer leaves before the effect. -/
theorem State.writeWhole_writes (own : (findObj idx sub).any (fun r => r.main) = false) (ok : q.flashOk = true)
    (effect : s.objEffect q.lvl q.hdr idx sub data = (0, x)) : s.writeWhole q idx sub data =
      ((s.objWriteRsp q.hdr idx sub data.length).objEffect q.lvl q.hdr idx sub data).2 := by
  unfold State.writeWhole
  simp only [passes, own, effect, ok, ne_eq, not_true_eq_false, if_false, Bool.false_eq_true, Bool.not_true,
    Bool.and_false]

end

/-- Settles O40: a request that is taken is served as its rule says, or waits. -/
theorem objectAccessCompletes : Obligations.ObjectAccessCompletes := by
  refine ⟨?read, ?write, ?waits⟩
  case read =>
    intro s v dt l typ h p val off w taken node free whole read
    have asks : (s.advance dt).opObjRead h p =
        w.serveRead { kind := .read, hdr := h, lvl := l, data := p, flashOk := true } :=
      (State.busAsk_taken taken node).trans (State.busServe_read rfl free)
    exact ⟨fun main => congrArg (done s) (asks.trans (State.serveRead_asks whole read main)),
      fun own within => congrArg (done s) (asks.trans (State.serveRead_answers whole read own within))⟩
  case write =>
    intro s v x dt l h p idx sub data y w taken node free header fits first whole passes checked
    have chunk : WholeChunk y { kind := .write, hdr := h, lvl := l, data := p, flashOk := true } :=
      ⟨header, fits, first, whole, passes⟩
    have asks : (s.advance dt).opObjWrite h p true =
        w.writeWhole { kind := .write, hdr := h, lvl := l, data := p, flashOk := true } idx sub data :=
      (State.busAsk_taken taken node).trans ((State.busServe_write rfl free).trans (State.serveWrite_whole chunk))
    exact ⟨fun main => congrArg (done s) (asks.trans (State.writeWhole_asks checked main)),
      fun own effect => congrArg (done s) (asks.trans (State.writeWhole_writes checked own rfl effect))⟩
  case waits =>
    intro s v dt l h p ok w u waits busy
    have later {n : Nat} {kind : BusKind} {d : List Byte} {f : Bool} (node : h.dst ≠ 255)
        (taken : u.busTake n h d = (some l, v)) : done s (u.busAsk n kind h d f) = .next (waits kind d f) :=
      congrArg (done s) ((State.busAsk_taken taken node).trans (State.busServe_waits busy))
    refine ⟨fun node => ⟨?_, ?_, ?_, ?_, ?_⟩, fun taken session => ?_⟩
    · exact fun taken => later node taken
    · exact fun taken => later node taken
    · exact fun taken => later node taken
    · exact fun taken => later node taken
    · exact fun taken => later node taken
    · exact congrArg (done s) ((State.opLogout_taken taken session).trans (State.busServe_waits busy))

end Sys2Proof.Machine
end

section
/-! PROOFS. Logins and sessions (R384, R385). -/

namespace Sys2Proof.Machine

variable {s v : State} {l : Nat} {h : BusHdr} {p : List Byte}

/-! R384, R414: LOGIN_REQ. -/

/-- R384: a login request that may be answered with a challenge: its level's doors are open and a session is free. -/
structure LoginOpens (v : State) (p : List Byte) : Prop where
  serves : v.field.recovery = false
  whole  : p.length = 17
  level  : 1 ≤ beAt p 0 1 ∧ beAt p 0 1 ≤ 3
  free   : v.field.sessions.length < 4
  locked : v.lockedOut (beAt p 0 1) = false
  opens  : v.levelOpens (beAt p 0 1) = true

/-- R384: the login that a request begins: the session's identifier, the node's nonce and its ephemeral key are the first
three free values. -/
def State.newLogin (v : State) (h : BusHdr) (p : List Byte) : Login :=
  { sid := v.newSid, lvl := beAt p 0 1, nc := slice p 1 16, nd := v.drawn.freeBytes 16, node := h.src
    key := ecPrivate v.drawn.drawn.freeNext, at_ := v.clock }

/-- R384: what a challenge says of every login. -/
def State.loginBase (v : State) (h : BusHdr) (p : List Byte) : List Byte :=
  [BitVec.ofNat 8 (beAt p 0 1)] ++ (v.newLogin h p).nd ++ beBytes 4 v.newSid.toNat

/-- R384: a login joins those that are open. -/
def State.addLogin (s : State) (g : Login) : State := { s with field := { s.field with logins := s.field.logins ++ [g] } }

/-- R414: what the node signs of a challenge of level 2 or 3. -/
def challengeText (g : Login) : List Byte :=
  ascii "USNAN-CHAL" ++ beBytes 4 g.sid.toNat ++ g.nc ++ g.nd ++ ecPublic g.key ++ beBytes 8 Config.serial.toNat ++
    [BitVec.ofNat 8 g.lvl]

theorem State.opLoginReq_takes (taken : s.busTake 0x10 h p = (some l, v)) (node : h.dst ≠ 255) (login : LoginOpens v p) :
    s.opLoginReq h p =
      if beAt p 0 1 = 1 then
        (v.drawn.drawn.addLogin (v.newLogin h p)).busSend 0x11 h.src h.tid 0 (v.loginBase h p) h.sent
      else
        ((v.drawn.drawn.drawn.addLogin (v.newLogin h p)).aliasSign (challengeText (v.newLogin h p))).2.busSend 0x11 h.src
          h.tid 0 (v.loginBase h p ++ ecPublic (v.newLogin h p).key ++
            ((v.drawn.drawn.drawn.addLogin (v.newLogin h p)).aliasSign (challengeText (v.newLogin h p))).1) h.sent := by
  obtain ⟨serves, whole, ⟨least, most⟩, free, locked, opens⟩ := login
  have level : ¬ (decide (beAt p 0 1 = 0) || decide (3 < beAt p 0 1)) = true := by
    rw [decide_eq_false (by omega), decide_eq_false (by omega)]
    decide
  unfold State.opLoginReq
  rw [State.busRequest_taken taken node]
  simp only [serves, Bool.false_eq_true, if_false, whole, ne_eq, not_true_eq_false, if_neg level,
    if_neg (Nat.not_le.2 free), locked, opens, Bool.not_true, Bool.or_self]
  by_cases one : beAt p 0 1 = 1
  · rw [if_pos one]
    simp only [if_pos one]
    rfl
  · rw [if_neg one]
    simp only [if_neg one]
    rfl

/-! R384: LOGIN_PROOF. -/

theorem State.opLoginProof_opens {g : Login} (taken : s.busTake 0x12 h p = (some l, v)) (node : h.dst ≠ 255)
    (pending : v.field.logins.find? (fun x => decide (x.sid = BitVec.ofNat 32 (beAt p 0 4)) && !v.due x.at_ (secs 1)) =
      some g) (whole : p.length = 36) (own : g.node = h.src)
    (proof : slice p 4 32 = loginProofOf (v.loginKey g) "USNAN-LOGIN" g h.dst h.src) (free : v.field.sessions.length < 4) :
    s.opLoginProof h p =
      let w := v.dropLogin (BitVec.ofNat 32 (beAt p 0 4))
      let x : Session := { sid := BitVec.ofNat 32 (beAt p 0 4), lvl := g.lvl
                           ks := hmac256 (v.loginKey g) (ascii "USNAN-SESSION" ++
                             beBytes 4 (BitVec.ofNat 32 (beAt p 0 4)).toNat ++ g.nc ++ g.nd)
                           rx := 0, tx := 0, node := h.src, at_ := w.clock }
      { w with field := { w.field with
        sessions := w.field.sessions ++ [x], wrong := Map.del w.field.wrong g.lvl } }.busSend 0x13 h.src h.tid 0
        (loginProofOf (v.loginKey g) "USNAN-ACCEPT" g h.src w.field.node) h.sent := by
  have right : (p.length = 36 && g.node = h.src &&
      slice p 4 32 = loginProofOf (v.loginKey g) "USNAN-LOGIN" g h.dst h.src) = true := by
    rw [decide_eq_true whole, decide_eq_true own, decide_eq_true proof]
    rfl
  unfold State.opLoginProof
  rw [State.busRequest_taken taken node]
  simp only [pending]
  exact (if_pos right).trans (if_neg (Nat.not_le.2 free))

/-! R384, R385: the ends of logins, lockouts and sessions. -/

theorem State.opLoginTimeout_drops {g : Login} (open_ : g ∈ s.field.logins) (late : s.due g.at_ (secs 1) = true) :
    s.opLoginTimeout g.sid = s.dropLogin g.sid :=
  if_pos (List.any_eq_true.2 ⟨g, open_, by simp [late]⟩)

theorem State.mem_dropLogin (s : State) (sid : Word) (x : Login) :
    x ∈ (s.dropLogin sid).field.logins ↔ x ∈ s.field.logins ∧ x.sid ≠ sid := by
  simp [State.dropLogin]

theorem State.opLockoutEnd_ends {lvl x : Nat} (out : Map.get s.field.lockout lvl = some x) (late : s.due x (secs 60) = true) :
    s.opLockoutEnd lvl = { s with field := { s.field with lockout := Map.del s.field.lockout lvl } } := by
  unfold State.opLockoutEnd
  rw [out]
  exact if_pos late

theorem State.busServe_logout {q : BusReq} (kind : q.kind = .logout) (free : s.sessBusy q.hdr = false) :
    s.busServe q = s.endSession q.hdr.session := by
  unfold State.busServe
  rw [free, kind]
  rfl

theorem State.mem_endSession (s : State) (sid : Word) (x : Session) :
    x ∈ (s.endSession sid).field.sessions ↔ x ∈ s.field.sessions ∧ x.sid ≠ sid := by
  simp [State.endSession]

theorem State.opSessionIdle_ends {x : Session} (open_ : x ∈ s.field.sessions)
    (late : s.due x.at_ (secs (s.objNat 0x1010 4)) = true) : s.opSessionIdle x.sid = s.endSession x.sid :=
  if_pos (List.any_eq_true.2 ⟨x, open_, by simp [late]⟩)

/-- Settles O41: a request that is taken and may be answered is; the ends leave the others. -/
theorem loginCommandsComplete : Obligations.LoginCommandsComplete := by
  refine ⟨?operator, ?challenge, ?proof, ?timeout, ?lockout, ?logout, ?idle⟩
  case operator =>
    intro s v dt l h p w x sid nd g taken node serves whole level free locked opens
    have login : LoginOpens v p :=
      ⟨serves, whole, by omega, free, by rw [level]; exact locked, by rw [level]; exact opens⟩
    refine congrArg (done s) ((State.opLoginReq_takes taken node login).trans ((if_pos level).trans ?_))
    unfold State.loginBase State.newLogin
    rw [level]
    rfl
  case challenge =>
    intro s v dt l h p lvl w x sid nd key g y sign taken node serves whole level free locked opens
    have login : LoginOpens v p := ⟨serves, whole, by omega, free, locked, opens⟩
    exact congrArg (done s) ((State.opLoginReq_takes taken node login).trans (if_neg (by omega)))
  case proof =>
    intro s v dt l h p g sid kl w x taken node pending whole own proof free
    exact congrArg (done s) (State.opLoginProof_opens taken node pending whole own proof free)
  case timeout =>
    intro s dt g u open_ late
    refine .of_op (congrArg (done s) (State.opLoginTimeout_drops open_ late)) fun x => ?_
    rw [State.ended_field]
    exact u.mem_dropLogin g.sid x
  case lockout =>
    intro s dt x lvl u out late
    exact congrArg (done s) (State.opLockoutEnd_ends out late)
  case logout =>
    intro s v dt l h taken session free
    refine .of_op (congrArg (done s) ((State.opLogout_taken taken session).trans (State.busServe_logout rfl free)))
      fun x => ?_
    rw [State.ended_field]
    exact v.serveLater.mem_endSession h.session x
  case idle =>
    intro s dt x u open_ late
    refine .of_op (congrArg (done s) (State.opSessionIdle_ends open_ late)) fun y => ?_
    rw [State.ended_field]
    exact u.mem_endSession x.sid y

end Sys2Proof.Machine
end

section
/-! PROOFS. The bus node (R375 to R378, R388): the hat line, foreign frames, and notices on the bus. -/

namespace Sys2Proof.Machine

variable {s v : State} {l : Nat} {h : BusHdr} {p : List Byte}

/-! R375 to R378: the hat line and foreign frames. -/

theorem State.opHatReset_clears (up : s.field.up = true) : s.opHatReset = { s with field := { s.field with
    node := 0, hatOut := false, hatHeld := false, hatSince := s.clock, sessions := [], logins := [], asked := [], later := []
    rxFrames := s.field.rxFrames + 1 } } :=
  if_neg (by rw [up]; decide)

theorem State.opHatHeld_holds (up : s.field.up = true) (unassigned : s.field.node = 0)
    (late : s.due s.field.hatSince (msec 1) = true) :
    s.opHatHeld = { s with field := { s.field with hatIn := true, hatHeld := true } } :=
  if_pos (by rw [up, unassigned, late]; decide)

/-- R377: the state in which the node has taken an address. -/
def State.hatTaken (s : State) (a : Nat) : State := { s with field := { s.field with
  rxFrames := s.field.rxFrames + 1, node := BitVec.ofNat 8 a, hatOut := true, hatHeld := false } }

theorem State.opHatAssign_takes (up : s.field.up = true) (all : h.dst = 255) (unassigned : s.field.node = 0)
    (holds : s.field.hatHeld = true) (whole : p.length = 5) (named : beAt p 0 1 ≠ 0) (single : beAt p 0 1 ≠ 255)
    (open_ : h.session = 0) : s.opHatAssign h p true = (s.hatTaken (beAt p 0 1)).busSend 0x32 h.src h.tid 0
      (slice p 1 4 ++ beBytes 8 Config.serial.toNat ++ (s.hatTaken (beAt p 0 1)).objBytes 0x1000 2 ++
        (s.hatTaken (beAt p 0 1)).objBytes 0x1000 3) := by
  unfold State.opHatAssign State.hatTaken
  simp only [up, all, unassigned, holds, whole, open_, named, single, ne_eq, not_true_eq_false, Bool.not_true,
    decide_false, Bool.or_self, Bool.false_and, Bool.false_eq_true, if_false, if_true]

section
variable {e : BitVec 16} {version src : Byte} (up : s.field.up = true)
include up

theorem State.opForeign_ethertype (foreign : e ≠ 0x88B5) : s.opForeign e version src =
    State.fieldCount { s with field := { s.field with rxFrames := s.field.rxFrames + 1 } } 0x11 :=
  (if_neg (by rw [up]; decide)).trans (if_pos foreign)

theorem State.opForeign_version (ours : e = 0x88B5) (other : version ≠ 1) : s.opForeign e version src =
    { s with field := { s.field with rxFrames := s.field.rxFrames + 1 } } :=
  (if_neg (by rw [up]; decide)).trans ((if_neg (not_not_intro ours)).trans (if_pos other))

theorem State.opForeign_own (ours : e = 0x88B5) (same : version = 1) (assigned : s.field.node ≠ 0)
    (own : src = s.field.node) : s.opForeign e version src =
      State.fieldCount { s with field := { s.field with rxFrames := s.field.rxFrames + 1 } } 6 :=
  (if_neg (by rw [up]; decide)).trans ((if_neg (not_not_intro ours)).trans ((if_neg (not_not_intro same)).trans
    (if_pos (by simp [own]; exact assigned))))

end

/-! R388: notices. -/

/-- R388: an acknowledgement stops the notices of its SEQ. -/
def State.acknowledge (s : State) (p : List Byte) : State := { s with field := { s.field with
  waiting := s.field.waiting.filter (fun n => !(decide (n.seq.toNat = beAt p 0 4) && p.length = 4)) } }

theorem State.opEventAck_taken (taken : s.busTake 0x21 h p = (some l, v)) : s.opEventAck h p = v.acknowledge p := by
  unfold State.opEventAck
  rw [taken]
  rfl

theorem State.mem_acknowledge (s : State) (whole : p.length = 4) (n : Notice) :
    n ∈ (s.acknowledge p).field.waiting ↔ n ∈ s.field.waiting ∧ n.seq.toNat ≠ beAt p 0 4 := by
  simp [State.acknowledge, whole]

/-- R388: sending a notice leaves the notices that wait, and the time. -/
theorem State.busEvent_keeps (s : State) (dst : Byte) (b : List Byte) :
    (s.busEvent dst b).field.waiting = s.field.waiting ∧ (s.busEvent dst b).clock = s.clock := by
  unfold State.busEvent State.busOut
  split <;> exact ⟨rfl, rfl⟩

/-- R388: the one notice that waits is sent again after 1 s. -/
theorem State.opEventResend_one {n : Notice} (up : s.field.up = true) (serves : s.field.recovery = false)
    (dest : s.objNat 0x1010 3 ≠ 0) (assigned : s.field.node ≠ 0) (one : s.field.waiting = [n])
    (late : s.due n.sentAt (secs 1) = true) :
    s.opEventResend =
      let v := s.busEvent (BitVec.ofNat 8 (s.objNat 0x1010 3))
        (eventPayload n.seq.toNat n.code n.unit n.time.toNat n.detail)
      { v with field := { v.field with waiting := [{ n with sentAt := s.clock }] } } := by
  obtain ⟨waiting, clock⟩ := s.busEvent_keeps (BitVec.ofNat 8 (s.objNat 0x1010 3))
    (eventPayload n.seq.toNat n.code n.unit n.time.toNat n.detail)
  have goes : ¬ (!s.field.up || s.field.recovery || s.objNat 0x1010 3 = 0 || s.field.node = 0) = true := by
    simp [up, serves, dest]
    exact assigned
  have again (v : State) (same : v.clock = s.clock) : v.due n.sentAt (secs 1) = true := by
    unfold State.due at late ⊢
    rw [same]
    exact late
  refine (if_neg goes).trans ?_
  simp only [one, List.filter_cons, late, if_true, List.filter_nil, List.foldl_cons, List.foldl_nil, waiting, List.map_cons,
    List.map_nil, again _ clock, clock]

/-- Settles O42: each command finds the node as its rule asks. -/
theorem busNodeCommandsComplete : Obligations.BusNodeCommandsComplete := by
  refine ⟨?reset, ?held, ?low, ?assign, ?foreign, ?ack, ?resend⟩
  case reset =>
    intro s dt u up
    exact congrArg (done s) (State.opHatReset_clears up)
  case held =>
    intro s dt u up unassigned late
    exact congrArg (done s) (State.opHatHeld_holds up unassigned late)
  case low => exact fun s dt => rfl
  case assign =>
    intro s dt h p u a v up all unassigned holds whole named single open_
    exact congrArg (done s) (State.opHatAssign_takes up all unassigned holds whole named single open_)
  case foreign =>
    intro s e version src u up
    exact ⟨fun foreign => congrArg (done s) (State.opForeign_ethertype up foreign),
      fun ours other => congrArg (done s) (State.opForeign_version up ours other),
      fun ours same assigned own => congrArg (done s) (State.opForeign_own up ours same assigned own)⟩
  case ack =>
    intro s v l h p taken whole
    refine .of_op (congrArg (done s) (State.opEventAck_taken taken)) fun n => ?_
    rw [State.ended_field]
    exact v.mem_acknowledge whole n
  case resend =>
    intro s dt n u dst up serves dest assigned one late v
    exact congrArg (done s) (State.opEventResend_one up serves dest assigned one late)

end Sys2Proof.Machine
end

section
/-! PROOFS. Image transfers (R387, R402, R405). -/

namespace Sys2Proof.Machine

variable {s v w : State} {l : Nat} {h : BusHdr} {p : List Byte} {x : Transfer}

/-! R387: what is served once the earlier requests of the session have been. -/

theorem State.busServe_imgOpen {q : BusReq} (kind : q.kind = .imgOpen) (free : s.sessBusy q.hdr = false) :
    s.busServe q = s.imgOpen q.lvl q.hdr q.data := by
  unfold State.busServe
  rw [free, kind]
  rfl

theorem State.busServe_imgData {q : BusReq} (kind : q.kind = .imgData) (free : s.sessBusy q.hdr = false) :
    s.busServe q = s.imgData q.lvl q.hdr q.data := by
  unfold State.busServe
  rw [free, kind]
  rfl

theorem State.busServe_imgClose {q : BusReq} (kind : q.kind = .imgClose) (free : s.sessBusy q.hdr = false) :
    s.busServe q = s.imgClose q.lvl q.hdr q.flashOk := by
  unfold State.busServe
  rw [free, kind]
  rfl

/-- R387: the targets of an image: the two firmwares, and the slot of a service that does not run. -/
def State.imgTarget (s : State) (t : Nat) : Prop := t ≤ 1 ∨ 16 ≤ t ∧ t ≤ 23 ∧ (s.service (t - 16)).state ≠ 2

theorem State.imgTarget.legal {t : Nat} (target : s.imgTarget t) :
    (decide (t ≤ 1) || (decide (0x10 ≤ t) && decide (t ≤ 0x17))) = true := by
  rcases target with low | ⟨least, most, -⟩
  · rw [decide_eq_true low]
    rfl
  · rw [decide_eq_true least, decide_eq_true most, Bool.and_self, Bool.or_true]

theorem State.imgTarget.idle {t : Nat} (target : s.imgTarget t) :
    ¬ (decide (0x10 ≤ t) && (s.service (t - 0x10)).state = 2) = true := by
  rcases target with low | ⟨-, -, stands⟩
  · rw [decide_eq_false (by omega), Bool.false_and]
    decide
  · rw [decide_eq_false stands, Bool.and_false]
    decide

theorem State.imgOpen_opens (may : s.mayLoad l = true) (whole : p.length = 5) (target : s.imgTarget (beAt p 0 1))
    (recovery : s.field.recovery = true → beAt p 0 1 = 0) (none : s.field.transfer = none)
    (room : beAt p 1 4 ≤ s.imageRoom (beAt p 0 1)) : s.imgOpen l h p =
      State.imgAnswer { s with field := { s.field with
        transfer := some { target := BitVec.ofNat 8 (beAt p 0 1), length := beAt p 1 4, data := [] }, imgState := 1 } } h 0 := by
  have recovered : (s.field.recovery && decide (beAt p 0 1 ≠ 0)) = false := by
    cases loader : s.field.recovery with
    | false => rfl
    | true => rw [recovery loader]; rfl
  have legal := target.legal
  unfold State.imgOpen
  simp only [may, whole, legal, recovered, none, Option.isSome_none, if_neg target.idle, if_neg (Nat.not_lt.2 room),
    ne_eq, not_true_eq_false, Bool.not_true, Bool.or_self, Bool.false_eq_true, if_false]

theorem State.imgData_takes (may : s.mayLoad l = true) (open_ : s.field.transfer = some x) (header : 4 ≤ p.length)
    (fits : (p.drop 4).length ≤ 1024) (next : beAt p 0 4 = x.data.length)
    (within : x.data.length + (p.drop 4).length ≤ x.length) : s.imgData l h p =
      State.imgAnswer { s with field := { s.field with transfer := some { x with data := x.data ++ p.drop 4 } } } h 0 := by
  have legal : ¬ (p.length < 4 || decide (1024 < (p.drop 4).length) || beAt p 0 4 ≠ x.data.length ||
      decide (x.length < x.data.length + (p.drop 4).length)) = true := by
    rw [decide_eq_false (Nat.not_lt.2 header), decide_eq_false (Nat.not_lt.2 fits), decide_eq_false (not_not_intro next),
      decide_eq_false (Nat.not_lt.2 within)]
    decide
  unfold State.imgData
  simp only [may, open_, if_neg legal, Bool.not_true, Bool.false_eq_true, if_false]

/-! R402, R405: the close. -/

/-- R374, R385: a frame of the node changes its session and the counts of the field side alone. -/
theorem State.busOut_field (s : State) (ok : Bool) (dst : Byte) (b : List Byte) :
    ∃ c, (s.busOut ok dst b).field = { s.field with counts := c } := by
  unfold State.busOut
  split <;> exact ⟨_, rfl⟩

theorem State.busSend_field (s : State) (typ : Nat) (dst : Byte) (tid : BitVec 16) (sid : Word) (p : List Byte) (ok : Bool) :
    ∃ x c, (s.busSend typ dst tid sid p ok).field = { s.field with sessions := x, counts := c } := by
  unfold State.busSend
  dsimp only
  split
  · exact ⟨_, _, rfl⟩
  · split
    · obtain ⟨c, same⟩ := s.busOut_field ok dst (busHeader typ dst s.field.node tid p.length 0 0 ++ p)
      exact ⟨_, c, same⟩
    · split
      · exact ⟨_, _, rfl⟩
      · obtain ⟨c, same⟩ := State.busOut_field _ ok dst _
        exact ⟨_, c, same⟩

/-- R406: an image's end leaves the recovery loader as it is. -/
theorem State.imgEnd_recovery (s : State) (h : BusHdr) (r : Nat) : (s.imgEnd h r).field.recovery = s.field.recovery := by
  obtain ⟨x, c, same⟩ := State.busSend_field { s with field := { s.field with
    transfer := none, imgState := 0, imgResult := r } } 0x43 h.src h.tid h.session (beBytes 1 r) h.sent
  exact (congrArg Field.recovery same).trans rfl

/-- R402: a transfer that may close: it is whole, and its image is accepted. -/
structure ClosesGood (s : State) (l : Nat) (x : Transfer) : Prop where
  may   : s.mayLoad l = true
  open_ : s.field.transfer = some x
  whole : x.data.length = x.length
  good  : s.imageResult x.data x.target.toNat = 0

section
variable (closes : ClosesGood s l x)
include closes

theorem State.imgClose_field (serves : s.field.recovery = false) (target : x.target = 0) :
    s.imgClose l h true = (s.storeFirmware false x.data).imgEnd h 0 := by
  obtain ⟨may, open_, whole, good⟩ := closes
  have number : x.target.toNat = 0 := by rw [target]; rfl
  rw [number] at good
  have still : ((s.storeFirmware false x.data).imgEnd h 0).field.recovery = false :=
    (State.imgEnd_recovery _ h 0).trans serves
  unfold State.imgClose
  simp only [may, open_, whole, good, number, still, ne_eq, not_true_eq_false, Bool.not_true, Bool.false_eq_true, if_false,
    Nat.le_zero, OfNat.ofNat_ne_zero, decide_false, Bool.false_and, if_true]

theorem State.imgClose_main (target : x.target = 1) :
    s.imgClose l h true = (s.storeFirmware true x.data).imgEnd h 0 := by
  obtain ⟨may, open_, whole, good⟩ := closes
  have number : x.target.toNat = 1 := by rw [target]; rfl
  rw [number] at good
  unfold State.imgClose
  simp only [may, open_, whole, good, number, ne_eq, not_true_eq_false, Bool.not_true, Bool.false_eq_true, if_false,
    Nat.reduceLeDiff, decide_false, Bool.false_and, one_ne_zero, if_true]

theorem State.imgClose_service (target : 16 ≤ x.target.toNat) (stands : (s.service (x.target.toNat - 16)).state ≠ 2) :
    s.imgClose l h true = (s.storeService (x.target.toNat - 16) x.data).imgEnd h 0 := by
  obtain ⟨may, open_, whole, good⟩ := closes
  have other : x.target.toNat ≠ 0 ∧ x.target.toNat ≠ 1 := by omega
  unfold State.imgClose
  simp only [may, open_, whole, good, decide_eq_false stands, if_neg other.1, if_neg other.2, ne_eq, not_true_eq_false,
    Bool.not_true, Bool.and_false, Bool.false_eq_true, if_false]

end

/-- Settles O43: a request of a transfer that is served takes its branch. -/
theorem imageCommandsComplete : Obligations.ImageCommandsComplete := by
  refine ⟨?opens, ?takes, ?closes⟩
  case opens =>
    intro s v dt l h p target len w taken node free may whole legal recovery none room
    exact congrArg (done s) ((State.busAsk_taken taken node).trans ((State.busServe_imgOpen rfl free).trans
      (State.imgOpen_opens may whole legal recovery none room)))
  case takes =>
    intro s v dt l h p x d w taken node free may open_ header fits next within
    exact congrArg (done s) ((State.busAsk_taken taken node).trans ((State.busServe_imgData rfl free).trans
      (State.imgData_takes may open_ header fits next within)))
  case closes =>
    intro s v dt l h x w taken node free may serves open_ whole good
    have closes : ClosesGood w l x := ⟨may, open_, whole, good⟩
    have asks : (s.advance dt).opImgClose h true = w.imgClose l h true :=
      (State.busAsk_taken taken node).trans (State.busServe_imgClose rfl free)
    exact ⟨fun target => congrArg (done s) (asks.trans (State.imgClose_field closes serves target)),
      fun target => congrArg (done s) (asks.trans (State.imgClose_main closes target)),
      fun target stands => congrArg (done s) (asks.trans (State.imgClose_service closes target stands))⟩

end Sys2Proof.Machine
end

section
/-! PROOFS. The field side stops and starts, and images confirm their counters (R394, R403 to R405, R431). -/

namespace Sys2Proof.Machine

variable {s : State}

theorem State.opFieldRestart_runs (up : s.field.up = true) (c : RestartCause) : s.opFieldRestart c =
    match c with
    | .lockstep => (s.fieldCount 9).stopField 1
    | .watchdog => s.stopField 2
    | .command => s.stopField 3 :=
  if_neg (by rw [up]; decide)

/-! R404 to R406: the field side boots. -/

/-- R404: the banks that the ROM may boot, by the image that it accepts. -/
def State.boots (s : State) (b : Bool) : Prop := s.imageResult (s.bank (if b then 1 else 0)) 0 = 0

/-- R404: what a start gives the field side, beside its keys and its stored objects. -/
theorem State.startField_preferred (good : s.boots s.field.prefField) :
    s.startField.field.up = true ∧ s.startField.field.recovery = false ∧ s.startField.field.startAt = s.clock ∧
      s.startField.field.runField = s.field.prefField ∧ s.startField.pwr = s.pwr := by
  unfold State.boots at good
  unfold State.startField State.derive
  simp only [good, if_true, Option.isNone_some, Option.getD_some, and_self]

theorem State.startField_recovers (bad : ∀ b, ¬ s.boots b) :
    s.startField.field.up = true ∧ s.startField.field.recovery = true := by
  unfold State.boots at bad
  unfold State.startField State.derive
  simp only [bad, if_false, Option.isNone_none, and_self]

/-- R404: the field side starts alone where the main die's power is not there, or the loader runs. -/
theorem State.bootField_alone (alone : s.startField.pwr.por = false ∨ s.startField.field.recovery = true) :
    s.bootField = s.startField := by
  refine if_neg ?_
  rcases alone with off | recovers
  · simp [off]
  · simp [recovers]

theorem State.opFieldBoot_boots (down : s.field.up = false) : s.opFieldBoot = s.bootField :=
  if_neg (by rw [down]; decide)

/-! R378, R394, R431: the cold start. -/

/-- R394: what a stop of the field side leaves and loses, of what a cold start shows. -/
theorem State.opColdStart_field (s : State) (lost : Bool) :
    (s.opColdStart lost).field.up = false ∧ (s.opColdStart lost).field.node = 0 ∧
      (s.opColdStart lost).field.hatOut = false ∧ (s.opColdStart lost).field.hatHeld = false ∧
      (s.opColdStart lost).field.hatSince = s.clock ∧ (s.opColdStart lost).field.sessions = [] ∧
      (s.opColdStart lost).field.logins = [] ∧ (s.opColdStart lost).field.cause = (if lost then 5 else 4) ∧
      (s.opColdStart lost).field.trips = (if lost then 0 else s.field.trips) := by
  cases lost <;> exact ⟨rfl, rfl, rfl, rfl, rfl, rfl, rfl, rfl, rfl⟩

/-! R403: confirmation points. -/

theorem State.opConfirm_field (up : s.field.up = true) (serves : s.field.recovery = false)
    (late : s.due s.field.startAt (secs 60) = true) : s.opConfirm .field =
      let v := s.raiseCounter s.fieldImage
      { v with field := { v.field with confirmed := true, tries := 0 } } :=
  if_pos (by rw [up, serves, late]; decide)

/-- Settles O46: each command finds the field side as its rule asks. -/
theorem fieldSideCommandsComplete : Obligations.FieldSideCommandsComplete := by
  refine ⟨?restart, ?cold, ?boot, ?recovery, ?confirm⟩
  case restart =>
    intro s dt u up
    exact ⟨congrArg (done s) (State.opFieldRestart_runs up .lockstep),
      congrArg (done s) (State.opFieldRestart_runs up .watchdog),
      congrArg (done s) (State.opFieldRestart_runs up .command)⟩
  case cold =>
    intro s dt lost u
    refine .of_op rfl ?_
    rw [State.ended_field]
    exact u.opColdStart_field lost
  case boot =>
    intro s dt u down off good
    obtain ⟨up, serves, startAt, run, pwr⟩ := State.startField_preferred good
    have starts := (State.opFieldBoot_boots down).trans (State.bootField_alone (.inl (by rw [pwr]; exact off)))
    refine .of_op (congrArg (done s) starts) ?_
    rw [State.ended_field]
    exact ⟨up, serves, startAt, run⟩
  case recovery =>
    intro s dt u down bad
    obtain ⟨up, recovers⟩ := State.startField_recovers bad
    have starts := (State.opFieldBoot_boots down).trans (State.bootField_alone (.inr recovers))
    refine .of_op (congrArg (done s) starts) ?_
    rw [State.ended_field]
    exact ⟨up, recovers⟩
  case confirm =>
    intro s dt u
    exact ⟨fun up serves late => congrArg (done s) (State.opConfirm_field up serves late),
      fun runs => congrArg (done s) (if_pos runs), fun slot active => congrArg (done s) (if_pos active)⟩

end Sys2Proof.Machine
end

section
/-! PROOFS. The main die is brought up, watched, reset and powered down (R396, R404, R405, R432). -/

namespace Sys2Proof.Machine

variable {s : State} {lvl : Nat} {down : Bool}

/-! R396, R405: its watchdogs. -/

theorem State.opMainTimeout_falls {x : Nat} (boots : s.field.bootAt = some x) (booting : s.field.mainSt = 1)
    (late : s.due x (secs 2) = true) : s.opMainTimeout =
      State.fallBackMain { s.mainReset with field := { s.mainReset.field with fellBack := s.field.fellBack, mainSt := 1 } } := by
  unfold State.opMainTimeout
  rw [boots]
  exact if_pos (by simp [booting, late])

/-- R396: the field side's notice of a silent main die. -/
def State.mainSilent (s : State) : State :=
  State.fieldEvent { s with field := { s.field with mainSt := 4 } } 8 15 0 []

theorem State.opMainWatchdog_expires (up : s.field.up = true) (runs : s.running = true)
    (late : s.due s.gloveF.heardAt (msec (s.objNat 0x2000 4)) = true) : s.opMainWatchdog =
      if s.mainSilent.objNat 0x2000 5 = 1 then
        (if s.mainSilent.field.life = 3 then s.mainSilent.mainReset else s.mainSilent.resetMain)
      else s.mainSilent :=
  if_pos (by rw [up, runs, late]; decide)

/-! R395, R404, R430, R432: the commands of 2000h.02. -/

theorem State.opMainUp_begins (level : lvl ≠ 0) (life : s.field.life ≠ 3) (cool : s.pwr.tripped = false)
    (por : s.pwr.por = true) (off : s.field.mainSt = 0) : s.opMainUp lvl =
      (0, (s.switchDomains (fixedDomains.foldl (fun (m : BitVec 96) d => m ||| BitVec.ofNat 96 (2 ^ d)) 0)).beginMain) := by
  have allowed : ¬ (lvl < 1 || (s.field.life = 3 && decide (lvl < 3))) = true := by
    rw [decide_eq_false life, decide_eq_false (by omega), Bool.false_and]
    decide
  refine (if_neg allowed).trans ?_
  simp only [cool, por, off, Bool.false_eq_true, Bool.not_true, ne_eq, not_true_eq_false, if_false]

theorem State.opMainEnd_asks (level : lvl ≠ 0) (cool : s.pwr.tripped = false) (on : s.field.mainSt ≠ 0)
    (unordered : s.field.endAt = none) (unended : s.sql.runEnd = none) : s.opMainEnd lvl down =
      (0, State.gloveSend { s with field := { s.field with endAt := some (s.clock, down) } } .field 0x40
        (powerPayload (if down then 2 else 1) 0)) := by
  have allowed : ¬ lvl < 1 := by omega
  have goes : ¬ (s.pwr.tripped || decide (s.field.mainSt = 0)) = true := by
    rw [cool, decide_eq_false on]
    decide
  have free : ¬ s.ending = true := by
    unfold State.ending
    rw [unordered, unended]
    decide
  exact (if_neg allowed).trans ((if_neg goes).trans (if_neg free))

/-! R432: the end of a run. -/

/-- R432: a POWER message that ends the run is answered, and the run ends. -/
theorem State.opPower_ends {v : State} {p : List Byte} (taken : s.takeMsg .host 0x40 = some (p, v))
    (what : beAt p 0 1 = if down = true then 2 else 1) : s.opPower = v.powerDone.endRun down := by
  cases down with
  | false => exact State.opPower_reset taken what
  | true => exact State.opPower_down taken what

theorem State.endRun_seals (runs : s.running = true) (on : s.sqlOn = true) (open_ : s.sql.open_ = true) :
    s.endRun down =
      let w := (s.closeBlock 5 (s.repTime 38)).askSeal (BitVec.ofNat 64 (s.repTime 38))
      { w with sql := { w.sql with runEnd := some (w.clock, down), open_ := false } } :=
  if_pos (by rw [runs, on, open_]; decide)

theorem State.endRun_closed (closed : s.sql.open_ = false) : s.endRun down = s.runEnded down :=
  if_neg (by rw [closed, Bool.and_false]; decide)

theorem State.opRunEndTimeout_ends {x : Nat} (ends : s.field.endAt.or s.sql.runEnd = some (x, down))
    (late : s.due x (msec 100) = true) : s.opRunEndTimeout = s.runEnded down := by
  unfold State.opRunEndTimeout
  rw [ends]
  exact if_pos late

/-- R432: the end that is under way: the one that was ordered, or else the ledger's. -/
theorem orderedEnd {a b : Option (Nat × Bool)} {e : Nat × Bool} (h : a = some e ∨ a = none ∧ b = some e) : a.or b = some e := by
  rcases h with rfl | ⟨rfl, rfl⟩ <;> rfl

/-- Settles O47: each command finds the main die as its rule asks. -/
theorem mainDieCommandsComplete : Obligations.MainDieCommandsComplete := by
  refine ⟨?firmware, ?watchdog, ?up, ?ends, ?message, ?timeout⟩
  case firmware =>
    intro s dt x u v boots booting late
    exact congrArg (done s) (State.opMainTimeout_falls boots booting late)
  case watchdog =>
    intro s dt u v up runs late
    exact congrArg (done s) (State.opMainWatchdog_expires up runs late)
  case up =>
    intro s dt lvl u taken level life cool por off
    exact congrArg (done s) (State.rowWrite_taken taken
      (State.opMainUp_begins (Fin.val_ne_of_ne level) life cool por off))
  case ends =>
    intro s dt lvl u v taken level cool on unordered unended
    have asks (down : Bool) : u.opMainEnd lvl.val down = (0, (v down).gloveSend .field 0x40
        (powerPayload (if down then 2 else 1) 0)) :=
      State.opMainEnd_asks (Fin.val_ne_of_ne level) cool on unordered unended
    exact ⟨congrArg (done s) (State.rowWrite_taken taken (asks false)),
      congrArg (done s) (State.rowWrite_taken taken (asks true))⟩
  case message =>
    intro s u dt p down v x w taken what
    have ends := State.opPower_ends taken what
    exact ⟨fun runs on open_ => congrArg (done s) (ends.trans (State.endRun_seals runs on open_)),
      fun closed => congrArg (done s) (ends.trans (State.endRun_closed closed))⟩
  case timeout =>
    intro s dt x u late
    exact ⟨fun ends => congrArg (done s) (State.opRunEndTimeout_ends (orderedEnd ends) late),
      fun ends => congrArg (done s) (State.opRunEndTimeout_ends (orderedEnd ends) late)⟩

end Sys2Proof.Machine
end

section
/-! PROOFS. Ownership (R398, R407 to R409, R413): enrolment, the end of an owner's hold, the device's last state, and the
owner's keys. -/

namespace Sys2Proof.Machine

variable {s v x t : State} {lvl l : Nat} {h : BusHdr} {p c : List Byte}

/-! R417: lifecycle commands. -/

section
variable (still : s.field.transfer = none)
include still

theorem State.opEnrol_begins (level : lvl ≠ 0) (idle : s.field.enrolling = false) (life : s.field.life = 1)
    (off : s.field.mainSt = 0) (good : badPackage s.field.ownerPkg = false) :
    s.opEnrol lvl = (0, { s with field := { s.field with enrolling := true, enrolStat := 1 } }) := by
  have goes : ¬ (s.field.life ≠ 1 || s.field.mainSt ≠ 0 || badPackage s.field.ownerPkg) = true := by
    rw [life, off, good]
    decide
  exact (if_neg (Nat.not_lt.2 (Nat.pos_of_ne_zero level))).trans
    ((if_neg (by rw [still, idle]; decide)).trans (if_neg goes))

theorem State.opReleaseOwner_releases (level : 2 ≤ lvl) (life : s.field.life = 2) (off : s.field.mainSt = 0) :
    s.opReleaseOwner lvl = (0, { s.eraseOwner with field := { s.eraseOwner.field with life := 1 } }) :=
  (if_neg (Nat.not_lt.2 level)).trans
    ((if_neg (by rw [still]; decide)).trans (if_neg (by rw [life, off]; decide)))

theorem State.opDecommission_ends (level : (if s.field.life = 2 then 2 else 3) ≤ lvl)
    (idle : s.field.enrolling = false) (life : s.field.life ≠ 3) (off : s.field.mainSt = 0) :
    s.opDecommission lvl = (0, { s.eraseOwner with field := { s.eraseOwner.field with
      life := 3, akey := 0, kst := [], kop := List.replicate 32 0, salt := List.replicate 16 0 } }) := by
  have goes : ¬ (s.field.life = 3 || s.field.mainSt ≠ 0) = true := by
    rw [decide_eq_false life, off]
    decide
  exact (if_neg (Nat.not_lt.2 level)).trans ((if_neg (by rw [still, idle]; decide)).trans (if_neg goes))

theorem State.opProvision_provisions (level : lvl = 3) (life : s.field.life = 0) : s.opProvision lvl =
    (0, { s with field := { s.field with life := 1 } }.tellDoors (BitVec.ofNat 8 (s.objNat 0x2F40 1))) :=
  (if_neg (by rw [level]; decide)).trans
    ((if_neg (by rw [still]; decide)).trans (if_neg (not_not_intro life)))

end

theorem State.tellDoors_field (d : Byte) : (s.tellDoors d).field = s.field := by
  unfold State.tellDoors
  split
  · rfl
  · rfl

/-- R383: the answer to a row's write leaves the device. -/
theorem State.objSays_ended {idx sub code : Nat} : (s.ended (t.emit (.object idx sub code))).objSays idx sub code :=
  State.ended_out s (List.mem_append_right _ List.mem_cons_self)

/-! R407: the end of enrolment. -/

theorem State.opEnrolled_owned (up : s.field.up = true) (enrols : s.field.enrolling = true) :
    (let f := s.opEnrolled.field
    f.life = 2 ∧ f.enrolling = false ∧ f.enrolStat = 2 ∧ f.owner = s.field.ownerPkg ∧ f.ownerPkg = [] ∧
      f.kop = s.field.pkgKop ∧ f.salt = slice s.field.ownerPkg 258 16 ∧ f.iter = beAt s.field.ownerPkg 274 4 ∧
      f.sealKeys = true ∧ f.leaf = 0) := by
  unfold State.opEnrolled
  rw [if_neg (by rw [up, enrols]; decide)]
  exact ⟨rfl, rfl, rfl, rfl, rfl, rfl, rfl, rfl, rfl, rfl⟩

/-! R413: the operator's key. -/

theorem State.opPassword_sets {sid counter : Word} (level : 1 ≤ lvl) (len : p.length = 52) :
    s.opPassword lvl sid counter p = (0, { s with field := { s.field with
      kop := s.unwrap sid counter (slice p 20 32), salt := slice p 0 16, iter := beAt p 16 4 } }) :=
  (if_neg (Nat.not_lt.2 level)).trans (if_neg (not_not_intro len))

theorem State.objEffect_password :
    s.objEffect lvl h 0x2F31 1 p = s.opPassword lvl h.session h.counter p := rfl

/-- R382: the payload that writes all the 52 bytes of 2F31h.01. -/
theorem wholeWrite_password (len : p.length = 52) :
    wholeWrite 0x2F31 1 p = [0x2F, 0x31, 1, 0, 0, 0, 0, 0, 0, 0, 0, 52] ++ p := by
  unfold wholeWrite
  rw [len]
  rfl

theorem State.serveWrite_password {sent : BusReq} (len : p.length = 52) (data : sent.data = wholeWrite 0x2F31 1 p)
    (passes : s.writeCheck sent.lvl 0x2F31 1 52 none = 0) : s.serveWrite sent =
      (s.setPart sent.hdr.session (objKey 0x2F31 1) none).writeWhole sent 0x2F31 1 p := by
  have cut := data.trans (wholeWrite_password len)
  have value : sent.data.drop 12 = p := by rw [cut]; rfl
  have idx : beAt sent.data 0 2 = 0x2F31 := by rw [cut]; rfl
  have sub : beAt sent.data 2 1 = 1 := by rw [cut]; rfl
  have chunk : WholeChunk s sent := by
    refine ⟨?_, ?_, ?_, ?_, ?_⟩
    · rw [cut, List.length_append, len]
      decide
    · rw [value, len]
      decide
    · rw [cut]
      rfl
    · rw [value, len, cut]
      rfl
    · rw [idx, sub, value, len]
      exact passes
  rw [State.serveWrite_whole chunk, idx, sub, value]

theorem State.writeWhole_password {sent : BusReq} (level : 1 ≤ sent.lvl) (len : p.length = 52) (ok : sent.flashOk = true)
    (passes : s.writeCheck sent.lvl 0x2F31 1 52 (some p) = 0) : s.writeWhole sent 0x2F31 1 p =
      let y := s.objWriteRsp sent.hdr 0x2F31 1 52
      { y with field := { y.field with
        kop := y.unwrap sent.hdr.session sent.hdr.counter (slice p 20 32), salt := slice p 0 16, iter := beAt p 16 4 } } := by
  have effect (t : State) := (State.objEffect_password (s := t) (h := sent.hdr)).trans (State.opPassword_sets level len)
  have writes := State.writeWhole_writes (by rw [len]; exact passes) (by decide) ok (effect s)
  rw [len, effect] at writes
  exact writes

/-! R409: the owner's chain. -/

theorem State.opOwnerChain_installs (level : 2 ≤ lvl) (len : c.length ≤ 4096) :
    s.opOwnerChain lvl c = (0, { s with field := { s.field with ownerChain := c } }) :=
  (if_neg (Nat.not_lt.2 level)).trans (if_neg (Nat.not_lt.2 len))

/-- Settles O44: each command completes, and leaves what its rule says. -/
theorem ownershipCommandsComplete : Obligations.OwnershipCommandsComplete := by
  refine ⟨?enrol, ?enrolled, ?release, ?decommission, ?provision, ?password, ?chain⟩
  case enrol =>
    intro s dt lvl u taken level still idle life off good
    exact congrArg (done s) (State.rowWrite_taken taken
      (State.opEnrol_begins still (Fin.val_ne_of_ne level) idle life off good))
  case enrolled =>
    intro s dt u up enrols
    refine .of_op rfl ?_
    rw [State.ended_field]
    exact State.opEnrolled_owned up enrols
  case release =>
    intro s lvl taken level still life off
    refine .of_op (congrArg (done s)
      (State.rowWrite_taken taken (State.opReleaseOwner_releases still level life off))) ?_
    rw [State.ended_field]
    exact ⟨rfl, rfl, rfl, rfl, rfl, State.objSays_ended⟩
  case decommission =>
    intro s lvl taken level still idle life off
    refine .of_op (congrArg (done s)
      (State.rowWrite_taken taken (State.opDecommission_ends still level idle life off))) ?_
    rw [State.ended_field]
    exact ⟨rfl, rfl, rfl, rfl, State.objSays_ended⟩
  case provision =>
    intro s lvl taken level still life
    refine .of_op (congrArg (done s)
      (State.rowWrite_taken taken (State.opProvision_provisions still (congrArg Fin.val level) life))) ?_
    rw [State.ended_field, State.emit_field, State.tellDoors_field]
    exact ⟨rfl, rfl, State.objSays_ended⟩
  case password =>
    intro s v l h x z w y taken node free level len passes checked
    exact congrArg (done s) ((State.busAsk_taken taken node).trans ((State.busServe_write rfl free).trans
      ((State.serveWrite_password len rfl passes).trans (State.writeWhole_password level len rfl checked))))
  case chain =>
    intro s lvl c taken level len
    exact congrArg (done s) (State.rowWrite_taken taken (State.opOwnerChain_installs level len))

end Sys2Proof.Machine
end

section
/-! PROOFS. Security (R411, R412, R415, R416): the door byte, quotes, SPDM signatures and the TAP. -/

namespace Sys2Proof.Machine

variable {s v : State} {lvl : Nat} {node b : Byte} {n x sig : List Byte}

/-! R415: the lock. -/

theorem bit_toNat (b : Byte) (d : Nat) : bit b.toNat d = b.getLsbD d :=
  (Nat.testBit_eq_decide_div_mod_eq (x := b.toNat) (i := d)).symm

/-- R415: the doors whose bit a write changes. -/
def changedDoors (old new : Nat) : List Nat := (List.range 4).filter (fun d => bit old d ≠ bit new d)

theorem changedDoors_debug {old new : Nat} (debug : bit old 2 ≠ bit new 2) (rest : ∀ d < 4, d ≠ 2 → bit old d = bit new d) :
    changedDoors old new = [2] := by
  have zero := rest 0 (by decide) (by decide)
  have one := rest 1 (by decide) (by decide)
  have three := rest 3 (by decide) (by decide)
  have all : List.range 4 = [0, 1, 2, 3] := rfl
  simp [changedDoors, all, zero, one, three, debug]

theorem mem_changedDoors {old new d : Nat} (valid : d < 4) (shut : bit old d = false) (opens : bit new d = true) :
    d ∈ changedDoors old new :=
  List.mem_filter.2 ⟨List.mem_range.2 valid, by rw [shut, opens]; decide⟩

theorem doorLevel_pos (d : Nat) (opening : Bool) : 0 < doorLevel d opening := by
  unfold doorLevel
  split
  all_goals decide

/-- R415: the sessions that a write of the door byte leaves: a level loses its own when its door closes. -/
def State.keptSessions (s : State) (old new : Nat) : List Session :=
  s.field.sessions.filter (fun x => !(s.field.life = 2 &&
    ((bit old 0 && !bit new 0 && x.lvl = 1) || (bit old 1 && !bit new 1 && x.lvl = 3))))

theorem State.keptSessions_eq {old new : Nat} (zero : bit old 0 = bit new 0) (one : bit old 1 = bit new 1) :
    s.keptSessions old new = s.field.sessions := by
  refine List.filter_eq_self.2 (fun x _ => ?_)
  rw [zero, one]
  simp

theorem State.opLock_changes {changed : List Nat} (doors : changedDoors s.doors b.toNat = changed)
    (level : ∀ d ∈ changed, doorLevel d (bit b.toNat d) ≤ lvl) (valid : b.toNat < 16) (life : s.field.life ≠ 0)
    (some_ : changed.isEmpty = false) : s.opLock lvl node b =
      let w := s.setObj 0x2F40 1 [b]
      let y := ({ w with field := { w.field with sessions := w.keptSessions s.doors b.toNat } } : State).tellDoors b
      (0, y.drawn.fieldEvent (y.freeNext % 65536) 15 0 [BitVec.ofNat 8 lvl, node]) := by
  have may : ¬ (changedDoors s.doors b.toNat).any (fun d => lvl < doorLevel d (bit b.toNat d)) = true := by
    rw [doors, List.any_eq_true]
    exact fun ⟨d, there, lacks⟩ => absurd (of_decide_eq_true lacks) (Nat.not_lt.2 (level d there))
  exact (if_neg may).trans ((if_neg (Nat.not_le.2 valid)).trans ((if_neg life).trans
    (if_neg (by rw [← changedDoors, doors, some_]; decide))))

theorem State.opLock_opensDebug (level : lvl ≠ 0) (valid : b.toNat < 16) (life : s.field.life ≠ 0)
    (shut : bit s.doors 2 = false) (opens : b.getLsbD 2 = true) (rest : ∀ d < 4, d ≠ 2 → bit s.doors d = b.getLsbD d) :
    s.opLock lvl node b =
      let y := (s.setObj 0x2F40 1 [b]).tellDoors b
      (0, y.drawn.fieldEvent (y.freeNext % 65536) 15 0 [BitVec.ofNat 8 lvl, node]) := by
  have others (d : Nat) (valid : d < 4) (other : d ≠ 2) : bit s.doors d = bit b.toNat d :=
    (rest d valid other).trans (bit_toNat b d).symm
  have doors : changedDoors s.doors b.toNat = [2] :=
    changedDoors_debug (by rw [shut, bit_toNat, opens]; decide) others
  have may (d : Nat) (there : d ∈ [2]) : doorLevel d (bit b.toNat d) ≤ lvl := by
    rw [List.mem_singleton.1 there]
    exact Nat.pos_of_ne_zero level
  have kept : (s.setObj 0x2F40 1 [b]).keptSessions s.doors b.toNat = (s.setObj 0x2F40 1 [b]).field.sessions :=
    State.keptSessions_eq (others 0 (by decide) (by decide)) (others 1 (by decide) (by decide))
  refine (State.opLock_changes doors may valid life rfl).trans ?_
  simp only [kept]

theorem State.opLock_refuses (there : ∃ d < 4, bit s.doors d = false ∧ b.getLsbD d = true) :
    s.opLock 0 node b = (3, s) := by
  obtain ⟨d, valid, shut, opens⟩ := there
  exact if_pos (List.any_eq_true.2 ⟨d, mem_changedDoors valid shut ((bit_toNat b d).trans opens),
    decide_eq_true (doorLevel_pos d _)⟩)

/-! R411, R412: quotes and SPDM signatures. -/

theorem State.opNonce_quotes (len : n.length = 32) (life : s.field.life ≠ 3)
    (signs : s.aliasSign (s.quoteBody n) = (sig, v)) :
    s.opNonce n = (0, { v with field := { v.field with quote := s.quoteBody n ++ sig } }) := by
  refine (if_neg (not_not_intro len)).trans ((if_neg life).trans ?_)
  dsimp only
  rw [signs]

theorem State.opAttest_signs (len : x.length = 49) (op : beAt x 0 1 = 1 ∨ beAt x 0 1 = 2) (life : s.field.life ≠ 3)
    (signs : s.aliasSign (spdmContext (beAt x 0 1) ++ x.drop 1) = (sig, v)) :
    State.opAttest x s = (0, { v with field := { v.field with spdmSig := sig } }) := by
  have known : ¬ (beAt x 0 1 ≠ 1 && beAt x 0 1 ≠ 2) = true := by
    rcases op with op | op
    · rw [op]; decide
    · rw [op]; decide
  refine (if_neg (not_not_intro len)).trans ((if_neg known).trans ((if_neg life).trans ?_))
  dsimp only
  rw [signs]

/-! R416: the TAP. -/

theorem State.opTap_resets {tms tdi : Bool} (on : s.powered 0 = true) : s.opTap false tms tdi =
    { s with pwr := { s.pwr with tap := 15, tapIr := 2, tapShift := 0 } } :=
  (if_neg (by rw [on]; decide)).trans (if_pos rfl)

/-- IEEE 1149.1: Shift-DR is left for itself or for Exit1-DR. -/
theorem tapNext_shiftDr (tms : Bool) : tapNext 3 tms ≠ 15 := by
  cases tms
  · decide
  · decide

theorem State.opTap_shifts {tms tdi : Bool} (on : s.powered 0 = true) (shifts : s.pwr.tap = 3) (idcode : s.tapInstr = 2) :
    s.opTap true tms tdi = { s.emit (.tdo (bit s.pwr.tapShift.toNat 0)) with pwr := { s.pwr with
      tap := tapNext 3 tms
      tapShift := BitVec.ofNat 32 (s.pwr.tapShift.toNat / 2 + (if tdi then 1 else 0) * 2 ^ 31) } } := by
  unfold State.opTap
  simp only [on, shifts, idcode, tapNext_shiftDr, Bool.not_true, Bool.false_eq_true, if_false, if_true,
    if_neg (show ¬ (3 = 2) by decide)] <;> rfl

/-- Settles O45: the door byte, quotes, signatures and the TAP do as their rules say. -/
theorem securityCommandsComplete : Obligations.SecurityCommandsComplete := by
  refine ⟨?opens, ?refuses, ?quote, ?sign, ?bus, ?reset, ?shift⟩
  case opens =>
    intro s lvl node b w x taken level life valid shut opens rest
    exact congrArg (done s) (State.rowWrite_taken taken
      (State.opLock_opensDebug (Fin.val_ne_of_ne level) valid life shut opens rest))
  case refuses =>
    intro s lvl node b taken _ _ there level
    subst level
    exact congrArg (done s) (State.rowWrite_taken taken (State.opLock_refuses there))
  case quote =>
    intro s v n sig taken len life signs
    exact congrArg (done s) (State.rowWrite_taken taken (State.opNonce_quotes len life signs))
  case sign =>
    intro s v x sig taken len op life signs
    exact congrArg (done s) (State.rowWrite_taken taken (State.opAttest_signs len op life signs))
  case bus =>
    intro s x taken
    exact congrArg (done s) (State.rowWrite_taken taken rfl)
  case reset =>
    intro s tms tdi on
    exact congrArg (done s) (State.opTap_resets on)
  case shift =>
    intro s tms tdi on shifts idcode
    exact congrArg (done s) (State.opTap_shifts on shifts idcode)

end Sys2Proof.Machine
end

section
/-! PROOFS. Bring-up (R434): the steps, each after the one before. -/

namespace Sys2Proof.Machine

variable {s : State} {ok : Bool}

/-- R434: a step is the next one of a main die that starts, with its firmware running. -/
structure NextStep (s : State) (k : Nat) : Prop where
  fw     : s.pwr.fw = true
  starts : s.field.mainSt = 1
  next   : s.pwr.step + 1 = k

theorem NextStep.goes {k : Nat} (due : NextStep s k) :
    ¬ (!s.pwr.fw || s.field.mainSt ≠ 1 || s.pwr.step + 1 ≠ k) = true := by
  rw [due.fw, due.starts, due.next]
  simp

/-- R434 step 2: HBM is trained where it is not off by its object, trains, and its three domains are asked for. -/
theorem State.bringUp2_eq : s.bringUp2 ok = (
    let req := BitVec.ofNat 96 (s.objNat 0x2010 1)
    if s.objBool 0x2000 3 = false ∧ ok = true ∧ req.getLsbD 6 = true ∧ req.getLsbD 7 = true ∧ req.getLsbD 8 = true then
      let w := ((s.powerOn 8).powerOn 6).powerOn 7
      { w with mem := { w.mem with trained := true } }
    else { s with mem := { s.mem with reduced := true } }.setReg (QIM + 0x050) 16384) := by
  refine if_congr ?_ rfl rfl
  simp only [Bool.and_eq_true, Bool.not_eq_true', and_assoc]

/-- R434 step 7: a service is started that starts by itself, on an owned device. -/
theorem startsItself_iff {n : Nat} : (s.objBool (0x2100 + n) 3 && s.field.life = 2) = true ↔
    s.objBool (0x2100 + n) 3 = true ∧ s.field.life = 2 := by
  rw [Bool.and_eq_true, decide_eq_true_eq]

theorem State.startServices_eq : (List.range 8).foldl (fun (w : State) n =>
      if w.objBool (0x2100 + n) 3 && w.field.life = 2 then (w.startChecked n).2 else w) s =
    (List.range 8).foldl (fun (w : State) n =>
      if w.objBool (0x2100 + n) 3 = true ∧ w.field.life = 2 then (w.startChecked n).2 else w) s := by
  simp only [startsItself_iff]

theorem foldl_eq_of_forall_mem {α β : Type} {f : α → β → α} {a : α} {l : List β} (h : ∀ b ∈ l, f a b = a) :
    l.foldl f a = a := by
  induction l with
  | nil => rfl
  | cons b l ih => rw [List.foldl_cons, h b List.mem_cons_self, ih (fun c hc => h c (List.mem_cons_of_mem b hc))]

/-- Settles O48: each step does what the rule says of it. -/
theorem bringUpCompletes : Obligations.BringUpCompletes := by
  intro s dt k ok u v fw starts next
  have goes := NextStep.goes ⟨fw, starts, next⟩
  have runs {t : State} (does : _ = t) : exec (.bringUp dt k ok) s = done s t := congrArg (done s) ((if_neg goes).trans does)
  refine ⟨?avs, ?hbm, ?domains, ?objects, ?cores, ?run, ?none_, ?services, ?ready⟩
  case avs =>
    rintro rfl
    exact runs rfl
  case hbm =>
    rintro rfl
    exact runs State.bringUp2_eq
  case domains =>
    rintro rfl
    exact runs rfl
  case objects =>
    rintro rfl
    exact runs rfl
  case cores =>
    rintro rfl
    exact runs rfl
  case run =>
    rintro rfl
    exact runs rfl
  case none_ =>
    rintro rfl alone
    refine runs (foldl_eq_of_forall_mem (fun n valid => if_neg ?_))
    rw [startsItself_iff, alone n (List.mem_range.1 valid)]
    exact fun both => nomatch both.1
  case services =>
    rintro rfl
    exact runs State.startServices_eq
  case ready =>
    rintro rfl
    exact runs rfl

end Sys2Proof.Machine
end

section
/-! PROOFS. Power (R423, R424, R426 to R430, R437): domains, supplies, temperatures, the core voltage and the flash. -/

namespace Sys2Proof.Machine

variable {s : State} {lvl : Nat} {v : BitVec 96}

/-! R426, R427: domains. -/

/-- R426, R427: the domains that a write of 2010h.01 asks to be powered off, and those that it leaves without a parent or
a use. -/
def State.domainsOff (s : State) (v : BitVec 96) : List Nat :=
  domainOrder.filter (fun d => (BitVec.ofNat 96 (s.objNat 0x2010 1)).getLsbD d && !v.getLsbD d && s.powered d &&
      !fixedDomains.contains d && !(6 ≤ d && d ≤ 8) && d ≠ 94) ++
    domainOrder.filter (fun d => s.powered d && !(s.target v (s.powered 8)).getLsbD d)

theorem State.mem_domainsOff {d : Nat} (off : d ∈ s.domainsOff v) : d ∈ domainOrder ∧ s.powered d = true ∧
    ((s.target v (s.powered 8)).getLsbD d = false ∨ (BitVec.ofNat 96 (s.objNat 0x2010 1)).getLsbD d = true ∧
      v.getLsbD d = false ∧ d ∉ fixedDomains ∧ (d < 6 ∨ 8 < d) ∧ d ≠ 94) := by
  rcases List.mem_append.1 off with asked | lost
  · obtain ⟨there, asked⟩ := List.mem_filter.1 asked
    simp only [Bool.and_eq_true, Bool.not_eq_true', Bool.and_eq_false_iff, decide_eq_true_eq, decide_eq_false_iff_not,
      List.contains_eq_mem, Nat.not_le] at asked
    obtain ⟨⟨⟨⟨⟨old, new⟩, on⟩, free⟩, hbm⟩, jtag⟩ := asked
    exact ⟨there, on, .inr ⟨old, new, free, hbm, jtag⟩⟩
  · obtain ⟨there, lost⟩ := List.mem_filter.1 lost
    simp only [Bool.and_eq_true, Bool.not_eq_true'] at lost
    exact ⟨there, lost.1, .inl lost.2⟩

theorem State.opDomains_keeps (level : lvl ≠ 0) (idle : s.running = false) :
    s.opDomains lvl v = (0, s.setObj 0x2010 1 (beBytes 12 v.toNat)) :=
  (if_neg (Nat.not_lt.2 (Nat.pos_of_ne_zero level))).trans (if_pos (by rw [idle]; decide))

theorem State.opDomains_asks (level : lvl ≠ 0) (runs : s.running = true)
    (may : ∀ d ∈ s.domainsOff v, s.mayRemove (s.target v (s.powered 8)) d = true) :
    s.opDomains lvl v =
      (0, (s.setObj 0x2010 1 (beBytes 12 v.toNat)).gloveSend .field 0x40 (powerPayload 0 v.toNat)) := by
  have goes : ¬ (s.domainsOff v).any (fun d => !s.mayRemove (s.target v (s.powered 8)) d) = true := by
    rw [List.any_eq_true]
    rintro ⟨d, off, stays⟩
    rw [may d off] at stays
    exact nomatch stays
  exact (if_neg (Nat.not_lt.2 (Nat.pos_of_ne_zero level))).trans
    ((if_neg (by rw [runs]; decide)).trans (if_neg goes))

/-! R424, R430: supplies and the thermal trip. -/

theorem State.dropAsked_up (s : State) : s.dropAsked.field.up = s.field.up := by
  refine List.foldlRecOn (motive := fun t : State => t.field.up = s.field.up) s.field.asked _ rfl fun t kept q _ => ?_
  obtain ⟨x, c, sent⟩ := t.busSend_field 0x06 q.hdr.src q.hdr.tid q.hdr.session
    (beBytes 2 (beAt q.data 0 2) ++ beBytes 1 (beAt q.data 2 1) ++ [0] ++ beBytes 2 7) q.hdr.sent
  exact (congrArg Field.up sent).trans kept

/-- R433: the field side runs on through a reset of the main die. -/
theorem State.mainReset_up (s : State) : s.mainReset.field.up = s.field.up := State.dropAsked_up s.mbxMainReset

theorem State.opPowerOn_starts (off : s.pwr.por = false) : s.opPowerOn =
    let v := { s with pwr := { s.pwr with por := true, tripped := false } }.mainReset
    let w : State := { v with field := { v.field with offCmd := false } }
    if w.field.up = true ∧ w.field.recovery = false ∧ w.field.life ≠ 3 then w.beginMain else w := by
  refine (if_neg (by rw [off]; decide)).trans (if_congr ?_ rfl rfl)
  rw [Bool.and_eq_true, Bool.and_eq_true, Bool.not_eq_true', decide_eq_true_eq, and_assoc]

theorem State.opSupply_drops {rail : Nat} (on : s.pwr.por = true) (up : s.field.up = true) : s.opSupply rail =
    let v := { s with pwr := { s.pwr with por := false } }.mainReset
    { v with field := { v.field with mainSt := 3 } }.fieldEvent 0xD 15 0 [BitVec.ofNat 8 rail] := by
  have still : ({ s with pwr := { s.pwr with por := false } } : State).mainReset.field.up = true :=
    (State.mainReset_up _).trans up
  exact (if_neg (by rw [on]; decide)).trans (if_pos still)

theorem State.opTrip_trips {sensor : Nat} {x : Int} (on : s.pwr.por = true) (cool : s.pwr.tripped = false)
    (hot : 1250 ≤ x) (up : s.field.up = true) : s.opTrip sensor x =
    let v := s.mainOff
    { v with pwr := { v.pwr with tripped := true }, field := { v.field with trips := v.field.trips + 1 } }.fieldEvent
      0xC 15 0 [BitVec.ofNat 8 sensor] := by
  have goes : ¬ (!s.pwr.por || s.pwr.tripped || decide (x < 1250)) = true := by
    rw [on, cool, decide_eq_false (Int.not_lt.2 hot)]
    decide
  have still : s.mainOff.field.up = true := (State.mainReset_up s).trans up
  exact (if_neg goes).trans (if_pos still)

/-! R428, R429: temperatures. -/

theorem warnOf_cool {was : Bool} {warm x : Int} (cool : x < warm) :
    warnOf was warm x = (false, was && decide (warm - 50 < x)) := by
  unfold warnOf
  rw [decide_eq_false (Int.not_le.2 cool)]
  rfl

theorem State.opTelemetry_cool {m h f : Int} {c : Word} (taken : s.objTaken = true)
    (late : s.due s.field.sampleAt (msec (s.objNat 0xF020 6)) = true) (main : m < 10 * (s.objNat 0xF020 7 : Int))
    (hbm : h < 10 * (s.objNat 0xF020 7 : Int)) : s.opTelemetry m h f c = { s with field := { s.field with
      tempMain := m, tempHbm := h, tempField := f, sampleAt := s.clock, volt := s.pwr.setpoint
      current := if s.pwr.avsThere then c else 0
      warned := s.field.warned && decide (10 * (s.objNat 0xF020 7 : Int) - 50 < m)
      warnedHbm := s.field.warnedHbm && decide (10 * (s.objNat 0xF020 7 : Int) - 50 < h) } } := by
  obtain ⟨up, serves⟩ : s.field.up = true ∧ s.field.recovery = false := by simpa [State.objTaken] using taken
  have goes : ¬ (!s.field.up || s.field.recovery || !s.due s.field.sampleAt (msec (s.objNat 0xF020 6))) = true := by
    rw [up, serves, late]
    decide
  refine (if_neg goes).trans ?_
  dsimp only
  rw [warnOf_cool main, warnOf_cool hbm]
  rfl

/-! R423, R437: the core voltage and the flash. -/

theorem State.opAvs_steps {x : Int} (on : s.pwr.por = true) (avs : s.pwr.avsThere = true)
    (late : s.due s.pwr.stepAt (msec 1) = true) : s.opAvs x =
    let g := max 650 (min 850 (Config.vddCurve x))
    let n := if s.pwr.setpoint ≤ g then min g (s.pwr.setpoint + 10) else max g (s.pwr.setpoint - 10)
    { s with pwr := { s.pwr with setpoint := n, stepAt := s.clock } } :=
  if_neg (by rw [on, avs, late]; decide)

theorem State.opWear_moves {sector : Nat} (up : s.field.up = true) : s.opWear sector false =
    { s with field := { s.field with rotated := Map.upd s.field.rotated sector 0 (· + 1) } } :=
  if_neg (by rw [up]; decide)

/-- Settles O49: each command leaves what its rule says. -/
theorem powerCommandsComplete : Obligations.PowerCommandsComplete := by
  refine ⟨?domains, ?on, ?supply, ?trip, ?telemetry, ?avs, ?wear⟩
  case domains =>
    intro s dt lvl v u w old stay taken level
    have level := Fin.val_ne_of_ne level
    refine ⟨fun idle => congrArg (done s) (State.rowWrite_taken taken (State.opDomains_keeps level idle)),
      fun runs may => congrArg (done s) (State.rowWrite_taken taken (State.opDomains_asks level runs fun d off => ?_))⟩
    obtain ⟨there, powered, goes⟩ := State.mem_domainsOff off
    exact may d there powered goes
  case on =>
    intro s dt u v w off
    exact congrArg (done s) (State.opPowerOn_starts off)
  case supply =>
    intro s dt rail u v on up
    exact congrArg (done s) (State.opSupply_drops on up)
  case trip =>
    intro s dt sensor x u v on cool hot up
    exact congrArg (done s) (State.opTrip_trips on cool hot up)
  case telemetry =>
    intro s dt m h f c u taken late cool
    obtain ⟨main, hbm⟩ := max_lt_iff.1 cool
    refine .of_op (congrArg (done s) (State.opTelemetry_cool taken late main hbm)) ?_
    rw [State.ended_field]
    exact ⟨rfl, rfl, rfl, rfl, rfl, rfl, rfl⟩
  case avs =>
    intro s dt x u g on avs late
    refine .of_op (congrArg (done s) (State.opAvs_steps on avs late)) ?_
    rw [State.ended_pwr]
    exact ⟨rfl, rfl⟩
  case wear =>
    intro s sector up
    exact congrArg (done s) (State.opWear_moves up)

end Sys2Proof.Machine
end
